-- ==== Sys2Proof/Word.lean ====
section
/-!
DEFINITION. The plain types of the model's operands: bytes, words, the sparse tables, the messages and frames a
command carries. Arithmetic on them is in the files under Machine.
-/

namespace Sys2Proof

/-- One byte. -/
abbrev Byte := BitVec 8

/-- One 32-bit word (R8: little-endian wherever it is stored). -/
abbrev Word := BitVec 32

/-- One 32-byte record: an operation record (R92), an operand record (R221) or a Mover descriptor (R151). -/
abbrev Rec := BitVec 256

/-- One 64-byte tensor descriptor (R122). -/
abbrev DescBits := BitVec 512

/-- A sparse table: keys rising, a key not listed reads as the table's default. -/
abbrev Tab (α : Type) := List (Nat × α)

/-- The three Mover placements of Table MOV-1 (R146). -/
inductive MoverId where
  | square (q : Nat)
  | host
  | link (l : Nat)
  deriving DecidableEq, Repr

/-- A message on the Board fabric: a semaphore post (R106, R109), a reset of Table SQP-6 step 4 (R113) or its
acknowledgement. `src` is the sender's partition (R27), `fromSquare` the Square whose port it left (R26). -/
inductive FabricMsg where
  | post (src square entry : Nat) (sem : Bool) (count epoch fromSquare : Nat)
  | reset (src square entry epoch fromSquare fromEntry : Nat)
  | resetAck (src square entry epoch fromSquare : Nat)
  deriving DecidableEq, Repr

/-- The port that a message left and the port it goes to: between them it has one route (R26; log 32). -/
def FabricMsg.route : FabricMsg → Nat × Nat
  | .post _ square _ _ _ _ fromSquare => (fromSquare, square)
  | .reset _ square _ _ fromSquare _ => (fromSquare, square)
  | .resetAck _ square _ _ fromSquare => (fromSquare, square)

/-- A Table message payload (Table TTB-5, R80). `rsv` is every reserved bit of the payload as one number. -/
structure TableMsg where
  tableId : Nat
  kind : Nat
  rsv : Nat
  cause : Nat
  seat : Nat
  stamp : Nat
  arg : Nat
  deriving DecidableEq, Repr

/-- A gate message (Table STP-2, R276), 32 bytes as one number. -/
abbrev GateMsg := BitVec 256

/-- A carrier of Ulyan frames: the management port with the peer's number, or a tunnel channel (R372, R401). -/
inductive Carrier where
  | mgmt (peer : Nat)
  | tunnel (ch : Nat)
  deriving DecidableEq, Repr

/-- A Ulyan frame from the host (Table ULY-1, R404). `rsv` is every reserved bit of the header as one number.
`session` names the session whose key is tried: 0 Operator, 1 Service, 2 + p Tenant of partition p. `reversed` says that a
management pair brought it with its polarity reversed (R403). -/
structure Req where
  carrier : Carrier
  reversed : Bool := false
  version : Nat
  sealed : Bool
  rsv : Nat
  session : Nat
  requestId : Nat
  sequence : Nat
  index : Nat
  sub : Nat
  length : Nat
  code : Nat
  payload : List Byte
  tag : BitVec 128
  deriving DecidableEq, Repr

/-- A link or Aslet frame as received: its codewords, each a list of 10-bit symbols (R336, R362). -/
abbrev RawFrame := List (List Nat)

/-- What training found about the lanes of one link direction or of Aslet: lanes that work, and the shorts the DC
test found (R331, R332, R360). -/
structure LaneReport where
  working : List Nat
  grounded : List Nat
  shorted : List Nat
  deriving DecidableEq, Repr

/-- The outcome of the peer's side of training: the version it offers, whether its chain and signature verify, its
serial and link number and the round trip measured (R334, R335, R358). -/
structure PeerReport where
  version : Nat
  chainOk : Bool
  signatureOk : Bool
  serial : Nat
  link : Nat
  roundTrip : Nat
  deriving DecidableEq, Repr

/-- What a request at a bandwidth regulator is for (Table MEM-3): a read or write burst within one chunk of a stack, with its
sectors and those that it writes in part, or bytes of link traffic passed through the die in one burst. -/
inductive Traffic where
  | stack (st sectors partly : Nat)
  | link (bytes : Nat)
  deriving DecidableEq, Repr

/-- A request at a bandwidth regulator (R315): the partition (16 management, 17 maintenance), what it is for, and the Mover
channel that waits for it (R162). -/
structure TokenReq where
  who : Nat
  traffic : Traffic
  channel : Option (MoverId × Nat) := none
  deriving DecidableEq, Repr

end Sys2Proof
end

