-- ==== Sys2Proof/Syntax.lean ====
section
/-!
DEFINITION. The commands of the block: one constructor for each row of spec/opcode_table.json, with its operands.
q is a Square, pl a Player, op the number of an operation in flight, m and ch a Mover and its channel, p a partition,
l a chain link, g a link group, st a stack, r a Ulyan frame.
-/

namespace Sys2Proof

/-- The steps of spec/opcode_table.json, each whole and indivisible (95_what_each_step_holds). -/
inductive Instr where
  /-- SEM_WAIT (R96). -/
  | semWait (q pl : Nat)
  /-- SEM_POST (R96). -/
  | semPost (q pl : Nat)
  /-- SLOT_WAIT (R96). -/
  | slotWait (q pl : Nat)
  /-- FENCE (R96). -/
  | fence (q pl : Nat)
  /-- PLAYER_START (R96). -/
  | playerStart (q pl : Nat)
  /-- TURN_END (R96). -/
  | turnEnd (q pl : Nat)
  /-- LINK_CANCEL (R113). -/
  | linkCancel (q pl : Nat)
  /-- LOOP (R97). -/
  | loop (q pl : Nat)
  /-- SET_INDEX (R96). -/
  | setIndex (q pl : Nat)
  /-- SEGMENT_END_WITHOUT_TURN_END (R98). -/
  | segmentEndWithoutTurnEnd (q pl : Nat)
  /-- OPERATION_COMPLETE (R99). -/
  | operationComplete (q op : Nat)
  /-- SCOREBOARD_SLOT_ACCESS (R200). -/
  | scoreboardSlotAccess (q op : Nat)
  /-- MATMUL (R169). -/
  | matmul (q pl : Nat)
  /-- MATMUL_DRAIN (R170). -/
  | matmulDrain (q op : Nat)
  /-- PACKING_CHANGE (R180). -/
  | packingChange (q : Nat)
  /-- ARRAY_CONFIG (R186). -/
  | arrayConfig (q pl : Nat)
  /-- ACC_LOAD (R203). -/
  | accLoad (q pl : Nat)
  /-- ACC_STORE (R204). -/
  | accStore (q pl : Nat)
  /-- ACC_COMBINE (R206). -/
  | accCombine (q pl : Nat)
  /-- VECTOR_QUEUE_START (R216). -/
  | vectorQueueStart (q : Nat)
  /-- VSET_LENGTH (R219). -/
  | vsetLength (q pl : Nat)
  /-- VRUN (R221). -/
  | vrun (q pl : Nat)
  /-- MASK_OP (R233). -/
  | maskOp (q pl : Nat)
  /-- VREDUCE (R235). -/
  | vreduce (q pl : Nat)
  /-- VSCAN (R238). -/
  | vscan (q pl : Nat)
  /-- LUT_LOAD (R241). -/
  | lutLoad (q pl : Nat)
  /-- LUT_SWAP (R242). -/
  | lutSwap (q pl : Nat)
  /-- VBLOCK (R243). -/
  | vblock (q pl : Nat)
  /-- SMAX (R256). -/
  | smax (q pl : Nat)
  /-- ROW_STATS (R263). -/
  | rowStats (q pl : Nat)
  /-- MOVER_START (R158). -/
  | moverStart (q pl : Nat)
  /-- MOVER_ABORT (R164). -/
  | moverAbort (q pl : Nat)
  /-- MOVER_CANCEL (R166). -/
  | moverCancel (q pl : Nat)
  /-- DESCRIPTOR_CURRENT (R153). -/
  | descriptorCurrent (m : MoverId) (ch : Nat)
  /-- PACING_MET (R160). -/
  | pacingMet (m : MoverId) (ch : Nat)
  /-- MOVER_BURST (R149). -/
  | moverBurst (m : MoverId) (ch : Nat)
  /-- DESCRIPTOR_COMPLETE (R161). -/
  | descriptorComplete (m : MoverId) (ch : Nat)
  /-- MOVER_ABORT_END (R164). -/
  | moverAbortEnd (m : MoverId) (ch : Nat)
  /-- MOVER_CANCEL_END (R166). -/
  | moverCancelEnd (m : MoverId) (ch : Nat)
  /-- SEMAPHORE_POST_MESSAGE (R106). -/
  | semaphorePostMessage (msg : FabricMsg)
  /-- LINK_CANCEL_CHANNELS_REPORTED (R113). -/
  | linkCancelChannelsReported (q entry : Nat)
  /-- LINK_RESET_MESSAGE (R114). -/
  | linkResetMessage (msg : FabricMsg)
  /-- LINK_RESET_ACKNOWLEDGED (R113). -/
  | linkResetAcknowledged (msg : FabricMsg)
  /-- STALEMATE_TIMEOUT (R118). -/
  | stalemateTimeout (p : Nat)
  /-- TURN_BOUNDARY (R66). -/
  | turnBoundary (p : Nat)
  /-- TRANSFER_REPEAT (R351). -/
  | transferRepeat (m : MoverId) (ch : Nat)
  /-- LATE_WORK_END (R74). -/
  | lateWorkEnd (p : Nat)
  /-- OVERRUN_TIMEOUT (R74). -/
  | overrunTimeout (p : Nat)
  /-- JOIN_RECEIVED (R60). -/
  | joinReceived (l : Nat)
  /-- START_RECEIVED (R61). -/
  | startReceived (l : Nat)
  /-- TABLE_START_INSTANT (R61). -/
  | tableStartInstant (p : Nat)
  /-- HOLD_RECEIVED (R77). -/
  | holdReceived (l : Nat)
  /-- RELEASE_RECEIVED (R79). -/
  | releaseReceived (l : Nat)
  /-- TABLE_RESUME (R79). -/
  | tableResume (p : Nat)
  /-- TURN_MARK_RECEIVED (R65). -/
  | turnMarkReceived (l : Nat)
  /-- LENGTH_RECEIVED (R86). -/
  | lengthReceived (l : Nat)
  /-- TIME_SOURCE_LOST (R65). -/
  | timeSourceLost
  /-- LOAD (R83). -/
  | load (r : Req)
  /-- ARM (R503). -/
  | arm (r : Req)
  /-- RUN (R61). -/
  | run (r : Req)
  /-- HOLD (R421). -/
  | hold (r : Req)
  /-- RELEASE (R421). -/
  | release (r : Req)
  /-- STOP (R421). -/
  | stop (r : Req)
  /-- UNLOAD (R421). -/
  | unload (r : Req)
  /-- GATE_VOTE (R275). -/
  | gateVote (p : Nat)
  /-- GATE_VOTE_RECEIVED (R276). -/
  | gateVoteReceived (p : Nat)
  /-- GATE_DECISION_RECEIVED (R277). -/
  | gateDecisionReceived (p : Nat)
  /-- GATE_STUCK_WRITE (R280). -/
  | gateStuckWrite (r : Req)
  /-- STEP_COUNTER_WRITE (R282). -/
  | stepCounterWrite (r : Req)
  /-- RESTORE_NEEDED_WRITE (R286). -/
  | restoreNeededWrite (r : Req)
  /-- MEMORY_READ (R304). -/
  | memoryRead (owner pa : Nat) (upset : BitVec 580)
  /-- MEMORY_WRITE (R305). -/
  | memoryWrite (owner pa : Nat) (bytes : List Byte) (upset : BitVec 580)
  /-- REGULATOR_ADMIT (R315). -/
  | regulatorAdmit (die : Nat) (t : TokenReq)
  /-- REFRESH (R318). -/
  | refresh (st ch : Nat)
  /-- STACK_TEMPERATURE_SAMPLE (R458). -/
  | stackTemperatureSample (st : Nat) (reading : Word)
  /-- PATROL_SCRUB (R323). -/
  | patrolScrub (st ch sector : Nat) (upset : BitVec 580)
  /-- PAGE_INITIALISATION (R309). -/
  | pageInitialisation (p page : Nat)
  /-- MIGRATE_REQUEST (R324). -/
  | migrateRequest (r : Req)
  /-- MIGRATION_SPARE_TRAINED (R326). -/
  | migrationSpareTrained (die : Nat)
  /-- MIGRATION_COPY_COMPLETE (R326). -/
  | migrationCopyComplete (die : Nat)
  /-- MIGRATION_SWITCH (R326). -/
  | migrationSwitch (die : Nat)
  /-- MIGRATION_OLD_CHANNEL_TEST (R326). -/
  | migrationOldChannelTest (die : Nat) (passed : Bool)
  /-- MIGRATION_SWITCH_TIMEOUT (R327). -/
  | migrationSwitchTimeout (die : Nat)
  /-- MIGRATION_RETRY (R327). -/
  | migrationRetry (die : Nat)
  /-- LINK_TRAINING (R331). -/
  | linkTraining (l : Nat) (rx tx : LaneReport) (peer : PeerReport)
  /-- LINK_FRAME_RECEIVED (R339). -/
  | linkFrameReceived (l : Nat) (frame : RawFrame)
  /-- LINK_ACK_TIMEOUT (R339). -/
  | linkAckTimeout (l : Nat)
  /-- LINK_WRITE (R344). -/
  | linkWrite (l : Nat)
  /-- LINK_READ (R342). -/
  | linkRead (l : Nat)
  /-- LINK_READ_RESP (R344). -/
  | linkReadResp (l : Nat)
  /-- LINK_WRITE_ACK (R344). -/
  | linkWriteAck (l : Nat)
  /-- LINK_PARTIAL (R347). -/
  | linkPartial (l : Nat)
  /-- GRAD_SIGN (R347). -/
  | gradSign (l : Nat)
  /-- GRAD_TOPK (R347). -/
  | gradTopk (l : Nat)
  /-- LINK_SEM_POST (R345). -/
  | linkSemPost (l : Nat)
  /-- LINK_RESET (R345). -/
  | linkReset (l : Nat)
  /-- LINK_RESET_ACK (R345). -/
  | linkResetAck (l : Nat)
  /-- GATE_TRANSACTION (R276). -/
  | gateTransaction (l : Nat)
  /-- ORDERED (R346). -/
  | ordered (l : Nat)
  /-- ROUTE_FORWARD (R348). -/
  | routeForward (l : Nat)
  /-- HELLO (R334). -/
  | hello (l : Nat)
  /-- IDENTITY (R335). -/
  | identity (l : Nat)
  /-- KEYSHARE (R343). -/
  | keyshare (l : Nat)
  /-- TIME (R358). -/
  | time (l : Nat)
  /-- TIME_SEND (R358). -/
  | timeSend (l : Nat)
  /-- SWAP_REQ (R353). -/
  | swapReq (l : Nat)
  /-- SWAP_AT (R353). -/
  | swapAt (l : Nat)
  /-- LANE_LOST (R354). -/
  | laneLost (l : Nat)
  /-- ASSIGN (R333). -/
  | assign (l : Nat)
  /-- LANE_SWAP_THRESHOLD (R353). -/
  | laneSwapThreshold (l lane : Nat)
  /-- LANE_SPARE_ADAPTED (R353). -/
  | laneSpareAdapted (l : Nat)
  /-- LANE_LOSS_OF_LOCK (R354). -/
  | laneLossOfLock (l lane : Nat)
  /-- RETRAIN_REQUEST (R355). -/
  | retrainRequest (r : Req)
  /-- TRAIN_WINDOW_OPEN (R349). -/
  | trainWindowOpen (l : Nat)
  /-- CABLE_PRESENT (R490). -/
  | cablePresent (g : Nat)
  /-- CABLE_REMOVED (R490). -/
  | cableRemoved (g : Nat)
  /-- MANAGEMENT_BEACON_CONFLICT (R401). -/
  | managementBeaconConflict
  /-- ASLET_TRAINING (R361). -/
  | asletTraining (lanes : LaneReport) (peerVersion : Nat)
  /-- ASLET_FRAME_RECEIVED (R363). -/
  | asletFrameReceived (frame : RawFrame)
  /-- ASLET_ACK_TIMEOUT (R363). -/
  | asletAckTimeout
  /-- ASLET_HOST_WRITE (R364). -/
  | asletHostWrite
  /-- ASLET_READ (R365). -/
  | asletRead
  /-- ASLET_READ_RESP (R364). -/
  | asletReadResp
  /-- ASLET_WRITE_ACK (R364). -/
  | asletWriteAck
  /-- MESSAGE (R372). -/
  | message
  /-- CREDIT (R372). -/
  | credit
  /-- WIDTH (R361). -/
  | width
  /-- ASLET_HELLO (R376). -/
  | asletHello
  /-- SLEEP_REQ (R374). -/
  | sleepReq
  /-- SLEEP_ACK (R374). -/
  | sleepAck
  /-- WAKE_BURST (R375). -/
  | wakeBurst
  /-- PLACE (R373). -/
  | place (r : Req)
  /-- PLACE_COMPLETE (R373). -/
  | placeComplete (p : Nat) (ok : Bool)
  /-- CLIENT_HELLO (R384). -/
  | clientHello (r : Req)
  /-- CLIENT_FINISH (R384). -/
  | clientFinish (r : Req) (chainBytes signatureBytes : Nat)
  /-- HANDSHAKE_TIMEOUT (R384). -/
  | handshakeTimeout (c : Carrier)
  /-- REPORT_REQUEST (R387). -/
  | reportRequest (r : Req)
  /-- WRAPPED_KEY (R391). -/
  | wrappedKey (r : Req)
  /-- DELIVER (R392). -/
  | deliver (r : Req)
  /-- DELIVERY_COMPLETE (R392). -/
  | deliveryComplete (p : Nat) (ok : Bool)
  /-- ROTATE_REQUEST (R396). -/
  | rotateRequest (r : Option Req) (p : Nat)
  /-- ROTATION_DIES_CONFIRMED (R396). -/
  | rotationDiesConfirmed (p : Nat)
  /-- ROTATION_SWEEP_DONE (R396). -/
  | rotationSweepDone (p : Nat) (unreadable : List (Nat × Bool))
  /-- ENTROPY_FAILURE (R380). -/
  | entropyFailure
  /-- READ_REQ (R410). -/
  | readReq (r : Req)
  /-- WRITE_REQ (R410). -/
  | writeReq (r : Req)
  /-- SEG_START (R410). -/
  | segStart (r : Req)
  /-- SEG_DATA (R410). -/
  | segData (r : Req)
  /-- SEG_ACK (R410). -/
  | segAck (r : Req)
  /-- SEG_CANCEL (R411). -/
  | segCancel (r : Req)
  /-- SEGMENT_RESEND_TIMEOUT (R410). -/
  | segmentResendTimeout (sess : Nat)
  /-- SEGMENT_TRANSFER_ABANDON (R410). -/
  | segmentTransferAbandon (sess : Nat)
  /-- EVENT_ACK (R414). -/
  | eventAck (r : Req)
  /-- EVENT_RESEND (R414). -/
  | eventResend (sess : Nat)
  /-- CLOSE (R386). -/
  | close (r : Req)
  /-- CHECK (R417). -/
  | check (r : Req)
  /-- CHECK_DISCARD (R416). -/
  | checkDiscard (r : Req)
  /-- COMMIT (R419). -/
  | commit (r : Req)
  /-- COMMIT_APPLY (R419). -/
  | commitApply (sess : Nat)
  /-- FLAG_CLEAR (R422). -/
  | flagClear (r : Req)
  /-- COUNTER_CLEAR (R423). -/
  | counterClear (r : Req)
  /-- POWER_ACTIVE (R451). -/
  | powerActive (r : Req)
  /-- POWER_STANDBY (R451). -/
  | powerStandby (r : Req)
  /-- POWER_SLEEP (R453). -/
  | powerSleep (r : Req)
  /-- PAD_RELEASE (R455). -/
  | padRelease (r : Req)
  /-- WAKE_SOURCE (R456). -/
  | wakeSource (source : Nat)
  /-- INPUT_VALID (R444). -/
  | inputValid (volts : Word)
  /-- INPUT_LOW (R444). -/
  | inputLow
  /-- INPUT_LOST (R444). -/
  | inputLost
  /-- INPUT_OVERVOLTAGE (R444). -/
  | inputOvervoltage (volts : Word) (lasted : Nat)
  /-- INPUT_REVERSED (R444). -/
  | inputReversed
  /-- POWER_LIMIT (R445). -/
  | powerLimit (watts : Word)
  /-- POWER_LIMIT_END (R445). -/
  | powerLimitEnd (watts : Word)
  /-- RAIL_SHUTDOWN (R447). -/
  | railShutdown (rail : Nat)
  /-- AON_BROWNOUT (R454). -/
  | aonBrownout
  /-- JUNCTION_TEMPERATURE_SAMPLE (R458). -/
  | junctionTemperatureSample (die : Nat) (reading : Word)
  /-- COOLANT_INLET_HIGH (R464). -/
  | coolantInletHigh (reading : Word)
  /-- COOLANT_FLOW_LOW (R464). -/
  | coolantFlowLow (outlet power : Word)
  /-- FIRMWARE_VERIFIED (R467). -/
  | firmwareVerified (passA passB : Bool)
  /-- SELF_TEST_REQUEST (R470). -/
  | selfTestRequest (r : Req)
  /-- SELF_TEST_END (R470). -/
  | selfTestEnd (failures : List (Nat × Nat))
  /-- STAGE_IMAGE (R474). -/
  | stageImage (r : Req) (signatureOk : Bool) (maxima : List Nat)
  /-- ACTIVATE (R475). -/
  | activate (r : Req)
  /-- ACTIVATION_HELD (R475). -/
  | activationHeld (verified : Bool)
  /-- ACTIVATION_TIMEOUT (R476). -/
  | activationTimeout
  /-- SQUARE_MIGRATION_TRIGGER (R478). -/
  | squareMigrationTrigger (q : Nat) (passed : Bool)
  /-- SQUARE_MIGRATION_TEST_PASSED (R478). -/
  | squareMigrationTestPassed (die : Nat)
  /-- SQUARE_MIGRATION_COPY (R478). -/
  | squareMigrationCopy (die : Nat) (uncorrectable : Bool)
  /-- ARRAY_TEST_REQUEST (R193). -/
  | arrayTestRequest (r : Req) (rows cols : List Nat)
  /-- ARRAY_REPAIR_REQUEST (R194). -/
  | arrayRepairRequest (r : Req) (rows cols : List Nat)
  /-- UNDEFINED_OPCODE (R93). -/
  | undefinedOpcode (q pl : Nat)
  /-- MEMORY_TRAINING_COMPLETE (R467). -/
  | memoryTrainingComplete (failing : List (Nat × Nat))
  /-- TIME_SOURCE_RESTORED (R65). -/
  | timeSourceRestored
  /-- PLANNED_RETRAIN_TIMEOUT (R355). -/
  | plannedRetrainTimeout (l : Nat)
  deriving DecidableEq, Repr

end Sys2Proof
end

