-- ==== Sys2Proof/Decode.lean ====
section
/-!
DEFINITION. The commands that words of spec/opcode_table.json spell. No row of the table gives bits (the block's steps
arise from its state and its inputs, R1), so no word spells a command.
-/

namespace Sys2Proof

/-- The command a word of `nbits` bits spells: none, since the table gives no row any bits. -/
def decodeTableWord (_nbits _w : Nat) : Option Instr := none

end Sys2Proof
end

