-- ==== Sys2Proof/Config.lean ====
section
/-!
DEFINITION. What a stepping or a single module fixes and the manual does not print, and the free values: constants
without a body, so that no proof can lean on a value of them. The named standards (AES, SHA-384, HKDF, ECDSA, ECDH) are
uninterpreted functions of exactly the inputs the manual gives them (log 6).
-/

namespace Sys2Proof.Config

open Sys2Proof

/-- The words of 1040:00 FunctionTable (R251): Degree, C1 to C3 and c0 to c11 of each function code. Not printed. -/
opaque funDegree : Nat → Fin 12
opaque funConst : Nat → Nat → Word
opaque funCoef : Nat → Nat → Word

/-- 1018:01 DeviceSerial (R434). -/
opaque deviceSerial : BitVec 64

/-- SHA-384 over a byte string (FIPS 180-4), as R81, R83, R383, R384, R387, R467 use it. -/
opaque sha384 : List Byte → BitVec 384

/-- HKDF-SHA-384: extract (salt, input keying material) and expand (key, info), 36 bytes (R335, R343, R385). -/
opaque hkdfExtract : List Byte → List Byte → BitVec 384
opaque hkdfExpand : BitVec 384 → List Byte → BitVec 288

/-- AES-256-GCM (R343, R368, R391, R405): the key stream byte at a position, and the tag over the additional data and the
plaintext, both of a 36-byte key with salt and a 64-bit count. -/
opaque gcmStream : BitVec 288 → Nat → Nat → Byte
opaque gcmTag : BitVec 288 → Nat → List Byte → List Byte → BitVec 128

/-- HKDF-SHA-384 expanded to a length (R388). -/
opaque hkdfLong : BitVec 384 → List Byte → Nat → List Byte

/-- ECDSA P-384 over SHA-384: the signature of a digest under a private scalar, 96 bytes (R335, R384, R387), the public key of a
scalar, and the order of P-384 (R388; the standard's constant). -/
opaque ecdsaSign : Nat → BitVec 384 → List Byte
opaque publicKey : Nat → List Byte
def curveOrder : Nat := 0xFFFFFFFFFFFFFFFFFFFFFFFFFFFFFFFFFFFFFFFFFFFFFFFFC7634D81F4372DDF581A0DB248B0A77AECEC196ACCC52973

/-- The scalars of the device identity key and of the link identity key, fused at manufacture (Table SEC-1). -/
opaque deviceIdentity : Nat
opaque linkIdentity : Nat

/-- ECDSA verification under the public key a certificate chain ends in, and whether a chain leads to an anchor (R383). -/
opaque ecdsaVerify : List Byte → BitVec 384 → List Byte → Bool
opaque chainReaches : List Byte → List Byte → Bool

/-- Certificates as DER bytes (R382): the root (1) and the product CA (2); the signed part of an identity certificate (3 device, 5 link)
by its subject serial and public key, and the product CA's signature of it; the signed part of an alias certificate by the count of
its issue, the measurement that it carries and its public key; and a certificate of a signed part and a signature. -/
opaque certificate : Nat → Nat → List Byte
opaque identityBody : Nat → BitVec 64 → List Byte → List Byte
opaque productCaSign : BitVec 384 → List Byte
opaque aliasBody : Nat → BitVec 384 → List Byte → List Byte
opaque certOf : List Byte → List Byte → List Byte

/-- 7000:07 ServiceAnchor and 7000:08 MeasurementExtensionId (R382, R383). -/
opaque serviceAnchor : Vector Byte 48
opaque measurementExtensionId : List Byte

/-- Fresh random values of the security processor (R380): nonces, ephemeral points, ephemeral secrets shared with a peer
point, by a count that the step advances. -/
opaque randomBytes : Nat → Nat → List Byte
opaque sharedSecret : Nat → List Byte → List Byte

/-- XTS-AES-256 (R393): the permutation of a 16-byte block of a data unit under a key pair and a tweak; and AES-CMAC (R394). -/
opaque xtsBlock : BitVec 512 → BitVec 128 → Nat → Equiv.Perm (BitVec 128)
opaque cmac : BitVec 256 → List Byte → BitVec 128

/-- The device memory key, fused at manufacture; the partition memory keys generated on chip, by their number: the XTS pair and
the CMAC key (Table SEC-1, R381); and what a memory-side die without a key decrypts with (R310). -/
opaque deviceMemoryKey : BitVec 256
opaque memoryKey : Nat → BitVec 768
opaque absentKey : BitVec 768

/-- FREE VALUES, by the counter State.fresh. A word that an instruction writes and the manual does not state (R238: the CarryOut of a row without a present position
and without CarryIn). -/
opaque freeWord : Nat → Nat → Word

/-- The detail of event classes whose detail no chapter gives: 0x20 (R118), and 0x40 and 0x41 of a Square's own stores
(R104, R190, R199, R247). -/
opaque openDetail : Nat → Nat

/-- FREE VALUES of the device region, by offset (R484, R504 give the areas only): whether a sector of the firmware area holds
state that an activation saved; the byte of the running firmware, by its measurement; the dictionary object and the byte of its
value that stand in the dictionary's areas; the byte of run control, by the pool, section 2 and the counters that it records. -/
opaque holdsSavedState : Nat → Bool
opaque firmwareByte : BitVec 384 → Nat → Byte
opaque dictPlace : Nat → Option ((Nat × Nat) × Nat)
opaque controlByte : List DescBits → List Rec → List Nat → Nat → Byte

/-- The class and detail of the event that ends a Book placement (R373 names none). -/
opaque placementEvent : Nat × Nat

/-- The byte layout of an event's Location and Argument, which the classes' chapters do not fix (R412). -/
opaque locationBytes : List (Nat × Nat) → BitVec 128
opaque argumentBytes : List Nat → BitVec 256

/-- The page of a partition's level-1 table within the 144 MiB of its run control: R504 gives the area only (R132). -/
opaque rootPage : Nat → Fin 2304

/-- Which of the four memory-side dies on a link's side the traffic of a partition on a link passes: the Board fabric route fixes it
(R19, R22), and no rule gives a field for it. -/
opaque passDie : Nat → Nat → Fin 4

/-- What the start of service finds at manufacture: the rows and columns that a physical Square's fuse fields disable, none for an
unused field (R191, R194). -/
opaque fuseAtManufacture : Nat → Nat → Option (Fin 130)

/-- The channels of a stack that manufacture test has spared (R301). -/
opaque sparedAtManufacture : Nat → List (Fin 64)

/-- The beats that a Square has counted by an instant (R29: the rate depends on voltage and temperature). -/
opaque beatsIn : Nat → Nat → Nat

/-- FREE VALUES. What a sensor without a command of its own reads, by object and instant (3010:02); the EventNumber field of a
record in the history 1003, which R412 numbers per session only. -/
opaque sensor : Nat → Nat → Word
opaque historyNumber : Nat → BitVec 32

/-- What an image file reports in its header (R474): its measurement's bytes and its version string. -/
opaque imageVersion : List Byte → List Byte

/-- The digest and the version of the images that a module is made with, by slot. -/
opaque imageAtManufacture : Nat → BitVec 384
opaque versionAtManufacture : Nat → List Byte

/-- The failing physical rows and columns that an array test finds where no command carries them (R193). -/
opaque arrayFound : Nat → List Nat × List Nat

/-- The measurement of the security-processor stage of an image slot's content (R467). -/
opaque stageMeasurement : BitVec 384 → BitVec 384

/-- The public point of an ephemeral key pair by its number, the signature of a digest under the link identity key, and its
verification under a peer's link identity, by the peer's serial and link number (R335, R343). -/
opaque publicPoint : Nat → List Byte
def linkSign (d : BitVec 384) : List Byte := ecdsaSign linkIdentity d
opaque linkVerify : Nat → Nat → BitVec 384 → List Byte → Bool

/-- What the peer of a link drew in a training, by the training's number (R335): its nonce and its ephemeral public point; and
the serial and link number that a link certificate names (R382 gives no layout). -/
opaque peerNonce : Nat → List Byte
opaque peerPoint : Nat → List Byte
opaque certSubject : List Byte → Nat × Nat

/-- Where the trailer array begins in a bounce area of a length for records of a size (R368 gives it no place). -/
opaque trailerOffset : Nat → Nat → Nat

/-- Of the compressed form that a transfer's descriptor sends: the elements and the size of the blocks of a sign form, where the list of
a top-k form goes at the destination, and the Inline bytes after Length of a form that is in neither layout. No rule says where a sending
chain takes them from (R347). -/
opaque signCount : Nat → Nat → Nat
opaque signLog : Nat → Nat → Fin 9
opaque topkList : Nat → Nat → Nat
opaque gradInline : Nat → Nat → Nat → List Byte

end Sys2Proof.Config
end

