-- ==== Sys2Proof/Machine/Bits.lean ====
section
/-!
DEFINITION. Bit fields, byte strings, sparse tables and the canonical memories that every family uses.
-/

namespace Sys2Proof.Machine

open Sys2Proof

/-! ### Bit fields of numbers (R8: a field [msb:lsb] counts from bit 0) -/

/-- The field [lo + len - 1 : lo] of a number. -/
def fld (n lo len : Nat) : Nat := (n >>> lo) % 2 ^ len

/-- The single bit [lo]. -/
def bit (n lo : Nat) : Bool := n.testBit lo

/-- A field read as two's complement. -/
def sfld (n lo len : Nat) : Int :=
  let v := fld n lo len
  if 2 ^ (len - 1) ≤ v then (v : Int) - (2 ^ len : Nat) else (v : Int)

/-- A number with the field [lo + len - 1 : lo] replaced. -/
def setFld (n lo len v : Nat) : Nat :=
  n - (fld n lo len) * 2 ^ lo + (v % 2 ^ len) * 2 ^ lo

/-- The bits set in a mask, rising, below a bound. -/
def bitsOf (mask bound : Nat) : List Nat := (List.range bound).filter (fun i => mask.testBit i)

/-- A mask from a list of bit numbers. -/
def maskOf (l : List Nat) : Nat := l.foldl (fun m i => m ||| 1 <<< i) 0

/-- Division rounding up. -/
def cdiv (a b : Nat) : Nat := (a + b - 1) / b

/-! ### Byte strings -/

/-- `n` bytes of a number, least significant first (R8). -/
def leBytes : Nat → Nat → List Byte
  | 0, _ => []
  | n + 1, v => BitVec.ofNat 8 v :: leBytes n (v / 256)

/-- The number a byte string spells, least significant byte first. -/
def leNat : List Byte → Nat
  | [] => 0
  | b :: r => b.toNat + 256 * leNat r

/-- The byte at an offset, 0 past the end. -/
def byteAt (l : List Byte) (off : Nat) : Byte := (l.drop off).headD 0

/-- `n` bytes at an offset as a number; bytes past the end read 0. -/
def rd (l : List Byte) (off n : Nat) : Nat := leNat ((l.drop off).take n)

/-- The bytes [off, off + n). -/
def slice (l : List Byte) (off n : Nat) : List Byte := (l.drop off).take n

/-- A byte string cut or filled with zeros to a length. -/
def padTo (n : Nat) (l : List Byte) : List Byte := l.take n ++ List.replicate (n - l.length) 0

/-! ### Sparse tables -/

/-- What a table holds at a key. -/
def Tab.get {α : Type} (dflt : α) : Tab α → Nat → α
  | [], _ => dflt
  | (k, v) :: r, n => if k = n then v else Tab.get dflt r n

/-- Put a value at a key, the keys rising. -/
def Tab.put {α : Type} : Tab α → Nat → α → Tab α
  | [], n, x => [(n, x)]
  | (k, v) :: r, n, x =>
    if k = n then (n, x) :: r
    else if n < k then (n, x) :: (k, v) :: r
    else (k, v) :: Tab.put r n x

/-- Change the value at a key. -/
def Tab.upd {α : Type} (dflt : α) (t : Tab α) (n : Nat) (f : α → α) : Tab α :=
  Tab.put t n (f (Tab.get dflt t n))

/-! ### Canonical memories: keys rising, nothing listed that equals the default -/

/-- The value at an address. -/
def Mem.read {α : Type} (dflt : α) (m : List (Nat × α)) (a : Nat) : α := Tab.get dflt m a

/-- Drop every entry at an address. -/
def Mem.erase {α : Type} : List (Nat × α) → Nat → List (Nat × α)
  | [], _ => []
  | (k, v) :: r, a => if k = a then Mem.erase r a else (k, v) :: Mem.erase r a

/-- Write a value at an address, keeping the canonical form. -/
def Mem.write {α : Type} [DecidableEq α] (dflt : α) (m : List (Nat × α)) (a : Nat) (v : α) : List (Nat × α) :=
  if v = dflt then Mem.erase m a else Tab.put m a v

/-- Write a run of values from an address on. -/
def Mem.writeAll {α : Type} [DecidableEq α] (dflt : α) (m : List (Nat × α)) (a : Nat) : List α → List (Nat × α)
  | [] => m
  | v :: r => Mem.writeAll dflt (Mem.write dflt m a v) (a + 1) r

/-- Read a run of values from an address on. -/
def Mem.readAll {α : Type} (dflt : α) (m : List (Nat × α)) (a n : Nat) : List α :=
  (List.range n).map (fun i => Mem.read dflt m (a + i))

/-- Keys strictly rise above a bound. -/
def Mem.rising {α : Type} : Nat → List (Nat × α) → Bool
  | _, [] => true
  | lo, (k, _) :: r => decide (lo ≤ k) && Mem.rising (k + 1) r

/-- The canonical form: addresses strictly rising and no entry equal to the default. -/
def Mem.wf {α : Type} [DecidableEq α] (dflt : α) (m : List (Nat × α)) : Bool :=
  Mem.rising 0 m && m.all (fun c => decide (c.2 ≠ dflt))

end Sys2Proof.Machine
end

