-- ==== Sys2Proof/Machine/Code.lean ====
section
/-!
DEFINITION. The check codes on wires and in memory: GF(2^10), the Reed-Solomon (58,55) code of a sector (R303), the
Reed-Solomon (272,258) code of a frame's codeword (R337), CRC-32 (R338).
-/

namespace Sys2Proof.Machine

open Sys2Proof

/-! ### GF(2^10), field polynomial x^10 + x^3 + 1, alpha = x -/

/-- Times alpha. -/
def gfX (a : Nat) : Nat := if a.testBit 9 then ((a * 2) % 1024) ^^^ 9 else a * 2

/-- A product, bit by bit of the second factor from its top. -/
def gfMulFrom (a b : Nat) : Nat → Nat
  | 0 => 0
  | i + 1 => (gfX (gfMulFrom a (b / 2) i)) ^^^ (if b.testBit 0 then a else 0)

/-- A product of field elements. -/
def gfMul (a b : Nat) : Nat := gfMulFrom (a % 1024) (b % 1024) 10

/-- A power. -/
def gfPow (a : Nat) : Nat → Nat
  | 0 => 1
  | n + 1 => gfMul a (gfPow a n)

/-- Repeated squaring: a, a^2, a^4, … multiplied into the inverse a^(2^10 - 2). -/
def gfInvFrom (sq acc : Nat) : Nat → Nat
  | 0 => acc
  | n + 1 => let q := gfMul sq sq; gfInvFrom q (gfMul acc q) n

/-- The inverse of a field element; 0 for 0. -/
def gfInv (a : Nat) : Nat := gfInvFrom a 1 9

/-- The value of a polynomial at x, coefficients from the highest power. -/
def gfEval (cs : List Nat) (x : Nat) : Nat := cs.foldl (fun a c => gfMul a x ^^^ c) 0

/-! ### The sector code (58,55) (R303) -/

/-- Symbol j of an error pattern of 58 symbols. -/
def upsetSymbol (e : BitVec 580) (j : Nat) : Nat := fld e.toNat (10 * j) 10

def upsetSymbols (e : BitVec 580) : List Nat := (List.range 58).map (upsetSymbol e)

/-- What the sector decoder finds: a clean word, a correction of one symbol (its position and value), or an
uncorrectable word. -/
inductive SectorDecode where
  | clean
  | corrects (j v : Nat)
  | fails
  deriving DecidableEq, Repr

/-- Decode from the error pattern: the code is linear, so the syndromes of a stored word are those of its pattern. -/
def sectorDecode (e : BitVec 580) : SectorDecode :=
  let w := upsetSymbols e
  let s0 := gfEval w 1
  let s1 := gfEval w 2
  let s2 := gfEval w (gfMul 2 2)
  if s0 = 0 ∧ s1 = 0 ∧ s2 = 0 then .clean
  else if s0 = 0 then .fails
  else match (List.range 58).find? (fun j =>
      let x := gfPow 2 (57 - j)
      decide (gfMul s0 x = s1) && decide (gfMul s1 x = s2)) with
    | some j => .corrects j s0
    | none => .fails

/-- The error pattern that is left after the decoder's correction. -/
def sectorResidual (e : BitVec 580) : BitVec 580 :=
  match sectorDecode e with
  | .corrects j v => e ^^^ (BitVec.ofNat 580 (v <<< (10 * j)))
  | _ => e

/-- The bits of a sector that are stored: logical bits 546 to 549 are not (R303). -/
def storedMask : BitVec 580 := BitVec.ofNat 580 (2 ^ 580 - 1 - (15 <<< 546))

/-! ### The frame code (272,258) (R337) -/

/-- The 14 syndromes of a codeword of 272 symbols, the first symbol the highest power. -/
def frameSyndromes (w : List Nat) : List Nat := (List.range 14).map (fun i => gfEval w (gfPow 2 i))

/-- Add polynomials given from the lowest power. -/
def polyAdd : List Nat → List Nat → List Nat
  | [], b => b
  | a, [] => a
  | x :: a, y :: b => (x ^^^ y) :: polyAdd a b

def polyScale (k : Nat) (a : List Nat) : List Nat := a.map (gfMul k)

/-- The state of the locator search: locator, previous locator, its length, the shift and the previous discrepancy. -/
structure Locator where
  cur : List Nat
  prev : List Nat
  len : Nat
  shift : Nat
  disc : Nat
  deriving DecidableEq, Repr

/-- One step of the locator search (Berlekamp-Massey) at syndrome n. -/
def locatorStep (syn : List Nat) (b : Locator) (n : Nat) : Locator :=
  let d := (List.range (b.len + 1)).foldl (fun a i =>
    if i ≤ n then a ^^^ gfMul (b.cur.getD i 0) (syn.getD (n - i) 0) else a) 0
  if d = 0 then { b with shift := b.shift + 1 }
  else
    let adj := polyAdd b.cur (List.replicate b.shift 0 ++ polyScale (gfMul d (gfInv b.disc)) b.prev)
    if 2 * b.len ≤ n then { cur := adj, prev := b.cur, len := n + 1 - b.len, shift := 1, disc := d }
    else { b with cur := adj, shift := b.shift + 1 }

/-- The error locator of a codeword. -/
def frameLocator (syn : List Nat) : Locator :=
  (List.range 14).foldl (locatorStep syn) { cur := [1], prev := [1], len := 0, shift := 1, disc := 1 }

/-- The value of a polynomial given from the lowest power. -/
def polyAt (cs : List Nat) (x : Nat) : Nat := gfEval cs.reverse x

/-- The positions of a codeword whose power is a root of the locator (Chien). -/
def frameRoots (loc : List Nat) : List Nat :=
  (List.range 272).filter (fun j => decide (polyAt loc (gfInv (gfPow 2 (271 - j))) = 0))

/-- The evaluator: syndromes times locator below x^14. -/
def frameEvaluator (syn loc : List Nat) : List Nat :=
  (List.range 14).map (fun k =>
    (List.range (k + 1)).foldl (fun a i => a ^^^ gfMul (loc.getD i 0) (syn.getD (k - i) 0)) 0)

/-- The formal derivative of a locator. -/
def polyDeriv (cs : List Nat) : List Nat :=
  (List.range (cs.length - 1)).map (fun i => if i % 2 = 0 then cs.getD (i + 1) 0 else 0)

/-- The error value at a position (Forney; the first root of the generator is alpha^0). -/
def frameErrorAt (ev loc : List Nat) (j : Nat) : Nat :=
  let x := gfPow 2 (271 - j)
  let xi := gfInv x
  gfMul x (gfMul (polyAt ev xi) (gfInv (polyAt (polyDeriv loc) xi)))

/-- Decode one codeword: the corrected 272 symbols and how many symbols were corrected, at most 7; none when the code finds
no such correction. -/
def frameDecode (w : List Nat) : Option (List Nat × Nat) :=
  if w.length ≠ 272 then none
  else
    let syn := frameSyndromes w
    if syn.all (fun x => decide (x = 0)) then some (w, 0)
    else
      let b := frameLocator syn
      let roots := frameRoots b.cur
      if 7 < b.len ∨ roots.length ≠ b.len then none
      else
        let ev := frameEvaluator syn b.cur
        let fixed := (List.range 272).map (fun j =>
          if roots.contains j then w.getD j 0 ^^^ frameErrorAt ev b.cur j else w.getD j 0)
        if (frameSyndromes fixed).all (fun x => decide (x = 0)) then some (fixed, b.len) else none

/-- A polynomial given from the highest power, times (x - a). -/
def polyTimes (g : List Nat) (a : Nat) : List Nat := List.zipWith (· ^^^ ·) (g ++ [0]) (0 :: g.map (gfMul a))

/-- The generator of the frame code without its leading 1: the product of (x - alpha^i) for i from 0 to 13 (R337). -/
def frameGenerator : List Nat := ((List.range 14).foldl (fun g i => polyTimes g (gfPow 2 i)) [1]).tail

/-- One step of the division by the generator: the next information symbol enters. -/
def checkStep (g st : List Nat) (x : Nat) : List Nat :=
  let f := x ^^^ st.headD 0
  List.zipWith (· ^^^ ·) (st.tail ++ [0]) (g.map (gfMul f))

/-- The 14 check symbols of 258 information symbols, in the order in which they are sent (R337). -/
def frameChecks (info : List Nat) : List Nat := info.foldl (checkStep frameGenerator) (List.replicate 14 0)

/-- A codeword as sent: its information symbols in increasing position, then its check symbols. -/
def frameEncode (info : List Nat) : List Nat := info ++ frameChecks info

/-- The information symbols of codeword c of a frame (R336): symbol k of the frame goes to codeword k mod `ways`. -/
def codewordInfo (b : List Byte) (ways c : Nat) : List Nat :=
  (List.range 258).map (fun i => fld (leNat b) (10 * (i * ways + c)) 10)

/-- A symbol as five PAM4 levels, bits [9:8] first, in Gray code (R337). -/
def pam4 (x : Nat) : List Nat := (List.range 5).map (fun i => [0, 1, 3, 2].getD (fld x (8 - 2 * i) 2) 0)

/-- The bytes of a stream of 10-bit symbols. -/
def symbolsToBytes (syms : List Nat) (n : Nat) : List Byte :=
  leBytes n (syms.foldr (fun x a => x % 1024 + 1024 * a) 0)

/-- The information symbols of a frame: symbol k is information symbol k div ways of codeword k mod ways (R336). -/
def interleaveInfo (cws : List (List Nat)) (total : Nat) : List Nat :=
  (List.range total).map (fun k => (cws.getD (k % cws.length) []).getD (k / cws.length) 0)

/-! ### CRC-32 (IEEE 802.3) -/

def crc32Bit (c : Nat) : Nat := if c.testBit 0 then (c / 2) ^^^ 0xEDB88320 else c / 2

def crc32Byte (c : Nat) (b : Byte) : Nat := (List.range 8).foldl (fun x _ => crc32Bit x) (c ^^^ b.toNat)

/-- CRC-32 over a byte string. -/
def crc32 (l : List Byte) : Nat := (l.foldl crc32Byte 0xFFFFFFFF) ^^^ 0xFFFFFFFF

end Sys2Proof.Machine
end

