-- ==== Sys2Proof/Machine/State.lean ====
section
/-!
DEFINITION. The state of the module as plain data (INVENTORY.md, State), its faults and refusals, and the state of a
module that no input has reached yet.
-/

namespace Sys2Proof.Machine

open Sys2Proof

/-- Why the model stops. -/
inductive Fault where
  /-- A command names a unit the module does not have (a Square above 147, a link above 95, a Player above 15 and so
  on). Raised by every meaning whose operand names a unit. Safe: the spec gives no such unit (R3, R11 to R14, R21). -/
  | noSuchUnit
  deriving DecidableEq, Repr

/-- Why the model has no meaning for a command. -/
inductive Refusal where
  /-- The command has no meaning yet. Raised by exec's arms only. Safe: nothing follows from it. -/
  | notModelled (mnemonic : String)
  deriving DecidableEq, Repr

/-! ### Events (R412) -/

/-- What an event's Location names (Table ULY-4). -/
inductive LocKind where
  | square | player | record | entry | sem | slot | moverSquare | moverHost | moverLink | channel | descriptor
  | stack | bank | row | pa | va | pool | link | lane | seat | zone | index | rail | aslet | element | session | area
  deriving DecidableEq, Repr

/-- One event record (Table ULY-4). `part` is none for a module-level event. -/
structure Event where
  time : Nat
  cls : Nat
  detail : Nat
  part : Option Nat
  loc : List (LocKind × Nat)
  arg : List Nat
  deriving DecidableEq, Repr

/-! ### Squares (chapters 04, 07, 08, 09) -/

/-- Who waits on a semaphore in a Turn (R107, R351). -/
inductive Waiter where
  | player (n : Nat)
  | mover (m : MoverId) (ch : Nat)
  deriving DecidableEq, Repr

/-- A chain-link entry (Table SQP-5) with its two counts, its epoch (R105, R111) and the waiters of the Turn (R107). -/
structure Entry where
  depth : Nat := 0
  consumer : Bool := false
  isLocal : Bool := false
  peerSeat : Nat := 0
  peerSquare : Nat := 0
  peerEntry : Nat := 0
  producerChannels : Nat := 0
  full : Nat := 0
  empty : Nat := 0
  epoch : Nat := 0
  waiterF : Option Waiter := none
  waiterE : Option Waiter := none
  deriving DecidableEq, Repr

/-- One level of LOOP nesting (R97): its register, its body [first, last], its count and the pass it is in. -/
structure LoopFrame where
  reg : Nat
  first : Nat
  last : Nat
  count : Nat
  pass : Nat
  deriving DecidableEq, Repr

/-- A Player (R88, R94, R95, R97, R219, R232). `running` false is parked. `pc` is the record index within the segment. -/
structure Player where
  running : Bool := false
  stopped : Bool := false
  pc : Nat := 0
  loops : List LoopFrame := []
  index : Tab Nat := []
  slots : Tab Nat := []
  vl : Nat := 0
  masks : Tab (BitVec 65536) := []
  sticky : Word := 0
  lastSticky : Word := 0
  deriving DecidableEq, Repr

/-- A segment-table entry (Table SQP-7). -/
structure Segment where
  first : Nat
  count : Nat
  share : List Nat
  deriving DecidableEq, Repr

/-- What an operation in flight is. -/
inductive OpKind where
  | matmul
  | arrayConfig
  | vector
  | moverStart
  | moverAbort (channels : List Nat)
  | moverCancel (channels : List Nat)
  | linkCancel (entry : Nat) (channels : List Nat)
  deriving DecidableEq, Repr

/-- How far an operation in flight has come: issued and waiting, its work under way (its stream has run, or its
channels have been told), or its writes accepted (R99). -/
inductive OpPhase where
  | waiting
  | working
  | done
  deriving DecidableEq, Repr

/-- An operation in flight (R91). It carries what it took at issue: its record and operand records, its descriptors'
bits as the issue checks saw them, its index value and its VL (R220). `held` says that it waits on the scoreboard (R201). -/
structure Op where
  id : Nat
  player : Nat
  record : Nat
  kind : OpKind
  phase : OpPhase
  bits : Rec
  operands : List Rec := []
  index : Nat := 0
  vl : Nat := 0
  slots : List Nat := []
  readsMask : Nat := 0
  writesMask : Nat := 0
  sums : List (Nat × Word) := []
  flags : Nat := 0
  held : Bool := false
  faulted : Bool := false
  deriving DecidableEq, Repr

/-! ### Movers (chapter 06) -/

/-- The phase of a Mover channel (R148, R153, R160, R164, R166). -/
inductive ChPhase where
  | idle
  | fetched
  | pacing
  | active
  | written
  | aborting (cause : Nat)
  | cancelling (cause : Nat)
  deriving DecidableEq, Repr

/-- A channel's last status record (Table MOV-6). -/
structure MoverStatus where
  endTime : Nat := 0
  turn : Nat := 0
  channel : Nat := 0
  state : Nat := 0
  partition : Nat := 0
  cause : Nat := 0
  descriptor : Nat := 0
  residue : Nat := 0
  faultAddress : Nat := 0
  deriving DecidableEq, Repr

/-- A link request of a channel that has no answer yet (R344): its tag, the descriptor that sent it and its remote address,
whether the chain that sent it still runs, and the entries of a scatter that it writes, each with its block (R156). -/
structure Sent where
  tag : Nat
  desc : Nat
  va : Nat
  live : Bool
  blocks : List (Nat × Nat) := []
  deriving DecidableEq, Repr

/-- A Mover channel. `done` counts the elements (copy) or list entries (gather, scatter) written of the current descriptor
`desc`, `pos` the elements written of the entry after them; `codes` are elements of a swap unit that were read and not yet
written; `transfer` is the section 3 record it runs, `repeatNo` its repeat and `posted` whether that repeat's posts are
made (R351, R371); `staged` holds the plaintext of the host record whose number plus 1 is `stagedFrom`, `raw` the bytes of a record that are
arriving, `trailers` the 64 trailers read last and the number of their group plus 1, `trailerOut` the trailer that is
written once its record is acknowledged (R369). `unsent` counts what `done` counts of the staged record that is not sent yet, `paid`
says that the tokens of the next burst are taken (R162). -/
structure Channel where
  phase : ChPhase := .idle
  partition : Nat := 0
  desc : Nat := 0
  srcShift : Int := 0
  dstShift : Int := 0
  done : Nat := 0
  pos : Nat := 0
  codes : List Nat := []
  completions : Nat := 0
  faultAddress : Nat := 0
  transfer : Option Nat := none
  repeatNo : Nat := 0
  posted : Bool := true
  staged : List Byte := []
  stagedFrom : Nat := 0
  raw : List Byte := []
  trailers : List Byte := []
  trailerGroup : Nat := 0
  trailerOut : Option (Nat × List Byte) := none
  sent : List Sent := []
  unsent : Nat := 0
  paid : Bool := false
  status : MoverStatus := {}
  deriving DecidableEq, Repr

/-- A logical Square (Table ORG-1): its stores, Players, chain links, operations and counters. `lsErr` and `accErr`
hold the upset bits of the stores' codes (R104, R199), by granule: 1 correctable, 2 not. The others hold what parity does not match:
words of the lookup-table banks, 32 bits of a mask register by Player, register and word (R247); and, with the bits upset, the next
value of a temporary by lane and number (R247), of a feed injector of A or B by row or column, of a drain path by column (R190).
`slackKnown` says that the Square has recorded a slack (R72), `vfault` holds the slots of the operation that stopped the vector queue
(Table ACC-8). -/
structure Square where
  owner : Option Nat := none
  carrier : Option Nat := none
  ls : List Host.Cell := []
  acc : List (Nat × Word) := []
  recs : List Rec := []
  segs : List Segment := []
  seg : Option Nat := none
  chain : Tab Entry := []
  players : Tab Player := []
  inflight : List Op := []
  nextOp : Nat := 0
  vqueue : List Nat := []
  vbusy : Option Nat := none
  vstopped : Bool := false
  vfault : List Nat := []
  claims : List (Nat × Nat) := []
  lut : List Host.Cell := []
  lutActive : Nat := 0
  packing : Nat := 0
  chainMode : Bool := false
  mover : Tab Channel := []
  endedAt : Option Nat := none
  lastSlack : Word := 0
  slackKnown : Bool := false
  beats : Nat := 0
  slotConflicts : Nat := 0
  saturations : Nat := 0
  arith : Tab Nat := []
  rows : Tab Nat := []
  corrected : Nat := 0
  hwTimes : List Nat := []
  overran : Bool := false
  lsErr : Tab Nat := []
  accErr : Tab Nat := []
  lutErr : List Nat := []
  maskErr : List (Nat × Nat × Nat) := []
  tempErr : List ((Nat × Nat) × Word) := []
  feedErr : List ((Bool × Nat) × Word) := []
  drainErr : List (Nat × Word) := []
  deriving DecidableEq, Repr

/-- A physical Square's array repair state (R191 to R195) and, for a reserve, the logical Square it carries (R16). -/
structure Phys where
  fuses : Tab Nat := []
  fieldSet : Nat := 0
  testRows : List Nat := []
  testCols : List Nat := []
  repairState : Nat := 0
  carries : Option Nat := none
  testPassed : Bool := false
  deriving DecidableEq, Repr

/-! ### Partitions (chapters 03, 11, 15, 16) -/

/-- Run states (R420). -/
inductive RunState where
  | empty | loaded | armed | running | held | draining | stopped | faulted
  deriving DecidableEq, Repr

/-- A page-map run (Table OBD-4). -/
structure PageRun where
  vpage : Nat
  read : Bool
  write : Bool
  isLocal : Bool
  page : Nat
  square : Nat
  pages : Nat
  deriving DecidableEq, Repr

/-- A seat that has joined (R60, R85, R298). -/
structure Joined where
  seat : Nat
  protocol : Nat
  root : Bool
  deriving DecidableEq, Repr

/-- A gate vote or decision in numbers (Table STP-2). -/
structure GateVote where
  stepMin : Nat
  stepMax : Nat
  seatMin : Nat
  seatMax : Nat
  nonFinite : Bool
  hwFault : Bool
  seatBad : Nat
  deriving DecidableEq, Repr

/-- A partition: its entry of 2010 (Table OBD-3), its Book, its Turns, its step, its keys. `workTurn` is the Turn whose
segment its Squares run or have run last, `deferred` the Turns whose segments wait for late work (R74), `runs` the RUN
requests that are answered when Turn 0 begins (R421), `inStep` whether the plan period is a step (R280), `ckpt` the counters
at checkpoint Turns that run (R290), `anchors` the Base that a moved descriptor's window stays anchored to (R287). `seen` holds the Table messages seen by kind, seat and stamp (R77), `seenOn` the Joins and Turn
marks judged by link and the same (R346). -/
structure Partition where
  squares : BitVec 144 := 0
  weight : Nat := 0
  rho : Nat := 0
  kappa : Nat := 0
  pageMap : List PageRun := []
  trRoot : Nat := 0
  pagesToInit : List Nat := []
  pagesDone : List Nat := []
  preparedKey : Option Nat := none
  runState : RunState := .empty
  srcOffset : Nat := 0
  bytes : Nat := 0
  placing : Bool := false
  placeStatus : Nat := 0
  placedBytes : Nat := 0
  image : List Byte := []
  book : List Byte := []
  contained : Bool := false
  pool : List DescBits := []
  mdesc : List Rec := []
  turn : Nat := 0
  workTurn : Option Nat := none
  deferred : List Nat := []
  tableProtocol : Nat := 0
  joined : List Joined := []
  epoch : Nat := 0
  epochTurn : Nat := 0
  turnLength : Nat := 0
  turnLengthSet : Nat := 0
  joinFault : Nat := 0xFFFF
  loadFault : Nat := 0
  tableId : Nat := 0
  seat : Nat := 0
  start : Option (Nat × Nat) := none
  holdTarget : Option Nat := none
  holders : List Nat := []
  ownHold : List Nat := []
  holdCauses : List (Nat × Nat) := []
  seen : List (Nat × Nat × Nat) := []
  seenOn : List (Nat × Nat × Nat × Nat) := []
  lastRelease : Nat := 0
  resumeAt : Option Nat := none
  heldAt : Option Nat := none
  heldSince : Nat := 0
  runs : List Req := []
  lengths : Tab Nat := []
  lateMarks : Tab Nat := []
  late : List Nat := []
  stepCounter : Nat := 0
  batchCounter : Nat := 0
  lastGate : GateMsg := 0
  consecutiveClosures : Nat := 0
  gateStuck : Bool := false
  restoreNeeded : Bool := false
  lastCheckpointStep : Nat := 0
  lastCheckpointBatch : Nat := 0
  errorLatch : Bool := false
  vote : Option GateVote := none
  childVotes : List (Nat × GateVote) := []
  voteSent : Bool := false
  decision : Option GateMsg := none
  gateIn : List (Nat × GateMsg) := []
  inStep : Bool := false
  stepOpen : Bool := false
  ckpt : Option (Nat × Nat) := none
  closedSteps : Nat := 0
  abandonedSteps : Nat := 0
  frozenWrites : Nat := 0
  indexOutOfRange : Nat := 0
  stalePosts : Nat := 0
  frozen : Bool := false
  anchors : Tab Nat := []
  stalemateRecord : List Byte := []
  stalemateTimeout : Nat := 64
  lastActivity : Nat := 0
  latePosts : Nat := 0
  tenantAnchor : List Byte := []
  keyGeneration : Nat := 0
  curKey : Option Nat := none
  prevKey : Option Nat := none
  sweepState : Nat := 0
  sweepRemaining : Nat := 0
  unrekeyed : Nat := 0
  sealed : Bool := false
  rotateInterval : Nat := 0
  weightKey : Option (BitVec 256) := none
  weightImageId : Nat := 0
  weightImageBytes : Nat := 0
  weightSalt : Nat := 0
  weightTarget : List Byte := []
  delivering : Bool := false
  deliverStatus : Nat := 0
  bounceKeys : Option (BitVec 384) := none
  nextBounceKeys : Option (BitVec 384) := none
  bounceIn : Nat := 0
  bounceOut : Nat := 0
  placeBy : Nat := 0
  weightSeq : Nat := 0
  bounceBase : Nat := 0
  bounceLen : Nat := 0
  bookMeasurement : BitVec 384 := 0
  deriving DecidableEq, Repr

/-! ### Chip links (chapter 13) and Aslet (chapter 14) -/

/-- A link transaction (Tables LNK-6 and LNK-7) in the clear; `hops` is its Hop list up to 0xFF. -/
structure Txn where
  kind : Nat
  keySlot : Nat := 0
  hopIndex : Nat := 0
  destSeat : Nat := 0
  txnTag : Nat := 0
  address : Nat := 0
  hops : List Nat := []
  inl : List Byte := []
  data : List Byte := []
  deriving DecidableEq, Repr

/-- A frame that the sender keeps until it is acknowledged (R339): its number, its flits, how often it was sent, and the key slot of the
transaction that it carries. -/
structure SentFrame where
  seq : Nat
  flits : List Byte
  sends : Nat
  slot : Nat := 0
  deriving DecidableEq, Repr

/-- What one end of a link puts on the wire, in order (R338, R339, R341): a sequenced frame, an idle frame, each with what every lane
sends of it (R336, R337, R362), and the transaction that the frames after it carry. -/
inductive LinkOut where
  | frame (seq : Nat) (flits : List Byte) (lanes : List (Nat × List Nat))
  | idle (lanes : List (Nat × List Nat))
  | txn (t : Txn)
  deriving DecidableEq, Repr

/-- A lane exchange in progress (Table LNK-10). -/
structure LaneSwap where
  lane : Nat
  spare : Nat
  atSeq : Option Nat
  deriving DecidableEq, Repr

/-- A key slot of one direction of a link (R343): the Table it belongs to, the partition, and the transactions counted
under its key. -/
structure KeySlot where
  tableId : Nat := 0
  part : Option Nat := none
  key : BitVec 288 := 0
  count : Nat := 0
  deriving DecidableEq, Repr

/-- A chip link (R329 to R359). `txKeys` and `rxKeys` hold the link key in slot 0; slot 32 of `rxKeys` holds the link key
before it. `shares` holds KEYSHAREs for Tables with no seat here yet: slot, TableId, public point. `foreign` counts the
single flits of other partitions in the window that begins at its first number (R349). `retrainHold` says that a planned
retrain waits for its Holds or runs; `retrainMap` is the state and the lane map before it. `corrected` holds the symbols corrected in
the last second, by connector lane and instant (R353). `ephemeral` holds 1 plus the number of the key pair drawn for a partition's
Table, under 32 that of the last training. -/
structure Link where
  state : Nat := 0
  version : Nat := 0
  txLanes : List Nat := [0xFF, 0xFF, 0xFF, 0xFF]
  rxLanes : List Nat := [0xFF, 0xFF, 0xFF, 0xFF]
  roundTrip : Nat := 0
  swapThreshold : Nat := 65536
  windowMap : BitVec 64 := 0
  peerSerial : Nat := 0
  peerLink : Nat := 0
  counters : Tab Nat := []
  txSeq : Nat := 0
  rxSeq : Nat := 0
  retained : List SentFrame := []
  heldFrames : List (Nat × List Byte) := []
  stream : List Byte := []
  txKeys : Tab KeySlot := []
  rxKeys : Tab KeySlot := []
  ephemeral : Tab Nat := []
  arrived : List Txn := []
  tableIn : List TableMsg := []
  waiting : List Txn := []
  shares : List (Nat × Nat × List Byte) := []
  foreign : Nat × Nat := (0, 0)
  swapRx : Option LaneSwap := none
  swapTx : Option LaneSwap := none
  movers : Tab Channel := []
  out : List LinkOut := []
  peerTime : Nat := 0
  ownTime : Nat := 0
  retrainHold : Bool := false
  retrainMap : Option (Nat × List Nat × List Nat) := none
  nextTag : Nat := 0
  corrected : List (Nat × Nat × Nat) := []
  deriving DecidableEq, Repr

/-- A link group (R329, R490): its cable, the spares still free and the lanes that failed, by connector lane, plus 64 for
those received on. -/
structure LinkGroup where
  cable : Bool := false
  sparesTx : List Nat := [32, 33]
  sparesRx : List Nat := [32, 33]
  failed : List Nat := []
  deriving DecidableEq, Repr

/-- An Aslet transaction (Tables ASL-3 and ASL-4). -/
structure AsletTxn where
  kind : Nat
  tag : Nat := 0
  channel : Nat := 0
  address : Nat := 0
  length : Nat := 0
  status : Nat := 0
  data : List Byte := []
  deriving DecidableEq, Repr

/-- What an outstanding Aslet request of the module is for. -/
inductive AsletWant where
  | trailers | record | recordWrite | trailerWrite
  deriving DecidableEq, Repr

/-- An outstanding Aslet request of the host-interface Mover: its tag, its channel, what it is for (R369), where in the run of bytes it
stands and where in the bounce area. -/
structure AsletPend where
  tag : Nat
  channel : Nat
  want : AsletWant
  off : Nat
  va : Nat := 0
  deriving DecidableEq, Repr

/-- The Aslet link (R360 to R378). `upperBlock` says that x8 runs on lanes 8 to 15, `lane0` that lane 0 works, `sleepAsked` that
SLEEP_REQ has gone, `credits` the messages that each channel may still send, `inbox` the frames that came by channel,
`sentTxns` what the module has sent. -/
structure Aslet where
  state : Nat := 0
  version : Nat := 0
  width : Nat := 0
  upperBlock : Bool := false
  lane0 : Bool := true
  tunnel : Bool := false
  lowRate : Bool := false
  sleepAsked : Bool := false
  txSeq : Nat := 0
  rxSeq : Nat := 0
  retained : List SentFrame := []
  heldFrames : List (Nat × List Byte) := []
  stream : List Byte := []
  arrived : List AsletTxn := []
  credits : Tab Nat := []
  inbox : List (Nat × List Byte) := []
  pend : List AsletPend := []
  nextTag : Nat := 0
  movers : Tab Channel := []
  waiting : List AsletTxn := []
  out : List LinkOut := []
  sentTxns : List AsletTxn := []
  deriving DecidableEq, Repr

/-! ### Stack memory (chapter 12) -/

/-- A sector's side-band and what has happened to its stored bits: under which owner and key it was sealed, its KeyGen
and reserved bits, and the error pattern of its 58 stored symbols (R302, R303). -/
structure Sector where
  owner : Nat
  key : Nat
  keyGen : Bool
  reservedBit : Bool
  upset : BitVec 580
  deriving DecidableEq, Repr

/-- Under which owner, key and generation a page's sectors were initialised (R309). -/
structure PageKey where
  owner : Nat
  key : Nat
  keyGen : Bool
  deriving DecidableEq, Repr

/-- A stack (R300, R301, R318, R325). `refreshedAt` holds 1 plus the instant of each channel's last refresh, `recent` the
corrected errors of the last hour, `spared` the channels spared at training, `lastEvent40` 1 plus the instant of each channel's last event 0x40. -/
structure Stack where
  temperature : Word := 0
  map : Tab Nat := []
  free : List Nat := [64, 65]
  retired : List Nat := []
  returned : List Nat := []
  counters : Tab Nat := []
  recent : List (Nat × Nat) := []
  refreshedAt : Tab Nat := []
  spared : Nat := 0
  lastEvent40 : Tab Nat := []
  deriving DecidableEq, Repr

/-- Migration states of Table MEM-10, with the codes of 5300:04. -/
inductive MigPhase where
  | idle | training | copying | awaitingHold | awaitingRetry | testing
  deriving DecidableEq, Repr

/-- A memory-side die (R312 to R315, R325, R326). `g`, `c` and `pool` count thousandths of a token, `waiting` the requests
that wait with their arrival, `holdsFor` whether its Hold of cause 0x03 stands, `copyAt` the start of the chunk being copied,
`retryAt` the instant of the retry of R327, `filledAt` the instant to which the regulators are filled. -/
structure MemDie where
  mig : MigPhase := .idle
  migStack : Nat := 0
  migChannel : Nat := 0
  migSpare : Nat := 0
  migOld : Nat := 0
  copyPtr : Nat := 0
  copyAt : Nat := 0
  retryAt : Nat := 0
  retried : Bool := false
  holdsFor : Bool := false
  queue : List (Nat × Nat) := []
  g : Tab Nat := []
  c : Tab Nat := []
  pool : Nat := 0
  filledAt : Nat := 0
  waiting : List (TokenReq × Nat) := []
  lastSurplus : Nat := 0
  deriving DecidableEq, Repr

/-- Stack memory: the stored data bytes by place, the sectors' side-band by place, the pages' initialisation, and the bytes
that the last sector read delivered. -/
structure Dram where
  cells : List Host.Cell := []
  sectors : Tab Sector := []
  pages : Tab PageKey := []
  stackTab : Tab Stack := []
  dies : Tab MemDie := []
  trained : Bool := false
  autoRepair : Bool := true
  repairThreshold : Nat := 256
  tokenWait : Tab Nat := []
  delivered : List Byte := []
  deriving DecidableEq, Repr

/-! ### Ulyan (chapters 15, 16, 17) -/

/-- A response the module has sent (R406). -/
structure Response where
  carrier : Carrier
  session : Option Nat
  version : Nat
  sequence : Nat
  requestId : Nat
  kind : Nat
  index : Nat
  sub : Nat
  code : Nat
  value : List Byte
  deriving DecidableEq, Repr

/-- The result of a check (R417). -/
structure CheckResult where
  code : Nat := 0
  index : Nat := 0
  sub : Nat := 0
  otherIndex : Nat := 0
  otherSub : Nat := 0
  staged : Nat := 0
  deriving DecidableEq, Repr

/-- A segmented transfer (R410, R411): the SEG_START that opened it, its data (a read's copy, or what a write has brought), the
next segment's number, how many the host has acknowledged, and when a frame of it came and went last. -/
structure SegTransfer where
  request : Req
  write : Bool
  total : Nat
  segBytes : Nat
  data : List Byte
  next : Nat
  acked : Nat
  lastFrame : Nat
  lastSent : Nat
  deriving DecidableEq, Repr

/-- A session (R383 to R386, R405, R406, R414, R416). -/
structure Session where
  carrier : Carrier
  version : Nat
  prk : BitVec 384
  binding : BitVec 384
  rxSeq : Nat := 0
  txSeq : Nat := 0
  shadow : List ((Nat × Nat) × List Byte) := []
  check : CheckResult := {}
  last : List Response := []
  unacked : List (Nat × Event) := []
  nextEvent : Nat := 0
  lost : Nat := 0
  wrapSeq : Option Nat := none
  bounceIn : Nat := 0
  bounceOut : Nat := 0
  report : List Byte := []
  committing : Option Req := none
  deriving DecidableEq, Repr

/-- A handshake in progress on one carrier (R384). -/
structure Handshake where
  clientHello : List Byte
  serverHello : List Byte
  secret : BitVec 384
  startedAt : Nat
  deriving DecidableEq, Repr

/-- A commit that waits for its instant (R419). -/
structure PendingCommit where
  session : Nat
  part : Option Nat
  at_ : Nat
  set : List ((Nat × Nat) × List Byte)
  request : Req
  deriving DecidableEq, Repr

/-! ### Power, thermal, firmware (chapters 18, 19) -/

/-- Power states (Table PWR-4). -/
inductive PowerState where
  | off | boot | ready | active | standby | sleep | safe
  deriving DecidableEq, Repr

/-- Supply, rails, domains and pads (R444 to R457). `epochSet` says that the links have set the epoch of REFCLK (R63). -/
structure Power where
  state : PowerState := .off
  wakeCause : Nat := 0
  wakeSources : Nat := 7
  resetCause : Nat := 0
  pendingCause : Nat := 0
  reverseLatch : Bool := false
  supplyFlags : Nat := 0
  rails : Tab Nat := []
  domainMv : Tab Nat := []
  domainSlack : Tab Word := []
  lastTrim : Tab Nat := []
  aonLow : Bool := false
  slackLow : Nat := 10
  slackHigh : Nat := 20
  padHeld : Nat := 0
  limited : Bool := false
  inputVoltage : Word := 0
  inputPower : Word := 0
  inputOn : Bool := false
  inputSince : Nat := 0
  memTraining : Bool := false
  sleepEntry : Bool := false
  selfTested : Bool := false
  epochSet : Bool := false
  deriving DecidableEq, Repr

/-- Zone levels and coolant (R458 to R464). Zones 0 to 31 are stacks, 32 to 35 are C0 to C3. -/
structure Thermal where
  level : Tab Nat := []
  junction : Tab Word := []
  changes : Nat := 0
  inlet : Word := 0
  outlet : Word := 0
  coolantFlags : Nat := 0
  deriving DecidableEq, Repr

/-- A firmware image slot (R467, 1F50 and 1F51). -/
structure Image where
  state : Nat := 0
  measurement : BitVec 384 := 0
  version : List Byte := []
  maxima : List Nat := [2, 2, 2, 2, 2, 2]
  deriving DecidableEq, Repr

/-- A Square migration in progress on one compute die (Table SVC-5). -/
structure SquareMig where
  square : Nat
  target : Option Nat
  holding : Bool
  deriving DecidableEq, Repr

/-- Firmware, self-test and Square migration (chapter 19). -/
structure Service where
  images : Tab Image := []
  active : Nat := 0
  bootMeasurement : BitVec 384 := 0
  fwMeasurement : BitVec 384 := 0
  stagedMeasurement : BitVec 384 := 0
  stageStatus : Nat := 0
  activation : Nat := 0
  activatedAt : Nat := 0
  selfTest : Nat := 0
  selfTestKind : Nat := 0
  selfTestResult : List Byte := []
  migs : Tab SquareMig := []
  maxima : List Nat := [2, 2, 2, 2, 2, 2]
  deriving DecidableEq, Repr

/-- The security processor's own state (chapter 15). `transfers` is by session number, or 18 plus the carrier's number for
unsealed frames. -/
structure Security where
  sessions : Tab Session := []
  handshakes : List (Carrier × Handshake) := []
  transfers : Tab SegTransfer := []
  operatorAnchor : List Byte := []
  nextKey : Nat := 1
  aliasGeneration : Nat := 0
  entropyFailed : Bool := false
  commits : List PendingCommit := []
  generation : Nat := 0
  deriving DecidableEq, Repr

/-- The module. -/
structure State where
  now : Nat := 0
  fresh : Nat := 0
  pending : List Instr := []
  squares : Tab Square := []
  phys : Tab Phys := []
  parts : Tab Partition := []
  fabric : List FabricMsg := []
  links : Tab Link := []
  groups : Tab LinkGroup := []
  aslet : Aslet := {}
  dram : Dram := {}
  sec : Security := {}
  power : Power := {}
  thermal : Thermal := {}
  service : Service := {}
  timeSource : Nat := 0xFF
  holdover : Bool := false
  events : List Event := []
  eventsRaised : Nat := 0
  statusFlags : Nat := 0
  flagEvents : Tab Nat := []
  defaulted : List (Nat × Nat) := []
  lostObjects : List (Nat × Nat) := []
  counters : Tab Nat := []
  slotPins : Nat := 0
  slotId : Nat := 0
  coordinatorSilent : Bool := false
  earlyJoins : List (Nat × TableMsg) := []
  responses : List Response := []
  deriving DecidableEq, Repr

/-- The module before its input reaches 44 V (R444, R450: OFF, nothing powered), every object at its Default (R428). -/
def State.reset : State := {}

end Sys2Proof.Machine
end

