-- ==== Sys2Proof/Machine/AsletWire.lean ====
section
/-!
DEFINITION. The wire side of Aslet: transactions as flits (R364), frames and their retention (R362, R363), what low-rate mode
carries (R374), message credits (R372); and the key stream of AES-256-GCM over bytes.
-/

namespace Sys2Proof.Machine

open Sys2Proof

/-- The bytes of a text. -/
def textBytes (t : String) : List Byte := t.toUTF8.toList.map (fun b => BitVec.ofNat 8 b.toNat)

/-- Bytes under the key stream of a key and count, from a position on. -/
def gcmApply (key : BitVec 288) (count pos : Nat) (l : List Byte) : List Byte :=
  (List.range l.length).map (fun i => byteAt l i ^^^ Config.gcmStream key count (pos + i))

/-- Aslet carries traffic: UP or NARROW (R330, R360), and in low-rate mode while it retrains (R375). -/
def Aslet.up (x : Aslet) : Bool := decide (x.state = 2) || decide (x.state = 3) || (decide (x.state = 1) && x.lowRate)

/-- Data flits of a transaction. -/
def AsletTxn.dataFlits (t : AsletTxn) : Nat := cdiv t.data.length 256

/-- A transaction as flits (Table ASL-3). -/
def asletFlits (t : AsletTxn) : List Byte :=
  padTo 256 (leBytes 1 t.kind ++ leBytes 1 t.dataFlits ++ leBytes 2 t.tag ++ leBytes 1 t.channel ++ leBytes 3 0 ++
    leBytes 8 t.address ++ leBytes 4 t.length ++ leBytes 1 t.status) ++ padTo (256 * t.dataFlits) t.data

/-- Cut flits into frames of 20, the last filled with idle flits. -/
def asletBodies : Nat → List Byte → List (List Byte)
  | 0, _ => []
  | n + 1, l => if l.isEmpty then [] else padTo 5120 l :: asletBodies n (l.drop 5120)

/-- The 80 bits of a frame header that Tables LNK-4 and ASL-2 share: sequence number, acknowledgement, the frame asked for, whether the
frame is idle, and the Crc over the bits before it and the flits. -/
def frameHead (seq ack : Nat) (nak : Option Nat) (idle : Bool) (flits : List Byte) : List Byte :=
  let h := leBytes 6 (seq % 4096 + ack % 4096 * 2 ^ 12 + nak.getD 0 % 4096 * 2 ^ 24 + (if nak.isSome then 2 ^ 36 else 0) +
    (if idle then 2 ^ 37 else 0))
  h ++ leBytes 4 (crc32 (h ++ flits))

/-- The 5,160 bytes of an Aslet frame (R362, Table ASL-2). -/
def asletFrame (head flits : List Byte) : List Byte := padTo 40 head ++ flits

/-- What each lane sends of a frame: its codewords one after the other at the width in use, in PAM4; in low-rate mode the frame's bits on
lane 0, without check symbols (R362, R374). -/
def Aslet.lanes (x : Aslet) (b : List Byte) : List (Nat × List Nat) :=
  if x.lowRate then [(0, (List.range 41280).map (fun i => fld (leNat b) i 1))]
  else (List.range x.width).map (fun lane => (if x.upperBlock then 8 + lane else lane,
    ((List.range 16).filter (fun c => decide (c % x.width = lane))).flatMap (fun c =>
      (frameEncode (codewordInfo b 16 c)).flatMap pam4)))

/-- The acknowledgement that a frame carries: the highest frame received in order. -/
def Aslet.ackSeq (x : Aslet) : Nat := (x.rxSeq + 4095) % 4096

/-- A sequenced frame on the wire. -/
def Aslet.frameOut (x : Aslet) (seq : Nat) (flits : List Byte) : LinkOut :=
  .frame seq flits (x.lanes (asletFrame (frameHead seq x.ackSeq none false flits) flits))

/-- An idle frame on the wire, with the frame that it asks for. -/
def Aslet.idleOut (x : Aslet) (nak : Option Nat) : LinkOut :=
  let flits := List.replicate 5120 0
  .idle (x.lanes (asletFrame (frameHead x.txSeq x.ackSeq nak true flits) flits))

/-- Put frame bodies on the wire with the next sequence numbers and keep them (R363). -/
def Aslet.sendFrames (x : Aslet) : List (List Byte) → Aslet
  | [] => x
  | b :: r =>
    Aslet.sendFrames { x with txSeq := (x.txSeq + 1) % 4096
                              retained := x.retained ++ [{ seq := x.txSeq, flits := b, sends := 1 }]
                              out := x.out ++ [x.frameOut x.txSeq b] } r

def Aslet.emit (x : Aslet) (t : AsletTxn) : Aslet :=
  { x with sentTxns := x.sentTxns ++ [t] }.sendFrames (asletBodies 4 (asletFlits t))

/-- Low-rate mode carries MESSAGE, CREDIT, CTRL and the answers to host READs only (R374). -/
def lowRateKind (k : Nat) : Bool := decide (k = 3) || decide (5 ≤ k)

/-- A transaction that the rate in use does not carry now. -/
def Aslet.rateHolds (x : Aslet) (t : AsletTxn) : Bool := x.lowRate && !lowRateKind t.kind

/-- A transaction may go out now: its frames are kept within 64 unacknowledged ones (R363), and the rate carries it. -/
def Aslet.mayEmit (x : Aslet) (t : AsletTxn) : Bool :=
  x.up && decide (x.retained.length + cdiv (1 + t.dataFlits) 20 ≤ 64) && !x.rateHolds t

/-- A MESSAGE takes a credit of its channel (R372); it waits without one. -/
def Aslet.creditOk (x : Aslet) (t : AsletTxn) : Bool := decide (t.kind ≠ 5) || decide (0 < Tab.get 0 x.credits t.channel)

def Aslet.spend (x : Aslet) (t : AsletTxn) : Aslet :=
  if t.kind = 5 then { x with credits := Tab.upd 0 x.credits t.channel (fun n => n - 1) } else x

/-- A transaction waits behind an earlier one of its channel's messages, or of the other kinds; one that waits for full rate holds up none
that low rate carries (R374). -/
def Aslet.blocked (x : Aslet) (t : AsletTxn) : Bool :=
  (x.waiting.filter (fun w => !x.rateHolds w)).any (fun w => if t.kind = 5 then decide (w.kind = 5) && decide (w.channel = t.channel) else decide (w.kind ≠ 5))

/-- Send a transaction, or let it wait. -/
def Aslet.send (x : Aslet) (t : AsletTxn) : Aslet :=
  if x.mayEmit t && x.creditOk t && !x.blocked t then (x.spend t).emit t else { x with waiting := x.waiting ++ [t] }

/-- Send what waits, in order, as far as it may go out. -/
def Aslet.drain (x : Aslet) : Aslet := x.waiting.foldl (fun y t => y.send t) { x with waiting := [] }

end Sys2Proof.Machine
end

