-- ==== Sys2Proof/Machine/Ops.lean ====
section
/-!
DEFINITION. The shared operations over the state: the parts of the module by number, counters and flags, events and
their delivery to sessions, the ownership of Squares.
-/

namespace Sys2Proof.Machine

open Sys2Proof

/-- What a meaning answers. -/
abbrev Out := Host.Outcome State Fault Refusal

/-- A command whose unit exists has its effect; another stops (log 7). -/
def onUnit (ok : Bool) (t : State) : Out := if ok then .next t else .fault .noSuchUnit

/-! ### Units by number -/

def State.sq (s : State) (q : Nat) : Square := Tab.get {} s.squares q
def State.updSq (s : State) (q : Nat) (f : Square → Square) : State :=
  { s with squares := Tab.upd {} s.squares q f }
def State.part (s : State) (p : Nat) : Partition := Tab.get {} s.parts p
def State.updPart (s : State) (p : Nat) (f : Partition → Partition) : State :=
  { s with parts := Tab.upd {} s.parts p f }
def State.link (s : State) (l : Nat) : Link := Tab.get {} s.links l
def State.updLink (s : State) (l : Nat) (f : Link → Link) : State :=
  { s with links := Tab.upd {} s.links l f }
def State.group (s : State) (g : Nat) : LinkGroup := Tab.get {} s.groups g
def State.updGroup (s : State) (g : Nat) (f : LinkGroup → LinkGroup) : State :=
  { s with groups := Tab.upd {} s.groups g f }
def State.physSq (s : State) (q : Nat) : Phys := Tab.get {} s.phys q
def State.updPhys (s : State) (q : Nat) (f : Phys → Phys) : State :=
  { s with phys := Tab.upd {} s.phys q f }
/-- A stack as manufacture test leaves it (R301): the channels that it has spared, at most two, go to the lowest spares. -/
def Stack.made (n : Nat) : Stack :=
  let bad := ((Config.sparedAtManufacture n).map Fin.val).eraseDups.take 2
  { map := (bad.zip [64, 65]).foldl (fun (m : Tab Nat) e => Tab.put m e.1 e.2) []
    free := [64, 65].drop bad.length
    retired := bad }
def State.stack (s : State) (n : Nat) : Stack := Tab.get (Stack.made n) s.dram.stackTab n
def State.updStack (s : State) (n : Nat) (f : Stack → Stack) : State :=
  { s with dram := { s.dram with stackTab := Tab.upd (Stack.made n) s.dram.stackTab n f } }
def State.memDie (s : State) (d : Nat) : MemDie := Tab.get {} s.dram.dies d
def State.updMemDie (s : State) (d : Nat) (f : MemDie → MemDie) : State :=
  { s with dram := { s.dram with dies := Tab.upd {} s.dram.dies d f } }
def State.updAslet (s : State) (f : Aslet → Aslet) : State := { s with aslet := f s.aslet }
def State.updPower (s : State) (f : Power → Power) : State := { s with power := f s.power }
def State.updThermal (s : State) (f : Thermal → Thermal) : State := { s with thermal := f s.thermal }
def State.updService (s : State) (f : Service → Service) : State := { s with service := f s.service }
def State.updSec (s : State) (f : Security → Security) : State := { s with sec := f s.sec }

def Square.player (x : Square) (n : Nat) : Player := Tab.get {} x.players n
def Square.updPlayer (x : Square) (n : Nat) (f : Player → Player) : Square :=
  { x with players := Tab.upd {} x.players n f }
def Square.entry (x : Square) (e : Nat) : Entry := Tab.get {} x.chain e
def Square.updEntry (x : Square) (e : Nat) (f : Entry → Entry) : Square :=
  { x with chain := Tab.upd {} x.chain e f }
def State.player (s : State) (q n : Nat) : Player := (s.sq q).player n
def State.updPlayer (s : State) (q n : Nat) (f : Player → Player) : State := s.updSq q (fun x => x.updPlayer n f)
def State.entry (s : State) (q e : Nat) : Entry := (s.sq q).entry e
def State.updEntry (s : State) (q e : Nat) (f : Entry → Entry) : State := s.updSq q (fun x => x.updEntry e f)
def State.session (s : State) (n : Nat) : Option Session := (s.sec.sessions.find? (fun x => x.1 == n)).map (·.2)
def State.putSession (s : State) (n : Nat) (x : Session) : State :=
  s.updSec (fun c => { c with sessions := Tab.put c.sessions n x })
def State.updSession (s : State) (n : Nat) (f : Session → Session) : State :=
  match s.session n with
  | some x => s.putSession n (f x)
  | none => s

/-- A counter saturates and never wraps (R430). -/
def satAdd (n k : Nat) : Nat := min (n + k) (2 ^ 64 - 1)

/-- Count in object 8000 (Table OBD-10). -/
def State.count (s : State) (sub : Nat) : State :=
  { s with counters := Tab.upd 0 s.counters sub (fun n => satAdd n 1) }

/-- The module's Movers and their channels (Table MOV-1). -/
def moverChannels : MoverId → Nat
  | .square _ => 16
  | .host => 32
  | .link _ => 8

/-- Whether the module has the Mover and the channel. -/
def moverHas (m : MoverId) (ch : Nat) : Bool :=
  match m with
  | .square q => decide (q < 144) && decide (ch < 16)
  | .host => decide (ch < 32)
  | .link l => decide (l < 96) && decide (ch < 8)

def State.channel (s : State) (m : MoverId) (ch : Nat) : Channel :=
  match m with
  | .square q => Tab.get {} (s.sq q).mover ch
  | .host => Tab.get {} s.aslet.movers ch
  | .link l => Tab.get {} (s.link l).movers ch

def State.updChannel (s : State) (m : MoverId) (ch : Nat) (f : Channel → Channel) : State :=
  match m with
  | .square q => s.updSq q (fun x => { x with mover := Tab.upd {} x.mover ch f })
  | .host => s.updAslet (fun a => { a with movers := Tab.upd {} a.movers ch f })
  | .link l => s.updLink l (fun x => { x with movers := Tab.upd {} x.movers ch f })

/-- The next number of the free-value counter, and the state that has used it. -/
def State.draw (s : State) : Nat × State := (s.fresh, { s with fresh := s.fresh + 1 })

/-! ### Ownership -/

/-- The partition that owns a logical Square (R32). -/
def State.owner (s : State) (q : Nat) : Option Nat := (s.sq q).owner

/-- The partition number of a Square whose Player runs; a Square without an owner runs none (R34). -/
def State.partOf (s : State) (q : Nat) : Nat := (s.owner q).getD 0

/-- The logical Squares of a partition, rising. -/
def State.squaresOf (s : State) (p : Nat) : List Nat :=
  (List.range 144).filter (fun q => decide (s.owner q = some p))

/-- All Mover channels of the module, by Mover (R146). -/
def allMovers : List MoverId :=
  (List.range 144).map MoverId.square ++ [MoverId.host] ++ (List.range 96).map MoverId.link

/-- A busy channel (R148). -/
def Channel.busy (c : Channel) : Bool := decide (c.phase ≠ .idle)

/-- The busy channels of a partition. -/
def State.busyChannels (s : State) (p : Nat) : List (MoverId × Nat) :=
  allMovers.flatMap (fun m => ((List.range (moverChannels m)).filter (fun ch =>
    let c := s.channel m ch
    c.busy && decide (c.partition = p))).map (fun ch => (m, ch)))

/-! ### Status flags and events -/

/-- Hardware sets a status flag of 1001 and counts it (R422, R434; log 8). -/
def State.setFlag (s : State) (b : Nat) : State :=
  { s with statusFlags := s.statusFlags ||| 1 <<< b
           flagEvents := Tab.upd 0 s.flagEvents b (fun n => satAdd n 1) }

/-- The 64 bytes of an event record with its number in a session (Table ULY-4). -/
def Event.bytes (e : Event) (number : Nat) : List Byte :=
  leBytes 8 e.time ++ leBytes 1 e.cls ++ leBytes 1 e.detail ++ leBytes 1 (e.part.getD 16) ++ [0] ++ leBytes 4 number
    ++ leBytes 16 (Config.locationBytes (e.loc.map (fun x => (x.1.ctorIdx, x.2)))).toNat
    ++ leBytes 32 (Config.argumentBytes e.arg).toNat

/-- Which sessions receive an event (R413): Operator and Service every one, a Tenant those of its partition and the
module-level ones of classes 0x11, 0x60 and 0x90. -/
def Event.goesTo (e : Event) (sess : Nat) : Bool :=
  decide (sess < 2) || decide (e.part = some (sess - 2)) ||
    (e.part.isNone && (decide (e.cls = 0x11) || decide (e.cls = 0x60) || decide (e.cls = 0x90)))

/-- The copy that a session receives: for a Sealed partition the Operator and Service copies of classes 0x30, 0x31 and
0x40 to 0x42 carry Location and Argument as zeros (R413). -/
def Event.copyFor (e : Event) (sess : Nat) (sealed : Bool) : Event :=
  if sealed && decide (sess < 2) && (e.cls = 0x30 || e.cls = 0x31 || (decide (0x40 ≤ e.cls) && decide (e.cls ≤ 0x42)))
  then { e with loc := [], arg := [] } else e

/-! ### Identity (R382, R388) -/

/-- Bytes of a SHA-384 digest. -/
def digestBytes (d : BitVec 384) : List Byte := leBytes 48 d.toNat

/-- The alias private scalar of a firmware (R388). -/
def aliasScalar (measurement : BitVec 384) : Nat :=
  leNat (Config.hkdfLong (Config.hkdfExtract (digestBytes measurement) (leBytes 48 Config.deviceIdentity).reverse) (textBytes "alias")
    56).reverse % (Config.curveOrder - 1) + 1

/-- The alias key's signature of a digest. -/
def State.aliasSign (s : State) (d : BitVec 384) : List Byte := Config.ecdsaSign (aliasScalar s.service.fwMeasurement) d

/-- The device (3) or link (5) identity certificate: subject serial DeviceSerial, issued by the product CA. -/
def identityCert (k scalar : Nat) : List Byte :=
  let body := Config.identityBody k Config.deviceSerial (Config.publicKey scalar)
  Config.certOf body (Config.productCaSign (Config.sha384 body))

/-- The certificates of 7000 (R382): the alias certificate carries FirmwareMeasurement and is issued by the device identity key. -/
def State.certificate (s : State) (k : Nat) : List Byte :=
  if k = 3 then identityCert 3 Config.deviceIdentity
  else if k = 5 then identityCert 5 Config.linkIdentity
  else if k = 4 then
    let m := s.service.fwMeasurement
    let body := Config.aliasBody s.sec.aliasGeneration m (Config.publicKey (aliasScalar m))
    Config.certOf body (Config.ecdsaSign Config.deviceIdentity (Config.sha384 body))
  else Config.certificate k 0

/-- The 36-byte key of one direction of a session (R385). -/
def Session.key (x : Session) (toHost : Bool) : BitVec 288 :=
  Config.hkdfExpand x.prk (textBytes (if toHost then "ulyan d2h" else "ulyan h2d"))

/-- Header bytes 0x00 to 0x0F of a Ulyan frame (Table ULY-1); `rsv` gives the reserved bits of bytes 0x02 and 0x03. -/
def ulyHead (version kind : Nat) (isSealed : Bool) (rsv requestId sequence : Nat) : List Byte :=
  leBytes 1 version ++ leBytes 1 kind ++ leBytes 1 ((if isSealed then 1 else 0) + 2 * (rsv % 128)) ++
    leBytes 1 (rsv / 128) ++ leBytes 4 requestId ++ leBytes 8 sequence

/-- Header bytes 0x10 to 0x1F. -/
def ulyTail (index sub rsv length code : Nat) : List Byte :=
  leBytes 2 index ++ leBytes 1 sub ++ leBytes 1 rsv ++ leBytes 4 length ++ leBytes 4 code ++ leBytes 4 (rsv / 256)

/-- A frame on the wire: sealed under a key, or in the clear (R405). -/
def ulyWire (key : Option (BitVec 288)) (sequence : Nat) (head tail payload : List Byte) (tag : Option (BitVec 128)) :
    List Byte :=
  match key with
  | none => head ++ tail ++ payload
  | some k => head ++ gcmApply k sequence 0 (tail ++ payload) ++
      leBytes 16 ((tag.getD (Config.gcmTag k sequence head (tail ++ payload))).toNat)

/-- The bytes of a frame that the module sends. -/
def Response.wire (f : Response) (x : Option Session) : List Byte :=
  ulyWire (x.map (fun y => y.key true)) f.sequence
    (ulyHead f.version f.kind x.isSome 0 f.requestId f.sequence)
    (ulyTail f.index f.sub 0 f.value.length f.code) f.value none

/-- Put a frame on its carrier: in the tunnel it is a MESSAGE of its channel (R372). -/
def State.putFrame (s : State) (f : Response) (x : Option Session) : State :=
  let s1 : State := { s with responses := s.responses ++ [f] }
  match f.carrier with
  | .mgmt _ => s1
  | .tunnel ch => s1.updAslet (fun a => a.send { kind := 5, channel := ch, data := f.wire x, length := (f.wire x).length })

/-- Send a frame of a session: it takes the next Sequence of its direction; an unsealed frame carries 0 (R404, R405). -/
def State.sendFrame (s : State) (sess : Option Nat) (f : Response) : State :=
  match sess with
  | none => s.putFrame { f with session := none, sequence := 0 } none
  | some n =>
    let x := s.session n
    let q := (x.map (fun y => y.txSeq)).getD 0
    let v := (x.map (fun y => y.version)).getD f.version
    (s.putFrame { f with session := some n, sequence := q, version := v } x).updSession n (fun y => { y with txSeq := q + 1 })

/-- Send an EVENT frame with one record (Table ULY-2). -/
def State.sendEvent (s : State) (sess number : Nat) (c : Carrier) (e : Event) : State :=
  s.sendFrame (some sess)
    { carrier := c, session := some sess, version := 1, sequence := 0, requestId := 0, kind := 0x08, index := 0, sub := 0, code := 0
      value := e.bytes number }

/-- Put one event record into a session's queue and send it (R414): at most 256 unacknowledged; beyond that it is lost
for the session, counted and flagged. A session that lost events is told by class 0x90 detail 0xFF in its next EVENT. -/
def State.deliver (s : State) (e : Event) (sess : Nat) : State :=
  match s.session sess with
  | none => s
  | some x =>
    if x.unacked.length < 256 then
      let s1 :=
        if x.lost = 0 then s
        else
          let n : Event := { time := s.now, cls := 0x90, detail := 0xFF, part := none, loc := [], arg := [x.lost] }
          (s.updSession sess (fun y => { y with unacked := y.unacked ++ [(y.nextEvent, n)]
                                                nextEvent := y.nextEvent + 1, lost := 0 })).sendEvent sess x.nextEvent
            x.carrier n
      let k := if x.lost = 0 then x.nextEvent else x.nextEvent + 1
      (s1.updSession sess (fun y => { y with unacked := y.unacked ++ [(k, e)], nextEvent := k + 1 })).sendEvent sess k
        x.carrier e
    else
      ((s.updSession sess (fun y => { y with lost := y.lost + 1 })).count 8).setFlag 4

/-- Raise an event: into the history of 1003 (the last 1,024) and to the sessions (R412, R413). -/
def State.raise (s : State) (cls detail : Nat) (part : Option Nat) (loc : List (LocKind × Nat)) (arg : List Nat) :
    State :=
  let e : Event := { time := s.now, cls := cls, detail := detail, part := part, loc := loc, arg := arg }
  let h := s.events ++ [e]
  let s1 := { s with events := h.drop (h.length - 1024), eventsRaised := s.eventsRaised + 1 }
  let sealed := match part with
    | some p => (s.part p).sealed
    | none => false
  (s.sec.sessions.map (·.1)).foldl
    (fun t sess => if e.goesTo sess then t.deliver (e.copyFor sess sealed) sess else t) s1

/-- Move the module time on to an instant that a command names, never back. -/
def State.reach (s : State) (t : Nat) : State := { s with now := max s.now t }

end Sys2Proof.Machine
end

