-- ==== Sys2Proof/Machine/Sectors.lean ====
section
/-!
DEFINITION. Where a physical address lies (R306), what a stored sector holds (R302), and what the device region holds at each
offset (R504): Book areas, page maps, translation tables (R132, R133).
-/

namespace Sys2Proof.Machine

open Sys2Proof

/-! ### Places (R306) -/

def paChunk (pa : Nat) : Nat := fld pa 12 29
def paLane (pa : Nat) : Nat :=
  let c := paChunk pa
  fld c 0 11 ^^^ fld c 11 11 ^^^ (fld c 22 7 * 4)
def paStack (pa : Nat) : Nat := 4 * fld (paLane pa) 0 3 + fld (paLane pa) 3 2
def paChannel (pa : Nat) : Nat := fld (paLane pa) 5 6
def paRow (pa : Nat) : Nat := fld (paChunk pa) 11 18
def paByte (pa : Nat) : Nat := pa % 4096

/-- The physical channel that serves a logical one (R301). -/
def Stack.physical (x : Stack) (ch : Nat) : Nat := Tab.get ch x.map ch

/-- The key of a stored sector: stack, physical channel, chunk index r, sector within the chunk. -/
def sectorKeyAt (st phys r sec : Nat) : Nat := ((st * 66 + phys) * 2 ^ 18 + r) * 64 + sec

def State.physOf (s : State) (pa : Nat) : Nat := (s.stack (paStack pa)).physical (paChannel pa)

def State.sectorKey (s : State) (pa : Nat) : Nat :=
  sectorKeyAt (paStack pa) (s.physOf pa) (paRow pa) (paByte pa / 64)

/-- The physical address of a sector of a logical channel: chunk r and sector within the chunk (R306 inverted). -/
def placeAddress (st ch r sec : Nat) : Nat :=
  let l := ch * 32 + st % 4 * 8 + st / 4
  let low := l ^^^ fld r 0 11 ^^^ (fld r 11 7 * 4)
  (r * 2048 + low % 2048) * 4096 + sec * 64

/-- The physical address that a stored sector's key serves: its logical channel, or the one that a migration copies. -/
def State.keyAddress (s : State) (key : Nat) : Option Nat :=
  let st := key / (64 * 2 ^ 18 * 66)
  let phys := key / (64 * 2 ^ 18) % 66
  let r := key / 64 % 2 ^ 18
  let d := s.memDie (st / 4)
  let ch := match (List.range 64).find? (fun c => decide ((s.stack st).physical c = phys)) with
    | some c => some c
    | none => if decide (d.mig ≠ MigPhase.idle) && decide (d.migStack = st) && decide (d.migSpare = phys) then some d.migChannel else none
  ch.map (fun c => placeAddress st c r (key % 64))

/-- The device region (R36, R311). -/
def deviceBase : Nat := 0x1F800000000
def inDevice (pa : Nat) : Bool := decide (deviceBase ≤ pa) && decide (pa < 2 ^ 41)
/-- The other copy of a device-region address (R311). -/
def mirrorOf (pa : Nat) : Nat := pa ^^^ 2 ^ 34
/-- The owner number of the device region in a Tag (R394). -/
def deviceOwner : Nat := 16

/-! ### Translation entries (Table TDB-3) and page-map runs (Table OBD-4) -/

/-- A valid level-2 entry: the rights of its page, and the page. -/
structure PageEntry where
  read : Bool
  write : Bool
  isLocal : Bool
  page : Nat
  square : Nat
  deriving DecidableEq, Repr

/-- The 64 bits of a level-2 entry. -/
def PageEntry.word (e : PageEntry) : Nat :=
  1 + (if e.read then 2 else 0) + (if e.write then 4 else 0) +
    (if e.isLocal then 8 + e.page % 256 * 2 ^ 16 + e.square % 256 * 2 ^ 24 else e.page % 2 ^ 25 * 2 ^ 16)

/-- A level-2 entry as the walk reads it; with a reserved Kind or a non-zero reserved field it is not valid (R133). -/
def pageEntry (w : Nat) : Option PageEntry :=
  if !bit w 0 || bit w 4 || decide (fld w 5 11 ≠ 0) || decide (fld w 41 23 ≠ 0) then none
  else if bit w 3 then
    if fld w 32 9 ≠ 0 then none
    else some { read := bit w 1, write := bit w 2, isLocal := true, page := fld w 16 8, square := fld w 24 8 }
  else some { read := bit w 1, write := bit w 2, isLocal := false, page := fld w 16 25, square := 0 }

/-- The 64 bits of a level-1 entry that names a table page. -/
def tableEntry (page : Nat) : Nat := 1 + page % 2 ^ 25 * 2 ^ 16

/-- The table page that a level-1 entry names, where it is valid (R133). -/
def tablePage (w : Nat) : Option Nat :=
  if !bit w 0 || decide (fld w 1 15 ≠ 0) || decide (fld w 41 23 ≠ 0) then none else some (fld w 16 25)

/-- A page-map run (Table OBD-4). -/
def PageRun.bytes (r : PageRun) : List Byte :=
  let flags := (if r.read then 2 ^ 26 else 0) + (if r.write then 2 ^ 27 else 0) + (if r.isLocal then 2 ^ 28 else 0)
  leBytes 4 (r.vpage % 2 ^ 26 + flags) ++
    (if r.isLocal then leBytes 1 r.page ++ leBytes 1 r.square ++ [0, 0] else leBytes 4 (r.page % 2 ^ 25)) ++
    leBytes 4 r.pages ++ [0, 0, 0, 0]

def pageMapBytes (m : List PageRun) : List Byte := m.flatMap PageRun.bytes

/-- The entry that a run gives a virtual page. -/
def PageRun.entry (r : PageRun) (vpage : Nat) : PageEntry :=
  { read := r.read, write := r.write, isLocal := r.isLocal, page := r.page + (vpage - r.vpage), square := r.square }

/-- The level-2 entry of a virtual page under a page map, 0 where nothing maps it. -/
def leafWord (m : List PageRun) (vpage : Nat) : Nat :=
  match m.find? (fun r => decide (r.vpage ≤ vpage) && decide (vpage < r.vpage + r.pages)) with
  | some r => (r.entry vpage).word
  | none => 0

/-! ### What the device region holds (R504, Table MEM-12) -/

/-- Offsets of a partition's areas in the device region. -/
def partArea (p : Nat) : Nat := 0x20000000 + p * 0x10000000
def tableArea (p : Nat) : Nat := 0x200000000 + p * 0x20000000

/-- The level-1 entry of an index under a page map: the level-2 table where a page of its range is mapped. -/
def rootWord (p : Nat) (m : List PageRun) (j : Nat) : Nat :=
  if m.any (fun r => decide (r.vpage / 8192 ≤ j) && decide (j ≤ (r.vpage + r.pages - 1) / 8192)) then
    tableEntry ((deviceBase + tableArea p) / 65536 + j)
  else 0

/-- The page that a partition's level-1 table takes, in its run control (R132, R504). -/
def rootPageOf (p : Nat) : Nat := (deviceBase + partArea p + 0x7000000) / 65536 + (Config.rootPage p).val

/-- The aligned 64 bits that a translation table holds at an offset of the device region, as the page map gives them; none
elsewhere. -/
def State.tableContent (s : State) (off : Nat) : Option Nat :=
  if 0x200000000 ≤ off then
    let p := (off - 0x200000000) / 0x20000000
    some (leafWord (s.part p).pageMap (off % 0x20000000 / 8))
  else if 0x20000000 ≤ off ∧ off < 0x120000000 then
    let p := (off - 0x20000000) / 0x10000000
    if (deviceBase + off) / 65536 = (s.part p).trRoot then some (rootWord p (s.part p).pageMap (off % 65536 / 8)) else none
  else none

/-- The byte that the module itself keeps at an offset of the device region: firmware, Books, page maps, tables, run control.
The dictionary's areas stand in `State.dictByte`. -/
def State.deviceContent (s : State) (off : Nat) : Byte :=
  match s.tableContent off with
  | some w => BitVec.ofNat 8 (w / 256 ^ (off % 8))
  | none =>
    if off < 0x10000000 then Config.firmwareByte s.service.fwMeasurement off
    else if 0x20000000 ≤ off ∧ off < 0x120000000 then
      let x := s.part ((off - 0x20000000) / 0x10000000)
      let o := off % 0x10000000
      if o < 0x6000000 then byteAt x.image o
      else if o < 0x7000000 then byteAt (pageMapBytes x.pageMap) (o - 0x6000000)
      else Config.controlByte x.pool x.mdesc [x.turn, x.stepCounter, x.batchCounter, x.epochTurn, x.consecutiveClosures] o
    else 0

/-! ### Stored sectors -/

/-- The side-band of a sector that nothing has written since its page was initialised; a page never initialised is sealed
under no partition's key. -/
def State.pageMeta (s : State) (pa : Nat) : Sector :=
  let k := Tab.get (if inDevice pa then { owner := deviceOwner, key := 0, keyGen := false }
    else ({ owner := 255, key := 0, keyGen := false } : PageKey)) s.dram.pages (pa / 65536)
  { owner := k.owner, key := k.key, keyGen := k.keyGen, reservedBit := false, upset := 0 }

def State.sectorMeta (s : State) (pa : Nat) : Sector := Mem.read (s.pageMeta pa) s.dram.sectors (s.sectorKey pa)

/-- The module's own content stands in a device-region sector: `Dram.cells` then holds what differs from it (log 106). -/
def State.ownContent (s : State) (pa : Nat) : Bool := inDevice pa && decide ((s.sectorMeta pa).owner = deviceOwner)

/-- The plaintext byte last written to an address. -/
def State.plainByte (s : State) (pa : Nat) : Byte :=
  let b := Mem.read 0 s.dram.cells (s.sectorKey pa * 64 + pa % 64)
  if s.ownContent pa then b ^^^ s.deviceContent (pa % 2 ^ 34) else b

/-- The plaintext bytes last written to a sector. -/
def State.sectorBytes (s : State) (pa : Nat) : List Byte := (List.range 64).map (fun i => s.plainByte (pa / 64 * 64 + i))

/-- The aligned 64 bits at an address, as a table walk reads them (R132). -/
def State.tableWord (s : State) (pa : Nat) : Nat :=
  let w := leNat (Mem.readAll 0 s.dram.cells (s.sectorKey pa * 64 + pa % 64) 8)
  if s.ownContent pa then
    match s.tableContent (pa % 2 ^ 34) with
    | some v => w ^^^ v
    | none => leNat ((List.range 8).map (fun i => s.plainByte (pa + i)))
  else w

/-! ### Translation (R132 to R136) -/

/-- Where a virtual address lies. -/
inductive Place where
  | localStore (q off : Nat)
  | stack (pa : Nat)
  deriving DecidableEq, Repr

/-- The level-2 entry of a virtual address, by the two levels of R132, or a detail of Table TDB-4. -/
def State.walk (s : State) (p va : Nat) : Except Nat PageEntry :=
  let root := (s.part p).trRoot
  if root = 0 then .error 0x01
  else match tablePage (s.tableWord (root * 65536 + va / 2 ^ 29 * 8)) with
    | none => .error 0x01
    | some page =>
      match pageEntry (s.tableWord (page * 65536 + va / 65536 % 8192 * 8)) with
      | none => .error 0x02
      | some e => .ok e

/-- Translate a virtual address: a place, or a detail of Table TDB-4. -/
def State.translate (s : State) (p va : Nat) (write : Bool) : Except Nat Place :=
  match s.walk p va with
  | .error d => .error d
  | .ok e =>
    if write && !e.write then .error 0x03
    else if !write && !e.read then .error 0x04
    else if e.isLocal then
      if s.owner e.square = some p then .ok (.localStore e.square (e.page * 65536 + va % 65536)) else .error 0x05
    else .ok (.stack (e.page * 65536 + va % 65536))

/-! ### New content -/

/-- The content of device-region offsets is written anew: both copies hold it with good side-band. -/
def State.freshDevice (s : State) (area : Nat → Bool) : State :=
  let hit := fun (key : Nat) => match s.keyAddress key with
    | some pa => inDevice pa && area (pa % 2 ^ 34)
    | none => false
  { s with dram := { s.dram with cells := s.dram.cells.filter (fun e => !hit (e.1 / 64))
                                 sectors := s.dram.sectors.filter (fun e => !hit e.1) } }

/-- The offsets that record a partition's page map: its area, its level-2 tables and its level-1 table. -/
def mapOffsets (p root off : Nat) : Bool :=
  (decide (partArea p + 0x6000000 ≤ off) && decide (off < partArea p + 0x7000000)) ||
    (decide (tableArea p ≤ off) && decide (off < tableArea p + 0x20000000)) || decide ((deviceBase + off) / 65536 = root)

/-- A partition has a page map from now on, and the device region records it (R134). -/
def State.setPageMap (s : State) (p : Nat) (m : List PageRun) : State :=
  let root := if m.isEmpty then 0 else rootPageOf p
  (s.updPart p (fun x => { x with pageMap := m, trRoot := root })).freshDevice (mapOffsets p (rootPageOf p))

end Sys2Proof.Machine
end

