-- ==== Sys2Proof/Machine/Operands.lean ====
section
/-!
DEFINITION. Operand forms: the fields of operation records (R92), tensor descriptors (R122) with their extent, window and
element addresses (R121 to R128), Mover descriptors (R151), the page map as translation (R132 to R136), block grids
(R137), and the fields of a Book (R81, R82, R115, R274, R350).
-/

namespace Sys2Proof.Machine

open Sys2Proof

/-! ### Records -/

/-- A field of a 32-byte record by byte offset. -/
def recBytes (r : Rec) (off n : Nat) : Nat := fld r.toNat (8 * off) (8 * n)
def recBits (r : Rec) (lo n : Nat) : Nat := fld r.toNat lo n
def recBit (r : Rec) (lo : Nat) : Bool := r.toNat.testBit lo

def recOpcode (r : Rec) : Nat := recBits r 0 8
def recWait (r : Rec) : Bool := recBit r 8
def recPost (r : Rec) : Bool := recBit r 9
def recFence (r : Rec) : Bool := recBit r 10
def recSlot (r : Rec) : Bool := recBit r 11
def recWaitEntry (r : Rec) : Nat := recBits r 16 7
def recWaitSem (r : Rec) : Bool := recBit r 23
def recPostEntry (r : Rec) : Nat := recBits r 24 7
def recPostSem (r : Rec) : Bool := recBit r 31
def recSlotPlayer (r : Rec) : Nat := recBits r 32 4
def recSlotIndex (r : Rec) : Nat := recBits r 36 4

/-- The reserved bits of the header are clear (Table SQP-1). -/
def recHeaderOk (r : Rec) : Bool := decide (recBits r 12 4 = 0) && decide (recBits r 40 24 = 0)

/-- A signed 32-bit field of a body. -/
def recInt (r : Rec) (off : Nat) : Int := sfld r.toNat (8 * off) 32

/-- The body bits of a record are clear but those of a mask of the whole record. -/
def recBodyOk (r : Rec) (used : Nat) : Bool := decide ((r.toNat &&& (2 ^ 256 - 2 ^ 64)) &&& used = r.toNat &&& (2 ^ 256 - 2 ^ 64))

/-- A mask of the bits [lo, lo + n). -/
def bitsAt (lo n : Nat) : Nat := (2 ^ n - 1) <<< lo
/-- A mask of the bytes [off, off + n). -/
def bytesAt (off n : Nat) : Nat := bitsAt (8 * off) (8 * n)

/-! ### Check codes -/

/-- One bit of the CRC-16 of R124: polynomial 0x1021, no reflection. -/
def crc16Bit (c : Nat) (b : Bool) : Nat :=
  let top := c.testBit 15 != b
  let c1 := (c * 2) % 65536
  if top then c1 ^^^ 0x1021 else c1

/-- One byte, most significant bit first. -/
def crc16Byte (c : Nat) (b : Byte) : Nat :=
  [7, 6, 5, 4, 3, 2, 1, 0].foldl (fun c i => crc16Bit c (b.toNat.testBit i)) c

/-- CRC-16 of R124, initial value 0xFFFF. -/
def crc16 (l : List Byte) : Nat := l.foldl crc16Byte 0xFFFF

/-! ### Formats (Table ARI-1) -/

/-- The element-format codes of Table ARI-1. -/
def fmtKnown (f : Nat) : Bool :=
  let c := f % 32
  decide (f < 64) && (decide (c ≤ 8) || (decide (0x10 ≤ c) && decide (c ≤ 0x15))) &&
    (decide (f < 32) || (decide (0x10 ≤ c) && decide (c ≤ 0x15)))

/-- An MX format. -/
def fmtMx (f : Nat) : Bool := decide (0x10 ≤ f % 32) && decide (f % 32 ≤ 0x15)

/-- Bits of one element. -/
def fmtBits (f : Nat) : Nat :=
  match f % 32 with
  | 0x00 => 32 | 0x01 => 16 | 0x02 => 16 | 0x03 => 8 | 0x04 => 8 | 0x05 => 8 | 0x06 => 4 | 0x07 => 32 | 0x08 => 8
  | 0x10 => 4 | 0x11 => 6 | 0x12 => 6 | _ => 8

/-- A format narrower than a byte (R41). -/
def fmtSub (f : Nat) : Bool := decide (fmtBits f < 8)

/-! ### Tensor descriptors -/

/-- The fields of a tensor descriptor (Table TDB-1); `shift` is what an index register added to Base (R128). -/
structure Tensor where
  base : Int
  fmt : Nat
  rank : Nat
  part : Nat
  rread : Bool
  rwrite : Bool
  rlist : Bool
  sizes : List Nat
  strides : List Int
  winStart : Int
  winPages : Nat
  listFmt : Nat
  policy : Nat
  blockCols : Nat
  blockRows : Nat
  anchor : Nat
  deriving DecidableEq, Repr

/-- Read a descriptor, its Base shifted. -/
def tensorOf (d : DescBits) (shift : Int) : Tensor :=
  let n := d.toNat
  { base := (fld n 0 42 : Nat) + shift, fmt := fld n 48 6, rank := fld n 54 3, part := fld n 57 4
    rread := bit n 61, rwrite := bit n 62, rlist := bit n 63
    sizes := (List.range 6).map (fun k => fld n (64 + 24 * k) 24)
    strides := (List.range 6).map (fun k => sfld n (208 + 36 * k) 36)
    winStart := sfld n 424 20, winPages := fld n 444 24, listFmt := fld n 468 2, policy := fld n 470 2
    blockCols := fld n 472 12, blockRows := fld n 484 8, anchor := fld n 0 42 }

/-- The sizes and strides below Rank. -/
def Tensor.dims (t : Tensor) : List (Nat × Int) := (t.sizes.zip t.strides).take t.rank

/-- The element count (R123: 0 when a Size below Rank is 0). -/
def Tensor.count (t : Tensor) : Nat := (t.sizes.take t.rank).foldl (· * ·) 1

def Tensor.size (t : Tensor) (k : Nat) : Nat := t.sizes.getD k 0
def Tensor.stride (t : Tensor) (k : Nat) : Int := t.strides.getD k 0
/-- Size of a dimension, 1 at or above Rank. -/
def Tensor.dim (t : Tensor) (k : Nat) : Nat := if k < t.rank then t.size k else 1
def Tensor.empty (t : Tensor) : Bool := decide (t.count = 0)
def Tensor.bits (t : Tensor) : Nat := fmtBits t.fmt

/-- The width w of R125: the element, or the packed row of a sub-byte format. -/
def Tensor.width (t : Tensor) : Nat := if fmtSub t.fmt then cdiv (t.size 0 * t.bits) 8 else t.bits / 8

/-- The dimensions that enter the extent: dimension 0 of a sub-byte format does not. -/
def Tensor.spanDims (t : Tensor) : List (Nat × Int) := if fmtSub t.fmt then t.dims.drop 1 else t.dims

/-- The extent [lo, hi] of a non-empty tensor (R125). -/
def Tensor.lo (t : Tensor) : Int :=
  t.spanDims.foldl (fun a d => a + min 0 (((d.1 : Int) - 1) * d.2)) t.base
def Tensor.hi (t : Tensor) : Int :=
  t.spanDims.foldl (fun a d => a + max 0 (((d.1 : Int) - 1) * d.2)) t.base + (t.width : Int) - 1

/-- The first byte and the end of the window (R125, R128: anchored to the Base field). -/
def Tensor.winLo (t : Tensor) : Int := (((t.anchor / 65536 : Nat) : Int) + t.winStart) * 65536
def Tensor.winEnd (t : Tensor) : Int := t.winLo + (t.winPages : Int) * 65536

/-- Check 0x17 of Table TDB-2 (R123: an empty tensor has no extent). -/
def Tensor.windowOk (t : Tensor) : Bool :=
  decide (1 ≤ t.winPages) && decide (0 ≤ t.winLo) && decide (t.winEnd ≤ (2 ^ 42 : Nat)) &&
    (t.empty || (decide (t.winLo ≤ t.lo) && decide (t.hi < t.winEnd)))

/-- Insert a dimension by rising |stride|. -/
def insDim (d : Nat × Nat × Int) : List (Nat × Nat × Int) → List (Nat × Nat × Int)
  | [] => [d]
  | e :: r => if d.2.2.natAbs < e.2.2.natAbs then d :: e :: r else e :: insDim d r

/-- The dimensions by rising |stride|, each with its number. -/
def Tensor.byStride (t : Tensor) : List (Nat × Nat × Int) :=
  ((List.range t.rank).map (fun k => (k, t.size k, t.stride k))).foldl (fun l d => insDim d l) []

/-- Nested dimensions (R126), the span so far given. -/
def nestedFrom : Nat → List (Nat × Nat × Int) → Bool
  | _, [] => true
  | span, d :: r => decide (span ≤ d.2.2.natAbs) && nestedFrom (span + (d.2.1 - 1) * d.2.2.natAbs) r

/-- R126: no two elements share a byte. An empty tensor is not judged (R123). -/
def Tensor.nested (t : Tensor) : Bool :=
  t.empty ||
    (let ds := (if fmtSub t.fmt then t.byStride.filter (fun d => decide (d.1 ≠ 0)) else t.byStride).filter
        (fun d => decide (1 < d.2.1))
     nestedFrom t.width ds)

/-- Reserved bits, and Size or Stride at or above Rank (check 0x11). -/
def descReservedOk (d : DescBits) : Bool :=
  let n := d.toNat
  let t := tensorOf d 0
  decide (fld n 42 6 = 0) && decide (fld n 492 4 = 0) &&
    (t.sizes.drop t.rank).all (fun x => decide (x = 0)) && (t.strides.drop t.rank).all (fun x => decide (x = 0))

/-- The check code of R124. -/
def descCheckOk (d : DescBits) : Bool := decide (fld d.toNat 496 16 = crc16 (leBytes 62 d.toNat))

/-- A descriptor with its Check recomputed (R287, R288). -/
def descReseal (n : Nat) : DescBits := BitVec.ofNat 512 (setFld n 496 16 (crc16 (leBytes 62 n)))

/-- The ARM checks of one descriptor in the order of R130; 0 is no failure. -/
def descArmFault (d : DescBits) (p : Nat) : Nat :=
  let t := tensorOf d 0
  if !descCheckOk d then 0x10
  else if t.rank = 0 ∨ t.rank = 7 then 0x13
  else if !fmtKnown t.fmt then 0x12
  else if !descReservedOk d then 0x11
  else if fmtSub t.fmt && decide (t.stride 0 ≠ 0) then 0x16
  else if t.part ≠ p then 0x14
  else if !t.windowOk then 0x17
  else 0

/-- What an operation uses a descriptor for (R127). -/
inductive Use where
  | read | write | list
  deriving DecidableEq, Repr

/-- The issue checks of one descriptor in the order of R130; 0 is no failure. -/
def tensorIssueFault (t : Tensor) (p : Nat) (u : Use) : Nat :=
  if t.part ≠ p then 0x14
  else if !(match u with | .read => t.rread | .write => t.rwrite | .list => t.rlist) then 0x15
  else if !t.windowOk then 0x17
  else if u = .write && !t.nested then 0x18
  else 0

/-- The sidecar of an MX tensor matches it (R42, R505; detail 0x19). -/
def sidecarOk (e sc : Tensor) : Bool :=
  let axis := e.fmt / 32
  decide (sc.fmt = 0x08) && decide (sc.rank = e.rank) &&
    (List.range e.rank).all (fun k => decide (sc.size k = if k = axis then cdiv (e.size k) 32 else e.size k)) &&
    decide (sc.stride 0 = 1) && decide (sc.base % 64 = 0) &&
    (List.range e.rank).all (fun k => k = 0 || decide (sc.size k ≤ 1) || decide (sc.stride k % 64 = 0))

/-- The indices of element n, dimension 0 fastest. -/
def unravel : List Nat → Nat → List Nat
  | [], _ => []
  | d :: r, n => (if d = 0 then 0 else n % d) :: unravel r (if d = 0 then 0 else n / d)

/-- The first byte and the bit within it of the element with given indices (R121, R41). -/
def Tensor.place (t : Tensor) (ix : List Nat) : Int × Nat :=
  if fmtSub t.fmt then
    let a := ((ix.drop 1).zip (t.strides.drop 1)).foldl (fun a x => a + (x.1 : Int) * x.2) t.base
    let b := ix.headD 0 * t.bits
    (a + ((b / 8 : Nat) : Int), b % 8)
  else ((ix.zip t.strides).foldl (fun a x => a + (x.1 : Int) * x.2) t.base, 0)

/-- The place of element n in element order. -/
def Tensor.at (t : Tensor) (n : Nat) : Nat × Nat :=
  let x := t.place (unravel (t.sizes.take t.rank) n)
  (x.1.toNat, x.2)

/-- The element's place in a tensor addressed by row and column: dimension 0 the column, dimension 1 the row. -/
def Tensor.at2 (t : Tensor) (col row : Nat) : Nat × Nat :=
  let x := t.place [col, row]
  (x.1.toNat, x.2)

/-! ### Block grids (R137, R138) -/

def Tensor.blkCols (t : Tensor) : Nat := if t.blockCols = 0 then t.size 0 else t.blockCols
def Tensor.blkRows (t : Tensor) : Nat := if t.blockRows = 0 then 256 else t.blockRows

/-- The grid sizes G0, G1, … . -/
def Tensor.grid (t : Tensor) : List Nat :=
  (List.range t.rank).map (fun k =>
    if k = 0 then (if t.blkCols = 0 then 0 else cdiv (t.size 0) t.blkCols)
    else if k = 1 then cdiv (t.size 1) t.blkRows else t.size k)

def Tensor.blocks (t : Tensor) : Nat := t.grid.foldl (· * ·) 1

/-- Entries of a block list whose Size0 is given (R138). -/
def listEntries (data : Tensor) (list : Tensor) : Nat := if data.listFmt = 1 then list.size 0 / 2 else list.size 0

/-- Malformed list (detail 0x1C) but for the dense side's block count. -/
def listOk (data list : Tensor) : Bool :=
  decide (data.listFmt < 2) && decide (data.policy < 3) && decide (list.rank = 1) && decide (list.fmt = 0x07) &&
    decide (list.stride 0 = 4) && (decide (data.listFmt = 0) || (decide (data.rank ≤ 2) && decide (list.size 0 % 2 = 0)))

/-- The linear grid index that an entry's words select, if it is in range (Table TDB-5). -/
def entryBlock (data : Tensor) (w0 w1 : Nat) : Option Nat :=
  if data.listFmt = 0 then (if w0 < data.blocks then some w0 else none)
  else
    let g0 := data.grid.getD 0 1
    let g1 := if data.rank < 2 then 1 else data.grid.getD 1 1
    if w0 < g0 ∧ w1 < g1 then some (w0 + g0 * w1) else none

/-- The elements of one block, by position within the block in dense order: the element number within the data tensor, or
none for a missing element of a partial block (R137). -/
def Tensor.blockElems (t : Tensor) (b : Nat) : List (Option (List Nat)) :=
  let g := unravel t.grid b
  let rows := if t.rank < 2 then 1 else t.blkRows
  (List.range (t.blkCols * rows)).map (fun i =>
    let c := g.getD 0 0 * t.blkCols + i % t.blkCols
    let r := g.getD 1 0 * t.blkRows + i / t.blkCols
    if c < t.size 0 ∧ (t.rank < 2 ∨ r < t.size 1) then
      some (if t.rank < 2 then [c] else c :: r :: g.drop 2)
    else none)

/-! ### Mover descriptors (Table MOV-2) -/

def mdSrc (r : Rec) : Nat := recBits r 0 16
def mdDst (r : Rec) : Nat := recBits r 16 16
def mdList (r : Rec) : Nat := recBits r 32 16
def mdKind (r : Rec) : Nat := recBits r 48 3
def mdSwap (r : Rec) : Nat := recBits r 51 3
def mdBarrier (r : Rec) : Bool := recBit r 54
def mdReport (r : Rec) : Bool := recBit r 55
def mdPaceKind (r : Rec) : Nat := recBits r 56 2
def mdRound (r : Rec) : Nat := recBits r 58 2
def mdPaceArg (r : Rec) : Nat := recBits r 64 32
def mdCount (r : Rec) : Nat := recBits r 96 44
def mdSlotEnable (r : Rec) : Bool := recBit r 144
def mdSlotPlayer (r : Rec) : Nat := recBits r 145 4
def mdSlotIndex (r : Rec) : Nat := recBits r 149 4
def mdPostEnable (r : Rec) : Bool := recBit r 153
def mdPostEntry (r : Rec) : Nat := recBits r 154 7
def mdPostSem (r : Rec) : Bool := recBit r 161
def mdBitmapEnable (r : Rec) : Bool := recBit r 162
def mdBitmap (r : Rec) : Nat := recBits r 164 16
def mdNext (r : Rec) : Nat := recBits r 192 32
/-- The end of a chain. -/
def mdEnd : Nat := 0xFFFFFFFF

/-- The CRC-16 of a Mover descriptor over bytes 0x00 to 0x1D. -/
def mdCheckOk (r : Rec) : Bool := decide (recBits r 240 16 = crc16 (leBytes 30 r.toNat))

/-! ### The Book (Tables TTB-6 to TTB-8, SQP-7, STP-1, LNK-8) -/

/-- A section's Offset, Bytes and Entries. -/
def secOffset (b : List Byte) (k : Nat) : Nat := rd b (0x60 + 16 * k) 8
def secBytes (b : List Byte) (k : Nat) : Nat := rd b (0x68 + 16 * k) 4
def secEntries (b : List Byte) (k : Nat) : Nat := rd b (0x6C + 16 * k) 4
/-- A section's bytes. -/
def section_ (b : List Byte) (k : Nat) : List Byte := slice b (secOffset b k) (secBytes b k)
/-- Record i of a section of records of a size. -/
def secRecord (b : List Byte) (k size i : Nat) : List Byte := slice b (secOffset b k + size * i) size

def bookVersion (b : List Byte) : Nat := rd b 4 2
def bookFlags (b : List Byte) : Nat := rd b 6 2
def bookProtocolMin (b : List Byte) : Nat := rd b 0xC 1
def bookTableId (b : List Byte) : Nat := rd b 0x10 8
def bookSeat (b : List Byte) : Nat := rd b 0x18 2 % 4096
def bookSeats (b : List Byte) : Nat := rd b 0x1A 2 % 8192
def bookTurnLength (b : List Byte) : Nat := rd b 0x1C 2
def bookPlanLength (b : List Byte) : Nat := rd b 0x20 4
def bookBound (b : List Byte) : Nat := rd b 0x24 4
def bookSquareMask (b : List Byte) : Nat := rd b 0x28 18
def bookJobSeed (b : List Byte) : Nat := rd b 0x40 16
def bookDigest (b : List Byte) : Nat := rd b 0x50 8
def bookBytes (b : List Byte) : Nat := rd b 0x58 8

/-- Plan entry i (Table TTB-8). -/
def planSegment (b : List Byte) (i : Nat) : Nat := rd (secRecord b 1 16 i) 0 4
def planFlags (b : List Byte) (i : Nat) : Nat := rd (secRecord b 1 16 i) 4 2
def planSlotSet (b : List Byte) (i : Nat) : Nat := rd (secRecord b 1 16 i) 6 2
def planFinish (b : List Byte) (i : Nat) : Nat := rd (secRecord b 1 16 i) 8 4

/-- The records of section 3 and of section 5, 64 bytes each. -/
def linkRecords (b : List Byte) : List (List Byte) := (List.range (secEntries b 3)).map (secRecord b 3 64)
def stepRecords (b : List Byte) : List (List Byte) := (List.range (secEntries b 5)).map (secRecord b 5 64)

/-- The step-gate record (Table STP-1), where the Book has one. -/
def gateRecord (b : List Byte) : Option (List Byte) := (stepRecords b).find? (fun r => decide (rd r 0 1 = 0x01))
def gateClosedAction (r : List Byte) : Nat := rd r 1 1 % 4
def gateMaxClosures (r : List Byte) : Nat := rd r 2 2
def gateOffset (r : List Byte) : Nat := rd r 4 4
def gateUpdateCount (r : List Byte) : Nat := rd r 8 4
def gateWord (r : List Byte) : Nat := rd r 0xC 4
def gateEvalEvery (r : List Byte) : Nat := rd r 0x10 2
def gateParent (r : List Byte) : Nat := rd r 0x12 2 % 4096
def gateChildren (r : List Byte) : List Nat := (List.range (min 8 (rd r 0x14 1))).map (fun i => rd r (0x18 + 2 * i) 2 % 4096)

/-- The Turn length in force, ns (R66, R86). -/
def Partition.lengthNs (x : Partition) : Nat :=
  1000 * (if x.turnLength = 0 then bookTurnLength x.book else x.turnLength)

/-- The start instant of Turn n (R66). -/
def Partition.turnStart (x : Partition) (n : Nat) : Nat := x.epoch + (n - x.epochTurn) * x.lengthNs

/-- The plan entry of Turn n. -/
def Partition.planIndex (x : Partition) (n : Nat) : Nat :=
  if bookPlanLength x.book = 0 then 0 else n % bookPlanLength x.book

/-- The Square blocks of section 0: the offset of each block from the Book start. -/
def blockOffsets (b : List Byte) : Nat → Nat → List Nat
  | 0, _ => []
  | n + 1, off => off :: blockOffsets b n (off + rd b (off + 4) 4)

def bookBlocks (b : List Byte) : List Nat := blockOffsets b (secEntries b 0) (secOffset b 0)
def blockSquare (b : List Byte) (off : Nat) : Nat := rd b off 1
def blockSegments (b : List Byte) (off : Nat) : Nat := rd b (off + 2) 2
def blockSize (b : List Byte) (off : Nat) : Nat := rd b (off + 4) 4
def blockRecordsOffset (b : List Byte) (off : Nat) : Nat := rd b (off + 8) 8
def blockRecordCount (b : List Byte) (off : Nat) : Nat := (blockSize b off - blockRecordsOffset b off) / 32
def blockEntryBits (b : List Byte) (off e : Nat) : Nat := rd b (off + 32 + 8 * e) 8
def blockSegment (b : List Byte) (off i : Nat) : Segment :=
  let o := off + 32 + 1024 + 32 * i
  { first := rd b o 4, count := rd b (o + 4) 4, share := (List.range 16).map (fun k => rd b (o + 16 + k) 1) }
def blockRecord (b : List Byte) (off i : Nat) : Rec := BitVec.ofNat 256 (rd b (off + blockRecordsOffset b off + 32 * i) 32)

end Sys2Proof.Machine
end

