-- ==== Sys2Proof/Machine/Fp.lean ====
section
/-!
DEFINITION. Number formats and their arithmetic: decoded values, rounding (R44, R47, R48), exact sums and products, the
correctly rounded operations of FP32, BF16 and FP16 (R57), conversion of MX blocks (R45, R46), and the Dice generator
(R49 to R51).
-/

namespace Sys2Proof.Machine

open Sys2Proof

/-- A decoded number: NaN, an infinity, or (-1)^neg * m * 2^e exactly. -/
inductive Val where
  | nan
  | inf (neg : Bool)
  | fin (neg : Bool) (m : Nat) (e : Int)
  deriving DecidableEq, Repr

/-- How a float format codes its top exponent: infinities and NaNs, one NaN magnitude only, or numbers only. -/
inductive FpKind where
  | ieee | oneNan | numbers
  deriving DecidableEq, Repr

/-- A float format: exponent bits, mantissa bits, bias, kind (Table ARI-1). -/
structure FpFmt where
  eb : Nat
  mb : Nat
  bias : Nat
  kind : FpKind
  deriving DecidableEq, Repr

/-- The float format of a code of Table ARI-1; none for the integer formats and E8M0. -/
def fpFmt (f : Nat) : Option FpFmt :=
  match f % 32 with
  | 0x00 => some { eb := 8, mb := 23, bias := 127, kind := .ieee }
  | 0x01 => some { eb := 8, mb := 7, bias := 127, kind := .ieee }
  | 0x02 => some { eb := 5, mb := 10, bias := 15, kind := .ieee }
  | 0x03 => some { eb := 4, mb := 3, bias := 7, kind := .oneNan }
  | 0x04 => some { eb := 5, mb := 2, bias := 15, kind := .ieee }
  | 0x10 => some { eb := 2, mb := 1, bias := 1, kind := .numbers }
  | 0x11 => some { eb := 2, mb := 3, bias := 1, kind := .numbers }
  | 0x12 => some { eb := 3, mb := 2, bias := 3, kind := .numbers }
  | 0x13 => some { eb := 4, mb := 3, bias := 7, kind := .oneNan }
  | 0x14 => some { eb := 5, mb := 2, bias := 15, kind := .ieee }
  | _ => none

def fmtFP32 : FpFmt := { eb := 8, mb := 23, bias := 127, kind := .ieee }
def fmtBF16 : FpFmt := { eb := 8, mb := 7, bias := 127, kind := .ieee }
def fmtFP16 : FpFmt := { eb := 5, mb := 10, bias := 15, kind := .ieee }

/-- Width of an integer format, and the power of two its unit stands for. -/
def intFmt (f : Nat) : Option (Nat × Int) :=
  match f % 32 with
  | 0x05 => some (8, 0)
  | 0x06 => some (4, 0)
  | 0x07 => some (32, 0)
  | 0x15 => some (8, -6)
  | _ => none

/-! ### Decoding -/

def FpFmt.expMax (f : FpFmt) : Nat := 2 ^ f.eb - 1
def FpFmt.signBit (f : FpFmt) : Nat := f.eb + f.mb
/-- The exponent of the last place of the subnormals. -/
def FpFmt.minQ (f : FpFmt) : Int := 1 - (f.bias : Int) - (f.mb : Int)
/-- The code of the largest finite magnitude. -/
def FpFmt.maxCode (f : FpFmt) : Nat :=
  match f.kind with
  | .ieee => f.expMax * 2 ^ f.mb - 1
  | .oneNan => 2 ^ (f.eb + f.mb) - 2
  | .numbers => 2 ^ (f.eb + f.mb) - 1
/-- The canonical NaN (R46). -/
def FpFmt.nanCode (f : FpFmt) : Nat :=
  match f.kind with
  | .ieee => f.expMax * 2 ^ f.mb + 2 ^ (f.mb - 1)
  | .oneNan => 2 ^ (f.eb + f.mb) - 1
  | .numbers => 0

/-- The number that a code of a float format spells. -/
def FpFmt.dec (f : FpFmt) (bits : Nat) : Val :=
  let neg := bits.testBit f.signBit
  let mag := bits % 2 ^ f.signBit
  let ex := mag / 2 ^ f.mb
  let fr := mag % 2 ^ f.mb
  if f.kind = .ieee ∧ ex = f.expMax then (if fr = 0 then .inf neg else .nan)
  else if f.kind = .oneNan ∧ mag = 2 ^ f.signBit - 1 then .nan
  else if ex = 0 then .fin neg fr f.minQ
  else .fin neg (2 ^ f.mb + fr) (f.minQ + (ex : Int) - 1)

/-- The number of an element of any format; E8M0 bytes are read by `mxScale`. -/
def decElem (f bits : Nat) : Val :=
  match fpFmt f with
  | some g => g.dec bits
  | none =>
    match intFmt f with
    | some (w, q) =>
      let v := sfld bits 0 w
      .fin (decide (v < 0)) v.natAbs q
    | none => .nan

/-- The power of two of an E8M0 byte other than 0xFF (R43). -/
def mxScale (b : Nat) : Int := (b : Int) - 127

/-! ### Rounding -/

/-- Rounding modes of R47; stochastic rounding carries its Dice word. -/
inductive Round where
  | nearest
  | zero
  | dice (r : Nat)
  deriving DecidableEq, Repr

/-- A rounding-mode field, with the Dice word for code 0b10. -/
def roundOf (code dice : Nat) : Round := if code = 1 then .zero else if code = 2 then .dice dice else .nearest

/-- A magnitude k + rem / 2^sh rounded to an integer (R47, R48). -/
def roundInt (r : Round) (k rem sh : Nat) : Nat :=
  match r with
  | .nearest =>
    if 2 ^ sh < 2 * rem then k + 1
    else if 2 * rem = 2 ^ sh ∧ k % 2 = 1 then k + 1
    else k
  | .zero => k
  | .dice w => if 2 ^ 32 ≤ rem * 2 ^ 32 / 2 ^ sh + w then k + 1 else k

/-- m * 2^e as an integer number of units 2^q, rounded. -/
def scaleRound (r : Round) (m : Nat) (e q : Int) : Nat :=
  if q ≤ e then m * 2 ^ (e - q).toNat
  else
    let sh := (q - e).toNat
    roundInt r (m / 2 ^ sh) (m % 2 ^ sh) sh

/-- The code of a magnitude m * 2^e in a float format with no upper limit on the exponent. -/
def FpFmt.magCode (f : FpFmt) (r : Round) (m : Nat) (e : Int) : Nat :=
  if m = 0 then 0
  else
    let q := max ((Nat.log2 m : Nat) + e - (f.mb : Int)) f.minQ
    (q - f.minQ).toNat * 2 ^ f.mb + scaleRound r m e q

def FpFmt.withSign (f : FpFmt) (neg : Bool) (mag : Nat) : Nat := (if neg then 2 ^ f.signBit else 0) + mag

/-- A number converted to a float format: its code, and whether a finite number passed the largest finite magnitude.
`sat` makes a finite overflow saturate in a format with infinities too (R45). -/
def FpFmt.enc (f : FpFmt) (r : Round) (sat : Bool) (v : Val) : Nat × Bool :=
  match v with
  | .nan => (f.nanCode, false)
  | .inf neg =>
    (f.withSign neg (if f.kind = .ieee then f.expMax * 2 ^ f.mb else f.maxCode), decide (f.kind ≠ .ieee))
  | .fin neg m e =>
    let c := f.magCode r m e
    if c ≤ f.maxCode then (f.withSign neg c, false)
    else
      (f.withSign neg (if f.kind = .ieee ∧ ¬ sat ∧ r ≠ .zero then f.expMax * 2 ^ f.mb else f.maxCode), true)

/-- A number rounded to a two's-complement format of w bits with unit 2^q, saturating (R44): its code and whether it
saturated; NaN gives 0 and counts as saturated (R46, R230). -/
def encInt (w : Nat) (q : Int) (r : Round) (v : Val) : Nat × Bool :=
  match v with
  | .nan => (0, true)
  | .inf neg => (if neg then 2 ^ (w - 1) else 2 ^ (w - 1) - 1, true)
  | .fin neg m e =>
    let k := scaleRound r m e q
    if neg then (if k ≤ 2 ^ (w - 1) then ((2 ^ w - k) % 2 ^ w, false) else (2 ^ (w - 1), true))
    else if k < 2 ^ (w - 1) then (k, false) else (2 ^ (w - 1) - 1, true)

/-- A number converted to any element format but E8M0: its code, whether it saturated in a format without infinities, and
whether it became infinite or was cut from a finite value (R44). -/
def encElem (f : Nat) (r : Round) (v : Val) : Nat × Bool × Bool :=
  match fpFmt f with
  | some g =>
    let c := g.enc r false v
    (c.1, c.2 && decide (g.kind ≠ .ieee), c.2 && decide (g.kind = .ieee))
  | none =>
    match intFmt f with
    | some (w, q) => let c := encInt w q r v; (c.1, c.2, false)
    | none => (0, false, false)

/-! ### Exact arithmetic -/

def Val.isNan : Val → Bool
  | .nan => true
  | _ => false
def Val.isInf : Val → Bool
  | .inf _ => true
  | _ => false
def Val.isFin : Val → Bool
  | .fin _ _ _ => true
  | _ => false
def Val.isZero : Val → Bool
  | .fin _ m _ => decide (m = 0)
  | _ => false
def Val.neg : Val → Bool
  | .nan => false
  | .inf n => n
  | .fin n _ _ => n
def Val.negate : Val → Val
  | .nan => .nan
  | .inf n => .inf !n
  | .fin n m e => .fin (!n) m e
/-- The signed magnitude of a finite number in units of 2^q below its own exponent. -/
def Val.units (v : Val) (q : Int) : Int :=
  match v with
  | .fin n m e => let k := ((m * 2 ^ (e - q).toNat : Nat) : Int); if n then -k else k
  | _ => 0
def Val.exp (v : Val) : Int :=
  match v with
  | .fin _ _ e => e
  | _ => 0
/-- A finite number times a power of two. -/
def Val.scale (v : Val) (k : Int) : Val :=
  match v with
  | .fin n m e => .fin n m (e + k)
  | x => x

def valZero : Val := .fin false 0 0
def valOne : Val := .fin false 1 0
def valNat (n : Nat) : Val := .fin false n 0
def valInt (n : Int) : Val := .fin (decide (n < 0)) n.natAbs 0

/-- An exact product. -/
def Val.mul (a b : Val) : Val :=
  match a, b with
  | .nan, _ => .nan
  | _, .nan => .nan
  | .inf n, y => if y.isZero then .nan else .inf (n != y.neg)
  | x, .inf n => if x.isZero then .nan else .inf (x.neg != n)
  | .fin n m e, .fin n' m' e' => .fin (n != n') (m * m') (e + e')

/-- An exact sum. An exact zero is +0 unless both terms are -0 (R55). -/
def Val.add (a b : Val) : Val :=
  match a, b with
  | .nan, _ => .nan
  | _, .nan => .nan
  | .inf n, .inf n' => if n = n' then .inf n else .nan
  | .inf n, _ => .inf n
  | _, .inf n => .inf n
  | .fin n m e, .fin n' m' e' =>
    let q := min e e'
    let k := Val.units (.fin n m e) q + Val.units (.fin n' m' e') q
    if k = 0 then .fin (n && n' && decide (m = 0) && decide (m' = 0)) 0 q else .fin (decide (k < 0)) k.natAbs q

/-- The sum of a list of exact numbers. -/
def valSum : List Val → Val
  | [] => valZero
  | [v] => v
  | v :: r => v.add (valSum r)

/-- A quotient with enough bits and a last bit that keeps what is below them, so that one rounding of it is the correct
rounding of the exact quotient. -/
def Val.div (a b : Val) : Val :=
  match a, b with
  | .nan, _ => .nan
  | _, .nan => .nan
  | .inf _, .inf _ => .nan
  | .inf n, y => .inf (n != y.neg)
  | x, .inf n => .fin (x.neg != n) 0 0
  | .fin n m e, .fin n' m' e' =>
    if m' = 0 then (if m = 0 then .nan else .inf (n != n'))
    else
      let k := m * 2 ^ 90
      .fin (n != n') (2 * (k / m') + (if k % m' = 0 then 0 else 1)) (e - e' - 91)

/-- The integer square root, bit by bit from bit i. -/
def isqrtFrom (n : Nat) : Nat → Nat → Nat
  | 0, r => r
  | i + 1, r => isqrtFrom n i (if (r + 2 ^ i) * (r + 2 ^ i) ≤ n then r + 2 ^ i else r)

def isqrt (n : Nat) : Nat := isqrtFrom n (Nat.log2 n / 2 + 1) 0

/-- A square root, with its tail kept in the last bit as in `Val.div`. -/
def Val.sqrt (a : Val) : Val :=
  match a with
  | .nan => .nan
  | .inf n => if n then .nan else .inf false
  | .fin n m e =>
    if m = 0 then .fin n 0 e
    else if n then .nan
    else
      let odd := e % 2 ≠ 0
      let k := (if odd then m * 2 else m) * 2 ^ 120
      let e' := (if odd then e - 1 else e) - 120
      let r := isqrt k
      .fin false (2 * r + (if r * r = k then 0 else 1)) (e' / 2 - 1)

/-- Comparison of two numbers that are not NaN: -1, 0 or 1. -/
def Val.cmp (a b : Val) : Int :=
  match a, b with
  | .inf n, .inf n' => if n = n' then 0 else if n then -1 else 1
  | .inf n, _ => if n then -1 else 1
  | _, .inf n => if n then 1 else -1
  | x, y =>
    let q := min x.exp y.exp
    let k := x.units q - y.units q
    if k < 0 then -1 else if k = 0 then 0 else 1

def Val.lt (a b : Val) : Bool := !a.isNan && !b.isNan && decide (a.cmp b < 0)

/-- IEEE 754-2019 minimum and maximum: NaN propagates, -0 is below +0. -/
def Val.maximum (a b : Val) : Val :=
  if a.isNan || b.isNan then .nan
  else if a.cmp b > 0 then a else if a.cmp b < 0 then b else if a.neg then b else a
def Val.minimum (a b : Val) : Val :=
  if a.isNan || b.isNan then .nan
  else if a.cmp b < 0 then a else if a.cmp b > 0 then b else if a.neg then a else b

/-- Rounded to an integral value (RINT); the sign is kept. -/
def Val.rint (r : Round) (a : Val) : Val :=
  match a with
  | .fin n m e => if 0 ≤ e then .fin n m e else .fin n (scaleRound r m e 0) 0
  | x => x

/-! ### Operations of one float format, each rounding once (R57) -/

def FpFmt.out (f : FpFmt) (r : Round) (v : Val) : Nat := (f.enc r false v).1
def FpFmt.add (f : FpFmt) (r : Round) (a b : Nat) : Nat := f.out r ((f.dec a).add (f.dec b))
def FpFmt.sub (f : FpFmt) (r : Round) (a b : Nat) : Nat := f.out r ((f.dec a).add (f.dec b).negate)
def FpFmt.mul (f : FpFmt) (r : Round) (a b : Nat) : Nat := f.out r ((f.dec a).mul (f.dec b))
/-- a * b + c with one rounding. -/
def FpFmt.fma (f : FpFmt) (r : Round) (a b c : Nat) : Nat := f.out r (((f.dec a).mul (f.dec b)).add (f.dec c))
/-- c - a * b with one rounding. -/
def FpFmt.fnmadd (f : FpFmt) (r : Round) (a b c : Nat) : Nat :=
  f.out r (((f.dec a).mul (f.dec b)).negate.add (f.dec c))
def FpFmt.div (f : FpFmt) (r : Round) (a b : Nat) : Nat := f.out r ((f.dec a).div (f.dec b))
def FpFmt.sqrt (f : FpFmt) (r : Round) (a : Nat) : Nat := f.out r (f.dec a).sqrt
def FpFmt.maximum (f : FpFmt) (a b : Nat) : Nat := f.out .nearest ((f.dec a).maximum (f.dec b))
def FpFmt.minimum (f : FpFmt) (a b : Nat) : Nat := f.out .nearest ((f.dec a).minimum (f.dec b))

/-- RNE32 of an exact number. -/
def rne32 (v : Val) : Nat := fmtFP32.out .nearest v
def dec32 (w : Nat) : Val := fmtFP32.dec w
def add32 (a b : Nat) : Nat := fmtFP32.add .nearest a b
def mul32 (a b : Nat) : Nat := fmtFP32.mul .nearest a b
def fma32 (a b c : Nat) : Nat := fmtFP32.fma .nearest a b c
def sub32 (a b : Nat) : Nat := fmtFP32.sub .nearest a b
def div32 (a b : Nat) : Nat := fmtFP32.div .nearest a b
def nan32 : Nat := 0x7FC00000
def isNan32 (w : Nat) : Bool := (dec32 w).isNan

/-- An element widened to FP32 exactly, NaN as the canonical NaN (R44, R46). -/
def widen (f bits : Nat) : Nat := rne32 (decElem f bits)

/-- An MX element widened to FP32 with its scale byte: exact, or the overflow of R46 under a rounding mode. -/
def widenMx (f bits scale : Nat) (r : Round) : Nat :=
  if scale = 0xFF then nan32
  else fmtFP32.out r ((decElem f bits).scale (mxScale scale))

/-! ### MX blocks (R45) -/

/-- The exponent that R45 subtracts. -/
def mxEmax (f : Nat) : Int :=
  match f % 32 with
  | 0x10 => 2 | 0x11 => 2 | 0x12 => 4 | 0x13 => 8 | 0x14 => 15 | _ => 0

/-- The floor of log2 of a positive finite number. -/
def Val.log2 (v : Val) : Int :=
  match v with
  | .fin _ m e => (Nat.log2 m : Nat) + e
  | _ => 0

/-- The scale byte of a block of values. -/
def mxBlockScale (f : Nat) (vs : List Val) : Nat :=
  if vs.any Val.isNan then 0xFF
  else
    let mags := (vs.filter (fun v => v.isFin && !v.isZero)).map Val.log2
    match mags with
    | [] => 0
    | x :: r => (max (-127) (min 127 (r.foldl max x - mxEmax f)) + 127).toNat

/-- The block has no finite value but zeros (R45 step 2). -/
def mxBlockZero (vs : List Val) : Bool := vs.all (fun v => !v.isFin || v.isZero)

/-- One element of a block under its scale byte: its code and whether it saturated (R45 steps 1, 2 and 4). -/
def mxBlockElem (f scale : Nat) (zero : Bool) (r : Round) (v : Val) : Nat × Bool :=
  if scale = 0xFF || (zero && v.isFin) then (0, false)
  else
    let x := v.scale (-(mxScale scale))
    match fpFmt f with
    | some g => g.enc r true x
    | none => encInt 8 (-6) r x

/-! ### Dice: Philox-4x32-10 (R49) -/

def philoxRound (c0 c1 c2 c3 k0 k1 : Nat) : Nat × Nat × Nat × Nat :=
  let p0 := 0xD2511F53 * c0
  let p1 := 0xCD9E8D57 * c2
  ((p1 / 2 ^ 32) ^^^ c1 ^^^ k0, p1 % 2 ^ 32, (p0 / 2 ^ 32) ^^^ c3 ^^^ k1, p0 % 2 ^ 32)

def philoxFrom : Nat → Nat → Nat → Nat → Nat → Nat → Nat → List Nat
  | 0, c0, c1, c2, c3, _, _ => [c0, c1, c2, c3]
  | n + 1, c0, c1, c2, c3, k0, k1 =>
    let x := philoxRound c0 c1 c2 c3 k0 k1
    philoxFrom n x.1 x.2.1 x.2.2.1 x.2.2.2 ((k0 + 0x9E3779B9) % 2 ^ 32) ((k1 + 0xBB67AE85) % 2 ^ 32)

/-- The Dice word of element `e` at step `t` under a seed and stream ID (R49, R51). -/
def diceWord (seed stream t e : Nat) : Nat :=
  let c := t % 2 ^ 24 * 2 ^ 40 + e / 4
  let epoch := t / 2 ^ 24 % 2 ^ 32
  (philoxFrom 10 (c % 2 ^ 32) (c / 2 ^ 32 % 2 ^ 32) (stream ^^^ fld seed 64 32) (fld seed 96 32 ^^^ epoch)
    (fld seed 0 32) (fld seed 32 32)).getD (e % 4) 0

/-- The purposes of R50 that a stream ID may name. -/
def streamOk (stream : Nat) : Bool :=
  let p := stream / 2 ^ 28
  decide (1 ≤ p) && decide (p ≤ 3)

end Sys2Proof.Machine
end

