-- ==== Sys2Proof/Machine/Freeze.lean ====
section
/-!
DEFINITION. When a record is ready (R89, R91), what a Player waits for, freezing a partition with its wait graph (R119,
R120), operation faults (R117) and entry into FAULTED (R163, R420).
-/

namespace Sys2Proof.Machine

open Sys2Proof

/-! ### The next record -/

/-- The segment that a Square runs in this Turn. -/
def Square.segment (x : Square) : Option Segment := x.seg.bind (fun i => x.segs[i]?)

/-- The record at an index of the current segment. -/
def Square.record (x : Square) (i : Nat) : Option Rec :=
  match x.segment with
  | none => none
  | some g => if i < g.count then x.recs[g.first + i]? else none

/-- The record that a Player would issue next. -/
def State.nextRecord (s : State) (q pl : Nat) : Option Rec := (s.sq q).record (s.player q pl).pc

/-- The operations that execute at issue and hold no place (R91). -/
def holdsNoPlace (op : Nat) : Bool :=
  (decide (op / 16 = 6) && decide (op ≠ 0x66)) || (decide (0x78 ≤ op) && decide (op ≤ 0x7F)) || decide (op = 0x20)

/-! ### Semaphores (R105, R106) -/

/-- The entry owns the semaphore (`sem` false is F, true is E). -/
def Entry.owns (e : Entry) (sem : Bool) : Bool :=
  decide (e.depth ≠ 0) && (e.isLocal || (if sem then !e.consumer else e.consumer))

/-- The count of a semaphore. -/
def Entry.sem (e : Entry) (sem : Bool) : Nat := if sem then e.empty else e.full

/-- The entry with another count. -/
def Entry.setSem (e : Entry) (sem : Bool) (n : Nat) : Entry :=
  if sem then { e with empty := n } else { e with full := n }

def Entry.waiter (e : Entry) (sem : Bool) : Option Waiter := if sem then e.waiterE else e.waiterF
def Entry.setWaiter (e : Entry) (sem : Bool) (w : Waiter) : Entry :=
  if sem then { e with waiterE := some w } else { e with waiterF := some w }

/-! ### Readiness -/

/-- The decrements that a record makes at issue, semaphore by semaphore (R89): the header WAIT and SEM_WAIT. -/
def recNeeds (r : Rec) : List (Nat × Bool × Nat) :=
  let w := if recWait r then [(recWaitEntry r, recWaitSem r, 1)] else []
  if recOpcode r = 0x60 then
    let e := recBits r 64 7
    let m := recBit r 71
    let n := recBytes r 9 1
    if recWait r && decide (e = recWaitEntry r) && decide (m = recWaitSem r) then [(e, m, n + 1)]
    else w ++ [(e, m, n)]
  else w

/-- The wait slots that a SLOT_WAIT names. -/
def recSlotMask (r : Rec) : Nat := if recOpcode r = 0x62 then recBytes r 8 2 else 0

/-- The record waits for every earlier operation of its Player. -/
def recDrains (r : Rec) : Bool := recFence r || decide (recOpcode r = 0x63) || decide (recOpcode r = 0x65)

def Square.inflightOf (x : Square) (pl : Nat) : Nat := (x.inflight.filter (fun o => decide (o.player = pl))).length

def Square.share (x : Square) (pl : Nat) : Nat :=
  match x.segment with
  | some g => g.share.getD pl 0
  | none => 0

def Square.semsReady (x : Square) (r : Rec) : Bool :=
  (recNeeds r).all (fun n => decide (n.2.2 ≤ (x.entry n.1).sem n.2.1))

def Square.slotsReady (x : Square) (pl : Nat) (r : Rec) : Bool :=
  (bitsOf (recSlotMask r) 16).all (fun i => decide (1 ≤ Tab.get 0 (x.player pl).slots i))

def Square.fenceReady (x : Square) (pl : Nat) (r : Rec) : Bool := !recDrains r || decide (x.inflightOf pl = 0)

def Square.placeReady (x : Square) (pl : Nat) (r : Rec) : Bool :=
  holdsNoPlace (recOpcode r) || decide (x.inflightOf pl < x.share pl)

/-- A record is ready (R89). -/
def Square.ready (x : Square) (pl : Nat) (r : Rec) : Bool :=
  x.semsReady r && x.slotsReady pl r && x.fenceReady pl r && x.placeReady pl r

/-- What a Player waits for, as Table SQP-9 codes it: 1 semaphore, 2 wait slot, 3 fence, 4 faulted record, 0 nothing of
these. -/
def Square.waitKind (x : Square) (pl : Nat) : Nat :=
  let P := x.player pl
  if P.stopped then 4
  else if !P.running then 0
  else match x.record P.pc with
    | none => 0
    | some r =>
      if !x.semsReady r then 1 else if !x.slotsReady pl r then 2 else if !x.fenceReady pl r then 3 else 0

/-! ### The wait graph (Table SQP-9) -/

/-- The first semaphore a record waits on in vain. -/
def Square.blockingSem (x : Square) (r : Rec) : Nat × Bool :=
  match (recNeeds r).find? (fun n => decide ((x.entry n.1).sem n.2.1 < n.2.2)) with
  | some n => (n.1, n.2.1)
  | none => (0, false)

/-- The 16-byte entry of one waiting Player. -/
def Square.waitEntry (x : Square) (q pl : Nat) : List Byte :=
  let P := x.player pl
  let k := x.waitKind pl
  let r := (x.record P.pc).getD 0
  let b := x.blockingSem r
  let e := x.entry b.1
  let isSem := decide (k = 1)
  leBytes 1 q ++ leBytes 1 (pl + 16 * k) ++
    (if isSem then leBytes 1 (b.1 + if b.2 then 128 else 0)
     else if k = 2 then leBytes 1 (recSlotMask r % 256) else [0]) ++
    (if k = 2 then leBytes 1 (recSlotMask r / 256) else [0]) ++
    leBytes 2 (if isSem then e.sem b.2 else 0) ++ leBytes 2 (if isSem then e.peerSeat else 0) ++
    leBytes 1 (if isSem then e.peerSquare else 0) ++ leBytes 1 (if isSem then e.peerEntry else 0) ++ [0, 0] ++
    leBytes 4 P.pc

/-- The waiting Players of a partition, in the order of R120. -/
def State.waiting (s : State) (p : Nat) : List (Nat × Nat) :=
  (s.squaresOf p).flatMap (fun q =>
    ((List.range 16).filter (fun pl => decide ((s.sq q).waitKind pl ≠ 0))).map (fun pl => (q, pl)))

/-- The wait-graph record of a partition: cause 1 Stalemate, 2 operation fault. -/
def State.waitGraph (s : State) (p cause : Nat) : List Byte :=
  let x := s.part p
  let w := s.waiting p
  leBytes 8 s.now ++ leBytes 4 x.turn ++ leBytes 1 (p + 16 * cause) ++ [0] ++ leBytes 2 w.length ++
    leBytes 4 x.stalemateTimeout ++ leBytes 4 x.latePosts ++ List.replicate 8 0 ++
    w.flatMap (fun y => (s.sq y.1).waitEntry y.1 y.2)

/-! ### Freezing -/

/-- The descriptor index is the last of its chain (Table MOV-7: after the last write the chain completes normally). -/
def State.chainEnds (s : State) (p : Nat) (i : Nat) : Bool :=
  match (s.part p).mdesc[i]? with
  | some d => decide (mdNext d = mdEnd)
  | none => true

/-- A busy channel that an abort or a cancellation still reaches (Table MOV-7). -/
def State.stoppable (s : State) (c : Channel) : Bool :=
  match c.phase with
  | .idle => false
  | .aborting _ => false
  | .cancelling _ => false
  | .written => !(s.chainEnds c.partition c.desc)
  | _ => true

/-- Begin the abort of one channel, with its cause (R164). -/
def State.abortChannel (s : State) (m : MoverId) (ch cause : Nat) : State :=
  if s.stoppable (s.channel m ch) then s.updChannel m ch (fun c => { c with phase := .aborting cause }) else s

/-- Begin the cancellation of one channel, with its cause (R166). -/
def State.cancelChannel (s : State) (m : MoverId) (ch cause : Nat) : State :=
  if s.stoppable (s.channel m ch) then s.updChannel m ch (fun c => { c with phase := .cancelling cause }) else s

/-- Freeze a partition (R119): its Players stop issuing, its active Mover channels but a spared one abort with cause 0x02, its wait
graph is recorded. A frozen partition stays as it is. -/
def State.freezeBut (s : State) (p cause : Nat) (spare : Option (MoverId × Nat)) : State :=
  if (s.part p).frozen then s
  else
    let s0 := s.updPart p (fun x => { x with latePosts := 0 })
    let g := s0.waitGraph p cause
    let s1 := s0.updPart p (fun x => { x with frozen := true, stalemateRecord := g })
    (s.busyChannels p).foldl (fun t c => if some c = spare then t else t.abortChannel c.1 c.2 0x02) s1

/-- Freeze a partition, every active Mover channel aborting. -/
def State.freeze (s : State) (p cause : Nat) : State := s.freezeBut p cause none

/-- The busy channel that a MOVER_START names in vain, whose chain continues (R159; log 112). -/
def sparedChannel (q detail : Nat) (loc : List (LocKind × Nat)) : Option (MoverId × Nat) :=
  if detail = 0x20 then (loc.find? (fun x => decide (x.1 = .channel))).map (fun x => (.square q, x.2)) else none

/-- An operation fault (R117): the Player stops at its record, event 0x30 names it, the partition freezes. A MOVER_START to a busy
channel leaves that channel's chain running (R159). -/
def State.opFault (s : State) (q pl detail : Nat) (loc : List (LocKind × Nat)) : State :=
  let rec_ := (s.player q pl).pc
  let p := s.partOf q
  let s1 := (s.updPlayer q pl (fun P => { P with stopped := true })).raise 0x30 detail (some p)
    ([(.square, q), (.player, pl), (.record, rec_)] ++ loc) []
  s1.freezeBut p 2 (sparedChannel q detail loc)

/-- A fault that stops no Player by itself: event 0x30 at a place, and the partition freezes (R106, R108). -/
def State.placeFault (s : State) (p detail : Nat) (loc : List (LocKind × Nat)) : State :=
  (s.raise 0x30 detail (some p) loc []).freeze p 2

/-- A translation or protection fault of an engine or Mover (R136): event 0x31 with the virtual address and the pool
index, and the partition freezes. -/
def State.transFault (s : State) (p detail va pool : Nat) (loc : List (LocKind × Nat)) : State :=
  (s.raise 0x31 detail (some p) (loc ++ [(.va, va), (.pool, pool)]) []).freeze p 2

/-! ### Wait slots (R94) -/

/-- Add 1 to a wait slot. Above 255 the addition is discarded and faults the Player that owns the slot, with the source
in Location. -/
def State.addSlot (s : State) (q pl slot : Nat) (source : List (LocKind × Nat)) : State :=
  if Tab.get 0 (s.player q pl).slots slot < 255 then
    s.updPlayer q pl (fun P => { P with slots := Tab.upd 0 P.slots slot (· + 1) })
  else s.opFault q pl 0x06 source

/-! ### Status records and FAULTED -/

/-- The Count that a Mover descriptor asks for (R154, R155). A gather or scatter of an empty tensor has nothing to move and touches no
address (R123). -/
def State.mdTotal (s : State) (p : Nat) (d : Rec) : Nat :=
  let pool := (s.part p).pool
  let src := tensorOf (pool.getD (mdSrc d) 0) 0
  let dst := tensorOf (pool.getD (mdDst d) 0) 0
  let lst := tensorOf (pool.getD (mdList d) 0) 0
  let entries := listEntries (if mdKind d = 1 then src else dst) lst
  if mdKind d = 0 then (if mdCount d = 0 then src.count else mdCount d)
  else if src.empty || dst.empty then 0
  else if mdCount d = 0 then entries else min (mdCount d) entries

/-- A Mover status record (Table MOV-6). -/
def MoverStatus.bytes (m : MoverStatus) (masked : Bool) : List Byte :=
  leBytes 8 m.endTime ++ leBytes 4 m.turn ++ leBytes 1 m.channel ++ leBytes 1 (m.state % 16 + 16 * m.partition) ++
    leBytes 1 m.cause ++ [0] ++ leBytes 4 m.descriptor ++ leBytes 6 m.residue ++
    leBytes 6 (if masked then 0 else m.faultAddress)

/-- Write a channel's status record and leave the channel idle (R165). The requests it sent are no longer a running chain's
(R344); after a reset their answers are discarded (R163). A transfer that completed a repeat goes on (R351). -/
def State.endChannel (s : State) (m : MoverId) (ch state cause : Nat) : State :=
  let c := s.channel m ch
  let x := s.part c.partition
  let total := s.mdTotal c.partition (x.mdesc.getD c.desc 0)
  let st : MoverStatus :=
    { endTime := s.now, turn := x.turn, channel := ch, state := state, partition := c.partition, cause := cause
      descriptor := c.desc, residue := if state = 1 then 0 else total - (c.done - c.unsent)
      faultAddress := if cause = 0x03 then c.faultAddress else 0 }
  s.updChannel m ch (fun y =>
    { y with phase := .idle, status := st, done := 0, pos := 0, codes := [], faultAddress := 0
             transfer := if state = 1 then y.transfer else none, repeatNo := if state = 1 then y.repeatNo + 1 else 0
             posted := decide (state ≠ 1), staged := [], stagedFrom := 0, raw := [], unsent := 0, paid := false
             sent := if state = 4 then [] else y.sent.map (fun z => { z with live := false }) })

/-- Bounce keys that wait come into force (R386): at a boundary of the Table, or as the partition stops running. -/
def Partition.settleBounce (x : Partition) : Partition :=
  match x.nextBounceKeys with
  | some k => { x with bounceKeys := some k, nextBounceKeys := none, bounceIn := 0, bounceOut := 0 }
  | none => x

/-- The requests of a partition's channels at the regulators are withdrawn. -/
def State.dropTokens (s : State) (p : Nat) : State :=
  (List.range 8).foldl (fun t d => t.updMemDie d (fun y =>
    { y with waiting := y.waiting.filter (fun r => !(decide (r.1.who = p) && r.1.channel.isSome)) })) s

/-- A train in a buffer of received or kept flits is one of a partition, by the key slot of its header flit. -/
def trainOf (keys : Tab KeySlot) (p : Nat) (head : List Byte) : Bool :=
  decide (1 ≤ rd head 0 1) && decide (rd head 0 1 < 0x10) && decide ((Tab.get ({} : KeySlot) keys (rd head 2 1 % 32)).part = some p)

/-- A stream of received flits without what it holds of a partition's trains: a train keeps its length, under a key slot that has no key,
so that it is dropped once its last flit has come. -/
def withoutTrains (keys : Tab KeySlot) (p : Nat) : Nat → List Byte → List Byte
  | 0, l => l
  | n + 1, l =>
    if l.length < 128 then l
    else
      let len := if rd l 0 1 = 0 ∨ rd l 0 1 = 0x10 then 128 else 128 * (1 + rd l 1 1)
      (if trainOf keys p l then padTo (min len l.length) (l.take 2 ++ [31]) else l.take len) ++ withoutTrains keys p n (l.drop len)

/-- What a link holds of a partition is discarded (R357): transactions that wait, trains held at the receiver, and the entries of the
replay buffer under its key slot. Their frames keep their numbers, with idle flits. -/
def Link.forget (x : Link) (p : Nat) : Link :=
  let mine := fun (slot : Nat) => decide ((Tab.get ({} : KeySlot) x.txKeys slot).part = some p)
  { x with waiting := x.waiting.filter (fun t => !mine t.keySlot)
           stream := withoutTrains x.rxKeys p (x.stream.length / 128) x.stream
           retained := x.retained.map (fun f => if mine f.slot then { f with flits := List.replicate 1280 0 } else f) }

/-- The partition enters FAULTED (R420): its channels are reset with state 0x4 and cause 0x08 (R163), what links hold
under its key slot is discarded (R357). Its Players issue nothing more (`State.mayIssue`). -/
def State.enterFaulted (s : State) (p : Nat) : State :=
  let s1 := ((s.busyChannels p).foldl (fun t c => t.endChannel c.1 c.2 0x4 0x08) s).dropTokens p
  let s2 := { s1 with links := s1.links.map (fun (y : Nat × Link) => (y.1, y.2.forget p)) }
  s2.updPart p (fun x => { x.settleBounce with runState := .faulted, late := [], deferred := [], holdTarget := none })

/-- Players issue in a running partition, and late work goes on during a Hold (R74 step 4), until a freeze (R119); the
compute dies are powered in ACTIVE only (Table PWR-4). -/
def State.mayIssue (s : State) (p : Nat) : Bool :=
  let x := s.part p
  decide (s.power.state = .active) && !x.frozen && (decide (x.runState = .running) || decide (x.runState = .draining) || decide (x.runState = .held))

/-! ### The error latch and RestoreNeeded (R271, R286) -/

/-- The state ranges of the partition's Book (Table STP-4). -/
def stateRanges (b : List Byte) : List (List Byte) := (stepRecords b).filter (fun r => decide (rd r 0 1 = 0x03))

def rangeBase (r : List Byte) : Nat := rd r 8 8 % 2 ^ 42
def rangeBytes (r : List Byte) : Nat := rd r 0x10 8
/-- A range holds its last page whole (R284). -/
def rangeEnd (r : List Byte) : Nat := rangeBase r + cdiv (rangeBytes r) 65536 * 65536

def inRange (r : List Byte) (va : Nat) : Bool := decide (rangeBase r ≤ va) && decide (va < rangeEnd r)

/-- The virtual address of a physical one in a partition, where its page map has it (R134: at most one). -/
def State.vaOf (s : State) (p pa : Nat) : Option Nat :=
  let pp := pa / 65536
  match (s.part p).pageMap.find? (fun r => !r.isLocal && decide (r.page ≤ pp) && decide (pp < r.page + r.pages)) with
  | some r => some ((r.vpage + (pp - r.page)) * 65536 + pa % 65536)
  | none => none

/-- The position of the gate Turn in the plan period, where the Book has a step gate (R270). -/
def gateTurnIndex (b : List Byte) : Option Nat :=
  (List.range (bookPlanLength b)).find? (fun i => (planFlags b i).testBit 0)

/-- A Turn of the period is an update Turn (R270). -/
def isUpdateTurn (b : List Byte) (i : Nat) : Bool :=
  match gateTurnIndex b, gateRecord b with
  | some g, some r => decide (g < i) && decide (i ≤ g + gateUpdateCount r)
  | _, _ => false

/-- The current Turn is an update Turn of a step whose gate opened (R283). -/
def Partition.inUpdate (x : Partition) : Bool :=
  match x.workTurn with
  | some n => x.stepOpen && isUpdateTurn x.book (x.planIndex n)
  | none => false

/-- An event 0x41 or 0x42 of a partition sets its error latch until its vote is formed (R271) unless the rule excepts it, and RestoreNeeded when its
address lies in a state range or it comes in an update Turn (R286). -/
def State.dataError (s : State) (p : Nat) (va : Option Nat) (latch : Bool) : State :=
  let x := s.part p
  let inState := match va with
    | some a => (stateRanges x.book).any (fun r => inRange r a)
    | none => false
  s.updPart p (fun y => { y with errorLatch := y.errorLatch || (latch && x.vote.isNone)
                                 restoreNeeded := y.restoreNeeded || inState || (latch && x.inUpdate) })

end Sys2Proof.Machine
end

