-- ==== Sys2Proof/Machine/LinkSend.lean ====
section
/-!
DEFINITION. The sending side of a chip link: transactions as flits (R341, R343), frames and their retention (R336, R338,
R339), routes and windows of a Book (R348, R349), and Table messages as ordered sets (R80, R346).
-/

namespace Sys2Proof.Machine

open Sys2Proof

/-- A link that carries traffic: UP or NARROW (R330). -/
def Link.up (x : Link) : Bool := decide (x.state = 2) || decide (x.state = 3)

/-! ### Flits -/

/-- The clear first 32 bytes of a header flit (Table LNK-6). -/
def txnClear (t : Txn) (dataFlits : Nat) : List Byte :=
  leBytes 1 t.kind ++ leBytes 1 dataFlits ++ leBytes 1 t.keySlot ++ leBytes 1 t.hopIndex ++ leBytes 2 t.destSeat ++
    leBytes 2 t.txnTag ++ leBytes 8 t.address ++
    (t.hops.take 16).flatMap (leBytes 1) ++ List.replicate (16 - t.hops.length) 0xFF

/-- The data flits of a transaction: its data filled to whole flits. -/
def txnData (t : Txn) : List Byte := padTo (128 * cdiv t.data.length 128) t.data

/-- A transaction as flits under its key and count (R341, R343); in the clear before the link key exists. An ORDERED flit
counts its payloads in DataFlits. -/
def txnFlits (key : Option (BitVec 288)) (count : Nat) (t : Txn) : List Byte :=
  let data := txnData t
  let flits := if t.kind = 0x10 then t.inl.length / 24 else data.length / 128
  let head := txnClear t flits
  let plain := padTo 80 t.inl ++ data
  match key with
  | none => head ++ plain.take 80 ++ List.replicate 16 0 ++ data
  | some k =>
    let cipher := gcmApply k count 0 plain
    head ++ cipher.take 80 ++ leBytes 16 (Config.gcmTag k count head plain).toNat ++ cipher.drop 80

/-- Cut flits into frames of 10, the last filled with idle flits. -/
def frameBodies : Nat → List Byte → List (List Byte)
  | 0, _ => []
  | n + 1, l => if l.isEmpty then [] else padTo 1280 l :: frameBodies n (l.drop 1280)

/-- The connector lanes of a map that carry codewords, in order: four, or the two of a narrow link (R333, R336). -/
def usedLanes (map : List Nat) : List Nat :=
  let live := map.filter (fun c => decide (c ≠ 0xFF))
  if live.length < 4 then live.take 2 else live

/-- What each connector lane sends of a frame (R336, R337): codeword c on link lane c, on a narrow link c and c + 2 one after the other on
lane c mod 2, in PAM4. During an exchange the spare sends what its lane does (R353). -/
def Link.lanes (x : Link) (b : List Byte) : List (Nat × List Nat) :=
  let use := usedLanes x.txLanes
  let l := ((List.range use.length).zip use).map (fun z => (z.2,
    ((List.range 4).filter (fun c => decide (c % use.length = z.1))).flatMap (fun c => (frameEncode (codewordInfo b 4 c)).flatMap pam4)))
  match x.swapTx with
  | some w => l ++ (l.filter (fun y => decide (y.1 = w.lane))).map (fun y => (w.spare, y.2))
  | none => l

/-- The acknowledgement that a frame carries: the highest frame received in order (R338). -/
def Link.ackSeq (x : Link) : Nat := (x.rxSeq + 4095) % 4096

/-- A sequenced frame on the wire: 10 bytes of header, then its flits (R336, R338). -/
def Link.frameOut (x : Link) (seq : Nat) (flits : List Byte) : LinkOut :=
  .frame seq flits (x.lanes (frameHead seq x.ackSeq none false flits ++ flits))

/-- An idle frame on the wire: the next number to be used, the acknowledgement, and the frame that it asks for. -/
def Link.idleOut (x : Link) (nak : Option Nat) : LinkOut :=
  let flits := List.replicate 1280 0
  .idle (x.lanes (frameHead x.txSeq x.ackSeq nak true flits ++ flits))

/-- Put frame bodies of a key slot on the wire with the next sequence numbers and keep them (R339). -/
def Link.sendFrames (x : Link) (slot : Nat) : List (List Byte) → Link
  | [] => x
  | b :: r =>
    Link.sendFrames { x with txSeq := (x.txSeq + 1) % 4096
                             retained := x.retained ++ [{ seq := x.txSeq, flits := b, sends := 1, slot := slot }]
                             out := x.out ++ [x.frameOut x.txSeq b] } slot r

/-- Keys listed for a slot. -/
def slotListed (t : Tab KeySlot) (slot : Nat) : Bool := t.any (fun e => decide (e.1 = slot))

/-- Send one transaction now: seal it under its key slot, count it, frame it. -/
def Link.emit (x : Link) (t : Txn) : Link :=
  let k := Tab.get ({} : KeySlot) x.txKeys t.keySlot
  let flits := txnFlits (if slotListed x.txKeys t.keySlot then some k.key else none) k.count t
  let y := { x with txKeys := if slotListed x.txKeys t.keySlot then Tab.put x.txKeys t.keySlot { k with count := k.count + 1 }
                      else x.txKeys
                    out := x.out ++ [LinkOut.txn t] }
  y.sendFrames t.keySlot (frameBodies 8 flits)

/-- The key of a transaction's slot is there; link management goes also before there is a link key. -/
def Link.keyed (x : Link) (t : Txn) : Bool := decide (t.kind = 0x11) || slotListed x.txKeys t.keySlot

/-! ### Windows (R349) -/

/-- The windows of a link that its map allots to a partition, bit w for window w. -/
def windowSet (map : BitVec 64) (p : Nat) : Nat :=
  maskOf ((List.range 8).filter (fun w =>
    let b := fld map.toNat (8 * w) 8
    b.testBit 4 && decide (b % 16 = p)))

/-- The allotment of window w: partition and allotted bit. -/
def windowByte (map : BitVec 64) (w : Nat) : Nat := fld map.toNat (8 * (w % 8)) 5

/-- A window of which a partition's train may begin: allotted to it, or to no one. -/
def windowOpen (map : BitVec 64) (p now : Nat) : Bool :=
  let b := windowByte map (now / 1000)
  decide (b < 16) || decide (b = 16 + p)

/-- Nanoseconds that are left of a partition's window for trains, less the last 250 ns; an unallotted window has no end of
its own. -/
def windowRoom (map : BitVec 64) (p now : Nat) : Option Nat :=
  let w := now / 1000
  if windowByte map w < 16 then none
  else
    let n := ((List.range 8).takeWhile (fun i => decide (windowByte map (w + i) = 16 + p))).length
    some (n * 1000 - now % 1000 - 250)

/-- Nanoseconds of a train of data flits with the reserve for replays. -/
def trainTime (narrow : Bool) (flits bytes : Nat) : Nat :=
  cdiv (cdiv (1 + flits + 10 * cdiv bytes 4096) 10 * (if narrow then 4250 else 2125)) 100

/-- A train of a partition may begin now. -/
def Link.mayTrain (x : Link) (p now bytes : Nat) : Bool :=
  windowOpen x.windowMap p now && (match windowRoom x.windowMap p now with
    | some room => decide (trainTime (decide (x.state = 3)) (cdiv bytes 128) bytes ≤ room)
    | none => true)

/-- The windows of a link that a slot set uses (R82): bit w of the WindowMask of its window-use records in section 3. -/
def slotWindows (b : List Byte) (set l : Nat) : Nat :=
  ((linkRecords b).filter (fun r => decide (rd r 0 1 = 2) && decide (rd r 2 2 = set) && decide (rd r 4 1 = l))).foldl
    (fun m r => m ||| rd r 5 1) 0

/-- The windows of a link that the transfers of the partition's Turn may use (R82, R87). -/
def Partition.turnWindows (x : Partition) (l : Nat) : Nat :=
  slotWindows x.book (planSlotSet x.book (x.planIndex (x.workTurn.getD x.turn))) l

/-- A window map as a partition's transfers see it whose slot set uses some of its windows: the others of its windows count as
another's. Windows that are allotted to no one stay open to every train (R349). -/
def slotMap (map : BitVec 64) (p mask : Nat) : BitVec 64 :=
  BitVec.ofNat 64 ((List.range 8).foldl (fun m w =>
    if windowByte map w = 16 + p ∧ !mask.testBit w then setFld m (8 * w) 8 (16 + (p + 1) % 16) else m) map.toNat)

/-- A train of a partition's transfer may begin now: in the windows of its Turn's slot set (R87, R349). -/
def Link.mayTransfer (x : Link) (p mask now bytes : Nat) : Bool :=
  ({ x with windowMap := slotMap x.windowMap p mask } : Link).mayTrain p now bytes

/-- The window formed of consecutive windows of one partition: its first microsecond and how many they are. -/
def windowRun (map : BitVec 64) (now : Nat) : Nat × Nat :=
  let w := now / 1000
  let same := fun (k : Nat) => windowByte map k = windowByte map w
  let back := ((List.range 7).takeWhile (fun i => decide (same (w + 7 - i)))).length
  let fwd := ((List.range 7).takeWhile (fun i => decide (same (w + 1 + i)))).length
  if back = 7 then (w / 8 * 8, 8) else (w - back, 1 + back + fwd)

/-- A single flit of a partition falls in another's window. -/
def Link.isForeign (x : Link) (p now : Nat) : Bool := !windowOpen x.windowMap p now

/-- Fewer than 8 foreign flits for each window have gone. -/
def Link.foreignRoom (x : Link) (now : Nat) : Bool :=
  let r := windowRun x.windowMap now
  decide (x.foreign.1 ≠ r.1) || decide (x.foreign.2 < 8 * r.2)

def Link.countForeign (x : Link) (now : Nat) : Link :=
  let r := windowRun x.windowMap now
  { x with foreign := (r.1, if x.foreign.1 = r.1 then x.foreign.2 + 1 else 1) }

/-- The partition whose key slot a routed transaction uses. -/
def Link.routedPart (x : Link) (t : Txn) : Option Nat :=
  if t.kind < 0x10 then (Tab.get ({} : KeySlot) x.txKeys t.keySlot).part else none

/-- The windows let a transaction go now. Table messages and link management go at once (R346). -/
def Link.windowLets (x : Link) (now : Nat) (t : Txn) : Bool :=
  match x.routedPart t with
  | none => true
  | some p => if t.data.isEmpty then !x.isForeign p now || x.foreignRoom now else x.mayTrain p now t.data.length

/-- A transaction may go out now: its frames are kept within 32 unacknowledged ones (R339), the link carries traffic (link management
goes also before it is UP), its key is there, its window is open. -/
def Link.mayEmit (x : Link) (now : Nat) (t : Txn) : Bool :=
  decide (x.retained.length + cdiv (1 + cdiv t.data.length 128) 10 ≤ 32) && (x.up || decide (t.kind = 0x11)) && x.keyed t && x.windowLets now t

/-- A waiting transaction holds up one behind it: those of one slot keep their order, but a single flit passes a train. -/
def holdsUp (w t : Txn) : Bool := decide (w.keySlot = t.keySlot) && (w.data.isEmpty || !t.data.isEmpty)

/-- Send a transaction, or let it wait in the handshake (R339, R357). -/
def Link.send (x : Link) (now : Nat) (t : Txn) : Link :=
  if x.waiting.all (fun w => !holdsUp w t) && x.mayEmit now t then
    (match x.routedPart t with
     | some p => if t.data.isEmpty && x.isForeign p now then x.countForeign now else x
     | none => x).emit t
  else { x with waiting := x.waiting ++ [t] }

/-- Send what waits, in order, as far as it may go out. -/
def Link.drain (x : Link) (now : Nat) : Link := x.waiting.foldl (fun y t => y.send now t) { x with waiting := [] }

def State.sendTxn (s : State) (l : Nat) (t : Txn) : State := s.updLink l (fun x => x.send s.now t)

/-! ### Routes (R348, R350) -/

def routeHops (r : List Byte) : List Nat := (List.range (min 16 (rd r 4 1))).map (fun i => rd r (0x10 + i) 1)

/-- The route records of a Book. -/
def bookRoutes (b : List Byte) : List (List Byte) := (linkRecords b).filter (fun r => decide (rd r 0 1 = 0x01))

/-- The first route record whose DestSeat is a seat (R345). -/
def routeTo (b : List Byte) (seat : Nat) : Option (List Byte) :=
  (bookRoutes b).find? (fun r => decide (rd r 2 2 % 4096 = seat))

/-- The key slot that a partition's transactions use (log 9). -/
def keySlotOf (p : Nat) : Nat := 1 + p

/-- Send a transaction of a partition along a route: HopIndex 0 goes out on the first hop with HopIndex 1 (R348). -/
def State.sendRoute (s : State) (p : Nat) (route : List Byte) (t : Txn) : State :=
  let hops := routeHops route
  match hops with
  | [] => s
  | l :: _ => s.sendTxn l { t with keySlot := keySlotOf p, hopIndex := 1, hops := hops, destSeat := rd route 2 2 % 4096 }

/-- Send a single-flit message of a partition to a seat (R345). -/
def State.sendSeat (s : State) (p seat : Nat) (t : Txn) : State :=
  match routeTo (s.part p).book seat with
  | some r => s.sendRoute p r t
  | none => s

/-! ### Table messages (Table TTB-5) -/

/-- The 24-byte payload. -/
def tableMsgBytes (m : TableMsg) : List Byte :=
  leBytes 8 m.tableId ++ leBytes 1 (m.kind % 16 + 16 * (m.rsv % 16)) ++ leBytes 1 m.cause ++
    leBytes 2 (m.seat % 4096 + 4096 * (m.rsv / 16 % 16)) ++ leBytes 8 m.stamp ++ leBytes 4 m.arg

/-- A payload read back; `rsv` gathers the reserved fields of the layout and of Argument by Kind. -/
def tableMsgOf (b : List Byte) : TableMsg :=
  let kind := rd b 8 1 % 16
  let arg := rd b 20 4
  let argRsv := if kind = 4 then arg / 2 ^ 17 else if kind = 6 then arg / 65536
    else if kind = 2 ∨ kind = 5 then arg else 0
  { tableId := rd b 0 8, kind := kind, rsv := rd b 8 1 / 16 + 16 * (rd b 10 2 / 4096) + 256 * argRsv
    cause := rd b 9 1, seat := rd b 10 2 % 4096, stamp := rd b 12 8, arg := arg }

/-- Send a Table message as an ORDERED flit, twice (R346). Join and Start travel under slot 0 (R343). -/
def State.sendOrdered (s : State) (p l : Nat) (m : TableMsg) : State :=
  let slot := if m.kind = 4 ∨ m.kind = 5 then 0 else keySlotOf p
  let t : Txn := { kind := 0x10, keySlot := slot, inl := tableMsgBytes m }
  (s.sendTxn l t).sendTxn l t

/-- Insert a number into a rising list without repeats. -/
def insNat (n : Nat) : List Nat → List Nat
  | [] => [n]
  | m :: r => if n = m then m :: r else if n < m then n :: m :: r else m :: insNat n r

/-- The links of a partition's Table at this seat: the first hops of its routes (Table TTB-1). -/
def tableLinks (b : List Byte) : List Nat :=
  (bookRoutes b).foldl (fun a r => match routeHops r with
    | [] => a
    | l :: _ => insNat l a) []

/-- Send a Table message on every link of the Table but one, a Join with the WindowSet of each link (R60, R77). -/
def State.flood (s : State) (p : Nat) (m : TableMsg) (except : Option Nat) : State :=
  ((tableLinks (s.part p).book).filter (fun l => decide (some l ≠ except))).foldl (fun t l =>
    let m' := if m.kind = 4 then { m with arg := setFld m.arg 8 8 (windowSet (t.link l).windowMap p) } else m
    t.sendOrdered p l m') s

/-- Remember a message by kind, seat and stamp (R77). -/
def State.remember (s : State) (p : Nat) (m : TableMsg) : State :=
  s.updPart p (fun x => { x with seen := (m.kind, m.seat, m.stamp) :: x.seen })

def Partition.knows (x : Partition) (m : TableMsg) : Bool := x.seen.contains (m.kind, m.seat, m.stamp)

/-- Remember a message by the link that brought it. -/
def State.rememberOn (s : State) (p l : Nat) (m : TableMsg) : State :=
  s.updPart p (fun x => { x with seenOn := (l, m.kind, m.seat, m.stamp) :: x.seenOn })

def Partition.knowsOn (x : Partition) (l : Nat) (m : TableMsg) : Bool := x.seenOn.contains (l, m.kind, m.seat, m.stamp)

/-! ### Table keys (R343) -/

/-- The seat at the other end of a link: the one a route reaches in one hop on it. -/
def neighbourSeat (b : List Byte) (l : Nat) : Nat :=
  match (bookRoutes b).find? (fun r => decide (routeHops r = [l])) with
  | some r => rd r 2 2 % 4096
  | none => 0

/-- A Table key for one direction, from the shared secret, with the TableId and both seat numbers as info. -/
def tableKey (secret : List Byte) (tableId from_ to_ : Nat) : BitVec 288 :=
  Config.hkdfExpand (Config.hkdfExtract [] secret) (leBytes 8 tableId ++ leBytes 2 from_ ++ leBytes 2 to_)

/-- What a KEYSHARE's signature covers. -/
def keyshareText (slot tableId : Nat) (point : List Byte) : List Byte := leBytes 1 slot ++ leBytes 8 tableId ++ point

/-- Bytes of a public point and of a signature in a KEYSHARE (P-384). -/
def pointBytes : Nat := 97
def signatureBytes : Nat := 96

/-- Send the partition's KEYSHARE on a link, once for a Table; not after the entropy source has failed (R380). -/
def State.offerKey (s : State) (p l : Nat) : State :=
  let x := s.part p
  let k := s.link l
  if Tab.get 0 k.ephemeral p ≠ 0 || s.sec.entropyFailed then s
  else
    let n := s.fresh
    let point := padTo pointBytes (Config.publicPoint n)
    let sig := padTo signatureBytes (Config.linkSign (Config.sha384 (keyshareText (keySlotOf p) x.tableId point)))
    let t : Txn := { kind := 0x11, inl := leBytes 1 0x03 ++ leBytes 1 (keySlotOf p) ++ leBytes 6 0 ++ leBytes 8 x.tableId
                     data := point ++ sig }
    (({ s with fresh := n + 1 } : State).updLink l (fun y => { y with ephemeral := Tab.put y.ephemeral p (n + 1) })).sendTxn l t

/-- The keys of a Table in both directions of a link, from the peer's public point: the peer's transactions come under the
slot it announced. -/
def State.installKey (s : State) (p l slot : Nat) (point : List Byte) : State :=
  let x := s.part p
  let other := neighbourSeat x.book l
  let secret := Config.sharedSecret (Tab.get 0 (s.link l).ephemeral p - 1) point
  s.updLink l (fun y =>
    { y with rxKeys := Tab.put y.rxKeys slot { tableId := x.tableId, part := some p, key := tableKey secret x.tableId other x.seat }
             txKeys := Tab.put y.txKeys (keySlotOf p)
               { tableId := x.tableId, part := some p, key := tableKey secret x.tableId x.seat other } })

/-- Keys of a partition on every link are destroyed as it leaves its Table; what waits or has arrived under them is discarded. -/
def State.dropTableKeys (s : State) (p : Nat) : State :=
  { s with links := s.links.map (fun (y : Nat × Link) =>
      let mine := fun (t : Txn) => decide ((Tab.get ({} : KeySlot) y.2.txKeys t.keySlot).part = some p)
      (y.1, { y.2 with waiting := y.2.waiting.filter (fun t => !mine t)
                       arrived := y.2.arrived.filter (fun t =>
                         decide (0x10 ≤ t.kind) || decide ((Tab.get ({} : KeySlot) y.2.rxKeys t.keySlot).part ≠ some p))
                       txKeys := y.2.txKeys.filter (fun k => decide (k.2.part ≠ some p))
                       rxKeys := y.2.rxKeys.filter (fun k => decide (k.2.part ≠ some p))
                       ephemeral := Tab.put y.2.ephemeral p 0 })) }

end Sys2Proof.Machine
end

