-- ==== Sys2Proof/Machine/LinkRecv.lean ====
section
/-!
DEFINITION. The receiving side of a chip link: acknowledgement, replay and order of frames (R339), trains and their tags
(R341, R343), links that fail (R333, R355, R356), lanes that are exchanged at a frame (R353).
-/

namespace Sys2Proof.Machine

open Sys2Proof

/-! ### Links that fail -/

/-- Count in a link's object 41nn:09: 0 corrected symbols, 1 frames replayed, 2 miscorrections, 3 lanes spared, 4 lanes
exchanged, 5 entries into NARROW or DOWN. -/
def Link.count (x : Link) (i n : Nat) : Link := { x with counters := Tab.upd 0 x.counters i (fun k => satAdd k n) }

/-- A link event names the link and, where one is concerned, the connector lane (R356). -/
def State.linkEvent (s : State) (cls detail l : Nat) (lane : Option Nat) : State :=
  s.raise cls detail none ([(.link, l)] ++ (match lane with
    | some n => [(.lane, n)]
    | none => [])) []

/-- The link that a module takes its time from stops: the module holds over (R65, R358). -/
def State.timeLost (s : State) (l : Nat) : State :=
  if s.timeSource = l ∧ !s.holdover then ({ s with holdover := true } : State).raise 0x10 0x03 none [] [] else s

/-- A link is taken down with event 0x51; `again` says that it retrains at once (R339, R355, R356). -/
def State.linkFall (s : State) (l detail : Nat) (again : Bool) : State :=
  ((s.updLink l (fun x => { x.count 5 1 with state := if again then 5 else 0 })).linkEvent 0x51 detail l none).timeLost l

/-! ### Acknowledgement and replay (R339) -/

/-- A frame number is acknowledged by another. -/
def ackCovers (ack seq : Nat) : Bool := decide ((ack + 4096 - seq) % 4096 < 2048)

/-- Put a connector lane in the place of another. -/
def replaceLane (m : List Nat) (lane spare : Nat) : List Nat := m.map (fun n => if n = lane then spare else n)

/-- Failed lanes of a group by connector lane, plus 64 for those received on. -/
def laneKey (rx : Bool) (c : Nat) : Nat := if rx then 64 + c else c

/-- A lane of the group fails in one direction. -/
def State.laneFails (s : State) (l : Nat) (rx : Bool) (c : Nat) : State :=
  s.updGroup (l / 8) (fun g =>
    { g with failed := if g.failed.contains (laneKey rx c) then g.failed else g.failed ++ [laneKey rx c] })

/-- Acknowledged frames leave the buffer; what waits for room goes out. A lane exchange at the sending end ends with its
frame's acknowledgement (R353). -/
def State.takeAck (s : State) (l ack : Nat) : State :=
  let x := s.link l
  let s1 := s.updLink l (fun y => ({ y with retained := y.retained.filter (fun f => !ackCovers ack f.seq) }).drain s.now)
  match x.swapTx with
  | some w =>
    match w.atSeq with
    | some n =>
      if x.retained.any (fun f => decide (f.seq = n) && ackCovers ack f.seq) then
        ((s1.updLink l (fun y => { y.count 4 1 with txLanes := replaceLane y.txLanes w.lane w.spare, swapTx := none })).laneFails l
          false w.lane).linkEvent 0x50 0x01 l (some w.lane)
      else s1
    | none => s1
  | none => s1

/-- A frame has reached 16 sends (R339). -/
def Link.sentOut (x : Link) : Bool := x.retained.any (fun f => decide (16 ≤ f.sends))

/-- Send a kept frame again; one that reaches 16 sends takes the link down. -/
def State.resendFrame (s : State) (l seq : Nat) : State :=
  match (s.link l).retained.find? (fun f => decide (f.seq = seq)) with
  | none => s
  | some f =>
    let t := s.updLink l (fun x =>
      { x.count 1 1 with retained := x.retained.map (fun g => if g.seq = seq then { g with sends := g.sends + 1 } else g)
                         out := x.out ++ [x.frameOut seq f.flits] })
    if (t.link l).sentOut then t.linkFall l 0x03 false else t

/-- Ask for a frame, in an idle frame that acknowledges too (R338). -/
def State.sendNak (s : State) (l seq : Nat) : State := s.updLink l (fun x => { x with out := x.out ++ [x.idleOut (some seq)] })

/-- Acknowledge what has come in order, in an idle frame (R338). -/
def State.sendAck (s : State) (l : Nat) : State := s.updLink l (fun x => { x with out := x.out ++ [x.idleOut none] })

/-! ### Trains (R341, R343) -/

/-- Data flits that follow a header flit; an ORDERED flit has none. -/
def trainFlits (head : List Byte) : Nat := if rd head 0 1 = 0x10 then 0 else rd head 1 1

/-- The transaction of a train's clear bytes. An ORDERED flit keeps the payloads it counts, 3 at most. -/
def txnOf (head inl data : List Byte) : Txn :=
  let kind := rd head 0 1
  { kind := kind, keySlot := rd head 2 1 % 32, hopIndex := rd head 3 1, destSeat := rd head 4 2 % 4096, txnTag := rd head 6 2
    address := rd head 8 8 % 2 ^ 42
    hops := ((List.range 16).map (fun i => rd head (0x10 + i) 1)).takeWhile (fun h => decide (h ≠ 0xFF))
    inl := if kind = 0x10 then inl.take (24 * min 3 (rd head 1 1)) else inl, data := data }

/-- Open a train under a key; none where its Tag does not verify. -/
def openTrain (k : KeySlot) (train : List Byte) : Option Txn :=
  let head := train.take 32
  let plain := gcmApply k.key k.count 0 (slice train 32 80 ++ train.drop 128)
  if rd train 112 16 = (Config.gcmTag k.key k.count head plain).toNat then some (txnOf head (plain.take 80) (plain.drop 80))
  else none

/-- What becomes of the next train of the stream: it cannot be judged yet, it is dropped, it fails its Tag, or it opens
under the key of a slot. -/
inductive TrainFate where
  | wait
  | drop
  | mismatch (slot : Nat)
  | taken (slot : Option Nat) (t : Txn)
  deriving DecidableEq, Repr

/-- A KEYSHARE for a slot is on its way to its command, or its Table has no seat here yet. -/
def Link.shareComing (x : Link) (slot : Nat) : Bool :=
  x.arrived.any (fun t => decide (t.kind = 0x11) && decide (rd t.inl 0 1 = 3) && decide (rd t.inl 1 1 = slot)) ||
    x.shares.any (fun z => decide (z.1 = slot))

/-- Judge a train (R343). Under slot 0 the link key, or the one before a retrain (R357); link management passes in the clear
before there is a link key. A train under a slot without a key cannot be verified and is dropped. -/
def Link.judgeTrain (x : Link) (train : List Byte) : TrainFate :=
  let slot := rd train 2 1 % 32
  if slotListed x.rxKeys slot then
    match openTrain (Tab.get {} x.rxKeys slot) train with
    | some t => .taken (some slot) t
    | none =>
      if slot = 0 then
        match openTrain (Tab.get {} x.rxKeys 32) train with
        | some t => if slotListed x.rxKeys 32 then .taken (some 32) t else .mismatch 0
        | none => .mismatch 0
      else .mismatch slot
  else if slot = 0 then
    if rd train 0 1 = 0x11 ∧ !x.up then .taken none (txnOf (train.take 32) (slice train 32 80) (train.drop 128)) else .drop
  else if x.shareComing slot then .wait
  else .drop

/-- One more transaction under a slot's key has been received. The first under a new link key destroys the one before it (Table SEC-1). -/
def Link.countRx (x : Link) (slot : Nat) : Link :=
  let keys := if slot = 0 then x.rxKeys.filter (fun k => decide (k.1 ≠ 32)) else x.rxKeys
  { x with rxKeys := Tab.upd {} keys slot (fun k => { k with count := k.count + 1 }) }

/-- The reserved bits of a header flit's clear bytes are 0 (Table LNK-6). -/
def headOk (head : List Byte) : Bool :=
  decide (rd head 2 1 < 32) && decide (rd head 4 2 < 4096) && decide (rd head 8 8 < 2 ^ 42)

/-- The Inline bytes that a kind does not use are 0 (Table LNK-7). -/
def inlineOk (t : Txn) : Bool :=
  let from_ := fun (n : Nat) => decide (rd t.inl n 80 = 0)
  match t.kind with
  | 0x01 => from_ 6
  | 0x02 => from_ 4
  | 0x03 => from_ 1
  | 0x04 => from_ 1
  | 0x05 => decide (rd t.inl 6 2 = 0) && from_ 16
  | 0x06 => decide (rd t.inl 9 7 = 0) && from_ 24
  | 0x07 => decide (rd t.inl 12 4 = 0) && from_ 24
  | 0x08 => decide (rd t.inl 3 1 < 16) && from_ 4
  | 0x09 => decide (rd t.inl 2 1 = 0) && decide (rd t.inl 3 1 < 16) && from_ 4
  | 0x0A => decide (rd t.inl 2 1 = 0) && decide (rd t.inl 3 1 < 16) && from_ 4
  | 0x0B => from_ 32
  | _ => true

/-- The transaction layer takes a transaction: link management of a known subtype under slot 0 only, and slot 0 for link
management and Table messages only (R342 to R344). Reserved codes, and reserved bytes that are not 0, are dropped (R9; log 114). -/
def txnKnown (t : Txn) : Bool :=
  inlineOk t &&
    if t.kind = 0x11 then decide (t.keySlot = 0) && decide (1 ≤ rd t.inl 0 1) && decide (rd t.inl 0 1 ≤ 8)
    else decide (t.kind = 0x10) || (decide (1 ≤ t.kind) && decide (t.kind ≤ 0x0B) && decide (t.keySlot ≠ 0))

def Link.accept (x : Link) (t : Txn) : Link := if txnKnown t then { x with arrived := x.arrived ++ [t] } else x

/-- Take trains from the stream of received flits as far as they are whole and can be judged. A Tag mismatch discards the
train and takes the link down to retrain (R356). -/
def State.takeTrains : Nat → State → Nat → State
  | 0, s, _ => s
  | n + 1, s, l =>
    let x := s.link l
    if x.stream.length < 128 then s
    else if rd x.stream 0 1 = 0 then State.takeTrains n (s.updLink l (fun y => { y with stream := y.stream.drop 128 })) l
    else
      let len := 128 * (1 + trainFlits x.stream)
      if x.stream.length < len then s
      else
        let s1 := s.updLink l (fun y => { y with stream := y.stream.drop len })
        match x.judgeTrain (x.stream.take len) with
        | .wait => s
        | .drop => State.takeTrains n s1 l
        | .mismatch slot =>
          ((s1.updLink l (fun y => y.countRx slot)).linkFall l 0x06 true).linkEvent 0x70 0x11 l none
        | .taken slot t =>
          State.takeTrains n (s1.updLink l (fun y =>
            let z := match slot with
              | some k => y.countRx k
              | none => y
            if headOk x.stream then z.accept t else z)) l

/-- Judge what the stream holds. -/
def State.takeStream (s : State) (l : Nat) : State := State.takeTrains ((s.link l).stream.length / 128 + 1) s l

/-! ### Frames in order (R339) -/

/-- A frame is delivered: its flits, and the lane exchange that its number names at the receiving end (R353). -/
def State.deliverFrame (s : State) (l seq : Nat) (flits : List Byte) : State :=
  let x := s.link l
  let s1 := s.updLink l (fun y => { y with rxSeq := (seq + 1) % 4096, stream := y.stream ++ flits })
  let s2 := match x.swapRx with
    | some w =>
      if w.atSeq = some seq then
        ((s1.updLink l (fun y => { y.count 4 1 with rxLanes := replaceLane y.rxLanes w.lane w.spare, swapRx := none })).laneFails l
          true w.lane).linkEvent 0x50 0x01 l (some w.lane)
      else s1
    | none => s1
  s2.takeStream l

/-- Deliver the frames held behind the one that was missing, as far as they follow. -/
def State.deliverHeld : Nat → State → Nat → State
  | 0, s, _ => s
  | n + 1, s, l =>
    let x := s.link l
    match x.heldFrames.find? (fun f => decide (f.1 = x.rxSeq)) with
    | some f =>
      State.deliverHeld n ((s.updLink l (fun y => { y with heldFrames := y.heldFrames.filter (fun g => decide (g.1 ≠ f.1)) })).deliverFrame
        l f.1 f.2) l
    | none => s

/-- A sequenced frame: the next one is delivered, one of the 32 after it is held and the missing one asked for; any other
was received before. -/
def State.orderFrame (s : State) (l seq : Nat) (flits : List Byte) : State :=
  let x := s.link l
  let ahead := (seq + 4096 - x.rxSeq) % 4096
  if ahead = 0 then ((s.deliverFrame l seq flits).deliverHeld 32 l).sendAck l
  else if ahead ≤ 32 then
    (s.updLink l (fun y => if y.heldFrames.any (fun f => decide (f.1 = seq)) then y
      else { y with heldFrames := y.heldFrames ++ [(seq, flits)] })).sendNak l x.rxSeq
  else s

end Sys2Proof.Machine
end

