-- ==== Sys2Proof/Machine/Hold.lean ====
section
/-!
DEFINITION. Holds (R75 to R79): requesting and releasing a Hold in the Tables of a cause's scope, the target Turn, the
holder set, the resume instant, and the events of R473.
-/

namespace Sys2Proof.Machine

open Sys2Proof

/-- The partition takes part in a formed Table: it is RUNNING, DRAINING or HELD (R420). -/
def Partition.tabled (x : Partition) : Bool :=
  decide (x.runState = .running) || decide (x.runState = .draining) || decide (x.runState = .held)

/-- An instant rounded up to the next whole microsecond (Table TTB-1, R79). -/
def wholeUs (t : Nat) : Nat := cdiv t 1000 * 1000

/-- The propagation bound P of the Book (R77). -/
def Partition.bound (x : Partition) : Nat := bookBound x.book

/-- The first Turn whose start is at or after an instant (R77): of the Turns that have not started; the held Turn while
the Table is held and no resume earlier than the instant is set. -/
def Partition.firstTurnFrom (x : Partition) (t : Nat) : Nat :=
  match x.heldAt with
  | some h =>
    match x.resumeAt with
    | some r => if t ≤ r then h else h + (if x.lengthNs = 0 then 1 else cdiv (t - r) x.lengthNs)
    | none => h
  | none =>
    if x.lengthNs = 0 then x.turn + 1
    else max (x.turn + 1) (x.epochTurn + cdiv (t - x.epoch) x.lengthNs)

/-- A holder is in the set. -/
def Partition.holds (x : Partition) (seat : Nat) : Bool := x.holders.contains seat

/-- Take a Hold into the holder set (R77, R79): RUNNING becomes DRAINING with the earliest target; a Hold whose target is
the resume Turn cancels the resume; while held only the set grows. -/
def Partition.addHold (x : Partition) (seat cause target : Nat) : Partition :=
  let y := { x with holders := if x.holds seat then x.holders else x.holders ++ [seat]
                    holdCauses := if x.holdCauses.contains (seat, cause) then x.holdCauses
                      else x.holdCauses ++ [(seat, cause)] }
  match x.heldAt with
  | some h =>
    if x.resumeAt.isSome then
      if target ≤ h then { y with resumeAt := none }
      else { y with holdTarget := some (match x.holdTarget with | some t => min t target | none => target) }
    else y
  | none =>
    { y with holdTarget := some (match x.holdTarget with | some t => min t target | none => target), resumeAt := none
             runState := if x.runState = .running then .draining else x.runState }

/-- Take a Release out of the holder set (R79). With the set empty the Table resumes at the whole microsecond at or after
the latest Release stamp plus P; a Hold that has not taken effect is cancelled when that instant does not lie after
its target boundary (log 10), and else the Table is held there and resumes at that instant (State.enterHeld). A Hold of a later Turn
than a pending resume's leaves that resume as it is. -/
def Partition.dropHold (x : Partition) (seat stamp : Nat) : Partition :=
  let last := max x.lastRelease stamp
  let y := { x with holders := x.holders.filter (fun h => decide (h ≠ seat))
                    holdCauses := x.holdCauses.filter (fun h => decide (h.1 ≠ seat)), lastRelease := last }
  if y.holders.isEmpty then
    let at_ := wholeUs (last + x.bound)
    match x.heldAt, x.resumeAt, x.holdTarget with
    | some h, some r, some t => if at_ ≤ r + (t - h) * x.lengthNs then { y with holdTarget := none } else y
    | some _, _, _ => { y with resumeAt := some at_ }
    | none, _, none => y
    | none, _, some t =>
      if at_ ≤ x.turnStart t then
        { y with holdTarget := none, runState := if x.runState = .draining then .running else x.runState }
      else y
  else y

/-- Event 0x11 of a Hold: Detail the cause, Argument byte 0 the outcome, Location the originating seat (R473). -/
def State.holdEvent (s : State) (p cause outcome seat : Nat) : State :=
  s.raise 0x11 cause (some p) [(.seat, seat)] [outcome]

/-- A Hold that the seat has received or originated enters its holder set. While the Table is held it takes effect at once
(R79, R473). -/
def State.takeHold (s : State) (p seat cause target : Nat) : State :=
  let x := s.part p
  let s1 := s.updPart p (fun y => y.addHold seat cause target)
  if x.heldAt.isSome && (s1.part p).resumeAt.isNone && !x.holdCauses.contains (seat, cause) then s1.holdEvent p cause 1 seat
  else s1

/-- The seat requests a Hold of its Table for a cause (R77): its stamp is the Table time. One seat is one holder; a further
cause of the seat floods its own Hold and the seat's Release comes when the last of its causes ends (log 10). A cause is
its code of Table TTB-4 plus 256 times a number that tells apart actions of one code. -/
def State.requestHold (s : State) (p cause : Nat) : State :=
  let x := s.part p
  if !x.tabled ∨ x.ownHold.contains cause then s
  else
    let target := x.firstTurnFrom (s.now + x.bound)
    let m : TableMsg := { tableId := x.tableId, kind := 1, rsv := 0, cause := cause % 256, seat := x.seat, stamp := s.now
                          arg := target % 2 ^ 32 }
    let s1 := s.updPart p (fun y => { y with ownHold := y.ownHold ++ [cause] })
    ((s1.takeHold p x.seat (cause % 256) target).remember p m).flood p m none

/-- A cause of the seat's Hold ends (R79): with no cause left the seat floods its Release. -/
def State.releaseHold (s : State) (p cause outcome : Nat) : State :=
  let x := s.part p
  if !x.ownHold.contains cause then s
  else
    let s0 := s.holdEvent p (cause % 256) outcome x.seat
    let left := x.ownHold.filter (fun c => decide (c ≠ cause))
    let s1 := s0.updPart p (fun y =>
      { y with ownHold := left, holdCauses := y.holdCauses.filter (fun h => decide (h ≠ (x.seat, cause % 256))) })
    if left.isEmpty then
      let m : TableMsg := { tableId := x.tableId, kind := 2, rsv := 0, cause := cause % 256, seat := x.seat, stamp := s.now
                            arg := 0 }
      ((s1.updPart p (fun y => y.dropHold x.seat s.now)).remember p m).flood p m none
    else s1

/-- The partitions that have a seat in a formed Table. -/
def State.tabledParts (s : State) : List Nat := (List.range 16).filter (fun p => (s.part p).tabled)

/-- A module-level cause: a Hold in every Table with a seat on the module (R75). -/
def State.holdModule (s : State) (cause : Nat) : State :=
  s.tabledParts.foldl (fun t p => t.requestHold p cause) s

def State.releaseModule (s : State) (cause outcome : Nat) : State :=
  (List.range 16).foldl (fun t p => t.releaseHold p cause outcome) s

/-- Every Table that a module-level cause has requested is held (R75). -/
def State.moduleHeld (s : State) (cause : Nat) : Bool :=
  (List.range 16).all (fun p =>
    let x := s.part p
    !x.ownHold.contains cause || decide (x.runState = .held) || !x.tabled)

/-- The partitions with a window on a link (R75: link-level causes). -/
def State.linkParts (s : State) (l : Nat) : List Nat :=
  s.tabledParts.filter (fun p => decide (windowSet (s.link l).windowMap p ≠ 0))

/-- The cause of a link's planned retrain: code 0x04, told apart by the link (log 10). -/
def retrainCause (l : Nat) : Nat := 0x04 + 256 * (1 + l)

/-- The planned retrain of a link begins once every Table that it holds is held (R355). -/
def State.beginRetrain (s : State) (l : Nat) : State :=
  let x := s.link l
  if x.retrainHold && x.retrainMap.isNone && s.moduleHeld (retrainCause l) then
    (s.updLink l (fun y => { y with state := 5, retrainMap := some (y.state, y.txLanes, y.rxLanes) })).timeLost l
  else s

def State.beginRetrains (s : State) : State := (List.range 96).foldl (fun t l => t.beginRetrain l) s

end Sys2Proof.Machine
end

