-- ==== Sys2Proof/Machine/Zones.lean ====
section
/-!
DEFINITION. The Board's places (R14), voltage domains (R448), thermal zones (R319), slack and voltage trim (R72, R73).
-/

namespace Sys2Proof.Machine

open Sys2Proof

def sqFile (q : Nat) : Nat := q % 12
def sqRank (q : Nat) : Nat := q / 12
/-- The compute die of a logical Square (R14). -/
def sqDie (q : Nat) : Nat := sqFile q / 6 + 2 * (sqRank q / 6)
/-- The voltage domain of a logical Square (Table PWR-3). -/
def sqDomain (q : Nat) : Nat := 9 * sqDie q + 3 * (sqRank q % 6 / 2) + sqFile q % 6 / 2

/-- The Squares of a domain. -/
def domainSquares (d : Nat) : List Nat := (List.range 144).filter (fun q => decide (sqDomain q = d))

/-- The two positions that a stack covers along its edge. -/
def zoneAlong (s : Nat) : List Nat := [[0, 1], [1, 2], [3, 4], [4, 5]].getD (s % 4) []

/-- A Square lies in a stack's zone (Table MEM-7). -/
def inZone (st q : Nat) : Bool :=
  let m := st / 4
  let f := sqFile q
  let r := sqRank q
  let along := fun (x base : Nat) => (zoneAlong st).any (fun k => decide (x = base + k))
  match m with
  | 0 => along r 0 && decide (f < 3)
  | 1 => along f 0 && decide (r < 3)
  | 2 => along f 6 && decide (r < 3)
  | 3 => along r 0 && decide (9 ≤ f)
  | 4 => along r 6 && decide (f < 3)
  | 5 => along f 0 && decide (9 ≤ r)
  | 6 => along f 6 && decide (9 ≤ r)
  | _ => along r 6 && decide (9 ≤ f)

/-- The level of a zone: 0 to 31 the stacks, 32 to 35 the compute dies. -/
def State.zoneLevel (s : State) (z : Nat) : Nat := Tab.get 0 s.thermal.level z

/-- The zones that a Square lies in, its die's among them. -/
def sqZones (q : Nat) : List Nat := (List.range 32).filter (fun st => inZone st q) ++ [32 + sqDie q]

/-- A compute domain is under the Hot rule (R459). -/
def State.domainHot (s : State) (d : Nat) : Bool :=
  (domainSquares d).any (fun q => (sqZones q).any (fun z => decide (2 ≤ s.zoneLevel z)))

def State.domainMv (s : State) (d : Nat) : Nat := Tab.get 680 s.power.domainMv d
def State.setDomain (s : State) (d mv : Nat) : State :=
  s.updPower (fun x => { x with domainMv := Tab.put x.domainMv d mv })

/-- A domain without a partition-owned Square is at 0.68 V (R449). -/
def State.domainOwned (s : State) (d : Nat) : Bool := (domainSquares d).any (fun q => (s.owner q).isSome)

/-- The slack of a Square (R72): what was left of the Turn when it ended, as a fraction of L, an F32. -/
def slackOf (left len : Nat) : Word := BitVec.ofNat 32 (rne32 ((valNat left).div (valNat len)))

/-- The least slack that a domain's partition-owned Squares recorded at their last boundaries; none where none has. -/
def State.leastSlack (s : State) (d : Nat) : Option Val :=
  match (domainSquares d).filter (fun q => (s.owner q).isSome && (s.sq q).slackKnown) with
  | [] => none
  | q :: r => some (r.foldl (fun v k => (v.minimum (dec32 (s.sq k).lastSlack.toNat))) (dec32 (s.sq q).lastSlack.toNat))

/-- The trim decision of Table TTB-3 from the present voltage in mV. -/
def trimMv (low high mv : Nat) (slack : Val) : Nat :=
  let pct := slack.mul (valNat 100)
  if (valNat high).lt pct then max 680 (mv - 5)
  else if pct.lt (valNat low) then min 750 (mv + 10)
  else mv

/-- Voltage trim of one domain at a boundary (R73): at most once in 8 µs; 0.68 V while Hot or limited (R445); before any slack has been
recorded there is nothing to judge. -/
def State.trimDomain (s : State) (d : Nat) : State :=
  let last := Tab.get 0 s.power.lastTrim d
  if last ≠ 0 ∧ s.now + 1 < last + 8000 then s
  else
    let mv := if s.domainHot d || s.power.limited then 680
      else match s.leastSlack d with
        | some sl => trimMv s.power.slackLow s.power.slackHigh (s.domainMv d) sl
        | none => s.domainMv d
    (s.setDomain d mv).updPower (fun x =>
      { x with lastTrim := Tab.put x.lastTrim d (s.now + 1)
               domainSlack := match s.leastSlack d with
                 | some sl => Tab.put x.domainSlack d (BitVec.ofNat 32 (rne32 sl))
                 | none => x.domainSlack })

/-- Trim of every domain that holds a Square of a partition. -/
def State.trim (s : State) (p : Nat) : State :=
  ((List.range 36).filter (fun d => (domainSquares d).any (fun q => decide (s.owner q = some p)))).foldl
    (fun t d => t.trimDomain d) s

end Sys2Proof.Machine
end

