-- ==== Sys2Proof/Machine/Regulator.lean ====
section
/-!
DEFINITION. The bandwidth regulators of the memory-side dies (R312 to R316): the charges of traffic, filling, and the admission
of waiting requests. Amounts are thousandths of a token, which a rate in tokens per µs fills in whole numbers per ns.
-/

namespace Sys2Proof.Machine

open Sys2Proof

/-- What traffic costs (Table MEM-3). -/
def trafficTokens : Traffic → Nat
  | .stack _ sectors partly => sectors + 2 + partly
  | .link bytes => cdiv bytes 64

/-- The tokens that a request asks for. -/
def reqTokens (r : TokenReq) : Nat := trafficTokens r.traffic

/-- A die serves the traffic of its own four stacks, and link traffic that passes through it (R20). -/
def trafficOnDie (t : Traffic) (die : Nat) : Bool :=
  match t with
  | .stack st _ _ => decide (st / 4 = die)
  | .link _ => true

/-- A regulator's reservation in tokens per µs: partitions 0 to 15, management 16, maintenance 17 (Table MEM-4). -/
def State.rhoOf (s : State) (who : Nat) : Nat := if who < 16 then (s.part who).rho else if who = 16 then 512 else 1024
/-- A regulator's ceiling; management and maintenance have κ = ρ (R315). -/
def State.kappaOf (s : State) (who : Nat) : Nat := if who < 16 then (s.part who).kappa else s.rhoOf who

/-- The depth of a bucket that fills at a rate. -/
def bucketDepth (rate : Nat) : Nat := max rate 132 * 1000

def State.allReserved (s : State) : Nat := (List.range 18).foldl (fun n w => n + s.rhoOf w) 0

/-- What a bucket held and gained above its depth. -/
def bucketOver (held rate dt : Nat) : Nat := held + rate * dt - bucketDepth rate

def bucketFill (held rate dt : Nat) : Nat := min (bucketDepth rate) (held + rate * dt)

/-- The regulators of a die filled for a time (R315). What overflows a partition's reserved bucket goes to the pool. -/
def State.fill (s : State) (die dt : Nat) : State :=
  let d := s.memDie die
  let spill := (List.range 18).foldl (fun n w => n + bucketOver (Tab.get 0 d.g w) (s.rhoOf w) dt) 0
  s.updMemDie die (fun y =>
    { y with filledAt := y.filledAt + dt
             pool := min 4096000 (y.pool + (51200 - s.allReserved) * dt + spill)
             g := (List.range 18).map (fun w => (w, bucketFill (Tab.get 0 y.g w) (s.rhoOf w) dt))
             c := (List.range 18).map (fun w => (w, bucketFill (Tab.get 0 y.c w) (s.kappaOf w) dt)) })

/-- The oldest waiting request of a regulator. -/
def MemDie.oldest (d : MemDie) (who : Nat) : Option (TokenReq × Nat) := d.waiting.find? (fun r => decide (r.1.who = who))

/-- The reserved path admits a request (R315). -/
def MemDie.reserved (d : MemDie) (r : TokenReq) : Bool :=
  decide (1000 * reqTokens r ≤ Tab.get 0 d.g r.who) && decide (1000 * reqTokens r ≤ Tab.get 0 d.c r.who)

/-- A zone at Hot takes its stack's requests on the reserved path only (R316). -/
def State.hotFor (s : State) (t : Traffic) : Bool :=
  match t with
  | .stack st _ _ => decide (2 ≤ s.zoneLevel st)
  | .link _ => false

/-- The surplus path admits a request. -/
def State.surplus (s : State) (d : MemDie) (r : TokenReq) : Bool :=
  decide (1000 * reqTokens r ≤ d.pool) && decide (1000 * reqTokens r ≤ Tab.get 0 d.c r.who) && !s.hotFor r.traffic

/-- Take a request's tokens and let it go, at the instant to which the die's regulators are filled. -/
def State.admitReq (s : State) (die : Nat) (r : TokenReq × Nat) (path : Bool) : State :=
  let k := 1000 * reqTokens r.1
  let s1 := s.updMemDie die (fun y =>
    { y with waiting := y.waiting.erase r
             c := Tab.upd 0 y.c r.1.who (fun n => n - k)
             g := if path then Tab.upd 0 y.g r.1.who (fun n => n - k) else y.g
             pool := if path then y.pool else y.pool - k
             lastSurplus := if path then y.lastSurplus else r.1.who })
  if r.1.who < 16 then
    { s1 with dram := { s1.dram with tokenWait := Tab.upd 0 s1.dram.tokenWait r.1.who (fun n => satAdd n ((s.memDie die).filledAt - r.2)) } }
  else s1

/-- The next request that a die can take, and its path: the reserved one first, the surplus one in rotating order. -/
def State.nextAdmitted (s : State) (die : Nat) : Option ((TokenReq × Nat) × Bool) :=
  let d := s.memDie die
  match ((List.range 18).filterMap d.oldest).find? (fun r => d.reserved r.1) with
  | some r => some (r, true)
  | none =>
    let order := (List.range 18).map (fun i => (d.lastSurplus + 1 + i) % 18)
    match (order.filterMap d.oldest).find? (fun r => s.surplus d r.1) with
    | some r => some (r, false)
    | none => none

/-- Admit what can be admitted now. -/
def State.serveFrom : Nat → Nat → State → State
  | 0, _, s => s
  | n + 1, die, s =>
    match s.nextAdmitted die with
    | some (r, path) => State.serveFrom n die (s.admitReq die r path)
    | none => s

def State.serve (s : State) (die : Nat) : State := State.serveFrom (s.memDie die).waiting.length die s

/-- Time passes at a die: its regulators fill continuously, and what waits is served as soon as it can be (R315). -/
def State.passFrom : Nat → Nat → State → State
  | 0, _, s => s
  | n + 1, die, s =>
    if (s.memDie die).waiting.isEmpty then s.fill die (n + 1) else State.passFrom n die ((s.fill die 1).serve die)

/-- The regulators of a die at the present instant. -/
def State.refill (s : State) (die : Nat) : State := State.passFrom (s.now - (s.memDie die).filledAt) die s

def State.refillAll (s : State) : State := (List.range 8).foldl (fun t d => t.refill d) s

def State.serveAll (s : State) : State := (List.range 8).foldl (fun t d => t.serve d) s

/-- The dies on which requests wait, served as time passes. -/
def State.serveWaiting (s : State) : State :=
  (List.range 8).foldl (fun t d => if (t.memDie d).waiting.isEmpty then t else (t.refill d).serve d) s

/-- A request reaches a die's regulators and is admitted, or waits in its turn (R315). -/
def State.charge (s : State) (die : Nat) (r : TokenReq) : State :=
  let s1 := s.refill die
  (s1.updMemDie die (fun d => { d with waiting := d.waiting ++ [(r, s.now)] })).serve die

/-- The charge of a burst within one chunk, on the die that serves it (R312; log 108). -/
def State.chargeStack (s : State) (who pa sectors partly : Nat) : State :=
  s.charge (paStack pa / 4) { who := who, traffic := .stack (paStack pa) sectors partly }

/-- A Mover channel waits for a token (R162). -/
def State.tokenWaits (s : State) (m : MoverId) (ch : Nat) : Bool :=
  (List.range 8).any (fun d => (s.memDie d).waiting.any (fun r => decide (r.1.channel = some (m, ch))))

/-- The memory-side die that link traffic of a partition passes through: one on the side of the link's I/O die (R21, R22). Which one
the Board fabric route fixes, and no field of a Book names it (log 108). -/
def passDie (p l : Nat) : Nat := (if l < 48 then 0 else 4) + (Config.passDie p l).val

/-- The charge of link traffic that passes a memory-side die (R20). -/
def passTraffic (p l bytes : Nat) : Nat × Traffic := (passDie p l, .link bytes)

/-- REGULATOR_ADMIT (R315). -/
def execRegulatorAdmit (die : Nat) (r : TokenReq) (s : State) : Out :=
  onUnit (decide (die < 8) && decide (r.who < 18) && trafficOnDie r.traffic die) (s.charge die r)

end Sys2Proof.Machine
end

