-- ==== Sys2Proof/Machine/Dram.lean ====
section
/-!
DEFINITION. Stack memory: its keys, cipher and Tags (R393, R394), reads and their outcomes (R304, R321), writes (R305), the
device region's two copies (R311, R484), channel migration's triggers (R324, R325).
-/

namespace Sys2Proof.Machine

open Sys2Proof

/-! ### Keys and the stored bits (R393, R394) -/

/-- The key number under which an owner's sectors of a KeyGen are sealed (R393, R396). -/
def State.keyFor (s : State) (who : Nat) (gen : Bool) : Option Nat :=
  if who = deviceOwner then (if gen then none else some 0)
  else
    let x := s.part who
    if decide (x.keyGeneration % 2 = 1) = gen then x.curKey else x.prevKey

/-- A memory key: the XTS pair and the CMAC key (Table SEC-1). -/
structure MemKey where
  xts : BitVec 512
  mac : BitVec 256
  deriving DecidableEq, Repr

/-- A device-region key (R393): 32 bytes that HKDF expands from the device memory key (log 107). -/
def deviceKey (info : String) : BitVec 256 :=
  (Config.hkdfExpand (Config.hkdfExtract [] (leBytes 32 Config.deviceMemoryKey.toNat)) (textBytes info)).truncate 256

/-- The key of an owner by its number; without a key bits come out under none that sealed anything (R310). -/
def memKey (owner : Nat) (key : Option Nat) : MemKey :=
  match key with
  | none => { xts := Config.absentKey.truncate 512, mac := (Config.absentKey >>> 512).truncate 256 }
  | some k =>
    if owner = deviceOwner then { xts := (deviceKey "dmk tweak").append (deviceKey "dmk data"), mac := deviceKey "dmk tag" }
    else { xts := (Config.memoryKey k).truncate 512, mac := (Config.memoryKey k >>> 512).truncate 256 }

/-- The tweak of a sector (R393): pa[40:6] in bits [34:0], KeyGen in bit [35]. -/
def sectorTweak (pa : Nat) (gen : Bool) : BitVec 128 := BitVec.ofNat 128 (pa % 2 ^ 41 / 64 + if gen then 2 ^ 35 else 0)

/-- One of the four cipher blocks of a sector as the owner of its side-band sealed it. -/
def State.sealedBlock (s : State) (pa j : Nat) : BitVec 128 :=
  let m := s.sectorMeta pa
  Config.xtsBlock (memKey m.owner (some m.key)).xts (sectorTweak pa m.keyGen) j
    (BitVec.ofNat 128 (leNat (slice (s.sectorBytes pa) (16 * j) 16)))

/-- The Tag of a sector (R394): the first four bytes of the CMAC over ciphertext, address, KeyGen and owner. -/
def sectorTag (mac : BitVec 256) (blocks : List (BitVec 128)) (pa : Nat) (gen : Bool) (owner : Nat) : Nat :=
  fld (Config.cmac mac (blocks.flatMap (fun b => leBytes 16 b.toNat) ++ leBytes 5 (pa % 2 ^ 41 / 64) ++
    [if gen then 1 else 0] ++ leBytes 1 owner ++ [0])).toNat 0 32

/-! ### Reads (R304) -/

/-- The wrong bits that a read keeps: those that the code could not correct, or those that it left. -/
def Sector.readError (m : Sector) : Nat :=
  match sectorDecode m.upset with
  | .fails => m.upset.toNat
  | _ => (sectorResidual m.upset).toNat

/-- The KeyGen that a read sees. -/
def Sector.readGen (m : Sector) : Bool := m.keyGen != bit m.readError 544

/-- A sector counts as uncorrectable: its check code fails, or its reserved bit is 1 after correction (R302, R304). -/
def Sector.codeFails (m : Sector) : Bool :=
  decide (sectorDecode m.upset = .fails) || (m.reservedBit != bit m.readError 545)

/-- One cipher block as a read has it before decryption. -/
def State.readBlock (s : State) (pa j : Nat) : BitVec 128 :=
  s.sealedBlock pa j ^^^ BitVec.ofNat 128 (fld (s.sectorMeta pa).readError (128 * j) 128)

/-- The sector was sealed by the reader under the key that its KeyGen names. -/
def State.sealedFor (s : State) (who pa : Nat) : Bool :=
  let m := s.sectorMeta pa
  decide (m.owner = who) && decide (s.keyFor who m.readGen = some m.key) && decide (m.readGen = m.keyGen)

/-- The Tag over the corrected sector matches the stored one, under the reader's key. -/
def State.tagMatches (s : State) (who pa : Nat) : Bool :=
  let m := s.sectorMeta pa
  let stored := sectorTag (memKey m.owner (some m.key)).mac ((List.range 4).map (s.sealedBlock pa)) pa m.keyGen m.owner
  decide (sectorTag (memKey who (s.keyFor who m.readGen)).mac ((List.range 4).map (s.readBlock pa)) pa m.readGen who =
    stored ^^^ fld m.readError 512 32)

/-- The outcome of a read: 0 clean, 1 corrected, 2 uncorrectable, 3 Tag mismatch (Table MEM-8). A sector without a wrong bit that
its reader sealed needs no look at the Tag. -/
def State.outcome (s : State) (who pa : Nat) : Nat :=
  let m := s.sectorMeta pa
  if m.codeFails then 2
  else if (decide (m.readError = 0) && s.sealedFor who pa) || s.tagMatches who pa then
    (if sectorDecode m.upset = .clean then 0 else 1)
  else 3

/-- Whether a byte of a sector comes out as it was stored: the right key, and no wrong bit in its 16-byte cipher block. -/
def State.byteIntact (s : State) (who pa : Nat) : Bool :=
  s.sealedFor who pa && decide (fld (s.sectorMeta pa).readError (128 * (pa % 64 / 16)) 128 = 0)

/-- A byte as the reader decrypts it (R304, R310, R393). -/
def State.decrypted (s : State) (who pa : Nat) : Byte :=
  let m := s.sectorMeta pa
  let j := pa % 64 / 16
  let b := (Config.xtsBlock (memKey who (s.keyFor who m.readGen)).xts (sectorTweak pa m.readGen) j).symm (s.readBlock pa j)
  BitVec.ofNat 8 (b.toNat / 256 ^ (pa % 16))

/-- The byte that a read delivers. An intact one decrypts to what was stored (`State.stackByte_eq_decrypted`). -/
def State.stackByte (s : State) (who pa : Nat) : Byte := if s.byteIntact who pa then s.plainByte pa else s.decrypted who pa

/-- The byte of a device-region address: from the mirror where the primary fails (R311). -/
def State.deviceByte (s : State) (pa : Nat) : Byte :=
  if 2 ≤ s.outcome deviceOwner pa then s.stackByte deviceOwner (mirrorOf pa) else s.stackByte deviceOwner pa

def State.readByte (s : State) (who pa : Nat) : Byte :=
  if who = deviceOwner then s.deviceByte pa else s.stackByte who pa

/-! ### Writes -/

/-- The migration of a die copies this channel, so that writes below the pointer go to both (Table MEM-10 step 3). -/
def State.mirrorPhys (s : State) (pa : Nat) : Option Nat :=
  let d := s.memDie (paStack pa / 4)
  if (d.mig = .copying || d.mig = .awaitingHold || d.mig = .awaitingRetry) && decide (d.migStack = paStack pa) &&
      decide (d.migChannel = paChannel pa) && decide (paRow pa < d.copyPtr) then some d.migSpare else none

/-- Store a sector whole at one place: bytes and side-band. Where the module's own content stands, the cells hold what differs. -/
def State.storeSector (s : State) (pa key : Nat) (m : Sector) (bytes : List Byte) : State :=
  let l := padTo 64 bytes
  let v := if inDevice pa && decide (m.owner = deviceOwner) then
      (l.zip (List.range 64)).map (fun z => z.1 ^^^ s.deviceContent (pa / 64 * 64 % 2 ^ 34 + z.2))
    else l
  { s with dram := { s.dram with cells := Mem.writeAll 0 s.dram.cells (key * 64) v
                                 sectors := Mem.write (s.pageMeta pa) s.dram.sectors key m } }

/-- Store a sector at its place and, during a migration, at the spare's. -/
def State.storeAt (s : State) (pa : Nat) (m : Sector) (bytes : List Byte) : State :=
  let s1 := s.storeSector pa (s.sectorKey pa) m bytes
  match s.mirrorPhys pa with
  | some phys => s1.storeSector pa (sectorKeyAt (paStack pa) phys (paRow pa) (paByte pa / 64)) m bytes
  | none => s1

/-- The side-band of a fresh write of an owner: its current key, good check symbols and Tag, reserved bit 0 (R302). -/
def State.freshMeta (s : State) (who : Nat) : Sector :=
  if who = deviceOwner then { owner := deviceOwner, key := 0, keyGen := false, reservedBit := false, upset := 0 }
  else
    let x := s.part who
    { owner := who, key := x.curKey.getD 0, keyGen := decide (x.keyGeneration % 2 = 1), reservedBit := false, upset := 0 }

/-- A write into a Book area changes the placed Book (R504). -/
def State.putBook (s : State) (pa : Nat) (bytes : List Byte) : State :=
  let off := pa % 2 ^ 34
  let o := off % 0x10000000
  if 0x20000000 ≤ off ∧ off < 0x120000000 ∧ o < 0x6000000 then
    s.updPart ((off - 0x20000000) / 0x10000000) (fun x =>
      { x with image := x.image.take o ++ bytes.take (x.image.length - o) ++ x.image.drop (o + 64) })
  else s

/-- Write a whole sector of an owner; in the device region both copies (R311). -/
def State.writeSector (s : State) (who pa : Nat) (bytes : List Byte) : State :=
  let a := pa / 64 * 64
  let s0 := if who = deviceOwner && inDevice a then s.putBook a bytes else s
  let s1 := s0.storeAt a (s.freshMeta who) bytes
  if who = deviceOwner && inDevice a then s1.storeAt (mirrorOf a) (s1.freshMeta who) bytes else s1

/-- Flip stored bits of a sector: what radiation or a weak cell does before an access. -/
def State.upsetSector (s : State) (pa : Nat) (e : BitVec 580) : State :=
  let a := pa / 64 * 64
  if e &&& storedMask = 0 then s
  else
    let m := s.sectorMeta a
    let t := Mem.write (s.pageMeta a) s.dram.sectors (s.sectorKey a) { m with upset := m.upset ^^^ (e &&& storedMask) }
    { s with dram := { s.dram with sectors := t } }

/-! ### Channel migration: triggers (R324, R325) -/

/-- Add to one of a physical channel's counters: 0 corrected, 1 uncorrectable, 2 Tag mismatch (R321). -/
def State.countRead (s : State) (st phys kind : Nat) : State :=
  s.updStack st (fun x => { x with counters := Tab.upd 0 x.counters (3 * phys + kind) (fun n => satAdd n 1) })

/-- Location of a memory event (R321). -/
def memLoc (st phys r pa : Nat) : List (LocKind × Nat) :=
  [(.stack, st), (.channel, phys), (.bank, r % 64), (.row, r / 64), (.pa, pa)]

/-- Start the migration of a logical channel on its idle die, or refuse it for want of a spare (R325). -/
def State.startMigration (s : State) (die st ch : Nat) : State :=
  let x := s.stack st
  match x.free with
  | [] => s.raise 0x40 0x25 none [(.stack, st), (.channel, x.physical ch)] []
  | spare :: rest =>
    (s.updStack st (fun y => { y with free := rest })).updMemDie die (fun d =>
      { d with mig := .training, migStack := st, migChannel := ch, migSpare := spare, migOld := x.physical ch
               copyPtr := 0, retried := false })

/-- The logical channel is queued or migrating on its die. -/
def State.migrationPending (s : State) (die st ch : Nat) : Bool :=
  let d := s.memDie die
  d.queue.contains (st, ch) ||
    (decide (d.mig ≠ .idle) && decide (d.mig ≠ .testing) && decide (d.migStack = st) && decide (d.migChannel = ch))

/-- A trigger of R324 on a logical channel: ignored when it is queued, migrating or served by a retired channel; otherwise
it starts, or waits in order behind the die's migration. -/
def State.triggerMigration (s : State) (st ch : Nat) : State :=
  let die := st / 4
  let x := s.stack st
  if s.migrationPending die st ch || x.retired.contains (x.physical ch) then s
  else if (s.memDie die).mig = .idle then s.startMigration die st ch
  else s.updMemDie die (fun d => { d with queue := d.queue ++ [(st, ch)] })

/-- A corrected error counts towards the repair threshold (R324). -/
def State.noteCorrected (s : State) (st phys ch : Nat) : State :=
  let keep := (s.stack st).recent.filter (fun e => decide (s.now < e.2 + 3600000000000))
  let l := keep ++ [(phys, s.now)]
  let s1 := s.updStack st (fun y => { y with recent := l })
  if s.dram.autoRepair && decide (s.dram.repairThreshold ≤ (l.filter (fun e => decide (e.1 = phys))).length) then
    s1.triggerMigration st ch
  else s1

/-- Event 0x40 of a channel, at most once a second (R321). -/
def State.raise40 (s : State) (st phys detail : Nat) (part : Option Nat) (loc : List (LocKind × Nat)) : State :=
  let last := Tab.get 0 (s.stack st).lastEvent40 phys
  if last = 0 ∨ last + 1000000000 ≤ s.now + 1 then
    (s.updStack st (fun y => { y with lastEvent40 := Tab.put y.lastEvent40 phys (s.now + 1) })).raise 0x40 detail part
      loc []
  else s

/-! ### The device region lost (R311, R484, R504) -/

/-- Both copies of a device-region sector fail. -/
def State.bothLost (s : State) (pa : Nat) : Bool :=
  decide (2 ≤ s.outcome deviceOwner pa) && decide (2 ≤ s.outcome deviceOwner (mirrorOf pa))

/-- Both copies are written again with the content that the module has for them elsewhere (R484). -/
def State.rebuild (s : State) (pa : Nat) : State :=
  s.writeSector deviceOwner pa ((List.range 64).map (fun i => s.deviceContent (pa / 64 * 64 % 2 ^ 34 + i)))

/-- The dictionary objects that have a byte of their value in a sector of the dictionary's areas, by its offset (R484). -/
def sectorObjects (off : Nat) : List (Nat × Nat) :=
  ((List.range 64).filterMap (fun i => (Config.dictPlace (off / 64 * 64 + i)).map (·.1))).eraseDups

/-- The sector of the level-2 tables that records a virtual page. -/
def tableSector (p vpage : Nat) : Nat := deviceBase + tableArea p + 0x10000 * (vpage / 8192) + vpage % 8192 * 8 / 64 * 64

/-- The sector of the page-map area that records a run, by its number. -/
def mapSector (p i : Nat) : Nat := deviceBase + partArea p + 0x6000000 + 64 * (i / 4)

/-- A lost page-map sector records a mapping whose translation-table sector is lost too (R484). -/
def State.mapGone (s : State) (p off : Nat) : Bool :=
  (((s.part p).pageMap.drop (4 * (off / 64))).take 4).any (fun r =>
    (List.range (r.pages / 8 + 2)).any (fun i => s.bothLost (tableSector p (r.vpage + min (8 * i) (r.pages - 1)))))

/-- A lost translation-table sector records a mapping whose page-map sector is lost too. -/
def State.tableGone (s : State) (p off : Nat) : Bool :=
  let v := off / 0x10000 * 8192 + off % 0x10000 / 64 * 8
  (((s.part p).pageMap.zip (List.range (s.part p).pageMap.length))).any (fun r =>
    decide (r.1.vpage < v + 8) && decide (v < r.1.vpage + r.1.pages) && s.bothLost (mapSector p r.2))

/-- A sector of the device region is gone in both copies: event 0x41 detail 0x25 and the action of its area. Firmware and kept
objects are written again; a page map and its translation tables, the level-1 table included, are rebuilt from each other; the
rest is lost. -/
def State.deviceLost (s : State) (pa : Nat) : State :=
  let s1 := s.raise 0x41 0x25 none (memLoc (paStack pa) (s.physOf pa) (paRow pa) pa) []
  let off := pa % 2 ^ 34
  if off < 0x10000000 then
    if Config.holdsSavedState off && decide (s1.service.activation = 1) then
      (s1.updService (fun v => { v with activation := 3 })).releaseModule 0x05 4
    else s1.rebuild pa
  else if off < 0x10100000 then s1.rebuild pa
  else if off < 0x20000000 then
    (sectorObjects off).foldl (fun t o =>
      { t with lostObjects := t.lostObjects ++ [o] }) (s1.setFlag 5)
  else if off < 0x120000000 then
    let p := (off - 0x20000000) / 0x10000000
    let o := off % 0x10000000
    if o < 0x6000000 then
      (s1.updPart p (fun x => { x with placedBytes := 0, image := [] })).enterFaulted p
    else if o < 0x7000000 then
      if s.mapGone p (o - 0x6000000) then { s1 with lostObjects := s1.lostObjects ++ [(0x2010, 1 + p)] } else s1.rebuild pa
    else if (deviceBase + off) / 65536 = (s.part p).trRoot then s1.rebuild pa
    else s1.enterFaulted p
  else if off < 0x200000000 then s1
  else
    let p := (off - 0x200000000) / 0x20000000
    if s.tableGone p (off % 0x20000000) then { s1 with lostObjects := s1.lostObjects ++ [(0x2010, 1 + p)] } else s1.rebuild pa

/-! ### The effects of a read (R304, R311, R321, R324) -/

/-- The sector is written back corrected, or rewritten from the other copy, within the maintenance reservation (R312). -/
def State.rewrite (s : State) (pa : Nat) (m : Sector) (bytes : List Byte) : State :=
  (s.storeAt (pa / 64 * 64) m bytes).chargeStack 17 pa 1 0

/-- A corrected read: counted, reported, written back, counted towards the repair threshold. `detail` is 0x21 for a read
and 0x22 for patrol scrub. -/
def State.correctedRead (s : State) (part : Option Nat) (pa detail : Nat) : State :=
  let st := paStack pa
  let phys := s.physOf pa
  let m := s.sectorMeta pa
  let s1 := (s.countRead st phys 0).rewrite pa { m with upset := sectorResidual m.upset } (s.sectorBytes (pa / 64 * 64))
  (s1.raise40 st phys detail part (memLoc st phys (paRow pa) pa)).noteCorrected st phys (paChannel pa)

/-- A failing copy is counted on its channel; an uncorrectable one starts its repair (R321, R324). -/
def State.failedCopy (s : State) (pa : Nat) (code : Bool) : State :=
  let s1 := s.countRead (paStack pa) (s.physOf pa) (if code then 1 else 2)
  if code then s1.triggerMigration (paStack pa) (paChannel pa) else s1

/-- A copy of a device-region sector is restored from the other one: event 0x40 detail 0x23 (R311). -/
def State.restoreCopy (s : State) (pa : Nat) (part : Option Nat) : State :=
  let st := paStack pa
  ((s.rewrite pa (s.freshMeta deviceOwner) (s.sectorBytes (mirrorOf (pa / 64 * 64)))).raise40 st (s.physOf pa) 0x23 part
    (memLoc st (s.physOf pa) (paRow pa) pa)).setFlag 3

/-- A primary that fails is served from the mirror, whose own outcome counts as every read's does (R311, R321). -/
def State.fromMirror (s : State) (pa : Nat) (part : Option Nat) : State :=
  let m := mirrorOf pa
  match s.outcome deviceOwner m with
  | 0 => s.restoreCopy pa part
  | 1 => (s.correctedRead part m 0x21).restoreCopy pa part
  | o => (s.failedCopy m (decide (o = 2))).deviceLost pa

/-- The effects of one sector read by an owner. `part` is the partition the outcome belongs to, `step` whether the read can
set its error latch, `pools` the tensors that the reading operation writes, which the event names (R286). -/
def State.readEffects (s : State) (who pa : Nat) (part : Option Nat) (step : Bool) (pools : List Nat := []) : State :=
  let loc := memLoc (paStack pa) (s.physOf pa) (paRow pa) pa ++ pools.map (fun i => (.pool, i))
  let bad := fun (o cls : Nat) =>
    if who = deviceOwner then (s.failedCopy pa (decide (o = 2))).fromMirror pa part
    else
      let s2 := (s.countRead (paStack pa) (s.physOf pa) (o - 1)).raise cls 0x21 part loc []
      let s3 := match part with
        | some p => s2.dataError p (s.vaOf p pa) step
        | none => s2
      if o = 2 then s3.triggerMigration (paStack pa) (paChannel pa) else s3
  match s.outcome who pa with
  | 0 => s
  | 1 => s.correctedRead part pa 0x21
  | 2 => bad 2 0x41
  | _ => bad 3 0x42

/-- A write of some bytes of a sector: position and byte, with the bits to keep (R305). A partial write reads and verifies
first and is refused over data it cannot verify; in the device region the mirror serves a primary that fails (R311), and with
both copies lost only R484 acts. `pools` as in `State.readEffects`. -/
def State.writeBytes (s : State) (who pa : Nat) (part : Option Nat) (ws : List (Nat × Byte × Byte)) (pools : List Nat := []) :
    State :=
  let a := pa / 64 * 64
  let whole := (List.range 64).all (fun i =>
    decide ((ws.filter (fun w => decide (w.1 = i))).foldl (fun a w => a &&& w.2.2) (0xFF : Byte) = 0))
  let st := paStack pa
  let phys := s.physOf pa
  let loc := memLoc st phys (paRow pa) a ++ pools.map (fun i => (.pool, i))
  let old := (List.range 64).map (fun i => s.readByte who (a + i))
  let merged := ws.foldl (fun l w => l.set w.1 ((byteAt l w.1 &&& w.2.2) ||| (w.2.1 &&& ~~~w.2.2))) old
  if whole then s.writeSector who a merged
  else if who = deviceOwner then
    let t := s.readEffects who a part false
    if s.bothLost a then t else t.writeSector who a merged
  else match s.outcome who a with
    | 0 => s.writeSector who a merged
    | 1 => (s.correctedRead part a 0x21).writeSector who a merged
    | 2 =>
      let s1 := (s.countRead st phys 1).raise 0x41 0x22 part loc []
      let s2 := match part with
        | some p => s1.dataError p (s.vaOf p a) true
        | none => s1
      s2.triggerMigration st (paChannel a)
    | _ =>
      let s1 := (s.countRead st phys 2).raise 0x42 0x22 part loc []
      match part with
      | some p => s1.dataError p (s.vaOf p a) true
      | none => s1

end Sys2Proof.Machine
end

