-- ==== Sys2Proof/Machine/Tensor.lean ====
section
/-!
DEFINITION. Tensors as the engines of a Square reach them: descriptors of the pool, elements of Local Store tensors under
translation (R132, R136, R172), Local Store and its code (R102 to R104), Accumulator Memory (R196, R199), and writes to
stack memory through the state fence (R283 to R285).
-/

namespace Sys2Proof.Machine

open Sys2Proof

/-- A fault at run time: event class, detail, virtual address, pool index, and the list entry of an index out of range. -/
structure RunFault where
  cls : Nat
  detail : Nat
  va : Nat
  pool : Nat
  entry : Option Nat := none
  deriving DecidableEq, Repr

/-- A descriptor of the pool with its number (detail 0x1E beyond it, R130). -/
def State.desc (s : State) (p i : Nat) : Option DescBits := (s.part p).pool[i]?

/-- The signed Base shift of an index register times lines of 128 bytes. -/
def lineShift (enable : Bool) (index : Nat) (lines : Int) : Int := if enable then (index : Int) * lines * 128 else 0

/-! ### Local Store -/

/-- A byte of a Square's Local Store; unwritten bytes are 0 (R34). -/
def Square.lsByte (x : Square) (off : Nat) : Byte := Mem.read 0 x.ls off

/-- Write a run of bytes; a granule of 16 bytes written whole carries a new code (R104). -/
def Square.lsWrite (x : Square) (off : Nat) (l : List Byte) : Square :=
  { x with ls := Mem.writeAll 0 x.ls off l
           lsErr := x.lsErr.filter (fun e => !(decide (off ≤ 16 * e.1) && decide (16 * e.1 + 16 ≤ off + l.length))) }

/-- `n` bytes of Local Store as a number. -/
def Square.lsNat (x : Square) (off n : Nat) : Nat := leNat (Mem.readAll 0 x.ls off n)

/-- Write a field of bits, other bits of its bytes kept (R103, R154). -/
def Square.lsPutBits (x : Square) (off lo len v : Nat) : Square :=
  let n := (lo + len + 7) / 8
  x.lsWrite off (leBytes n (setFld (x.lsNat off n) lo len v))

/-- Where an engine of a Square reaches a virtual address: an offset of its own Local Store, else the fault `detail` of its
chapter or the translation fault (R136, R172). -/
def State.localOffset (s : State) (q p va detail pool : Nat) (write : Bool) : Except RunFault Nat :=
  match s.translate p va write with
  | .error d => .error { cls := 0x31, detail := d, va := va, pool := pool }
  | .ok (.stack _) => .error { cls := 0x30, detail := detail, va := va, pool := pool }
  | .ok (.localStore q' off) =>
    if q' = q then .ok off else .error { cls := 0x30, detail := detail, va := va, pool := pool }

/-- The offsets of the bytes of element place (va, bit) of a width. -/
def State.localBytes (s : State) (q p detail pool : Nat) (write : Bool) (at_ : Nat × Nat) (bits : Nat) :
    Except RunFault (List Nat) :=
  (List.range ((at_.2 + bits + 7) / 8)).mapM (fun i => s.localOffset q p (at_.1 + i) detail pool write)

/-- The code of an element of a Local Store tensor. -/
def State.localElem (s : State) (q p detail pool : Nat) (at_ : Nat × Nat) (bits : Nat) : Except RunFault Nat := do
  let offs ← s.localBytes q p detail pool false at_ bits
  pure (fld (leNat (offs.map (s.sq q).lsByte)) at_.2 bits)

/-- One element write that is owed: the offsets of its bytes, the first bit, the width and the code. -/
structure ElemWrite where
  offs : List Nat
  lo : Nat
  bits : Nat
  code : Nat
  deriving DecidableEq, Repr

/-- Make an element write in Local Store, byte by byte with bits merged. -/
def Square.putElem (x : Square) (w : ElemWrite) : Square :=
  let n := w.offs.length
  let v := setFld (leNat (w.offs.map x.lsByte)) w.lo w.bits w.code
  (w.offs.zip (leBytes n v)).foldl (fun y z => { y with ls := Mem.write 0 y.ls z.1 z.2 }) x

/-- Prepare the write of an element: translate it for writing. -/
def State.localWrite (s : State) (q p detail pool : Nat) (at_ : Nat × Nat) (bits code : Nat) :
    Except RunFault ElemWrite := do
  let offs ← s.localBytes q p detail pool true at_ bits
  pure { offs := offs, lo := at_.2, bits := bits, code := code }

/-- Granules of 16 bytes of Local Store that are written whole carry a new code: what their old one had to say is gone (R104). -/
def Square.freshLs (x : Square) (offs : List Nat) : Square :=
  { x with lsErr := x.lsErr.filter (fun e => !(List.range 16).all (fun i => offs.contains (16 * e.1 + i))) }

def State.putElems (s : State) (q : Nat) (ws : List ElemWrite) : State :=
  s.updSq q (fun x => (ws.foldl Square.putElem x).freshLs (ws.flatMap (fun w => w.offs)))

/-- A corrected (1) or uncorrectable (2) error met by a read in one of a Square's stores, or a parity mismatch (2) in its array or
Vector Engine (R104, R190, R199, R247). -/
def State.storeError (s : State) (q kind : Nat) : State :=
  let p := s.owner q
  if kind = 1 then
    (s.updSq q (fun x => { x with corrected := satAdd x.corrected 1 })).raise 0x40 (Config.openDetail 0x40) p
      [(.square, q)] []
  else
    let s1 := (s.updSq q (fun x => { x with hwTimes := x.hwTimes ++ [s.now] })).raise 0x41 (Config.openDetail 0x41) p
      [(.square, q)] []
    match p with
    | some k => s1.dataError k none true
    | none => s1

/-- The errors of the Local Store code in the granules of 16 bytes that a read touches; a corrected one is gone. -/
def State.touchLs (s : State) (q : Nat) (offs : List Nat) : State :=
  ((s.sq q).lsErr.filter (fun e => offs.any (fun o => decide (o / 16 = e.1)))).foldl (fun t e =>
    let t1 := t.storeError q e.2
    if e.2 = 1 then t1.updSq q (fun x => { x with lsErr := x.lsErr.filter (fun y => decide (y ≠ e)) }) else t1) s

/-- The Local Store offsets that elements `ks` of a tensor begin at, where they translate. -/
def State.elemOffsets (s : State) (q p : Nat) (t : Tensor) (ks : List Nat) : List Nat :=
  ks.filterMap (fun k =>
    match s.localOffset q p (t.at k).1 0 0 false with
    | .ok o => some o
    | .error _ => none)

/-- The read of elements `ks` of a tensor meets the errors of the Local Store code. -/
def State.touchElems (s : State) (q p : Nat) (t : Tensor) (ks : List Nat) : State :=
  if (s.sq q).lsErr.isEmpty then s else s.touchLs q (s.elemOffsets q p t ks)

/-- The read of the first n elements of a tensor meets the errors of the Local Store code. -/
def State.touchTensor (s : State) (q p : Nat) (t : Tensor) (n : Nat) : State := s.touchElems q p t (List.range n)

/-! ### Accumulator Memory (R196) -/

/-- The element number of (slot, row, column). -/
def accIndex (slot row col : Nat) : Nat := (slot * 128 + row) * 128 + col

def Square.accRead (x : Square) (i : Nat) : Nat := (Mem.read 0 x.acc i).toNat

/-- Write an element; it carries a new code (R199). -/
def Square.accWrite (x : Square) (i v : Nat) : Square :=
  { x with acc := Mem.write 0 x.acc i (BitVec.ofNat 32 v), accErr := Mem.erase x.accErr i }

def Square.accWriteAll (x : Square) (ws : List (Nat × Nat)) : Square := ws.foldl (fun y w => y.accWrite w.1 w.2) x

/-- The errors of the Accumulator Memory code in the elements that a read touches (R199). -/
def State.touchAcc (s : State) (q : Nat) (is_ : List Nat) : State :=
  ((s.sq q).accErr.filter (fun e => is_.contains e.1)).foldl (fun t e =>
    let t1 := t.storeError q e.2
    if e.2 = 1 then t1.updSq q (fun x => { x with accErr := x.accErr.filter (fun y => decide (y ≠ e)) }) else t1) s

/-! ### Writes to virtual addresses: the state fence (R283, R285) -/

/-- A byte write that is owed, in element order: virtual address, byte, bits to keep. -/
structure ByteWrite where
  va : Nat
  byte : Byte
  keep : Byte
  deriving DecidableEq, Repr

/-- A byte of a virtual address as its partition reads it, for bitmaps and merges; 0 where it is not mapped. -/
def State.vaByte (s : State) (p va : Nat) : Byte :=
  match s.translate p va false with
  | .ok (.stack pa) => s.readByte p pa
  | .ok (.localStore q off) => (s.sq q).lsByte off
  | .error _ => 0

/-- The block of a state range that holds an address is frozen (R285). -/
def State.blockFrozen (s : State) (p : Nat) (r : List Byte) (va : Nat) : Bool :=
  let b := (va - rangeBase r) / (256 * fmtBits (rd r 1 1) / 8)
  (rd r 2 1).testBit 0 ||
    ((rd r 2 1).testBit 2 &&
      (match s.desc p (rd r 4 2) with
       | some d =>
         let t := tensorOf d 0
         decide (b / 32 < t.count) && ((s.vaByte p ((t.at (b / 32)).1 + b % 32 / 8)).toNat.testBit (b % 8))
       | none => false))

/-- What the fence says of a write: 0 made, 1 refused with detail 0x07, 2 refused with detail 0x08, 3 dropped and counted
(R283, R285). -/
def State.fence (s : State) (p va : Nat) : Nat :=
  let x := s.part p
  match (stateRanges x.book).find? (fun r => inRange r va) with
  | none => 0
  | some r =>
    if !x.inUpdate then 1
    else if s.blockFrozen p r va then (if (rd r 2 1).testBit 1 then 2 else 3)
    else 0

/-- Whether a byte write is refused, and with what. The restoration of a stopped partition's state is not fenced (R283). -/
def State.writeFault (s : State) (p va : Nat) (fenced : Bool := true) : Option Nat :=
  match s.translate p va true with
  | .error d => some d
  | .ok (.localStore _ _) => none
  | .ok (.stack _) =>
    match if fenced then s.fence p va else 0 with
    | 1 => some 0x07
    | 2 => some 0x08
    | _ => none

/-- The first write that is refused, and the writes that are made: those before it, but none to its own 128-byte line
(R136). -/
def State.splitWrites (s : State) (p : Nat) (ws : List ByteWrite) (fenced : Bool := true) : List ByteWrite × Option (Nat × Nat) :=
  match ws.findIdx? (fun w => (s.writeFault p w.va fenced).isSome) with
  | none => (ws, none)
  | some i =>
    let bad := (ws.getD i { va := 0, byte := 0, keep := 0 }).va
    ((ws.take i).filter (fun w => decide (w.va / 128 ≠ bad / 128)), some ((s.writeFault p bad fenced).getD 0, bad))

/-- Physical sectors that a list of writes touches, in order of first touch. -/
def distinct : List Nat → List Nat
  | [] => []
  | x :: r => x :: (distinct r).filter (fun y => decide (y ≠ x))

/-- The descriptors of a list whose tensors begin in a state range: an event names them for the operation that writes them
(R286). -/
def State.statePools (s : State) (p : Nat) (l : List Nat) : List Nat :=
  l.filter (fun i => match s.desc p i with
    | some d => (stateRanges (s.part p).book).any (fun r => inRange r (tensorOf d 0).base.toNat)
    | none => false)

/-- Make byte writes that passed: Local Store bytes at once, stack memory sector by sector, sectors in frozen blocks dropped
and counted (R285, R305). `pools` are the tensors that the operation writes. -/
def State.makeWrites (s : State) (p : Nat) (ws : List ByteWrite) (pools : List Nat := []) (fenced : Bool := true) : State :=
  let loc := ws.filterMap (fun w => match s.translate p w.va true with
    | .ok (.localStore q off) => some (q, off, w)
    | _ => none)
  let stk := ws.filterMap (fun w => match s.translate p w.va true with
    | .ok (.stack pa) => some (pa, w)
    | _ => none)
  let s0 := loc.foldl (fun t z => t.updSq z.1 (fun x =>
    let b := (x.lsByte z.2.1 &&& z.2.2.keep) ||| (z.2.2.byte &&& ~~~z.2.2.keep)
    { x with ls := Mem.write 0 x.ls z.2.1 b })) s
  let s1 := (distinct (loc.map (·.1))).foldl (fun t q => if (t.sq q).lsErr.isEmpty then t
    else t.updSq q (fun x => x.freshLs ((loc.filter (fun z => decide (z.1 = q))).map (fun z => z.2.1)))) s0
  (distinct (stk.map (fun z => z.1 / 64))).foldl (fun t sec =>
    let mine := stk.filter (fun z => decide (z.1 / 64 = sec))
    let va := (mine.head?.map (fun z => z.2.va)).getD 0
    if fenced && decide (s.fence p va = 3) then t.updPart p (fun x => { x with frozenWrites := satAdd x.frozenWrites 1 })
    else t.writeBytes p (sec * 64) (some p) (mine.map (fun z => (z.1 % 64, z.2.byte, z.2.keep))) (t.statePools p pools)) s1

/-- The sectors that a list of virtual addresses reads, each with its outcome once (R321), for an operation that writes `pools`. -/
def State.touchVas (s : State) (p : Nat) (vas : List Nat) (pools : List Nat := []) : State :=
  let pas := vas.filterMap (fun va => match s.translate p va false with
    | .ok (.stack pa) => some (pa / 64)
    | _ => none)
  let loc := vas.filterMap (fun va => match s.translate p va false with
    | .ok (.localStore q off) => some (q, off)
    | _ => none)
  let s1 := (distinct pas).foldl (fun t sec => t.readEffects p (sec * 64) (some p) true (t.statePools p pools)) s
  (distinct (loc.map (·.1))).foldl (fun t q =>
    if (t.sq q).lsErr.isEmpty then t
    else t.touchLs q ((loc.filter (fun z => decide (z.1 = q))).map (·.2))) s1

/-- What reading or writing bytes at virtual addresses costs at the memory-side dies (R312): per chunk of 4 KiB of a stack, its sectors,
and those of a write that are only partly written. -/
def State.chunkTraffic (s : State) (p : Nat) (vas : List Nat) (write : Bool) : List (Nat × Traffic) :=
  let pas := distinct (vas.filterMap (fun va => match s.translate p va write with
    | .ok (.stack pa) => some pa
    | _ => none))
  (distinct (pas.map (fun a => a / 4096))).map (fun k =>
    let mine := pas.filter (fun a => decide (a / 4096 = k))
    let secs := distinct (mine.map (fun a => a / 64))
    let partly := secs.filter (fun x => decide ((mine.filter (fun a => decide (a / 64 = x))).length < 64))
    (paStack (k * 4096) / 4, .stack (paStack (k * 4096)) secs.length (if write then partly.length else 0)))

/-- Charge traffic to a partition's regulators, for a Mover channel that waits for it. -/
def State.chargeAll (s : State) (p : Nat) (channel : Option (MoverId × Nat)) (l : List (Nat × Traffic)) : State :=
  l.foldl (fun t x => t.charge x.1 { who := p, traffic := x.2, channel := channel }) s

/-- The first address of a list that may not be read: its translation fault. -/
def State.readFault (s : State) (p : Nat) (vas : List Nat) : Option (Nat × Nat) :=
  (vas.find? (fun va => match s.translate p va false with
    | .error _ => true
    | .ok _ => false)).map (fun va => (match s.translate p va false with
      | .error d => d
      | .ok _ => 0, va))

/-- The virtual addresses of the bytes of an element. -/
def elemVas (at_ : Nat × Nat) (bits : Nat) : List Nat := (List.range ((at_.2 + bits + 7) / 8)).map (fun i => at_.1 + i)

/-- The byte writes of an element's bits. -/
def elemWrites (at_ : Nat × Nat) (bits code : Nat) : List ByteWrite :=
  let n := (at_.2 + bits + 7) / 8
  let v := code * 2 ^ at_.2
  let m := bitsAt at_.2 bits
  (List.range n).map (fun i =>
    { va := at_.1 + i, byte := BitVec.ofNat 8 (v / 256 ^ i), keep := ~~~(BitVec.ofNat 8 (m / 256 ^ i)) })

/-- The code of an element anywhere in a partition's space. -/
def State.vaElem (s : State) (p : Nat) (at_ : Nat × Nat) (bits : Nat) : Nat :=
  fld (leNat ((elemVas at_ bits).map (s.vaByte p))) at_.2 bits

/-! ### Run-time faults of engine operations -/

/-- An engine operation stops at a failing access: event 0x30 or 0x31 with the operation's place, and the partition freezes
(R136). Its Player is not stopped by it. -/
def State.runFault (s : State) (q : Nat) (o : Op) (f : RunFault) : State :=
  let p := s.partOf q
  (s.raise f.cls f.detail (some p)
    ([(.square, q), (.player, o.player), (.record, o.record), (.va, f.va), (.pool, f.pool)] ++
      (match f.entry with
       | some e => [(.index, e)]
       | none => [])) []).freeze p 2

end Sys2Proof.Machine
end

