-- ==== Sys2Proof/Machine/Issue.lean ====
section
/-!
DEFINITION. Issuing a record (R89, R92, R107, R117): the checks of its header, its waits, its decrements, the move to the
next record with loops (R97), operations in flight and their claims (R91, R200), posts and their messages (R106 to R111).
-/

namespace Sys2Proof.Machine

open Sys2Proof

/-- A fault found at issue: detail of event 0x30 and what Location adds. -/
abbrev IssueFault := Nat × List (LocKind × Nat)

/-- Something happened that restarts the Stalemate timeout (R118). -/
def State.active (s : State) (p : Nat) : State := s.updPart p (fun x => { x with lastActivity := s.now })

/-! ### Posts (R106 to R111) -/

/-- Apply a post of n to a semaphore that an entry of a partition's Square owns (R108): above D it is discarded whole with
detail 0x04. A post into a frozen partition counts as late (R118, R120). -/
def State.applyPost (s : State) (p q e : Nat) (sem : Bool) (n : Nat) : State :=
  let x := s.entry q e
  let s1 := s.active p
  if x.sem sem + n ≤ x.depth then
    let s2 := s1.updEntry q e (fun y => y.setSem sem (y.sem sem + n))
    if (s.part p).frozen then s2.updPart p (fun y => { y with latePosts := y.latePosts + 1 }) else s2
  else s1.placeFault p 0x04 [(.square, q), (.entry, e), (.sem, if sem then 1 else 0)]

/-- A post message that has reached its Square (R106, R111): refused with detail 0x03 at an unused entry or a semaphore not
owned there; discarded and counted when its epoch is old. -/
def State.arrivePost (s : State) (p q e : Nat) (sem : Bool) (n epoch : Nat) : State :=
  let x := s.entry q e
  if !x.owns sem then (s.active p).placeFault p 0x03 [(.square, q), (.entry, e)]
  else if x.epoch ≠ epoch then
    (s.active p).updPart p (fun y => { y with stalePosts := satAdd y.stalePosts 1 })
  else s.applyPost p q e sem n

/-- The SEM_POST transaction of Table LNK-7. -/
def semPostTxn (square entry : Nat) (sem : Bool) (n epoch : Nat) : Txn :=
  { kind := 0x08, inl := leBytes 1 square ++ leBytes 1 (entry + if sem then 128 else 0) ++ leBytes 1 n ++
      leBytes 1 epoch }

/-- A post made in a Square to a semaphore of one of its entries (R106, R109): applied there when the entry owns it, else
sent to the other end, by the Board fabric on the same seat or as a transaction to another. -/
def State.post (s : State) (q e : Nat) (sem : Bool) (n : Nat) : State :=
  let p := s.partOf q
  let x := s.entry q e
  if x.depth = 0 then s.placeFault p 0x03 [(.square, q), (.entry, e)]
  else if x.owns sem then s.applyPost p q e sem n
  else if x.peerSeat = (s.part p).seat then
    { s with fabric := s.fabric ++ [.post p x.peerSquare x.peerEntry sem n x.epoch q] }
  else s.sendSeat p x.peerSeat (semPostTxn x.peerSquare x.peerEntry sem n x.epoch)

/-! ### Decrements -/

/-- Take the decrements of a record's semaphores and wait slots, all together (R89). -/
def State.takeNeeds (s : State) (q pl : Nat) (r : Rec) : State :=
  let s1 := (recNeeds r).foldl (fun t n => t.updEntry q n.1 (fun y => y.setSem n.2.1 (y.sem n.2.1 - n.2.2))) s
  (bitsOf (recSlotMask r) 16).foldl (fun t i =>
    t.updPlayer q pl (fun P => { P with slots := Tab.upd 0 P.slots i (fun c => c - 1) })) s1

/-- A wait that faults: on a semaphore not owned (0x03), or as a second waiter in the Turn (0x05, R107). -/
def State.waitFault (s : State) (q pl : Nat) (r : Rec) : Option IssueFault :=
  let bad := (recNeeds r).find? (fun n => !(s.entry q n.1).owns n.2.1)
  let second := (recNeeds r).find? (fun n => match (s.entry q n.1).waiter n.2.1 with
    | some w => decide (w ≠ .player pl)
    | none => false)
  match bad, second with
  | some n, _ => some (0x03, [(.entry, n.1)])
  | none, some n => some (0x05, [(.entry, n.1)])
  | none, none => none

/-- The Player becomes the waiter of what it waits on (R107). -/
def State.takeWaits (s : State) (q pl : Nat) (r : Rec) : State :=
  (recNeeds r).foldl (fun t n => t.updEntry q n.1 (fun y => y.setWaiter n.2.1 (.player pl))) s

/-! ### The next record (R97) -/

/-- Where a Player goes from a record index, with the loops whose bodies end there. A register that a SET_INDEX of the last pass
wrote keeps that value (log 102). -/
def leaveLoops (pc : Nat) : List LoopFrame → Tab Nat → Nat × List LoopFrame × Tab Nat
  | [], ix => (pc, [], ix)
  | f :: r, ix =>
    if pc = f.last + 1 then
      if f.pass + 1 < f.count then (f.first, { f with pass := f.pass + 1 } :: r, Tab.put ix f.reg (f.pass + 1))
      else leaveLoops pc r ix
    else (pc, f :: r, ix)

/-- The Player has issued n records and goes on. -/
def Player.advance (P : Player) (n : Nat) : Player :=
  let x := leaveLoops (P.pc + n) P.loops P.index
  { P with pc := x.1, loops := x.2.1, index := x.2.2 }

def State.advance (s : State) (q pl n : Nat) : State := s.updPlayer q pl (fun P => P.advance n)

/-- The value of an index register. -/
def State.indexReg (s : State) (q pl i : Nat) : Nat := Tab.get 0 (s.player q pl).index i

/-- POST and SLOT of a record (R92, R99). -/
def State.postAndSlot (s : State) (q pl : Nat) (r : Rec) (record : Nat) : State :=
  let s1 := if recPost r then s.post q (recPostEntry r) (recPostSem r) 1 else s
  if recSlot r then s1.addSlot q (recSlotPlayer r) (recSlotIndex r) [(.player, pl), (.record, record)] else s1

/-! ### Attempting a record -/

/-- The record that a Player may issue now: its partition runs and is not frozen, the Player is started and not stopped. -/
def State.candidate (s : State) (q pl : Nat) : Option Rec :=
  match s.owner q with
  | none => none
  | some p =>
    let P := s.player q pl
    if s.mayIssue p && P.running && !P.stopped then s.nextRecord q pl else none

/-- Attempt the Player's next record when it has a given opcode. `pre` judges fields that decide what it waits for; then its
waits are taken; when it is ready, `chk` judges the rest, and `act` runs on the state with all decrements taken. A record
that is not ready, or is another, leaves the rest of the state as it is (log 11). -/
def State.attempt (s : State) (q pl opcode : Nat) (pre : Rec → Nat) (chk : State → Rec → Option IssueFault)
    (act : State → Rec → State) : State :=
  match s.candidate q pl with
  | none => s
  | some r =>
    if recOpcode r ≠ opcode then s
    else if !recHeaderOk r then s.opFault q pl 0x02 []
    else if pre r ≠ 0 then s.opFault q pl (pre r) []
    else match s.waitFault q pl r with
      | some f => s.opFault q pl f.1 f.2
      | none =>
        let s1 := s.takeWaits q pl r
        if !(s1.sq q).ready pl r then s1
        else match chk s1 r with
          | some f => s1.opFault q pl f.1 f.2
          | none => act (s1.takeNeeds q pl r) r

/-- No check before the waits. -/
def noPre (_ : Rec) : Nat := 0

/-- Only the listed body bits may be set (detail 0x02, R116). -/
def bodyCheck (mask : Nat) (_ : State) (r : Rec) : Option IssueFault := if recBodyOk r mask then none else some (0x02, [])

/-- The action of an operation that executes at issue: its effect, the next record, then its POST and SLOT, so that a wait slot
of its own Player that overflows names the record the Player would issue next (R94). -/
def State.atIssue (s : State) (q pl : Nat) (r : Rec) (t : State) : State :=
  (t.advance q pl 1).postAndSlot q pl r (s.player q pl).pc

/-! ### Operations in flight (R91, R200) -/

/-- Issue an operation that holds a place: it takes what the record says now, claims its slots, and its Player goes on past
the record and its operand records. -/
def State.issueOp (s : State) (q pl : Nat) (r : Rec) (kind : OpKind) (phase : OpPhase) (operands : List Rec)
    (index : Nat) (slots : List Nat) (reads writes : Nat) : State :=
  let P := s.player q pl
  let id := (s.sq q).nextOp
  let o : Op := { id := id, player := pl, record := P.pc, kind := kind, phase := phase, bits := r, operands := operands
                  index := index, vl := P.vl, slots := slots, readsMask := reads, writesMask := writes }
  (s.updSq q (fun x => { x with inflight := x.inflight ++ [o], nextOp := id + 1
                                claims := x.claims ++ slots.map (fun k => (k, id)) })).advance q pl (1 + operands.length)

def Square.op (x : Square) (id : Nat) : Option Op := x.inflight.find? (fun o => decide (o.id = id))

def Square.updOp (x : Square) (id : Nat) (f : Op → Op) : Square :=
  { x with inflight := x.inflight.map (fun o => if o.id = id then f o else o) }

def State.updOp (s : State) (q id : Nat) (f : Op → Op) : State := s.updSq q (fun x => x.updOp id f)

/-- Every earlier claim on the operation's slots has been released (R200). -/
def Square.slotsFree (x : Square) (o : Op) : Bool :=
  o.slots.all (fun k => match x.claims.find? (fun c => decide (c.1 = k)) with
    | some c => decide (c.2 = o.id)
    | none => true)

/-- Flags into a Player's sticky word (R95, R188); the Turn boundary adds the word to the Square's counters (log 12). -/
def State.addFlags (s : State) (q pl flags : Nat) : State :=
  s.updPlayer q pl (fun P => { P with sticky := P.sticky ||| BitVec.ofNat 32 flags })

/-- Take an operation out of flight with its claims. -/
def Square.retire (x : Square) (id : Nat) : Square :=
  { x with inflight := x.inflight.filter (fun o => decide (o.id ≠ id))
           claims := x.claims.filter (fun c => decide (c.2 ≠ id))
           vqueue := x.vqueue.filter (fun i => decide (i ≠ id)), vbusy := if x.vbusy = some id then none else x.vbusy }

/-- Completion (R99): the flags are recorded, the claims released, then POST and SLOT take effect. An operation that a
run-time fault stopped only releases its claims (R210). -/
def State.complete (s : State) (q : Nat) (o : Op) : State :=
  let s1 := (s.updSq q (fun x => x.retire o.id)).active (s.partOf q)
  if o.faulted then s1 else (s1.addFlags q o.player o.flags).postAndSlot q o.player o.bits o.record

end Sys2Proof.Machine
end

