-- ==== Sys2Proof/Machine/Players.lean ====
section
/-!
DEFINITION. The Player's own operations: class 0x6x and the control operations of Table SQP-4 (R96, R97, R113), the end of
a segment without TURN_END (R98), and an undefined opcode (R93).
-/

namespace Sys2Proof.Machine

open Sys2Proof

/-- A Square of the module and a Player of it. -/
def playerOk (q pl : Nat) : Bool := decide (q < 144) && decide (pl < 16)

/-- Entry, semaphore and count of a SEM_WAIT or SEM_POST body. -/
def semEntry (r : Rec) : Nat := recBits r 64 7
def semSem (r : Rec) : Bool := recBit r 71
def semCount (r : Rec) : Nat := recBytes r 9 1

/-- A count outside 1 to 64 (detail 0x0C). -/
def semCountFault (r : Rec) : Nat := if 1 ≤ semCount r ∧ semCount r ≤ 64 then 0 else 0x0C

/-- Run a Player operation on a Square and Player of the module. -/
def playerOp (s : State) (q pl opcode : Nat) (pre : Rec → Nat) (chk : State → Rec → Option IssueFault)
    (act : State → Rec → State) : Out := onUnit (playerOk q pl) (s.attempt q pl opcode pre chk act)

/-- SEM_WAIT (R96): its semaphore has been decremented with the header's (R89). -/
def execSemWait (q pl : Nat) (s : State) : Out :=
  playerOp s q pl 0x60 semCountFault (bodyCheck (bytesAt 8 2)) (fun t r => t.atIssue q pl r t)

/-- The post of a SEM_POST that its own Square refuses: an unused entry, or a count above D (R106, R108). -/
def semPostCheck (q pl : Nat) (s : State) (r : Rec) : Option IssueFault :=
  if !recBodyOk r (bytesAt 8 2) then some (0x02, [])
  else if semCountFault r ≠ 0 then some (0x0C, [])
  else
    let e := (s.takeNeeds q pl r).entry q (semEntry r)
    if e.depth = 0 then some (0x03, [(.entry, semEntry r)])
    else if e.owns (semSem r) && decide (e.depth < e.sem (semSem r) + semCount r) then some (0x04, [(.entry, semEntry r)])
    else none

/-- SEM_POST (R96): posts n at issue. -/
def execSemPost (q pl : Nat) (s : State) : Out :=
  playerOp s q pl 0x61 noPre (semPostCheck q pl)
    (fun t r => t.atIssue q pl r (t.post q (semEntry r) (semSem r) (semCount r)))

/-- SLOT_WAIT (R96): each slot of its mask has been decremented. -/
def execSlotWait (q pl : Nat) (s : State) : Out :=
  playerOp s q pl 0x62 (fun r => if recSlotMask r = 0 then 0x06 else 0) (bodyCheck (bytesAt 8 2))
    (fun t r => t.atIssue q pl r t)

/-- FENCE (R96): ready when every earlier operation of the Player has completed. -/
def execFence (q pl : Nat) (s : State) : Out :=
  playerOp s q pl 0x63 noPre (bodyCheck 0) (fun t r => t.atIssue q pl r t)

/-- The checks of PLAYER_START (R88, R96). -/
def playerStartCheck (q : Nat) (s : State) (r : Rec) : Option IssueFault :=
  let n := recBits r 64 4
  if !recBodyOk r (bitsAt 64 4 ||| bytesAt 12 4) then some (0x02, [])
  else if decide (n = 0) || (match (s.sq q).segment with
      | some g => decide (g.count ≤ recBytes r 12 4)
      | none => true) then some (0x0C, [(.player, n)])
  else if (s.player q n).running then some (0x07, [(.player, n)])
  else none

/-- A Player starts at a record of the segment, its index registers at 0 (R97). -/
def Player.start (P : Player) (pc : Nat) : Player :=
  { P with running := true, stopped := false, pc := pc, loops := [], index := [] }

/-- PLAYER_START (R96). -/
def execPlayerStart (q pl : Nat) (s : State) : Out :=
  playerOp s q pl 0x64 noPre (playerStartCheck q)
    (fun t r => t.atIssue q pl r (t.updPlayer q (recBits r 64 4) (fun P => P.start (recBytes r 12 4))))

/-- Every Player of a Square is parked. -/
def Square.allParked (x : Square) : Bool := (List.range 16).all (fun n => !(x.player n).running)

/-- The Player parks; with it the last, the Square has ended the Turn (R67, R72). -/
def State.park (s : State) (q pl : Nat) : State :=
  let t := s.updPlayer q pl (fun P => { P with running := false, loops := [] })
  if (t.sq q).allParked then t.updSq q (fun x => { x with endedAt := some s.now }) else t

/-- TURN_END (R96): parks the Player until the next boundary. -/
def execTurnEnd (q pl : Nat) (s : State) : Out :=
  playerOp s q pl 0x65 noPre (bodyCheck 0) (fun t r => (t.atIssue q pl r t).park q pl)

/-- The checks of LINK_CANCEL (R113). -/
def linkCancelCheck (q : Nat) (s : State) (r : Rec) : Option IssueFault :=
  let e := s.entry q (semEntry r)
  if !recBodyOk r (bitsAt 64 7) then some (0x02, [])
  else if decide (e.depth = 0) || (!e.isLocal && !e.consumer) then some (0x0A, [(.entry, semEntry r)])
  else none

/-- The channels of a mask that a cancellation reaches. -/
def State.cancelTargets (s : State) (q mask : Nat) : List Nat :=
  (bitsOf mask 16).filter (fun ch => s.stoppable (s.channel (.square q) ch))

/-- LINK_CANCEL (R113): steps 1 and 2 of Table SQP-6; it holds a place until the cancellation ends (R91). -/
def execLinkCancel (q pl : Nat) (s : State) : Out :=
  playerOp s q pl 0x66 noPre (linkCancelCheck q) (fun t r =>
    let e := semEntry r
    let chs := t.cancelTargets q (t.entry q e).producerChannels
    let t1 := chs.foldl (fun u ch => u.cancelChannel (.square q) ch 0x07) t
    let t2 := t1.updEntry q e (fun y => { y with epoch := (y.epoch + 1) % 16 })
    t2.issueOp q pl r (.linkCancel e chs) .waiting [] 0 [] 0 0)

/-- Operand records that follow a record: ⌈OpCount / 4⌉ of a VRUN (R221). -/
def operandCount (r : Rec) : Nat := if recOpcode r = 0x21 then cdiv (recBits r 160 7) 4 else 0

/-- A body [i, last] ends among the operand records of a VRUN. -/
def bodySplits (x : Square) (last : Nat) : Nat → Nat → Bool
  | 0, _ => false
  | n + 1, i =>
    if last < i then false
    else
      let k := operandCount ((x.record i).getD 0)
      decide (last < i + k) || bodySplits x last n (i + 1 + k)

/-- The checks of LOOP (R97, detail 0x08). -/
def loopCheck (q pl : Nat) (s : State) (r : Rec) : Option IssueFault :=
  let P := s.player q pl
  let len := recBytes r 16 4
  let last := P.pc + len
  let segEnd := match (s.sq q).segment with
    | some g => g.count
    | none => 0
  if !recBodyOk r (bitsAt 64 2 ||| bytesAt 12 8) then some (0x02, [])
  else if decide (recBytes r 12 4 = 0) || decide (len = 0) || P.loops.any (fun f => decide (f.reg = recBits r 64 2)) ||
      decide (segEnd ≤ last) || P.loops.any (fun f => decide (f.last < last)) ||
      bodySplits (s.sq q) last len (P.pc + 1) then some (0x08, [])
  else none

/-- LOOP (R97): the register takes 0 before the first pass; the body follows. -/
def execLoop (q pl : Nat) (s : State) : Out :=
  playerOp s q pl 0x78 noPre (loopCheck q pl) (fun t r =>
    let pc := (t.player q pl).pc
    let reg := recBits r 64 2
    t.atIssue q pl r (t.updPlayer q pl (fun P =>
      { P with loops := { reg := reg, first := pc + 1, last := pc + recBytes r 16 4, count := recBytes r 12 4, pass := 0 }
                          :: P.loops
               index := Tab.put P.index reg 0 })))

/-- SET_INDEX (R96). -/
def execSetIndex (q pl : Nat) (s : State) : Out :=
  playerOp s q pl 0x79 noPre (bodyCheck (bitsAt 64 2 ||| bytesAt 12 4)) (fun t r =>
    t.atIssue q pl r (t.updPlayer q pl (fun P => { P with index := Tab.put P.index (recBits r 64 2) (recBytes r 12 4) })))

/-- A started Player of a partition that issues. -/
def State.issuing (s : State) (q pl : Nat) : Bool :=
  match s.owner q with
  | none => false
  | some p => s.mayIssue p && (s.player q pl).running && !(s.player q pl).stopped

/-- SEGMENT_END_WITHOUT_TURN_END (R98): operation fault with detail 0x09. -/
def execSegmentEndWithoutTurnEnd (q pl : Nat) (s : State) : Out :=
  onUnit (playerOk q pl) (if s.issuing q pl && (s.nextRecord q pl).isNone then s.opFault q pl 0x09 [] else s)

/-- The opcodes that a chapter defines (R93). -/
def definedOpcodes : List Nat :=
  [0x10, 0x11, 0x20, 0x21, 0x22, 0x23, 0x24, 0x25, 0x30, 0x31, 0x40, 0x41, 0x50, 0x51, 0x52, 0x60, 0x61, 0x62, 0x63,
   0x64, 0x65, 0x66, 0x70, 0x71, 0x72, 0x78, 0x79]

/-- UNDEFINED_OPCODE (R93): operation fault with detail 0x01. -/
def execUndefinedOpcode (q pl : Nat) (s : State) : Out :=
  onUnit (playerOk q pl) (match s.candidate q pl with
    | some r => if definedOpcodes.contains (recOpcode r) then s else s.opFault q pl 0x01 []
    | none => s)

end Sys2Proof.Machine
end

