-- ==== Sys2Proof/Machine/Matrix.lean ====
section
/-!
DEFINITION. The Matrix Array: MATMUL with its checks, cells and drain (R53 to R56, R169 to R188), packing (R180), the
latency modes (R181, R186), the accumulator scoreboard for matrix operations (R200, R201).
-/

namespace Sys2Proof.Machine

open Sys2Proof

/-! ### Descriptors that an operation names -/

/-- A pool descriptor's tensor, whose window a batch advance left anchored where it was (R287). -/
def State.anchored (s : State) (p i : Nat) (t : Tensor) : Tensor := { t with anchor := Tab.get t.anchor (s.part p).anchors i }

/-- A pool descriptor as an operation uses it: the detail of the failing check, or the tensor with its Base shifted (R128,
R130). -/
def State.useDesc (s : State) (p i : Nat) (shift : Int) (u : Use) : Except Nat Tensor :=
  match s.desc p i with
  | none => .error 0x1E
  | some d =>
    let t := s.anchored p i (tensorOf d shift)
    let f := tensorIssueFault t p u
    if f = 0 then .ok t else .error f

/-- The tensor a pool index names, for an operation that its issue checks have passed. -/
def State.poolTensor (s : State) (p i : Nat) (shift : Int) : Tensor := s.anchored p i (tensorOf ((s.desc p i).getD 0) shift)

/-- The first failing check of a list of descriptors, with the pool index in Location. -/
def firstDescFault : List (Nat × Except Nat Tensor) → Option IssueFault
  | [] => none
  | (i, .error f) :: _ => some (f, [(.pool, i)])
  | (_, .ok _) :: r => firstDescFault r

/-! ### The record (Table MXA-5) -/

def mmA (r : Rec) : Nat := recBits r 64 16
def mmB (r : Rec) : Nat := recBits r 80 16
def mmASide (r : Rec) : Nat := recBits r 96 16
def mmBSide (r : Rec) : Nat := recBits r 112 16
def mmSigmaA (r : Rec) : Nat := recBits r 128 32
def mmSigmaB (r : Rec) : Nat := recBits r 160 32
def mmSlot (r : Rec) : Nat := recBits r 192 4
def mmRow (r : Rec) : Nat := recBits r 196 7
def mmDrain (r : Rec) : Nat := recBits r 203 2
def mmInit (r : Rec) : Bool := recBit r 205
def mmPacking (r : Rec) : Nat := recBits r 206 2
def mmRegion (r : Rec) : Nat := recBits r 208 4
def mmTransA (r : Rec) : Bool := recBit r 212
def mmTransB (r : Rec) : Bool := recBit r 213
def mmShiftEnable (r : Rec) : Bool := recBit r 214
def mmIndexReg (r : Rec) : Nat := recBits r 215 2
def mmAShift (r : Rec) : Int := sfld r.toNat 217 16
def mmBShift (r : Rec) : Int := sfld r.toNat 233 16

/-- Region size and region count of a packing code (Table MXA-2). -/
def packSize (code : Nat) : Nat := if code = 0 then 128 else if code = 1 then 64 else 32
def packRegions (code : Nat) : Nat := if code = 0 then 1 else if code = 1 then 4 else 16
/-- The column band of a region. -/
def packBand (code q : Nat) : Nat := if code = 0 then 0 else if code = 1 then q % 2 else q % 4

/-- An MX element format that pairs in groups of 4. -/
def mxEight (c : Nat) : Bool := decide (0x11 ≤ c) && decide (c ≤ 0x14)
/-- A per-tensor FP8 format. -/
def fp8Tensor (c : Nat) : Bool := decide (c = 3) || decide (c = 4)

/-- The group size of a pairing, none for one that Table ARI-2 does not list (R53). -/
def pairGroup (fa fb : Nat) : Option Nat :=
  let a := fa % 32
  let b := fb % 32
  if (a = 0x10 ∧ b = 0x10) ∨ (a = 6 ∧ b = 6) then some 8
  else if (mxEight a && mxEight b) || (fp8Tensor a && fp8Tensor b) || (decide (a = b) && (decide (a = 5) || decide (a = 0x15)))
  then some 4
  else if a = b ∧ (a = 1 ∨ a = 2) then some 2
  else none

/-- K and the free dimension of an operand. -/
def mmK (t : Tensor) (trans : Bool) : Nat := if trans then t.size 1 else t.size 0
def mmFree (t : Tensor) (trans : Bool) : Nat := if trans then t.size 0 else t.size 1

/-- The four tensors of a MATMUL with an index value: A, B and, where MX, their sidecars. -/
structure MmTensors where
  a : Tensor
  b : Tensor
  sa : Tensor
  sb : Tensor
  deriving DecidableEq, Repr

def State.mmTensors (s : State) (p : Nat) (r : Rec) (index : Nat) : MmTensors :=
  let da := lineShift (mmShiftEnable r) index (mmAShift r)
  let db := lineShift (mmShiftEnable r) index (mmBShift r)
  { a := s.poolTensor p (mmA r) da, b := s.poolTensor p (mmB r) db
    sa := s.poolTensor p (mmASide r) da, sb := s.poolTensor p (mmBSide r) db }

/-- The checks of Table MXA-7 after the descriptor checks, in the order of R187; 0 is no failure. -/
def mmFault (r : Rec) (x : MmTensors) : Nat :=
  let size := packSize (mmPacking r)
  let fa := x.a.fmt
  let fb := x.b.fmt
  let scaled := fp8Tensor (fa % 32)
  let axis := fun (t : Tensor) (trans : Bool) => fmtMx t.fmt && decide (t.fmt / 32 ≠ if trans then 1 else 0)
  if decide (mmPacking r = 3) || decide (packRegions (mmPacking r) ≤ mmRegion r) || decide (mmRow r % size ≠ 0) ||
      decide (128 < mmRow r + size) then 0x32
  else if 2 ≤ mmDrain r then 0x34
  else if (pairGroup fa fb).isNone then 0x1A
  else if (!fmtMx fa && (decide (mmASide r ≠ 0) || decide (mmBSide r ≠ 0))) ||
      (!scaled && (decide (mmSigmaA r ≠ 0) || decide (mmSigmaB r ≠ 0))) || (scaled && mmInit r) then 0x33
  else if axis x.a (mmTransA r) || axis x.b (mmTransB r) then 0x35
  else if fmtMx fa && (!sidecarOk x.a x.sa || !sidecarOk x.b x.sb) then 0x19
  else if decide (x.a.rank ≠ 2) || decide (x.b.rank ≠ 2) || decide (mmK x.a (mmTransA r) ≠ mmK x.b (mmTransB r)) ||
      decide (size < mmFree x.a (mmTransA r)) || decide (size < mmFree x.b (mmTransB r)) then 0x31
  else 0

/-- The issue checks of MATMUL (R187). -/
def matmulCheck (q pl : Nat) (s : State) (r : Rec) : Option IssueFault :=
  let p := s.partOf q
  let index := s.indexReg q pl (mmIndexReg r)
  let da := lineShift (mmShiftEnable r) index (mmAShift r)
  let db := lineShift (mmShiftEnable r) index (mmBShift r)
  let mx := fun (t : Nat) => match s.desc p t with
    | some d => fmtMx (tensorOf d 0).fmt
    | none => false
  let descs := [(mmA r, s.useDesc p (mmA r) da .read), (mmB r, s.useDesc p (mmB r) db .read)] ++
    (if mx (mmA r) then [(mmASide r, s.useDesc p (mmASide r) da .read)] else []) ++
    (if mx (mmB r) then [(mmBSide r, s.useDesc p (mmBSide r) db .read)] else [])
  if recBits r 249 7 ≠ 0 then some (0x02, [])
  else match firstDescFault descs with
    | some f => some f
    | none =>
      let f := mmFault r (s.mmTensors p r index)
      if f = 0 then none else some (f, [])

/-! ### The cells (R54, R55) -/

/-- One group of a cell: c becomes RNE32(c + P * 2^sc), with the flags of R188. `av` and `bv` give the operands by k. -/
def groupStep (g K : Nat) (av bv : Nat → Val) (sc : Nat → Int) (x : Nat × Nat) (n : Nat) : Nat × Nat :=
  let ks := (List.range g).map (fun i => n * g + i)
  let ins := ks.filter (fun k => decide (k < K))
  let prod := ks.map (fun k => if k < K then (av k).mul (bv k) else valZero)
  let c := dec32 x.1
  let v := c.add ((valSum prod).scale (sc (n * g)))
  let r := rne32 v
  let nan := c.isNan || ins.any (fun k => (av k).isNan || (bv k).isNan)
  let fin := c.isFin && ins.all (fun k => (av k).isFin && (bv k).isFin)
  (r, x.2 ||| ((if (dec32 r).isNan && !nan then 1 else 0) ||| (if (dec32 r).isInf && fin then 2 else 0)))

/-- A cell's sum over K in groups of g, from its start value, with its flags. -/
def cellSum (g K : Nat) (av bv : Nat → Val) (sc : Nat → Int) (start : Nat) : Nat × Nat :=
  (List.range (cdiv K g)).foldl (groupStep g K av bv sc) (start, 0)

/-! ### Reading operands -/

/-- The codes of all elements of a Local Store tensor in element order. -/
def State.readLocal (s : State) (q p detail pool : Nat) (t : Tensor) (n : Nat) : Except RunFault (List Nat) :=
  (List.range n).mapM (fun k => s.localElem q p detail pool (t.at k) t.bits)

/-- The logical row and column of the array that a region begins with (Table MXA-2): A enters at the rows, B at the columns. -/
def mmFirstRow (r : Rec) : Nat :=
  let n := packSize (mmPacking r)
  n * (mmRegion r / (128 / n))
def mmFirstCol (r : Rec) : Nat := packSize (mmPacking r) * packBand (mmPacking r) (mmRegion r)

/-- The operands as read: values of A and B by (free, k), and the power of two of a pair of blocks. -/
structure MmData where
  av : Nat → Nat → Val
  bv : Nat → Nat → Val
  sc : Nat → Nat → Nat → Int
  nanIn : Bool

/-- The parity upset of the value that feed injector `f` of a side delivers next, 0 for none (R190; log 38). -/
def Square.feedFlip (x : Square) (side : Bool) (f : Nat) : Nat :=
  match x.feedErr.find? (fun e => decide (e.1 = (side, f))) with
  | some e => e.2.toNat
  | none => 0

/-- Read one operand and its sidecar: its values by (free index, k) and its scale exponents (s - 127) by (free, k). `flip` gives what
parity upsets do to the first 32-bit value of an injector, delivered as received. -/
def State.mmOperand (s : State) (q p pool side : Nat) (t sc : Tensor) (trans : Bool) (flip : Nat → Nat) :
    Except RunFault ((Nat → Nat → Val) × (Nat → Nat → Int) × Bool) := do
  let mx := fmtMx t.fmt
  let els ← s.readLocal q p 0x30 pool t t.count
  let scs ← if mx then s.readLocal q p 0x30 side sc sc.count else pure []
  let ea := els.toArray
  let sa := scs.toArray
  let scale := fun (f k : Nat) =>
    if mx then (if trans then sa.getD (f + sc.size 0 * (k / 32)) 127 else sa.getD (k / 32 + sc.size 0 * f) 127) else 127
  let val := fun (f k : Nat) =>
    if scale f k = 0xFF then Val.nan
    else
      let c := if trans then ea.getD (f + t.size 0 * k) 0 else ea.getD (k + t.size 0 * f) 0
      decElem t.fmt (if (k + 1) * t.bits ≤ 32 then c ^^^ fld (flip f) (k * t.bits) t.bits else c)
  let nanIn := scs.any (fun c => decide (c = 0xFF)) || els.any (fun c => (decElem t.fmt c).isNan)
  pure (val, fun f k => if mx then mxScale (scale f k) else 0, nanIn)

/-- Read both operands (R172). An operation without K, M or N reads no address (R185). -/
def State.mmData (s : State) (q p : Nat) (r : Rec) (x : MmTensors) : Except RunFault MmData := do
  let y := s.sq q
  let a ← s.mmOperand q p (mmA r) (mmASide r) x.a x.sa (mmTransA r) (fun i => y.feedFlip false (mmFirstRow r + i))
  let b ← s.mmOperand q p (mmB r) (mmBSide r) x.b x.sb (mmTransB r) (fun j => y.feedFlip true (mmFirstCol r + j))
  pure { av := a.1, bv := b.1, sc := fun i j k => a.2.1 i k + b.2.1 j k, nanIn := a.2.2 || b.2.2 }

/-- The slot element that cell (i, j) of a MATMUL drains into (R178). -/
def mmElem (r : Rec) (i j : Nat) : Nat :=
  accIndex (mmSlot r) (mmRow r + i) (mmFirstCol r + j)

/-- The M by N cells of a MATMUL. -/
def mmCells (r : Rec) (x : MmTensors) : List (Nat × Nat) :=
  (List.range (mmFree x.a (mmTransA r))).flatMap (fun i =>
    (List.range (mmFree x.b (mmTransB r))).map (fun j => (i, j)))

/-- The stream of a MATMUL (R169, R171): its sums by slot element, and its flags. -/
def State.mmStream (s : State) (q : Nat) (r : Rec) (x : MmTensors) : Except RunFault (List (Nat × Word) × Nat) := do
  let p := s.partOf q
  let K := mmK x.a (mmTransA r)
  let g := (pairGroup x.a.fmt x.b.fmt).getD 1
  let cells := mmCells r x
  let d ← if K = 0 ∨ cells.isEmpty then
      pure { av := fun _ _ => valZero, bv := fun _ _ => valZero, sc := fun _ _ _ => 0, nanIn := false }
    else s.mmData q p r x
  let sums := cells.map (fun c =>
    let start := if mmInit r then (s.sq q).accRead (mmElem r c.1 c.2) else 0
    (mmElem r c.1 c.2, cellSum g K (d.av c.1) (d.bv c.2) (d.sc c.1 c.2) start))
  pure (sums.map (fun y => (y.1, BitVec.ofNat 32 y.2.1)),
    sums.foldl (fun f y => f ||| y.2.2) (if d.nanIn then 4 else 0))

/-! ### When a stream may start (R180, R181, R186) -/

/-- A matrix operation in flight. -/
def Op.isMatmul (o : Op) : Bool := decide (o.kind = .matmul)
def Op.isConfig (o : Op) : Bool := decide (o.kind = .arrayConfig)
def Op.isMatrix (o : Op) : Bool := o.isMatmul || o.isConfig

/-- The matrix operations issued before an operation and still in flight. -/
def Square.matrixBefore (x : Square) (o : Op) : List Op := x.inflight.filter (fun e => decide (e.id < o.id) && e.isMatrix)

/-- Two MATMULs on one region. -/
def sameRegion (a b : Op) : Bool :=
  decide (mmPacking a.bits = mmPacking b.bits) && decide (mmRegion a.bits = mmRegion b.bits)

/-- A MATMUL may begin its stream: no earlier mode or packing change waits, and its region is free for it: in Chain mode
every earlier operation on the region has drained, in Overlap mode all but one, whose stream has ended. -/
def Square.streamReady (x : Square) (o : Op) : Bool :=
  let before := x.matrixBefore o
  let region := before.filter (fun e => e.isMatmul && sameRegion e o && decide (e.phase ≠ .done))
  decide (mmPacking o.bits = x.packing) &&
    before.all (fun e => e.isMatmul && decide (mmPacking e.bits = x.packing)) &&
    (if x.chainMode then region.isEmpty
     else decide (region.length ≤ 1) && region.all (fun e => decide (e.phase = .working)))

/-- Count a wait on the scoreboard (R201); the operation is held. -/
def State.holdOp (s : State) (q id : Nat) : State :=
  s.updSq q (fun x => { (x.updOp id (fun o => { o with held := true })) with slotConflicts := satAdd x.slotConflicts 1 })

/-- The parity mismatches of values that a stream's injectors delivered: each counted and reported, and the gate closes (R190). -/
def State.feedMet (s : State) (q : Nat) (r : Rec) (x : MmTensors) : State :=
  let hit := fun (e : (Bool × Nat) × Word) =>
    let lo := if e.1.1 then mmFirstCol r else mmFirstRow r
    let n := if e.1.1 then mmFree x.b (mmTransB r) else mmFree x.a (mmTransA r)
    decide (lo ≤ e.1.2) && decide (e.1.2 < lo + n)
  let met := (s.sq q).feedErr.filter hit
  if met.isEmpty then s
  else met.foldl (fun t _ => t.storeError q 2) (s.updSq q (fun y => { y with feedErr := y.feedErr.filter (fun e => !hit e) }))

/-- Run the stream of a MATMUL. A run-time fault leaves the slot unchanged (R187). -/
def State.runStream (s : State) (q : Nat) (o : Op) : State :=
  let p := s.partOf q
  let x := s.mmTensors p o.bits o.index
  match s.mmStream q o.bits x with
  | .error f => (s.updOp q o.id (fun y => { y with phase := .done, held := false, faulted := true })).runFault q o f
  | .ok (sums, flags) =>
    let cells := (mmCells o.bits x).map (fun c => mmElem o.bits c.1 c.2)
    let s1 := s.updOp q o.id (fun y => { y with phase := .working, held := false, sums := sums, flags := flags })
    let s2 := if mmInit o.bits then s1.touchAcc q cells else s1
    if mmK x.a (mmTransA o.bits) = 0 ∨ cells.isEmpty then s2
    else
      let t := ((s2.feedMet q o.bits x).touchTensor q p x.a x.a.count).touchTensor q p x.b x.b.count
      if fmtMx x.a.fmt then (t.touchTensor q p x.sa x.sa.count).touchTensor q p x.sb x.sb.count else t

/-- Begin a stream where it may begin; an Init 1 preload waits on the scoreboard (R171, R200). -/
def State.tryStream (s : State) (q id : Nat) : State :=
  match (s.sq q).op id with
  | some o =>
    if o.isMatmul && decide (o.phase = .waiting) && !o.held && (s.sq q).streamReady o then
      if mmInit o.bits && !(s.sq q).slotsFree o then s.holdOp q id else s.runStream q o
    else s
  | none => s

/-- A waiting ARRAY_CONFIG takes effect once every matrix operation issued before it has completed (R186). -/
def State.tryConfig (s : State) (q id : Nat) : State :=
  match (s.sq q).op id with
  | some o =>
    if o.isConfig && decide (o.phase = .waiting) && ((s.sq q).matrixBefore o).isEmpty then
      (s.updSq q (fun x => { x with chainMode := recBit o.bits 64 })).updOp q id (fun y => { y with phase := .done })
    else s
  | none => s

/-- Begin what may begin in the array, in issue order. -/
def State.arrayProgress (s : State) (q : Nat) : State :=
  ((s.sq q).inflight.map (fun o => o.id)).foldl (fun t id => (t.tryConfig q id).tryStream q id) s

/-! ### The drain (R170, R178) -/

/-- A drained value: the per-tensor scales of R56, then overwrite or add, with the flags of R188. -/
def drainValue (r : Rec) (scaled : Bool) (old c : Nat) : Nat × Nat :=
  let cv := dec32 c
  let sv := (dec32 (mmSigmaA r)).mul (dec32 (mmSigmaB r))
  let d := if scaled then rne32 (cv.mul sv) else c
  let dv := dec32 d
  let f1 := if scaled then
      (if dv.isNan && !cv.isNan && !(dec32 (mmSigmaA r)).isNan && !(dec32 (mmSigmaB r)).isNan then 1 else 0) |||
        (if dv.isInf && cv.isFin && sv.isFin then 2 else 0)
    else 0
  if mmDrain r = 1 then
    let ov := dec32 old
    let e := rne32 (ov.add dv)
    let ev := dec32 e
    (e, f1 ||| (if ev.isNan && !ov.isNan && !dv.isNan then 1 else 0) |||
      (if ev.isInf && ov.isFin && dv.isFin then 2 else 0))
  else (d, f1)

/-- The logical column of the array that drains into a slot element. -/
def drainColumn (elem : Nat) : Nat := elem % 128

/-- What a parity upset does to the first value that a column's drain path delivers (R190; log 38): the sums as received. -/
def drainedSums (err : List (Nat × Word)) (sums : List (Nat × Word)) : List (Nat × Word) :=
  if err.isEmpty then sums
  else sums.map (fun y =>
    match err.find? (fun e => decide (e.1 = drainColumn y.1)) with
    | some e => if sums.find? (fun z => decide (drainColumn z.1 = drainColumn y.1)) = some y then (y.1, y.2 ^^^ e.2) else y
    | none => y)

/-- The parity mismatches of a drain: each counted and reported, and the gate closes (R190). -/
def State.drainMet (s : State) (q : Nat) (sums : List (Nat × Word)) : State :=
  let hit := fun (e : Nat × Word) => sums.any (fun y => decide (drainColumn y.1 = e.1))
  let met := (s.sq q).drainErr.filter hit
  if met.isEmpty then s
  else met.foldl (fun t _ => t.storeError q 2) (s.updSq q (fun y => { y with drainErr := y.drainErr.filter (fun e => !hit e) }))

/-- Write the sums into the slot. With K = 0 the cells hold their start values and no product to scale (R185; log 94). -/
def State.runDrain (s : State) (q : Nat) (o : Op) : State :=
  let x := s.mmTensors (s.partOf q) o.bits o.index
  let scaled := fp8Tensor (x.a.fmt % 32) && decide (mmK x.a (mmTransA o.bits) ≠ 0)
  let sums := drainedSums (s.sq q).drainErr o.sums
  let s0 := (if mmDrain o.bits = 1 then s.touchAcc q (o.sums.map (·.1)) else s).drainMet q o.sums
  let vals := sums.map (fun y => (y.1, drainValue o.bits scaled ((s0.sq q).accRead y.1) y.2.toNat))
  let flags := vals.foldl (fun f y => f ||| y.2.2) o.flags
  (s0.updSq q (fun z => z.accWriteAll (vals.map (fun y => (y.1, y.2.1))))).updOp q o.id
    (fun y => { y with phase := .done, held := false, flags := flags, sums := [] })

/-- Two MATMULs drain through one column band's path. -/
def sameBand (a b : Op) : Bool :=
  decide (mmPacking a.bits = mmPacking b.bits) &&
    decide (packBand (mmPacking a.bits) (mmRegion a.bits) = packBand (mmPacking b.bits) (mmRegion b.bits))

/-- The earlier MATMULs on the operation's region have drained, and those of its column band that are ready too (R178). -/
def Square.drainTurn (x : Square) (o : Op) : Bool :=
  (x.matrixBefore o).all (fun e => !(e.isMatmul && ((sameRegion e o && decide (e.phase ≠ .done)) ||
    (sameBand e o && decide (e.phase = .working) && !e.held && x.slotsFree e))))

/-! ### The commands -/

/-- MATMUL (R169): issue, and its stream where the array and the scoreboard allow. -/
def execMatmul (q pl : Nat) (s : State) : Out :=
  playerOp s q pl 0x10 noPre (matmulCheck q pl) (fun t r =>
    let id := (t.sq q).nextOp
    let index := if mmShiftEnable r then t.indexReg q pl (mmIndexReg r) else 0
    (t.issueOp q pl r .matmul .waiting [] index [mmSlot r] 0 0).tryStream q id)

/-- MATMUL_DRAIN (R170): the drain begins, or the operation waits on the scoreboard. -/
def execMatmulDrain (q op : Nat) (s : State) : Out :=
  onUnit (decide (q < 144)) (match (s.sq q).op op with
    | some o =>
      if o.isMatmul && decide (o.phase = .working) && !o.held && (s.sq q).drainTurn o then
        if (s.sq q).slotsFree o then (s.runDrain q o).arrayProgress q else s.holdOp q op
      else s
    | none => s)

/-- The packing that the first waiting MATMUL wants, where every matrix operation before it has completed (R180). -/
def Square.packingWanted (x : Square) : Option Nat :=
  match x.inflight.find? (fun o => o.isMatrix) with
  | some o =>
    if o.isMatmul && decide (o.phase = .waiting) && decide (mmPacking o.bits ≠ x.packing) then some (mmPacking o.bits)
    else none
  | none => none

/-- PACKING_CHANGE (R180). -/
def execPackingChange (q : Nat) (s : State) : Out :=
  onUnit (decide (q < 144)) (match (s.sq q).packingWanted with
    | some k => (s.updSq q (fun x => { x with packing := k })).arrayProgress q
    | none => s)

/-- ARRAY_CONFIG (R186). -/
def execArrayConfig (q pl : Nat) (s : State) : Out :=
  playerOp s q pl 0x11 noPre (bodyCheck (bitsAt 64 1)) (fun t r =>
    let id := (t.sq q).nextOp
    (t.issueOp q pl r .arrayConfig .waiting [] 0 [] 0 0).tryConfig q id)

end Sys2Proof.Machine
end

