-- ==== Sys2Proof/Machine/Chain.lean ====
section
/-!
DEFINITION. Messages of chain links on the Board fabric (R33, R106, R113, R114), the end of a cancellation (Table SQP-6)
and the Stalemate detector (R118).
-/

namespace Sys2Proof.Machine

open Sys2Proof

/-- A fabric packet at a Square of another partition: discarded, event 0x31 to the sender, counted (R33). -/
def State.discardPacket (s : State) (src q : Nat) : State :=
  (s.raise 0x31 0x06 (some src) [(.square, q)] []).count 1

/-- The message is under way, the first of its route (R26): packets of one route arrive in the order they were sent. -/
def State.arrives (s : State) (m : FabricMsg) : Bool := decide (s.fabric.find? (fun x => decide (x.route = m.route)) = some m)

/-- Take a message off the fabric; it runs when it is the next of its route. A packet to a Square of another partition is
discarded. -/
def State.onFabric (s : State) (m : FabricMsg) (src q : Nat) (f : State → State) : State :=
  if s.arrives m then
    let t := { s with fabric := s.fabric.erase m }
    if t.owner q = some src then f t else t.discardPacket src q
  else s

/-- SEMAPHORE_POST_MESSAGE (R106): a post reaches the Square that owns its semaphore. -/
def execSemaphorePostMessage (msg : FabricMsg) (s : State) : Out :=
  match msg with
  | .post src q e sem n epoch _ =>
    onUnit (decide (q < 144) && decide (e < 128)) (s.onFabric msg src q (fun t => t.arrivePost src q e sem n epoch))
  | .reset _ _ _ _ _ _ => .next s
  | .resetAck _ _ _ _ _ => .next s

/-- The LINK_RESET and LINK_RESET_ACK transactions of Table LNK-7. -/
def linkResetTxn (kind square entry epoch : Nat) : Txn :=
  { kind := kind, inl := leBytes 1 square ++ leBytes 1 entry ++ [0] ++ leBytes 1 epoch }

/-- The cancellation in flight on an entry, in a phase. -/
def Square.cancelOp (x : Square) (e : Nat) (phase : OpPhase) : Option Op :=
  x.inflight.find? (fun o => (match o.kind with
    | .linkCancel n _ => decide (n = e)
    | _ => false) && decide (o.phase = phase))

/-- The channels of a cancellation. -/
def OpKind.channels : OpKind → List Nat
  | .linkCancel _ l => l
  | .moverAbort l => l
  | .moverCancel l => l
  | _ => []

/-- A channel of a Square is being cancelled. -/
def State.isCancelling (s : State) (q ch : Nat) : Bool :=
  match (s.channel (.square q) ch).phase with
  | .cancelling _ => true
  | _ => false

/-- Step 3 of Table SQP-6: F becomes 0; a local entry gets E = D and its cancellation is done; for a consumer end a reset
message goes to the producer end. -/
def State.resetRing (s : State) (q e : Nat) (o : Op) : State :=
  let p := s.partOf q
  let x := s.entry q e
  let s1 := s.updEntry q e (fun y => if y.isLocal then { y with full := 0, empty := y.depth } else { y with full := 0 })
  if x.isLocal then s1.updOp q o.id (fun y => { y with phase := .done })
  else
    let s2 := s1.updOp q o.id (fun y => { y with phase := .working })
    if x.peerSeat = (s.part p).seat then
      { s2 with fabric := s2.fabric ++ [.reset p x.peerSquare x.peerEntry x.epoch q e] }
    else s2.sendSeat p x.peerSeat (linkResetTxn 0x09 x.peerSquare x.peerEntry x.epoch)

/-- LINK_CANCEL_CHANNELS_REPORTED (R113): every channel of the cancellation has reported. -/
def execLinkCancelChannelsReported (q entry : Nat) (s : State) : Out :=
  onUnit (decide (q < 144) && decide (entry < 128)) (match (s.sq q).cancelOp entry .waiting with
    | some o => if o.kind.channels.any (s.isCancelling q) then s else s.resetRing q entry o
    | none => s)

/-- A producer end. -/
def Entry.isProducer (e : Entry) : Bool := decide (e.depth ≠ 0) && !e.isLocal && !e.consumer
/-- A consumer end. -/
def Entry.isConsumer (e : Entry) : Bool := decide (e.depth ≠ 0) && !e.isLocal && e.consumer

/-- Step 4 of Table SQP-6 at a Square of a partition: the producer end takes the new epoch and sets E to D; an entry that is
none refuses it and the partition freezes (R114). -/
def State.arriveReset (s : State) (p q e epoch : Nat) : State :=
  if (s.entry q e).isProducer then
    (s.active p).updEntry q e (fun y => { y with epoch := epoch % 16, empty := y.depth })
  else (s.active p).placeFault p 0x03 [(.square, q), (.entry, e)]

/-- The acknowledgement of step 5: the cancellation of the entry is done. -/
def State.arriveResetAck (s : State) (p q e : Nat) : State :=
  if (s.entry q e).isConsumer then
    match (s.sq q).cancelOp e .working with
    | some o => (s.active p).updOp q o.id (fun y => { y with phase := .done })
    | none => s.active p
  else (s.active p).placeFault p 0x03 [(.square, q), (.entry, e)]

/-- LINK_RESET_MESSAGE (R114): on the fabric, with its acknowledgement when it is taken. -/
def execLinkResetMessage (msg : FabricMsg) (s : State) : Out :=
  match msg with
  | .reset src q e epoch fromQ fromE =>
    onUnit (decide (q < 144) && decide (e < 128)) (s.onFabric msg src q (fun t =>
      let ok := (t.entry q e).isProducer
      let u := t.arriveReset src q e epoch
      if ok then { u with fabric := u.fabric ++ [.resetAck src fromQ fromE epoch q] } else u))
  | .post _ _ _ _ _ _ _ => .next s
  | .resetAck _ _ _ _ _ => .next s

/-- LINK_RESET_ACKNOWLEDGED (R113): step 5 of Table SQP-6. -/
def execLinkResetAcknowledged (msg : FabricMsg) (s : State) : Out :=
  match msg with
  | .resetAck src q e _ _ =>
    onUnit (decide (q < 144) && decide (e < 128)) (s.onFabric msg src q (fun t => t.arriveResetAck src q e))
  | .post _ _ _ _ _ _ _ => .next s
  | .reset _ _ _ _ _ _ => .next s

/-- A Player of a partition waits on a semaphore or a wait slot. -/
def Square.waitsForArrival (x : Square) (pl : Nat) : Bool := decide (x.waitKind pl = 1) || decide (x.waitKind pl = 2)

/-- A busy channel counts as active, but one that waits for another channel's completion (R118, R163, R167). -/
def State.channelActive (s : State) (c : Channel) : Bool :=
  c.busy && !(decide (c.phase = .pacing) && decide (mdPaceKind ((s.part c.partition).mdesc.getD c.desc 0) = 2))

/-- Every started Player waits on a semaphore or wait slot, one at least, and no engine or Mover of the partition works. -/
def State.stalemate (s : State) (p : Nat) : Bool :=
  let qs := s.squaresOf p
  qs.any (fun q => (List.range 16).any (fun n => (s.sq q).waitsForArrival n)) &&
    qs.all (fun q => (List.range 16).all (fun n => !((s.sq q).player n).running || (s.sq q).waitsForArrival n)) &&
    qs.all (fun q => (s.sq q).inflight.isEmpty) &&
    (s.busyChannels p).all (fun c => !s.channelActive (s.channel c.1 c.2))

/-- STALEMATE_TIMEOUT (R118): event 0x20, and the partition freezes. -/
def execStalemateTimeout (p : Nat) (s : State) : Out :=
  onUnit (decide (p < 16)) (
    let x := s.part p
    if decide (x.runState = .running) && !x.frozen && s.stalemate p then
      let t := s.reach (x.lastActivity + 1000 * x.stalemateTimeout)
      (t.raise 0x20 (Config.openDetail 0x20) (some p) [] []).freeze p 1
    else s)

end Sys2Proof.Machine
end

