-- ==== Sys2Proof/Machine/AsletSend.lean ====
section
/-!
DEFINITION. The sending side of Aslet: transactions as flits (R364), frames and their retention (R362, R363), what low-rate
mode carries (R374), message credits (R372), and the requests of the host-interface Mover to host memory (R366 to R369).
-/

namespace Sys2Proof.Machine

open Sys2Proof

def State.asletSend (s : State) (t : AsletTxn) : State := s.updAslet (fun x => x.send t)

/-- Credits that each end grants per channel (R372). -/
def asletCredits (version : Nat) : Nat := if version = 2 then 32 else 8

/-- The largest READ and WRITE of a version (Table ASL-4). -/
def asletMaxBytes (version : Nat) : Nat := if version = 2 then 8192 else 4096

/-! ### Requests of the host-interface Mover -/

/-- The partition of a host-interface Mover channel (R367). -/
def hostPart (ch : Nat) : Nat := ch / 2

/-- A request of a channel with a fresh tag. -/
def State.hostRequest (s : State) (ch : Nat) (want : AsletWant) (off : Nat) (t : AsletTxn) : State :=
  let tag := s.aslet.nextTag
  let e : AsletPend := { tag := tag, channel := ch, want := want, off := off, va := t.address - (s.part (hostPart ch)).bounceBase }
  let s1 := s.updAslet (fun x => { x with nextTag := (tag + 1) % 65536, pend := x.pend ++ [e] })
  s1.asletSend { t with tag := tag }

/-- READs of a run of host memory, cut at the largest size. -/
def State.hostRead (s : State) (ch : Nat) (want : AsletWant) (addr len : Nat) : State :=
  let m := asletMaxBytes s.aslet.version
  (List.range (cdiv len m)).foldl (fun t i =>
    t.hostRequest ch want (m * i) { kind := 2, address := addr + m * i, length := min m (len - m * i) }) s

/-- WRITEs of a run of host memory, cut at the largest size. -/
def State.hostWrite (s : State) (ch : Nat) (want : AsletWant) (addr : Nat) (l : List Byte) : State :=
  let m := asletMaxBytes s.aslet.version
  (List.range (cdiv l.length m)).foldl (fun t i =>
    let d := slice l (m * i) m
    t.hostRequest ch want (m * i) { kind := 1, address := addr + m * i, length := d.length, data := d }) s

/-- A request of a channel is outstanding. -/
def Aslet.waits (x : Aslet) (ch : Nat) : Bool := x.pend.any (fun e => decide (e.channel = ch))

/-- Whether a record's offset lies in the partition's bounce area (R367). -/
def Partition.inArea (x : Partition) (off : Nat) : Bool := decide (off < x.bounceLen)

/-- The address of the group of 64 trailers of records 64g on, in a bounce area (log 17: the manual gives no place). -/
def Partition.trailerAddr (x : Partition) (recSize i : Nat) : Nat :=
  x.bounceBase + Config.trailerOffset x.bounceLen recSize + 64 * i

/-! ### Bounce records (R368, Table ASL-6) -/

/-- The additional data of a record. -/
def recordAad (trailer : List Byte) (p off : Nat) : List Byte := slice trailer 0x10 16 ++ leBytes 1 p ++ leBytes 8 off

/-- A record opened: its plaintext, 1 for a Tag mismatch, a Direction of the other way or a reserved bit (R9), 2 for a Sequence out of
order. -/
def openRecord (key : BitVec 288) (aad : List Byte) (expect : Nat) (trailer raw : List Byte) : Except Nat (List Byte) :=
  let len := rd trailer 0x18 4
  let seq := rd trailer 0x10 8
  let plain := gcmApply key seq 0 (raw.take len)
  if seq ≠ expect then .error 2
  else if len = 0 ∨ raw.length < len ∨ Config.gcmTag key seq aad plain ≠ BitVec.ofNat 128 (rd trailer 0 16) ∨
      rd trailer 0x1C 36 ≠ 0 then .error 1
  else .ok plain

/-- The trailer and ciphertext of a record from module to host. -/
def sealRecord (key : BitVec 288) (p off seq : Nat) (plain : List Byte) : List Byte × List Byte :=
  let head := leBytes 8 seq ++ leBytes 4 plain.length ++ [1, 0, 0, 0]
  let aad := head ++ leBytes 1 p ++ leBytes 8 off
  (leBytes 16 (Config.gcmTag key seq aad plain).toNat ++ head ++ List.replicate 32 0, gcmApply key seq 0 plain)

end Sys2Proof.Machine
end

