-- ==== Sys2Proof/Machine/Accum.lean ====
section
/-!
DEFINITION. Accumulator operations: ACC_LOAD (R203), ACC_STORE (R204) and ACC_COMBINE (R206) with their checks (R210) and
flags (R211). They run in the vector queue.
-/

namespace Sys2Proof.Machine

open Sys2Proof

/-- What a vector operation leaves: the state, its flags, and the fault it stopped at. -/
structure VecOut where
  state : State
  flags : Nat
  fault : Option RunFault

/-- Take element k unless an earlier one failed. -/
def untilStep {α : Type} (f : Nat → Except RunFault α) (x : List α × Option RunFault) (k : Nat) :
    List α × Option RunFault :=
  match x.2 with
  | some _ => x
  | none => match f k with
    | .ok v => (v :: x.1, none)
    | .error e => (x.1, some e)

/-- Elements 0 to n - 1 in order, up to the first that fails. -/
def runUntil {α : Type} (f : Nat → Except RunFault α) (n : Nat) : List α × Option RunFault :=
  let x := (List.range n).foldl (untilStep f) ([], none)
  (x.1.reverse, x.2)

/-- Fold flags. -/
def orAll (l : List Nat) : Nat := l.foldl (fun a b => a ||| b) 0

/-! ### Common fields (Table ACC-2) -/

def accDesc (r : Rec) : Nat := recBits r 64 16
def accMode (r : Rec) : Nat := recBits r 80 2
def accSlot (r : Rec) : Nat := recBits r 84 4
def accRow (r : Rec) : Nat := recBits r 88 7
def accCol (r : Rec) : Nat := recBits r 96 7
def accRows (r : Rec) : Nat := recBits r 104 8
def accCols (r : Rec) : Nat := recBits r 112 8
def accShiftEnable (r : Rec) : Bool := recBit r 120
def accIndexReg (r : Rec) : Nat := recBits r 121 2
def accShift (r : Rec) : Int := sfld r.toNat 128 16
def accClear (r : Rec) : Bool := recBit r 123
def accConstant (r : Rec) : Nat := recBits r 144 32
def accStreamId (r : Rec) : Nat := recBits r 144 32
def accRowLength (r : Rec) : Nat := recBits r 176 24
def accOffset (r : Rec) : Nat := recBits r 200 42

/-- The bits of the common fields. -/
def accCommonBits : Nat :=
  bitsAt 64 16 ||| bitsAt 84 11 ||| bitsAt 96 7 ||| bitsAt 104 19 ||| bitsAt 128 16

def accShiftOf (r : Rec) (index : Nat) : Int := lineShift (accShiftEnable r) index (accShift r)

/-- The region does not lie in the slot (detail 0x38). -/
def accRegionBad (r : Rec) : Bool :=
  decide (accRows r = 0) || decide (128 < accRows r) || decide (accCols r = 0) || decide (128 < accCols r) ||
    decide (128 < accRow r + accRows r) || decide (128 < accCol r + accCols r)

/-- The slot element of element n of the region in row-major order. -/
def accElem (r : Rec) (n : Nat) : Nat :=
  accIndex (accSlot r) (accRow r + n / accCols r) (accCol r + n % accCols r)

def accCount (r : Rec) : Nat := accRows r * accCols r

/-- A format that accumulator loads and stores take. -/
def accFormat (f : Nat) : Bool := decide (f ≤ 2)

/-! ### Checks (R210) -/

def accLoadCheck (q pl : Nat) (s : State) (r : Rec) : Option IssueFault :=
  let p := s.partOf q
  let d := accShiftOf r (s.indexReg q pl (accIndexReg r))
  let useTensor := accMode r = 1 ∨ accMode r = 2
  let t := s.poolTensor p (accDesc r) d
  let shape := if accMode r = 1 then decide (t.rank = 1) && decide (t.size 0 = accCols r)
    else decide (t.rank = 2) && decide (t.size 0 = accCols r) && decide (t.size 1 = accRows r)
  if !recBodyOk r (accCommonBits ||| bitsAt 80 2 ||| bitsAt 144 32) then some (0x02, [])
  else match (if useTensor then firstDescFault [(accDesc r, s.useDesc p (accDesc r) d .read)] else none) with
    | some f => some f
    | none =>
      if accRegionBad r then some (0x38, [])
      else if decide (accMode r = 3) || (decide (accMode r = 0) && decide (accDesc r ≠ 0)) ||
          (decide (accMode r ≠ 0) && decide (accConstant r ≠ 0)) then some (0x39, [])
      else if decide useTensor && (!shape || !accFormat t.fmt) then some (0x3A, [])
      else none

/-- The largest global index of a stochastic store is 2^42 or more (detail 0x3C). -/
def accIndexBad (r : Rec) : Bool :=
  decide (2 ^ 42 ≤ accOffset r + (accRows r - 1) * accRowLength r + (accCols r - 1))

def accStoreCheck (q pl : Nat) (s : State) (r : Rec) : Option IssueFault :=
  let p := s.partOf q
  let d := accShiftOf r (s.indexReg q pl (accIndexReg r))
  let t := s.poolTensor p (accDesc r) d
  if !recBodyOk r (accCommonBits ||| bitsAt 80 2 ||| bitsAt 123 1 ||| bitsAt 144 98) then some (0x02, [])
  else match firstDescFault [(accDesc r, s.useDesc p (accDesc r) d .write)] with
    | some f => some f
    | none =>
      if accRegionBad r then some (0x38, [])
      else if decide (accMode r = 3) || (if accMode r = 2 then !streamOk (accStreamId r)
          else decide (accStreamId r ≠ 0) || decide (accRowLength r ≠ 0) || decide (accOffset r ≠ 0)) then some (0x39, [])
      else if decide (t.rank ≠ 2) || decide (t.size 0 ≠ accCols r) || decide (t.size 1 ≠ accRows r) || !accFormat t.fmt
      then some (0x3A, [])
      else if decide (accMode r = 2) && accIndexBad r then some (0x3C, [])
      else none

def accCombineCheck (q pl : Nat) (s : State) (r : Rec) : Option IssueFault :=
  let p := s.partOf q
  let d := accShiftOf r (s.indexReg q pl (accIndexReg r))
  let t := s.poolTensor p (accDesc r) d
  if !recBodyOk r (accCommonBits ||| bitsAt 80 1) then some (0x02, [])
  else match firstDescFault [(accDesc r, s.useDesc p (accDesc r) d .read)] with
    | some f => some f
    | none =>
      if accRegionBad r then some (0x38, [])
      else if decide (t.rank ≠ 3) || decide (t.fmt ≠ 0) || decide (t.size 0 ≠ accCols r) ||
          decide (t.size 1 ≠ accRows r) || decide (t.size 2 = 0) || decide (64 < t.size 2) then some (0x3A, [])
      else none

/-! ### Effects -/

/-- The value that ACC_LOAD writes to element n of its region, and the NaN flag of its source (R203, R211). -/
def State.accLoadValue (s : State) (q p : Nat) (r : Rec) (t : Tensor) (n : Nat) : Except RunFault (Nat × Nat) :=
  if accMode r = 0 then .ok (accConstant r, 0)
  else do
    let k := if accMode r = 1 then n % accCols r else n
    let c ← s.localElem q p 0x3B (accDesc r) (t.at k) t.bits
    pure (widen t.fmt c, if (decElem t.fmt c).isNan then 4 else 0)

/-- ACC_LOAD: every element of the region, in row-major order. -/
def accLoadRun (s : State) (q : Nat) (o : Op) : VecOut :=
  let p := s.partOf q
  let r := o.bits
  let t := s.poolTensor p (accDesc r) (accShiftOf r o.index)
  let x := runUntil (s.accLoadValue q p r t) (accCount r)
  let ws := (List.range x.1.length).zip x.1
  let s1 := s.updSq q (fun y => y.accWriteAll (ws.map (fun w => (accElem r w.1, w.2.1))))
  let s2 := if accMode r = 0 then s1 else s1.touchTensor q p t x.1.length
  { state := s2, flags := orAll (x.1.map (·.2)), fault := x.2 }

/-- The write that ACC_STORE makes for element n, with its flags. -/
def State.accStoreWrite (s : State) (q p : Nat) (r : Rec) (t : Tensor) (n : Nat) : Except RunFault (ElemWrite × Nat) := do
  let x := s.part p
  let v := (s.sq q).accRead (accElem r n)
  let e := accOffset r + n / accCols r * accRowLength r + n % accCols r
  let w := if accMode r = 2 then diceWord (bookJobSeed x.book) (accStreamId r) x.stepCounter e else 0
  let c := if t.fmt = 0 then (v, false, false) else encElem t.fmt (roundOf (accMode r) w) (dec32 v)
  let wr ← s.localWrite q p 0x3B (accDesc r) (t.at n) t.bits c.1
  pure (wr, (if isNan32 v then 4 else 0) ||| (if c.2.2 then 2 else 0))

/-- ACC_STORE: the region into the tensor, then cleared where asked. -/
def accStoreRun (s : State) (q : Nat) (o : Op) : VecOut :=
  let p := s.partOf q
  let r := o.bits
  let t := s.poolTensor p (accDesc r) (accShiftOf r o.index)
  let x := runUntil (s.accStoreWrite q p r t) (accCount r)
  let s1 := (s.putElems q (x.1.map (·.1))).touchAcc q ((List.range x.1.length).map (accElem r))
  let s2 := if accClear r && x.2.isNone then
      s1.updSq q (fun y => y.accWriteAll ((List.range (accCount r)).map (fun n => (accElem r n, 0))))
    else s1
  { state := s2, flags := orAll (x.1.map (·.2)), fault := x.2 }

/-- One addition of partials with its flags: NaN in is a term that is NaN (R188, R211). -/
def combineStep (x : Nat × Nat) (b : Nat) : Nat × Nat :=
  let av := dec32 x.1
  let bv := dec32 b
  let c := add32 x.1 b
  (c, x.2 ||| (if bv.isNan then 4 else 0) ||| (if isNan32 c && !av.isNan && !bv.isNan then 1 else 0) |||
    (if (dec32 c).isInf && av.isFin && bv.isFin then 2 else 0))

/-- The terms of one element in the order of R206, joined; a NaN is written canonical. -/
def combineTerms (terms : List Nat) : Nat × Nat :=
  match terms with
  | [] => (0, 0)
  | a :: rest =>
    let x := rest.foldl combineStep (a, if isNan32 a then 4 else 0)
    (if isNan32 x.1 then nan32 else x.1, x.2)

/-- Element n of ACC_COMBINE: the region's element first with Include, then partials 0 to P - 1. -/
def State.accCombineValue (s : State) (q p : Nat) (r : Rec) (t : Tensor) (n : Nat) : Except RunFault (Nat × Nat) := do
  let parts ← (List.range (t.size 2)).mapM (fun k =>
    s.localElem q p 0x3B (accDesc r) (t.at (n + k * accCount r)) 32)
  let own := if recBit r 80 then [(s.sq q).accRead (accElem r n)] else []
  pure (combineTerms (own ++ parts))

/-- ACC_COMBINE. -/
def accCombineRun (s : State) (q : Nat) (o : Op) : VecOut :=
  let p := s.partOf q
  let r := o.bits
  let t := s.poolTensor p (accDesc r) (accShiftOf r o.index)
  let x := runUntil (s.accCombineValue q p r t) (accCount r)
  let ws := (List.range x.1.length).zip x.1
  let s0 := if recBit r 80 then s.touchAcc q (ws.map (fun w => accElem r w.1)) else s
  let s1 := (s0.updSq q (fun y => y.accWriteAll (ws.map (fun w => (accElem r w.1, w.2.1))))).touchElems q p t
    ((List.range (t.size 2)).flatMap (fun k => (List.range ws.length).map (fun n => n + k * accCount r)))
  { state := s1, flags := orAll (x.1.map (·.2)), fault := x.2 }

end Sys2Proof.Machine
end

