-- ==== Sys2Proof/Machine/Func.lean ====
section
/-!
DEFINITION. The special functions of element operation FUNC (R249 to R253): their evaluation sequences, their special and
exact values, and their flags.
-/

namespace Sys2Proof.Machine

open Sys2Proof

/-! ### The words of 1040:00 (R251) -/

/-- The kind of a code (Tables FUN-1 and FUN-2): 1 exp, 2 log, 3 root, 4 trig, 5 composite. -/
def funKind (code : Nat) : Nat :=
  if code = 0x01 ∨ code = 0x02 then 1
  else if code = 0x03 ∨ code = 0x04 then 2
  else if code = 0x07 then 3
  else if code = 0x0E ∨ code = 0x0F then 4
  else 5

/-- A code whose polynomial has two halves, c0 to c5 and c6 to c11. -/
def funHalves (code : Nat) : Bool := decide (code = 0x0C) || decide (funKind code = 4)

/-- Which of C1, C2 and C3 a code's evaluation uses (R249). -/
def funUses (code : Nat) : List Nat :=
  if funKind code = 1 ∨ funKind code = 4 then [1, 2, 3]
  else if funKind code = 2 then [1, 2]
  else if code = 0x0B then [3]
  else if code = 0x05 ∨ code = 0x06 ∨ code = 0x08 ∨ code = 0x0D then [1]
  else []

/-- Constant i of a code; one that it does not use holds 0. C3 is what Table FUN-1 names, in FP32 (log 13). -/
def funConst (code i : Nat) : Word :=
  if !(funUses code).contains i then 0
  else if i ≠ 3 then Config.funConst code i
  else if code = 0x01 then 0x3FB8AA3B
  else if code = 0x02 then 0x3F800000
  else if code = 0x0B then 0x3F3504F3
  else 0x3F22F983

def funC1 (code : Nat) : Nat := (funConst code 1).toNat
def funC2 (code : Nat) : Nat := (funConst code 2).toNat
def funC3 (code : Nat) : Nat := (funConst code 3).toNat

/-- A code that is evaluated from others alone: SIGMOID, SILU, GELU and SOFTPLUS have no polynomial. -/
def funPlain (code : Nat) : Bool := decide (code = 0x09) || decide (code = 0x0A) || decide (code = 0x0B) || decide (code = 0x0D)

/-- The degree of a code's polynomial, or of each half of it. -/
def funDegree (code : Nat) : Nat :=
  if funPlain code then 0 else if funHalves code then min 5 (Config.funDegree code).val else (Config.funDegree code).val

/-- Coefficient i of a code; one that its polynomials do not use holds 0. -/
def funCoef (code i : Nat) : Word :=
  if funPlain code || decide (funDegree code < if funHalves code then i % 6 else i) then 0 else Config.funCoef code i

/-- The Horner polynomial over the coefficients from `lo` on, in FP32. -/
def hornerFrom (code lo : Nat) (t : Nat) : Nat → Nat → Nat
  | 0, p => p
  | i + 1, p => hornerFrom code lo t i (fma32 p t (funCoef code (lo + i)).toNat)

def horner (code lo t : Nat) : Nat :=
  let d := funDegree code
  hornerFrom code lo t d (funCoef code (lo + d)).toNat

def one32 : Nat := 0x3F800000
/-- The FP32 of the other sign. -/
def flip32 (x : Nat) : Nat := x ^^^ 2 ^ 31
/-- The magnitude. -/
def abs32 (x : Nat) : Nat := x % 2 ^ 31
def lt32 (a b : Nat) : Bool := (dec32 a).lt (dec32 b)

/-- A product that is not rounded yet. -/
def mulVal (a b : Nat) : Val := (dec32 a).mul (dec32 b)
/-- a * b + c, not rounded yet. -/
def fmaVal (a b c : Nat) : Val := (mulVal a b).add (dec32 c)

/-- rint_ne of an FP32 as an integer. -/
def rintInt (x : Nat) : Int :=
  match (dec32 x).rint .nearest with
  | .fin n m e => let k := ((m * 2 ^ e.toNat : Nat) : Int); if n then -k else k
  | _ => 0

def int32 (k : Int) : Nat := rne32 (valInt k)

/-- The argument reduction of kinds exp and trig: k and r. -/
def reduceArg (code x : Nat) : Int × Nat :=
  let k := rintInt (mul32 x (funC3 code))
  let n := int32 (-k)
  (k, fma32 n (funC2 code) (fma32 n (funC1 code) x))

/-! ### Exact results (R250) -/

/-- ln 2 times an integer, to more than 100 bits. -/
def lnTwo (k : Int) : Val := .fin (decide (k < 0)) (k.natAbs * 921350637599661305226344307672478455) (-120)

/-- The exponent of a finite number that is a power of two. -/
def powerOfTwo (v : Val) : Option Int :=
  match v with
  | .fin false m e => if m ≠ 0 ∧ m = 2 ^ Nat.log2 m then some ((Nat.log2 m : Nat) + e) else none
  | _ => none

/-- A finite number that is an integer. -/
def exactInt (v : Val) : Option Int :=
  match v with
  | .fin n m e =>
    let k : Int := if 0 ≤ e then ((m * 2 ^ e.toNat : Nat) : Int) else ((m / 2 ^ (-e).toNat : Nat) : Int)
    if 0 ≤ e ∨ m % 2 ^ (-e).toNat = 0 then some (if n then -k else k) else none
  | _ => none

/-- LOG at an argument that R250 gives exactly. -/
def logExact (code : Nat) (v : Val) : Option Val :=
  (powerOfTwo v).map (fun k => if k = 0 then valZero else if code = 0x04 then valInt k else lnTwo k)

/-- The value of 2^k where it is representable in FP32. -/
def exp2Exact (v : Val) : Option Val :=
  (exactInt v).bind (fun k => if -149 ≤ k ∧ k ≤ 127 then some (.fin false 1 k) else none)

/-! ### Special values (Table FUN-3) -/

/-- The result that Table FUN-3 gives before any evaluation, exact. -/
def funSpecial (code : Nat) (x : Val) : Option Val :=
  let zero := x.isZero
  let isLog := code = 0x03 ∨ code = 0x04
  match x with
  | .nan => some .nan
  | .inf n =>
    if code = 0x01 ∨ code = 0x02 then some (if n then valZero else .inf false)
    else if isLog ∨ code = 0x05 then some (if n then .nan else .inf false)
    else if code = 0x06 then some (if n then valOne.negate else .inf false)
    else if code = 0x07 then some (if n then .nan else valZero)
    else if code = 0x08 ∨ code = 0x0C then some (if n then valOne.negate else valOne)
    else if code = 0x09 then some (if n then valZero else valOne)
    else if code = 0x0A ∨ code = 0x0B then some (if n then .fin true 0 0 else .inf false)
    else if code = 0x0D then some (if n then valZero else .inf false)
    else some .nan
  | .fin n m e =>
    if zero then
      if code = 0x01 ∨ code = 0x02 ∨ code = 0x0F then some valOne
      else if isLog then some (.inf true)
      else if code = 0x07 then some (.inf n)
      else if code = 0x09 then some (.fin false 1 (-1))
      else if code = 0x0D then some (lnTwo 1)
      else some (.fin n 0 0)
    else if isLog ∧ n then some .nan
    else if code = 0x07 ∧ n then some .nan
    else if code = 0x05 ∧ n then
      let c := Val.cmp (.fin n m e) valOne.negate
      if c = 0 then some (.inf true) else if c < 0 then some .nan else none
    else none

/-! ### Evaluation sequences (R249). Each gives the value before its final rounding. -/

/-- Kind exp. A k beyond every exponent stands for a result above or below the range (log 13). -/
def expRaw (code x : Nat) : Val :=
  let y := reduceArg code x
  let big := mul32 x (funC3 code)
  if (dec32 big).isInf then (if (dec32 big).neg then valZero else .inf false)
  else if 1024 ≤ y.1 then .inf false
  else if y.1 ≤ -1024 then valZero
  else (dec32 (horner code 0 y.2)).scale y.1

/-- The reconstruction of kind exp: above the range +∞, below the subnormal range +0. -/
def finishExp (f : FpFmt) (r : Round) (v : Val) : Nat :=
  match v with
  | .fin n m e =>
    if m ≠ 0 ∧ Val.log2 (.fin n m e) < f.minQ then 0
    else let c := f.enc r false v; if c.2 then f.out .nearest (.inf n) else c.1
  | w => f.out r w

/-- EXP or EXP2 in a format. -/
def expIn (f : FpFmt) (r : Round) (code x : Nat) : Nat :=
  match funSpecial code (dec32 x) with
  | some v => f.out r v
  | none => match (if code = 0x02 then exp2Exact (dec32 x) else none) with
    | some v => finishExp f r v
    | none => finishExp f r (expRaw code x)

def exp32 (x : Nat) : Nat := expIn fmtFP32 .nearest 0x01 x

/-- Kind log on a positive finite number. -/
def logRaw (code x : Nat) : Val :=
  match logExact code (dec32 x) with
  | some v => v
  | none =>
    match dec32 x with
    | .fin _ m e =>
      let l := Nat.log2 m
      let up := 3 * 2 ^ l ≤ 2 * m
      let k : Int := if up then (l : Int) + e + 1 else (l : Int) + e
      let frac := rne32 ((Val.fin false m (e - k)).add valOne.negate)
      let p := add32 frac (mul32 (mul32 frac frac) (horner code 0 frac))
      let kk := int32 k
      fmaVal kk (funC1 code) (fma32 kk (funC2 code) p)
    | _ => .nan

def logVal (code x : Nat) : Val := (funSpecial code (dec32 x)).getD (logRaw code x)
def log32 (x : Nat) : Nat := rne32 (logVal 0x03 x)

/-- Kind root. -/
def rootRaw (x : Nat) : Val :=
  match dec32 x with
  | .fin _ m e =>
    let k := ((Nat.log2 m : Nat) + e) / 2
    let mm := rne32 (.fin false m (e - 2 * k))
    let y := horner 0x07 0 mm
    let er := fmtFP32.fnmadd .nearest (mul32 mm y) y one32
    let y2 := fma32 (mul32 y 0x3F000000) er y
    (dec32 y2).scale (-k)
  | _ => .nan

/-- Kind trig. -/
def trigRaw (code x : Nat) : Val :=
  let y := reduceArg code x
  let q := (y.1 + (if code = 0x0F then 1 else 0)) % 4
  let rr := mul32 y.2 y.2
  let v := dec32 (if q % 2 = 0 then mul32 y.2 (horner code 0 rr) else horner code 6 rr)
  if q < 2 then v else v.negate

def log1pVal (x : Nat) : Val :=
  (funSpecial 0x05 (dec32 x)).getD
    (if lt32 (abs32 x) (funC1 0x05) then fmaVal (mul32 x x) (horner 0x05 0 x) x else logVal 0x03 (add32 one32 x))

def erfVal (x : Nat) : Val :=
  let a := abs32 x
  (funSpecial 0x0C (dec32 x)).getD
    (if lt32 a one32 then mulVal x (horner 0x0C 0 (mul32 x x))
     else
       let v := if lt32 a 0x40800000 then (dec32 one32).add (dec32 (horner 0x0C 6 (sub32 a one32))).negate else valOne
       if (dec32 x).neg then v.negate else v)

def sigmoidVal (x : Nat) : Val :=
  (funSpecial 0x09 (dec32 x)).getD (valOne.div (dec32 (add32 one32 (exp32 (flip32 x)))))

/-- The value of a function before its final rounding, outside Table FUN-3. -/
def funRaw (code x : Nat) : Val :=
  if code = 0x03 ∨ code = 0x04 then logRaw code x
  else if code = 0x05 then log1pVal x
  else if code = 0x06 then
    (if lt32 (abs32 x) (funC1 0x06) then fmaVal (mul32 x x) (horner 0x06 0 x) x
     else (dec32 (exp32 x)).add valOne.negate)
  else if code = 0x07 then rootRaw x
  else if code = 0x08 then
    (if lt32 (abs32 x) (funC1 0x08) then mulVal x (horner 0x08 0 (mul32 x x))
     else
       let d := div32 0x40000000 (add32 (exp32 (mul32 0x40000000 (abs32 x))) one32)
       let v := valOne.add (dec32 d).negate
       if (dec32 x).neg then v.negate else v)
  else if code = 0x09 then sigmoidVal x
  else if code = 0x0A then mulVal x (rne32 (sigmoidVal x))
  else if code = 0x0B then mulVal (mul32 0x3F000000 x) (add32 one32 (rne32 (erfVal (mul32 x (funC3 0x0B)))))
  else if code = 0x0C then erfVal x
  else if code = 0x0D then (if lt32 (funC1 0x0D) x then dec32 x else log1pVal (exp32 x))
  else trigRaw code x

/-- FUNC: a function of an FP32 argument, rounded once into a format. -/
def funcIn (f : FpFmt) (r : Round) (code x : Nat) : Nat :=
  if code = 0x01 ∨ code = 0x02 then expIn f r code x
  else f.out r ((funSpecial code (dec32 x)).getD (funRaw code x))

/-- The codes that Table FUN-1 lists. -/
def funKnown (code : Nat) : Bool := decide (1 ≤ code) && decide (code ≤ 0x0F)

end Sys2Proof.Machine
end

