-- ==== Sys2Proof/Machine/Stream.lean ====
section
/-!
DEFINITION. Streams of the Vector Engine (R222 to R224, Table VEC-3): opening with the checks of a descriptor, reading an
element, preparing and making the write of one, overlap (R225), the claims and mask registers of an operation.
-/

namespace Sys2Proof.Machine

open Sys2Proof

/-- A stream: a slot region from a row on, or a Local Store tensor with its sidecar. -/
structure Stream where
  slot : Option Nat
  row : Int
  pool : Nat
  t : Tensor
  side : Tensor
  deriving DecidableEq, Repr

/-- The tensor of a slot stream carries nothing but its format FP32. -/
def noTensor : Tensor := tensorOf 0 0

/-- Converts under an MX format. -/
def Stream.mx (x : Stream) : Bool := x.slot.isNone && fmtMx x.t.fmt

/-- Elements of one dimension-0 row (R235). -/
def Stream.rowLen (x : Stream) : Nat := if x.slot.isSome then 128 else x.t.size 0

/-- The row shift of an operation: index value times ShiftRows (R223). -/
def rowShift (enable : Bool) (index : Nat) (rows : Int) : Int := if enable then (index : Int) * rows else 0

/-- The Base shift of a pool descriptor by a number of rows. -/
def State.rowBytes (s : State) (p i : Nat) (rows : Int) : Int := rows * (tensorOf ((s.desc p i).getD 0) 0).stride 1

/-- Open a stream: the checks of Table TDB-2 on its descriptor and, for MX, on the sidecar that follows it (R224). `shift`
gives the Base shift of a descriptor by its index. -/
def State.openStream (s : State) (p ref : Nat) (isSlot : Bool) (u : Use) (rows : Int) (shift : Nat → Int) :
    Except IssueFault Stream :=
  if isSlot then
    .ok { slot := some (ref % 16), row := ((ref / 16 % 128 : Nat) : Int) + rows, pool := 0, t := noTensor, side := noTensor }
  else match s.useDesc p ref (shift ref) u with
    | .error f => .error (f, [(.pool, ref)])
    | .ok t =>
      if fmtMx t.fmt then
        match s.useDesc p (ref + 1) (shift (ref + 1)) u with
        | .error f => .error (f, [(.pool, ref + 1)])
        | .ok sc => .ok { slot := none, row := 0, pool := ref, t := t, side := sc }
      else .ok { slot := none, row := 0, pool := ref, t := t, side := noTensor }

/-- Open a stream whose format its operation judges itself: the checks of Table TDB-2 on its own descriptor alone (R268). -/
def State.openMain (s : State) (p ref : Nat) (isSlot : Bool) (u : Use) (rows : Int) (shift : Nat → Int) :
    Except IssueFault Stream :=
  if isSlot then s.openStream p ref true u rows shift
  else match s.useDesc p ref (shift ref) u with
    | .error f => .error (f, [(.pool, ref)])
    | .ok t => .ok { slot := none, row := 0, pool := ref, t := t, side := noTensor }

/-- The stream that a reference names, for an operation whose checks have passed. -/
def State.theStream (s : State) (p ref : Nat) (isSlot : Bool) (u : Use) (rows : Int) (shift : Nat → Int) : Stream :=
  match s.openStream p ref isSlot u rows shift with
  | .ok x => x
  | .error _ => { slot := none, row := 0, pool := ref, t := noTensor, side := noTensor }

/-- The first fault of a list of opened streams. -/
def firstOpenFault : List (Except IssueFault Stream) → Option IssueFault
  | [] => none
  | .error f :: _ => some f
  | .ok _ :: r => firstOpenFault r

/-- A stream of n elements that detail 0x42 refuses: too few elements, E8M0, an MX block axis other than 0, or a slot stream
that leaves rows 0 to 127 (R223, R224). -/
def Stream.bad (x : Stream) (n : Nat) : Bool :=
  if x.slot.isSome then decide (x.row < 0) || decide ((128 * 128 : Nat) < x.row * 128 + n)
  else decide (x.t.count < n) || decide (x.t.fmt % 32 = 8) || (fmtMx x.t.fmt && decide (32 ≤ x.t.fmt))

/-- A sidecar that does not match (detail 0x19). -/
def Stream.sideBad (x : Stream) : Bool := x.mx && !sidecarOk x.t x.side

/-- The number of element (block of k, row of k) of a sidecar (R42). -/
def Stream.sideIndex (x : Stream) (k : Nat) : Nat :=
  let n := x.t.size 0
  if n = 0 then 0 else k % n / 32 + cdiv n 32 * (k / n)

/-- The slot element of position k. -/
def Stream.accIndex (x : Stream) (k : Nat) : Nat := (x.slot.getD 0 * 16384 + (x.row * 128).toNat) + k

/-- The code of element k as stored, and its scale byte. -/
def State.streamCode (s : State) (q p detail : Nat) (x : Stream) (k : Nat) : Except RunFault (Nat × Nat) :=
  if x.slot.isSome then .ok ((s.sq q).accRead (x.accIndex k), 127)
  else do
    let c ← s.localElem q p detail x.pool (x.t.at k) x.t.bits
    let sc ← if x.mx then s.localElem q p detail (x.pool + 1) (x.side.at (x.sideIndex k)) 8 else pure 127
    pure (c, sc)

/-- A code loaded in single mode (Table VEC-3): the 32-bit pattern, with the flags of a NaN element and of the overflow of a decoded
MX value (R188, R230). -/
def loadCode (f c scale : Nat) (r : Round) : Nat × Nat :=
  if f = 0x07 then (c, 0)
  else if f = 0x05 ∨ f = 0x06 then ((sfld c 0 (fmtBits f) % (2 ^ 32 : Nat)).toNat, 0)
  else
    let w := if f = 0x00 then c else if fmtMx f then widenMx f c scale r else widen f c
    (w, if isNan32 w then 4 else if fmtMx f && (dec32 w).isInf && (decElem f c).isFin then 2 else 0)

/-- An integer format. -/
def fmtInt (f : Nat) : Bool := decide (f = 5) || decide (f = 6) || decide (f = 7)

/-- An element as an FP32 value (R236): integers convert under round to nearest even. -/
def loadFloat (f c scale : Nat) : Nat :=
  let v := (loadCode f c scale .nearest).1
  if fmtInt f then rne32 (valInt (sfld v 0 32)) else v

/-- The FP32 value of element k of a stream. -/
def State.streamFloat (s : State) (q p detail : Nat) (x : Stream) (k : Nat) : Except RunFault Nat := do
  let c ← s.streamCode q p detail x k
  pure (if x.slot.isSome then c.1 else loadFloat x.t.fmt c.1 c.2)

/-! ### Writes -/

/-- A write that is owed: a slot element, or bits in Local Store. -/
inductive OutWrite where
  | acc (i v : Nat)
  | ls (w : ElemWrite)
  deriving DecidableEq, Repr

def State.putOut (s : State) (q : Nat) (ws : List OutWrite) : State :=
  s.updSq q (fun x => (ws.foldl (fun y w => match w with
    | .acc i v => y.accWrite i v
    | .ls e => y.putElem e) x).freshLs (ws.flatMap (fun w => match w with
    | .acc _ _ => []
    | .ls e => e.offs)))

/-- Prepare the write of a code to element k of a stream that is not MX. -/
def State.streamWrite (s : State) (q p detail : Nat) (x : Stream) (k code : Nat) : Except RunFault OutWrite :=
  if x.slot.isSome then .ok (.acc (x.accIndex k) code)
  else (s.localWrite q p detail x.pool (x.t.at k) x.t.bits code).map OutWrite.ls

/-- A float result converted to a float output format (R44). -/
def floatOut (f : Nat) (r : Round) (v : Nat) : Nat :=
  if f = 0 then (if isNan32 v then nan32 else v) else (encElem f r (dec32 v)).1

/-! ### Overlap (R225) -/

/-- Two extents share a byte (R143). -/
def extentsMeet (a b : Tensor) : Bool := !a.empty && !b.empty && decide (a.lo ≤ b.hi) && decide (b.lo ≤ a.hi)

/-- Identical layout (R225). -/
def sameLayout (a b : Tensor) : Bool :=
  decide (a.fmt = b.fmt) && decide (a.rank = b.rank) && decide (a.sizes = b.sizes) && decide (a.strides = b.strides)

/-- An output and another stream overlap in a way that R225 refuses. -/
def overlapBad (n : Nat) (out other : Stream) (isInput : Bool) : Bool :=
  match out.slot, other.slot with
  | some a, some b =>
    decide (a = b) && decide (0 < n) && decide ((out.row - other.row) * 128 < n) && decide ((other.row - out.row) * 128 < n) &&
      !(isInput && decide (out.row = other.row))
  | none, none =>
    extentsMeet out.t other.t && !(isInput && sameLayout out.t other.t && decide (out.t.base = other.t.base))
  | _, _ => false

/-! ### Errors met by reads -/

/-- The reads of elements `ks` of a stream meet the errors of the stores' codes. -/
def State.touchStream (s : State) (q p : Nat) (x : Stream) (ks : List Nat) : State :=
  if x.slot.isSome then s.touchAcc q (ks.map x.accIndex)
  else
    let t := s.touchElems q p x.t ks
    if x.mx then t.touchElems q p x.side (ks.map x.sideIndex) else t

/-! ### Slots and masks -/

/-- The slots that a list of streams names, once each (R218). -/
def streamSlots (xs : List Stream) : List Nat := distinct (xs.filterMap (fun x => x.slot))

/-- A mask register of a Player. -/
def Player.mask (P : Player) (m : Nat) : BitVec 65536 := Tab.get 0 P.masks m

/-- Bits [0, n) of a mask register replaced by those of a number. -/
def maskSet (old : BitVec 65536) (n : Nat) (bits : Nat) : BitVec 65536 :=
  BitVec.ofNat 65536 ((old.toNat / 2 ^ n) * 2 ^ n + bits % 2 ^ n)

/-- Write a mask register; words of it from 0 to `words` - 1 carry new parity (R247). -/
def State.putMask (s : State) (q pl m : Nat) (v : BitVec 65536) (words : Nat := 2048) : State :=
  (s.updPlayer q pl (fun P => { P with masks := Mem.write 0 P.masks m v })).updSq q (fun x =>
    { x with maskErr := x.maskErr.filter (fun e => !(decide (e.1 = pl) && decide (e.2.1 = m) && decide (e.2.2 < words))) })

/-- The read of the first n bits of mask registers, given as a mask of their numbers, meets parity mismatches (R247). -/
def State.touchMasks (s : State) (q pl regs n : Nat) : State :=
  ((s.sq q).maskErr.filter (fun e => decide (e.1 = pl) && regs.testBit e.2.1 && decide (32 * e.2.2 < n))).foldl
    (fun t _ => t.storeError q 2) s

/-- The mask register that an operation with MaskEnable reads. -/
def maskBit (enable : Bool) (m : Nat) : Nat := if enable then 1 <<< m else 0

end Sys2Proof.Machine
end

