-- ==== Sys2Proof/Machine/Vrun.lean ====
section
/-!
DEFINITION. Element programs: the VRUN record (Table VEC-2), element operations (Tables VEC-4 and VEC-5), the checks of
R246, and the effect on VL elements with masks, flags and MX blocks (R221 to R234, R240).
-/

namespace Sys2Proof.Machine

open Sys2Proof

/-! ### The record (Table VEC-2) -/

def vrIn (r : Rec) (i : Nat) : Nat := recBits r (64 + 16 * i) 16
def vrOut (r : Rec) (i : Nat) : Nat := recBits r (128 + 16 * i) 16
def vrOpCount (r : Rec) : Nat := recBits r 160 7
def vrPair (r : Rec) : Bool := recBit r 167
def vrInOn (r : Rec) (i : Nat) : Bool := recBit r (168 + i)
def vrOutOn (r : Rec) (i : Nat) : Bool := recBit r (172 + i)
/-- A stream number 0 to 3 (inputs), 4 or 5 (outputs) is a slot reference. -/
def vrSlot (r : Rec) (i : Nat) : Bool := recBit r (174 + i)
def vrIndexReg (r : Rec) : Nat := recBits r 180 2
def vrShiftEnable (r : Rec) : Bool := recBit r 182
def vrShiftRows (r : Rec) : Int := sfld r.toNat 183 11
def vrOffset (r : Rec) : Nat := recBits r 194 42
def vrRowLength (r : Rec) : Nat := recBits r 236 20
/-- Stream number i: its reference and whether it is used. -/
def vrRef (r : Rec) (i : Nat) : Nat := if i < 4 then vrIn r i else vrOut r (i - 4)
def vrOn (r : Rec) (i : Nat) : Bool := if i < 4 then vrInOn r i else vrOutOn r (i - 4)

/-! ### Element operations (Table VEC-4) -/

def eoOp (w : Nat) : Nat := fld w 0 6
def eoType (w : Nat) : Nat := fld w 6 2
def eoRound (w : Nat) : Nat := fld w 8 2
def eoDst (w : Nat) : Nat := fld w 10 4
def eoA (w : Nat) : Nat := fld w 14 4
def eoB (w : Nat) : Nat := fld w 18 4
def eoC (w : Nat) : Nat := fld w 22 4
def eoMask (w : Nat) : Nat := fld w 26 3
def eoMaskEnable (w : Nat) : Bool := bit w 29
def eoImmB (w : Nat) : Bool := bit w 30
def eoImm (w : Nat) : Nat := fld w 32 32

/-- The element operations of a VRUN, from its operand records. -/
def elemOps (r : Rec) (operands : List Rec) : List Nat :=
  (operands.flatMap (fun o => [recBits o 0 64, recBits o 64 64, recBits o 128 64, recBits o 192 64])).take (vrOpCount r)

/-- The unused words of the last operand record. -/
def spareWords (r : Rec) (operands : List Rec) : List Nat :=
  (operands.flatMap (fun o => [recBits o 0 64, recBits o 64 64, recBits o 128 64, recBits o 192 64])).drop (vrOpCount r)

/-- Which Types an operation takes (Table VEC-5): 0 any, 1 float, 2 float or INT32, 3 INT32, 4 INT32 bitwise, 5 FP32, 6 none;
7 marks a reserved code. -/
def eoClass (op : Nat) : Nat :=
  if op = 0x00 ∨ op = 0x01 ∨ op = 0x02 ∨ op = 0x03 ∨ op = 0x16 ∨ op = 0x2E then 0
  else if (0x04 ≤ op ∧ op ≤ 0x0F) ∨ op = 0x15 ∨ op = 0x28 ∨ op = 0x29 ∨ op = 0x2A then 1
  else if 0x10 ≤ op ∧ op ≤ 0x13 then 2
  else if op = 0x14 ∨ op = 0x1C ∨ (0x20 ≤ op ∧ op ≤ 0x22) ∨ op = 0x2C ∨ op = 0x2D then 3
  else if 0x1D ≤ op ∧ op ≤ 0x1F then 4
  else if op = 0x1A ∨ op = 0x1B then 5
  else if 0x17 ≤ op ∧ op ≤ 0x19 then 6
  else 7

/-- The Type is valid for the operation and the mode (R227, R228). A mask operation has no Type; 0 stands in both modes. -/
def eoTypeOk (op type : Nat) (pair : Bool) : Bool :=
  let inMode := if pair then decide (2 ≤ type) else decide (type < 2)
  match eoClass op with
  | 0 => inMode
  | 1 => inMode && decide (type ≠ 1)
  | 2 => inMode
  | 3 => !pair && decide (type = 1)
  | 4 => decide (type = 1)
  | 5 => !pair && decide (type = 0)
  | 6 => inMode || decide (type = 0)
  | _ => false

/-- An element operation that is malformed (detail 0x41). -/
def eoBad (r : Rec) (w : Nat) : Bool :=
  let op := eoOp w
  !eoTypeOk op (eoType w) (vrPair r) || bit w 31 || decide (eoRound w = 3) || (decide (eoRound w = 2) && decide (op ≠ 2)) ||
    (eoImmB w && decide (eoB w ≠ 0)) || (decide (op = 1) && !vrInOn r (eoA w % 4)) ||
    (decide (op = 2) && !vrOutOn r (eoDst w % 2)) ||
    (((decide (op = 2) && decide (eoRound w = 2)) || decide (op = 0x2C)) && !streamOk (eoImm w)) ||
    (decide (op = 0x2A) && (decide (eoImm w / 256 ≠ 0) || !funKnown (eoImm w % 256)))

/-- Compare operations write a mask register. -/
def eoCompare (op : Nat) : Bool := decide (0x10 ≤ op) && decide (op ≤ 0x15)
def eoMaskOp (op : Nat) : Bool := decide (0x17 ≤ op) && decide (op ≤ 0x19)

/-- The mask registers that a program reads and writes, as 8-bit masks (R229). -/
def progReads (ops : List Nat) : Nat :=
  maskOf (ops.flatMap (fun w => (if eoMaskEnable w then [eoMask w] else []) ++
    (if eoOp w = 0x16 then [eoC w % 8] else []) ++ (if eoMaskOp (eoOp w) then [eoA w % 8, eoB w % 8] else [])))
def progWrites (ops : List Nat) : Nat :=
  maskOf (ops.flatMap (fun w => if eoCompare (eoOp w) || eoMaskOp (eoOp w) then [eoDst w % 8] else []))
def progLookup (ops : List Nat) : Bool := ops.any (fun w => decide (eoOp w = 0x2E))

/-- The temporaries that an element operation reads (Table VEC-5). -/
def eoReads (w : Nat) : List Nat :=
  let op := eoOp w
  let two := op = 0x16 ∨ (0x04 ≤ op ∧ op ≤ 0x0B) ∨ op = 0x0E ∨ eoCompare op = true ∨ (0x1C ≤ op ∧ op ≤ 0x22) ∨ op = 0x28
  (if op = 0x00 ∨ op = 0x01 ∨ op = 0x03 ∨ eoMaskOp op = true ∨ op = 0x2C ∨ op = 0x2D then [] else [eoA w]) ++
    (if two ∧ eoImmB w = false then [eoB w] else []) ++ (if 0x07 ≤ op ∧ op ≤ 0x09 then [eoC w] else [])

/-! ### Streams of a VRUN -/

/-- Stream number i of a VRUN, opened. -/
def State.vrOpen (s : State) (p : Nat) (r : Rec) (rows : Int) (i : Nat) : Except IssueFault Stream :=
  s.openStream p (vrRef r i) (vrSlot r i) (if i < 4 then .read else .write) rows (fun k => s.rowBytes p k rows)

def State.vrStream (s : State) (p : Nat) (r : Rec) (rows : Int) (i : Nat) : Stream :=
  s.theStream p (vrRef r i) (vrSlot r i) (if i < 4 then .read else .write) rows (fun k => s.rowBytes p k rows)

/-- The numbers of the streams in use. -/
def vrUsed (r : Rec) : List Nat := (List.range 6).filter (vrOn r)

/-- The reference stream (R226): Out0, else In0. -/
def vrReference (r : Rec) : Option Nat := if vrOutOn r 0 then some 4 else if vrInOn r 0 then some 0 else none

/-- The global index of element k (R226). -/
def globalIndex (r : Rec) (rows : Int) (rowLen k : Nat) : Int :=
  if rowLen = 0 then (vrOffset r : Int)
  else (vrOffset r : Int) + (rows + ((k / rowLen : Nat) : Int)) * (vrRowLength r : Int) + ((k % rowLen : Nat) : Int)

/-- A program needs global indices. -/
def progIndexes (ops : List Nat) : Bool :=
  ops.any (fun w => decide (eoOp w = 0x2C) || decide (eoOp w = 0x2D) || (decide (eoOp w = 2) && decide (eoRound w = 2)))

/-- A stream that Table VEC-3 refuses for an element operation: pair mode with another format, or a store from INT32 to a
float stream. -/
def eoStreamBad (r : Rec) (stream : Nat → Stream) (w : Nat) : Bool :=
  let op := eoOp w
  let x := stream (if op = 1 then eoA w % 4 else 4 + eoDst w % 2)
  if op ≠ 1 ∧ op ≠ 2 then false
  else if vrPair r then x.slot.isSome || decide (x.t.fmt ≠ if eoType w = 2 then 1 else 2)
  else decide (op = 2) && decide (eoType w = 1) && (x.slot.isSome || !fmtInt x.t.fmt)

/-- VL ends inside an MX block and not at a row's end (R224). -/
def Stream.blockCut (x : Stream) (n : Nat) : Bool :=
  x.mx && decide (x.rowLen ≠ 0) && decide (n % x.rowLen % 32 ≠ 0)

/-- The checks of VRUN at issue (R246). -/
def vrunCheck (q pl : Nat) (s : State) (r : Rec) : Option IssueFault :=
  let p := s.partOf q
  let x := s.sq q
  let pc := (s.player q pl).pc
  let n := cdiv (vrOpCount r) 4
  let segEnd := match x.segment with
    | some g => g.count
    | none => 0
  let operands := (List.range n).map (fun i => (x.record (pc + 1 + i)).getD 0)
  let ops := elemOps r operands
  let rows := rowShift (vrShiftEnable r) (s.indexReg q pl (vrIndexReg r)) (vrShiftRows r)
  let vl := (s.player q pl).vl
  let used := vrUsed r
  let stream := s.vrStream p r rows
  let outs := used.filter (fun i => decide (4 ≤ i))
  let rl := match vrReference r with
    | some i => (stream i).rowLen
    | none => 0
  if decide (vrOpCount r = 0) || decide (64 < vrOpCount r) || decide (segEnd < pc + 1 + n) ||
      (List.range 6).any (fun i => !vrOn r i && (decide (vrRef r i ≠ 0) || vrSlot r i)) ||
      used.any (fun i => vrSlot r i && decide (2 ^ 11 ≤ vrRef r i)) ||
      (spareWords r operands).any (fun w => decide (w ≠ 0)) || ops.any (eoBad r) then some (0x41, [])
  else match firstOpenFault (used.map (s.vrOpen p r rows)) with
    | some f => some f
    | none =>
      if used.any (fun i => (stream i).bad vl) || ops.any (eoStreamBad r stream) ||
          outs.any (fun i => (stream i).blockCut vl) || (vrPair r && used.any (fun i => (stream i).slot.isSome)) then
        some (0x42, [])
      else if used.any (fun i => (stream i).sideBad) then some (0x19, [])
      else if outs.any (fun o => used.any (fun i => decide (i ≠ o) &&
          overlapBad vl (stream o) (stream i) (decide (i < 4)))) then some (0x44, [])
      else if progIndexes ops && ((vrReference r).isNone ||
          (decide (0 < vl) && ((List.range vl).any (fun k =>
            let e := globalIndex r rows rl k
            decide (e < 0) || decide ((2 ^ 42 : Nat) ≤ e))))) then some (0x49, [])
      else none

/-! ### One element -/

/-- What an ST leaves for its element: the code, or for an MX stream the FP32 pattern with its rounding. -/
structure StVal where
  code : Nat
  round : Round
  deriving DecidableEq, Repr

/-- An element while its program runs. -/
structure Lane where
  temps : List Nat
  masks : Nat
  st0 : Option StVal := none
  st1 : Option StVal := none
  flags : Nat := 0
  sats : Nat := 0
  reads : List Nat := []
  looks : List Nat := []
  met : List Nat := []
  deriving DecidableEq, Repr

/-- What a VRUN's elements share; `upset` holds the bits that upsets changed in the values of its first strip's temporaries, by lane
and temporary (R247; log 38). -/
structure VrunCtx where
  q : Nat
  p : Nat
  pair : Bool
  stream : Nat → Stream
  index : Nat → Nat
  seed : Nat
  step : Nat
  upset : List ((Nat × Nat) × Word) := []

/-- Flags of an arithmetic result (R188). -/
def fpFlags (ins : List Val) (out : Val) : Nat :=
  let nan := ins.any Val.isNan
  (if nan then 4 else 0) ||| (if out.isNan && !nan then 1 else 0) ||| (if out.isInf && ins.all Val.isFin then 2 else 0)

/-- The format of a Type. -/
def typeFmt (type : Nat) : FpFmt := if type = 2 then fmtBF16 else if type = 3 then fmtFP16 else fmtFP32

/-- A float operation on codes of one format: its result and flags. -/
def floatOp (f : FpFmt) (r : Round) (op a b c imm : Nat) : Nat × Nat :=
  let av := f.dec a
  let bv := f.dec b
  let cv := f.dec c
  let sgn := 2 ^ f.signBit
  let fin := fun (ins : List Val) (out : Nat) => (out, fpFlags ins (f.dec out))
  if op = 0x04 then fin [av, bv] (f.add r a b)
  else if op = 0x05 then fin [av, bv] (f.sub r a b)
  else if op = 0x06 then fin [av, bv] (f.mul r a b)
  else if op = 0x07 then fin [av, bv, cv] (f.fma r a b c)
  else if op = 0x08 then fin [av, bv, cv] (f.out r ((av.mul bv).add cv.negate))
  else if op = 0x09 then fin [av, bv, cv] (f.fnmadd r a b c)
  else if op = 0x0A then fin [av, bv] (f.minimum a b)
  else if op = 0x0B then fin [av, bv] (f.maximum a b)
  else if op = 0x0C then (a % sgn, 0)
  else if op = 0x0D then (a ^^^ sgn, 0)
  else if op = 0x0E then (a % sgn + b / sgn % 2 * sgn, 0)
  else if op = 0x0F then fin [av] (f.out r (av.rint r))
  else if op = 0x28 then fin [av, bv] (f.div r a b)
  else if op = 0x29 then fin [av] (f.sqrt r a)
  else fin [av] (funcIn f r (imm % 256) (rne32 av))

/-- A comparison (Table VEC-5): the bit and its flags. -/
def compareOp (op type a b : Nat) : Bool × Nat :=
  let f := typeFmt type
  let av := f.dec a
  let bv := f.dec b
  let nan := av.isNan || bv.isNan
  let c := if type = 1 then (if sfld a 0 32 < sfld b 0 32 then -1 else if a = b then 0 else 1) else av.cmp bv
  let un := decide (type ≠ 1) && nan
  let v := if op = 0x14 then decide (a < b)
    else if op = 0x15 then nan
    else if op = 0x13 then un || decide (c ≠ 0)
    else !un && (if op = 0x10 then decide (c < 0) else if op = 0x11 then decide (c ≤ 0) else decide (c = 0))
  (v, if op ≠ 0x14 ∧ un then 4 else 0)

/-- An integer or bitwise operation. -/
def intOp (op a b w : Nat) : Nat :=
  if op = 0x1C then (a + b) % 2 ^ 32
  else if op = 0x1D then a &&& b
  else if op = 0x1E then a ||| b
  else if op = 0x1F then a ^^^ b
  else if op = 0x20 then (a <<< (b % 32)) % 2 ^ w
  else if op = 0x21 then a >>> (b % 32)
  else (sfld a 0 32 >>> (b % 32) % (2 ^ 32 : Nat)).toNat

/-- The quad of the lane of element k (R213). -/
def quadOf (pair : Bool) (k : Nat) : Nat := (if pair then k % 2048 / 2 else k % 1024) / 256

/-- A lookup-table byte address. -/
def lutAddr (quad bank off : Nat) : Nat := (quad * 2 + bank) * 4096 + off

/-- LOOKUP (R240): the entry, the invalid flag, and the word that was read. -/
def Square.lookup (x : Square) (pair : Bool) (type k a : Nat) : Nat × Nat × List Nat :=
  let quad := quadOf pair k
  let bank := if x.lutActive.testBit quad then 1 else 0
  if pair then
    if a < 2048 then
      let ad := lutAddr quad bank (2 * a)
      (leNat (Mem.readAll 0 x.lut ad 2), 0, [ad / 4])
    else ((typeFmt type).nanCode, 1, [])
  else if a < 1024 then
    let ad := lutAddr quad bank (4 * a)
    (leNat (Mem.readAll 0 x.lut ad 4), 0, [ad / 4])
  else (nan32, 1, [])

/-- A code stored to a stream that is not MX (Table VEC-3): the code, its flags, and whether it saturated. -/
def storeCode (x : Stream) (pair : Bool) (type a : Nat) (r : Round) : Nat × Nat × Bool :=
  if pair ∨ x.slot.isSome ∨ (x.t.fmt = 0 ∧ type = 0) ∨ (x.t.fmt = 7 ∧ type = 1) then (a, 0, false)
  else
    let v := if type = 1 then valInt (sfld a 0 32) else dec32 a
    let c := encElem x.t.fmt r v
    let out := match fpFmt x.t.fmt with
      | some f => (f.dec c.1).isInf && v.isFin
      | none => false
    (c.1, (if v.isNan then 4 else 0) ||| (if out then 2 else 0) ||| (if c.2.1 then 8 else 0), c.2.1)

/-- The lane of an element of the first strip (R213); `none` beyond it. -/
def firstStrip (pair : Bool) (k : Nat) : Option Nat :=
  if pair then (if k < 2048 then some (k / 2) else none) else if k < 1024 then some k else none

/-- An operation's first reads of temporaries whose parity does not match: the values are used as read (R247). -/
def Lane.reading (c : VrunCtx) (k : Nat) (l : Lane) (w : Nat) : Lane :=
  (eoReads w).foldl (fun x t =>
    match firstStrip c.pair k with
    | none => x
    | some lane => match c.upset.find? (fun e => decide (e.1 = (lane, t))) with
      | none => x
      | some e =>
        if x.met.contains t then x
        else
          let v := if c.pair then (if k % 2 = 0 then e.2.toNat % 65536 else e.2.toNat / 65536) else e.2.toNat
          { x with temps := x.temps.set t (x.temps.getD t 0 ^^^ v), met := t :: x.met }) l

/-- One element operation on element k, its operands read. -/
def Lane.act (s : State) (c : VrunCtx) (k : Nat) (l : Lane) (w : Nat) : Except RunFault Lane :=
  let op := eoOp w
  let type := eoType w
  let imm := if c.pair then (if k % 2 = 0 then eoImm w % 65536 else eoImm w / 65536) else eoImm w
  let a := l.temps.getD (eoA w) 0
  let b := if eoImmB w then imm else l.temps.getD (eoB w) 0
  let cc := l.temps.getD (eoC w) 0
  let set := fun (x : Lane) (v : Nat) => { x with temps := x.temps.set (eoDst w) v }
  let setMask := fun (v : Bool) => { l with masks := setFld l.masks (eoDst w % 8) 1 (if v then 1 else 0) }
  if op = 0x00 then .ok l
  else if op = 0x01 then
    let x := c.stream (eoA w % 4)
    match s.streamCode c.q c.p 0x43 x k with
    | .error e => .error e
    | .ok (code, scale) =>
      let v := if c.pair then (code, if ((typeFmt type).dec code).isNan then 4 else 0)
        else loadCode (if x.slot.isSome then 0 else x.t.fmt) code scale (roundOf (eoRound w) 0)
      .ok (set { l with flags := l.flags ||| v.2, reads := (eoA w % 4) :: l.reads } v.1)
  else if op = 0x02 then
    let x := c.stream (4 + eoDst w % 2)
    let dice := if eoRound w = 2 then diceWord c.seed (eoImm w) c.step (c.index k) else 0
    let r := roundOf (eoRound w) dice
    let v := if x.mx then (a, 0, false) else storeCode x c.pair type a r
    let l1 := { l with flags := l.flags ||| v.2.1, sats := l.sats + if v.2.2 then 1 else 0 }
    .ok (if eoDst w % 2 = 0 then { l1 with st0 := some { code := v.1, round := r } }
      else { l1 with st1 := some { code := v.1, round := r } })
  else if op = 0x03 then .ok (set l imm)
  else if op = 0x16 then .ok (set l (if bit l.masks (eoC w % 8) then a else b))
  else if eoMaskOp op then
    let x := bit l.masks (eoA w % 8)
    let y := bit l.masks (eoB w % 8)
    .ok (setMask (if op = 0x17 then x && y else if op = 0x18 then x || y else x && !y))
  else if eoCompare op then
    let v := compareOp op type a b
    .ok { setMask v.1 with flags := l.flags ||| v.2 }
  else if op = 0x1A then .ok (set l (fmtFP32.out (roundOf (eoRound w) 0) (valInt (sfld a 0 32))))
  else if op = 0x1B then
    let v := encInt 32 0 (roundOf (eoRound w) 0) (dec32 a)
    .ok (set { l with flags := l.flags ||| (if v.2 then 8 else 0) ||| (if isNan32 a then 4 else 0)
                      sats := l.sats + if v.2 then 1 else 0 } v.1)
  else if op = 0x2C then .ok (set l (diceWord c.seed (eoImm w) c.step (c.index k)))
  else if op = 0x2D then .ok (set l (c.index k % 2 ^ 32))
  else if op = 0x2E then
    let v := (s.sq c.q).lookup c.pair type k a
    .ok (set { l with flags := l.flags ||| v.2.1, looks := v.2.2 ++ l.looks } v.1)
  else if eoClass op = 1 then
    let v := floatOp (typeFmt type) (roundOf (eoRound w) 0) op a b cc (eoImm w)
    .ok (set { l with flags := l.flags ||| v.2 } v.1)
  else .ok (set l (intOp op a b 32))

/-- One element operation on element k, where its mask bit lets it act (R234). -/
def Lane.op (s : State) (c : VrunCtx) (k : Nat) (l : Lane) (w : Nat) : Except RunFault Lane :=
  if eoMaskEnable w && !bit l.masks (eoMask w) then .ok l
  else Lane.act s c k (if c.upset.isEmpty then l else l.reading c k w) w

/-- A program on element k: temporaries start at +0 (R229). -/
def laneRun (s : State) (c : VrunCtx) (ops : List Nat) (masks : List (BitVec 65536)) (k : Nat) : Except RunFault Lane :=
  ops.foldlM (fun l w => Lane.op s c k l w)
    { temps := List.replicate 16 0
      masks := maskOf ((List.range 8).filter (fun m => (masks.getD m 0).toNat.testBit k)) }

/-! ### Stores -/

/-- Where the MX block of element k begins and ends. -/
def Stream.blockFrom (x : Stream) (k : Nat) : Nat := k / x.rowLen * x.rowLen + k % x.rowLen / 32 * 32
def Stream.blockEnd (x : Stream) (k : Nat) : Nat := min (x.blockFrom k + 32) ((k / x.rowLen + 1) * x.rowLen)

/-- The write of element k to output o, where it is owed, with the element after its MX block and what it counts: the writes,
the block end, flags and saturations (R224, R234). -/
def outWrites (s : State) (c : VrunCtx) (lanes : Array Lane) (o k : Nat) :
    Except RunFault (List OutWrite × Nat × Nat × Nat) :=
  let x := c.stream (4 + o)
  let st := fun (j : Nat) => match lanes[j]? with
    | some l => if o = 0 then l.st0 else l.st1
    | none => none
  if x.mx then
    let b := x.blockFrom k
    let e := x.blockEnd k
    let ks := (List.range (e - b)).map (fun i => b + i)
    if lanes.size < e || !ks.any (fun j => (st j).isSome) then .ok ([], k + 1, 0, 0)
    else do
      let vals := ks.map (fun j => match st j with
        | some v => dec32 v.code
        | none => valZero)
      let scale := mxBlockScale x.t.fmt vals
      let el := match st k with
        | some v => mxBlockElem x.t.fmt scale (mxBlockZero vals) v.round (dec32 v.code)
        | none => (0, false)
      let fl := match st k with
        | some v => if isNan32 v.code then 4 else 0
        | none => 0
      let w ← s.localWrite c.q c.p 0x43 x.pool (x.t.at k) x.t.bits el.1
      let sc ← if k = b then
          (s.localWrite c.q c.p 0x43 (x.pool + 1) (x.side.at (x.sideIndex k)) 8 scale).map (fun z => [OutWrite.ls z])
        else pure []
      pure (sc ++ [.ls w], e, fl ||| (if el.2 then 8 else 0), if el.2 then 1 else 0)
  else match st k with
    | none => .ok ([], k + 1, 0, 0)
    | some v => (s.streamWrite c.q c.p 0x43 x k v.code).map (fun w => ([w], k + 1, 0, 0))

/-- Element k's writes to both outputs. -/
def elemOut (s : State) (c : VrunCtx) (r : Rec) (lanes : Array Lane) (k : Nat) :
    Except RunFault (List (List OutWrite × Nat × Nat × Nat)) :=
  ([0, 1].filter (fun o => vrOutOn r o)).mapM (fun o => outWrites s c lanes o k)

/-- What the elements of a VRUN share, from its operation in flight. -/
def State.vrunCtx (s : State) (q : Nat) (o : Op) : VrunCtx :=
  let p := s.partOf q
  let r := o.bits
  let rows := rowShift (vrShiftEnable r) o.index (vrShiftRows r)
  let stream := s.vrStream p r rows
  let rl := match vrReference r with
    | some i => (stream i).rowLen
    | none => 0
  { q := q, p := p, pair := vrPair r, stream := stream, index := fun k => (globalIndex r rows rl k).toNat
    seed := bookJobSeed (s.part p).book, step := (s.part p).stepCounter, upset := (s.sq q).tempErr }

/-- Parity mismatches of temporaries that the elements met, each once (R247). -/
def State.touchTemps (s : State) (c : VrunCtx) (lanes : List Lane) : State :=
  if c.upset.isEmpty then s
  else
    let hit := fun (e : (Nat × Nat) × Word) => ((List.range lanes.length).zip lanes).any (fun z =>
      decide (firstStrip c.pair z.1 = some e.1.1) && z.2.met.contains e.1.2)
    (c.upset.filter hit).foldl (fun t _ => t.storeError c.q 2)
      (s.updSq c.q (fun x => { x with tempErr := x.tempErr.filter (fun e => !hit e) }))

/-- Errors that the reads of the elements met in Local Store, slots, lookup tables and temporaries (R104, R199, R247). -/
def State.touchLanes (s : State) (c : VrunCtx) (lanes : List Lane) : State :=
  let ks := (List.range lanes.length).zip lanes
  let s1 := (List.range 4).foldl (fun t i =>
    t.touchStream c.q c.p (c.stream i) ((ks.filter (fun z => z.2.reads.contains i)).map (·.1))) s
  let words := lanes.flatMap (fun l => l.looks)
  (((s1.sq c.q).lutErr.filter (fun e => words.contains e)).foldl (fun t _ => t.storeError c.q 2) s1).touchTemps c lanes

/-- VRUN (R221): its elements in order, its stores, its mask registers. -/
def vrunRun (s : State) (q : Nat) (o : Op) : VecOut :=
  let c := s.vrunCtx q o
  let ops := elemOps o.bits o.operands
  let masks := (List.range 8).map (s.player q o.player).mask
  let x := runUntil (laneRun s c ops masks) o.vl
  let lanes := x.1.toArray
  let y := runUntil (elemOut s c o.bits lanes) x.1.length
  let n := y.1.length
  let made := y.1.flatten.filter (fun w => decide (w.2.1 ≤ n))
  let s0 := (s.touchMasks q o.player (progReads ops) o.vl).touchLanes c x.1
  let s1 := s0.putOut q (made.flatMap (fun w => w.1))
  let done := x.1.take n
  let s2 := (bitsOf (progWrites ops) 8).foldl (fun t m =>
    t.putMask q o.player m (maskSet (masks.getD m 0) n
      (done.foldr (fun l acc => 2 * acc + if bit l.masks m then 1 else 0) 0)) (n / 32)) s1
  let sats := (done.map (fun l => l.sats)).foldl (· + ·) 0 + (made.map (fun w => w.2.2.2)).foldl (· + ·) 0
  let s3 := s2.updSq q (fun z => { z with saturations := satAdd z.saturations sats })
  { state := s3, flags := orAll (done.map (fun l => l.flags) ++ made.map (fun w => w.2.2.1))
    fault := match y.2 with
      | some f => some f
      | none => x.2 }

end Sys2Proof.Machine
end

