-- ==== Sys2Proof/Machine/Reduce.lean ====
section
/-!
DEFINITION. MASK_OP (R233), the row reductions VREDUCE (R235, R236) and scans VSCAN (R237 to R239), and the lookup tables'
LUT_LOAD and LUT_SWAP (R240 to R242), with their checks (R246).
-/

namespace Sys2Proof.Machine

open Sys2Proof

/-! ### MASK_OP (R233) -/

def moMask (r : Rec) : Nat := recBits r 64 3
def moAction (r : Rec) : Nat := recBits r 67 3
def moDesc (r : Rec) : Nat := recBits r 80 16
def moArg (r : Rec) : Nat := recBits r 96 32

/-- Some word of a tensor lies on a mapped page outside the Square's Local Store (R233). -/
def State.foreignWords (s : State) (q p : Nat) (t : Tensor) (write : Bool) : Bool :=
  (List.range t.count).any (fun k => match s.translate p (t.at k).1 write with
    | .ok (.localStore q' _) => decide (q' ≠ q)
    | .ok (.stack _) => true
    | .error _ => false)

def maskOpCheck (q pl : Nat) (s : State) (r : Rec) : Option IssueFault :=
  let p := s.partOf q
  let a := moAction r
  let u := if a = 3 then Use.write else Use.read
  let words := cdiv (s.player q pl).vl 32
  let t := s.poolTensor p (moDesc r) 0
  if !recBodyOk r (bitsAt 64 6 ||| bitsAt 80 48) then some (0x02, [])
  else if decide (3 < a) || (decide (a < 2) && decide (moDesc r ≠ 0)) || (decide (a ≠ 1) && decide (moArg r ≠ 0)) then
    some (0x47, [])
  else match (if 2 ≤ a then firstDescFault [(moDesc r, s.useDesc p (moDesc r) 0 u)] else none) with
    | some f => some f
    | none =>
      if decide (2 ≤ a) && (decide (t.rank ≠ 1) || decide (t.fmt ≠ 7) || decide (t.count < words) ||
          s.foreignWords q p t (decide (a = 3))) then some (0x47, [])
      else none

/-- Bits of a list of 32-bit words, the first word lowest. -/
def wordsBits : List Nat → Nat
  | [] => 0
  | w :: r => w + 2 ^ 32 * wordsBits r

/-- MASK_OP: the register or the words of Desc. -/
def maskOpRun (s : State) (q : Nat) (o : Op) : VecOut :=
  let p := s.partOf q
  let r := o.bits
  let m := moMask r
  let vl := o.vl
  let words := cdiv vl 32
  let t := s.poolTensor p (moDesc r) 0
  let old := (s.player q o.player).mask m
  let put := fun (u : State) (v : Nat) => u.putMask q o.player m (BitVec.ofNat 65536 v)
  match moAction r with
  | 0 => { state := put s 0, flags := 0, fault := none }
  | 1 => { state := put s (2 ^ min (moArg r) vl - 1), flags := 0, fault := none }
  | 2 =>
    let x := runUntil (fun k => s.localElem q p 0x43 (moDesc r) (t.at k) 32) words
    let v := wordsBits x.1 % 2 ^ vl
    let n := 32 * x.1.length
    { state := (if x.2.isNone then put s v else s.putMask q o.player m (maskSet old (min n vl) v) x.1.length).touchTensor q p t
        x.1.length
      flags := 0, fault := x.2 }
  | _ =>
    let x := runUntil (fun k => s.localWrite q p 0x43 (moDesc r) (t.at k) 32 (fld (old.toNat % 2 ^ vl) (32 * k) 32)) words
    { state := (s.touchMasks q o.player (1 <<< m) (32 * x.1.length)).putElems q x.1, flags := 0, fault := x.2 }

/-! ### Reductions (R235, R236) -/

/-- Absent combined with v gives v. -/
def joinOpt {α : Type} (f : α → α → α) : Option α → Option α → Option α
  | none, y => y
  | x, none => x
  | some a, some b => some (f a b)

/-- One level of the tree: neighbours joined in pairs. -/
def pairUp {α : Type} (f : α → α → α) : List (Option α) → List (Option α)
  | a :: b :: r => joinOpt f a b :: pairUp f r
  | l => l

/-- The ten levels. -/
def treeTen {α : Type} (f : α → α → α) (l : List (Option α)) : Option α :=
  ((List.range 10).foldl (fun x _ => pairUp f x) l).headD none

/-- Lane l of a row: positions l, l + 1024, … in increasing order, started by `first` and joined by `next`. -/
def laneFold {α β : Type} (first : α → β) (next : β → α → β) (xs : Array (Option α)) (l : Nat) : Option β :=
  (List.range (cdiv xs.size 1024)).foldl (fun acc j =>
    match (xs[l + 1024 * j]?).getD none with
    | none => acc
    | some v => match acc with
      | none => some (first v)
      | some a => some (next a v)) none

/-- A row reduced in the order of R236. -/
def reduceRow {α β : Type} (first : α → β) (next : β → α → β) (join : β → β → β) (xs : List (Option α)) : Option β :=
  let a := xs.toArray
  treeTen join ((List.range 1024).map (laneFold first next a))

/-- The order of ARGMAX and ARGMIN: NaN outside every number, +0 above -0. -/
def argLess (a b : Nat) : Bool :=
  let av := dec32 a
  let bv := dec32 b
  av.lt bv || (av.isZero && bv.isZero && av.neg && !bv.neg)

/-- ARGMAX's choice between (value, position) pairs, positions rising from left to right. -/
def argMax (x y : Nat × Nat) : Nat × Nat :=
  if isNan32 x.1 then x else if isNan32 y.1 then y else if argLess x.1 y.1 then y else x
def argMin (x y : Nat × Nat) : Nat × Nat :=
  if isNan32 x.1 then x else if isNan32 y.1 then y else if argLess y.1 x.1 then y else x
/-- Of two pairs the one of the lower position stands first. -/
def argOrder (f : Nat × Nat → Nat × Nat → Nat × Nat) (x y : Nat × Nat) : Nat × Nat :=
  if y.2 < x.2 then f y x else f x y

def maximum32 (a b : Nat) : Nat := fmtFP32.maximum a b
def minimum32 (a b : Nat) : Nat := fmtFP32.minimum a b
def inf32 (neg : Bool) : Nat := if neg then 0xFF800000 else 0x7F800000

/-- SUM of a row (R236); `none` is a row with nothing present. -/
def rowSum (xs : List (Option Nat)) : Option Nat := reduceRow id add32 add32 xs
def rowMax (xs : List (Option Nat)) : Option Nat := reduceRow id maximum32 maximum32 xs
def rowSumSq (xs : List (Option Nat)) : Option Nat :=
  reduceRow (fun x => mul32 x x) (fun a x => fma32 x x a) add32 xs

/-- A reduction function of Table VEC-7 on a row. -/
def reduceFunc (func : Nat) (xs : List (Option Nat)) : Nat :=
  let pairs := ((List.range xs.length).zip xs).map (fun z => z.2.map (fun v => (v, z.1)))
  match func with
  | 0 => (rowSum xs).getD 0
  | 1 => (rowMax xs).getD (inf32 true)
  | 2 => (reduceRow id minimum32 minimum32 xs).getD (inf32 false)
  | 3 => (reduceRow abs32 (fun a x => maximum32 a (abs32 x)) maximum32 xs).getD 0
  | 4 => match reduceRow id (argOrder argMax) (argOrder argMax) pairs with
    | some x => x.2
    | none => 0xFFFFFFFF
  | 5 => match reduceRow id (argOrder argMin) (argOrder argMin) pairs with
    | some x => x.2
    | none => 0xFFFFFFFF
  | _ => (rowSumSq xs).getD 0

/-! ### VREDUCE (Table VEC-6) -/

def rdIn (r : Rec) : Nat := recBits r 64 16
def rdOut (r : Rec) : Nat := recBits r 80 16
def rdInSlot (r : Rec) : Bool := recBit r 96
def rdOutSlot (r : Rec) : Bool := recBit r 97
def rdFunc (r : Rec) : Nat := recBits r 98 3
def rdRound (r : Rec) : Nat := recBits r 101 2
def rdMaskReg (r : Rec) : Nat := recBits r 103 3
def rdMaskEnable (r : Rec) : Bool := recBit r 106
def rdIndexReg (r : Rec) : Nat := recBits r 107 2
def rdShiftEnable (r : Rec) : Bool := recBit r 109
def rdShiftRows (r : Rec) : Int := sfld r.toNat 110 11

/-- How far the output of VREDUCE moves: by values, as Base bytes or rows of a slot (R235). -/
def State.rdOutShift (s : State) (p : Nat) (r : Rec) (index i : Nat) : Int :=
  let rows := rowShift (rdShiftEnable r) index (rdShiftRows r)
  let t := tensorOf ((s.desc p i).getD 0) 0
  if t.rank = 1 then rows * t.stride 0
  else if t.size 0 = 0 then 0 else rows / (t.size 0 : Int) * t.stride 1

def rdOutRows (r : Rec) (index : Nat) : Int := rowShift (rdShiftEnable r) index (rdShiftRows r) / 128

/-- A ShiftRows that R235 does not allow for the output. -/
def State.rdShiftBad (s : State) (p : Nat) (r : Rec) : Bool :=
  let t := tensorOf ((s.desc p (rdOut r)).getD 0) 0
  rdShiftEnable r &&
    (if rdOutSlot r then decide (rdShiftRows r % 128 ≠ 0)
     else decide (1 < t.rank) && decide (t.size 0 ≠ 0) && decide (rdShiftRows r % (t.size 0 : Int) ≠ 0))

def State.rdOpenIn (s : State) (p : Nat) (r : Rec) (index : Nat) : Except IssueFault Stream :=
  let rows := rowShift (rdShiftEnable r) index (rdShiftRows r)
  s.openStream p (rdIn r) (rdInSlot r) .read rows (fun k => s.rowBytes p k rows)
def State.rdOpenOut (s : State) (p : Nat) (r : Rec) (index : Nat) : Except IssueFault Stream :=
  s.openStream p (rdOut r) (rdOutSlot r) .write (rdOutRows r index) (s.rdOutShift p r index)

/-- The stream of an open that its checks have passed. -/
def openedOr (x : Except IssueFault Stream) : Stream :=
  match x with
  | .ok y => y
  | .error _ => { slot := none, row := 0, pool := 0, t := noTensor, side := noTensor }

/-- The row count, 0 where the row length is 0. -/
def rowCount (vl n : Nat) : Nat := if n = 0 then 0 else vl / n

/-- VL is not a multiple of the row length. -/
def rowsBad (vl n : Nat) : Bool := if n = 0 then decide (vl ≠ 0) else decide (vl % n ≠ 0)

def vreduceCheck (q pl : Nat) (s : State) (r : Rec) : Option IssueFault :=
  let p := s.partOf q
  let index := s.indexReg q pl (rdIndexReg r)
  let vl := (s.player q pl).vl
  let a := openedOr (s.rdOpenIn p r index)
  let b := openedOr (s.rdOpenOut p r index)
  let n := a.rowLen
  let arg := rdFunc r = 4 ∨ rdFunc r = 5
  if !recBodyOk r (bitsAt 64 57) || (rdInSlot r && decide (2 ^ 11 ≤ rdIn r)) || (rdOutSlot r && decide (2 ^ 11 ≤ rdOut r))
  then some (0x02, [])
  else if decide (rdFunc r = 7) || decide (2 ≤ rdRound r) || s.rdShiftBad p r then some (0x45, [])
  else match firstOpenFault [s.rdOpenIn p r index, s.rdOpenOut p r index] with
    | some f => some f
    | none =>
      if a.bad vl || (if b.slot.isSome then b.bad (rowCount vl n) else decide (b.t.fmt % 32 = 8)) then some (0x42, [])
      else if rowsBad vl n || (b.slot.isNone && decide (b.t.count < rowCount vl n)) ||
          (if arg then b.slot.isSome || decide (b.t.fmt ≠ 7) else b.slot.isNone && !accFormat b.t.fmt) then some (0x45, [])
      else if a.sideBad then some (0x19, [])
      else none

/-- Presence of element k of an operation under a mask register. -/
def State.present (s : State) (q pl : Nat) (enable : Bool) (m k : Nat) : Bool :=
  !enable || ((s.player q pl).mask m).toNat.testBit k

/-- The read of a stream's first n elements, those that a mask register selects, meets the errors of the stores and of the mask
register. -/
def State.touchPresent (s : State) (q pl p : Nat) (enable : Bool) (m : Nat) (xs : List Stream) (n : Nat) : State :=
  let ks := (List.range n).filter (s.present q pl enable m)
  xs.foldl (fun t x => t.touchStream q p x ks) (s.touchMasks q pl (maskBit enable m) n)

/-- VREDUCE: rows in order (R236). -/
def vreduceRun (s : State) (q : Nat) (o : Op) : VecOut :=
  let p := s.partOf q
  let r := o.bits
  let a := openedOr (s.rdOpenIn p r o.index)
  let b := openedOr (s.rdOpenOut p r o.index)
  let n := a.rowLen
  let arg := rdFunc r = 4 ∨ rdFunc r = 5
  let row := fun (i : Nat) => do
    let xs ← (List.range n).mapM (fun j =>
      if s.present q o.player (rdMaskEnable r) (rdMaskReg r) (i * n + j) then
        (s.streamFloat q p 0x43 a (i * n + j)).map some
      else pure none)
    let v := reduceFunc (rdFunc r) xs
    s.streamWrite q p 0x43 b i (if arg then v else floatOut b.t.fmt (roundOf (rdRound r) 0) v)
  let x := runUntil row (rowCount o.vl n)
  { state := (s.touchPresent q o.player p (rdMaskEnable r) (rdMaskReg r) [a] (x.1.length * n)).putOut q x.1, flags := 0
    fault := x.2 }

/-! ### VSCAN (Table VEC-8) -/

def scIn0 (r : Rec) : Nat := recBits r 64 16
def scIn1 (r : Rec) : Nat := recBits r 80 16
def scOut (r : Rec) : Nat := recBits r 96 16
def scCarryIn (r : Rec) : Nat := recBits r 112 16
def scCarryOut (r : Rec) : Nat := recBits r 128 16
def scSlot (r : Rec) (i : Nat) : Bool := recBit r (144 + i)
def scFunc (r : Rec) : Nat := recBits r 148 2
def scExclusive (r : Rec) : Bool := recBit r 150
def scRound (r : Rec) : Nat := recBits r 151 2
def scMaskReg (r : Rec) : Nat := recBits r 153 3
def scMaskEnable (r : Rec) : Bool := recBit r 156
def scCarryInOn (r : Rec) : Bool := recBit r 157
def scCarryOutOn (r : Rec) : Bool := recBit r 158
def scIndexReg (r : Rec) : Nat := recBits r 159 2
def scShiftEnable (r : Rec) : Bool := recBit r 161
def scShiftRows (r : Rec) : Int := sfld r.toNat 162 11
def scRows (r : Rec) (index : Nat) : Int := rowShift (scShiftEnable r) index (scShiftRows r)

/-- A stream of VSCAN: 0 In0, 1 In1, 2 Out. -/
def State.scOpen (s : State) (p : Nat) (r : Rec) (index i : Nat) : Except IssueFault Stream :=
  let rows := scRows r index
  s.openStream p (if i = 0 then scIn0 r else if i = 1 then scIn1 r else scOut r) (scSlot r i)
    (if i = 2 then .write else .read) rows (fun k => s.rowBytes p k rows)

/-- The Base shift of a carry tensor: rows of values along dimension 0. -/
def State.valueShift (s : State) (p i : Nat) (rows : Int) : Int := rows * (tensorOf ((s.desc p i).getD 0) 0).stride 0

/-- A per-row tensor of a format: rank 1 with a value for each row. -/
def perRowOk (t : Tensor) (fmt rows : Nat) : Bool := decide (t.rank = 1) && decide (t.fmt = fmt) && decide (rows ≤ t.size 0)

def vscanCheck (q pl : Nat) (s : State) (r : Rec) : Option IssueFault :=
  let p := s.partOf q
  let index := s.indexReg q pl (scIndexReg r)
  let rows := scRows r index
  let vl := (s.player q pl).vl
  let lin := scFunc r = 3
  let a := openedOr (s.scOpen p r index 0)
  let b := openedOr (s.scOpen p r index 1)
  let out := openedOr (s.scOpen p r index 2)
  let n := a.rowLen
  let cnt := rowCount vl n
  let ci := s.poolTensor p (scCarryIn r) (s.valueShift p (scCarryIn r) rows)
  let co := s.poolTensor p (scCarryOut r) (s.valueShift p (scCarryOut r) rows)
  let carries := (if scCarryInOn r then
      firstDescFault [(scCarryIn r, s.useDesc p (scCarryIn r) (s.valueShift p (scCarryIn r) rows) .read)] else none).or
    (if scCarryOutOn r then
      firstDescFault [(scCarryOut r, s.useDesc p (scCarryOut r) (s.valueShift p (scCarryOut r) rows) .write)] else none)
  let ref := fun (i : Nat) => if i = 0 then scIn0 r else if i = 1 then scIn1 r else scOut r
  if !recBodyOk r (bitsAt 64 83 ||| bitsAt 148 25) || [0, 1, 2].any (fun i => scSlot r i && decide (2 ^ 11 ≤ ref i)) then
    some (0x02, [])
  else if decide (2 ≤ scRound r) || (!decide lin && decide (scIn1 r ≠ 0)) then some (0x45, [])
  else match (firstOpenFault ([s.scOpen p r index 0] ++ (if lin then [s.scOpen p r index 1] else []) ++
      [s.scOpen p r index 2])).or carries with
    | some f => some f
    | none =>
      if a.bad vl || (decide lin && b.bad vl) || out.bad vl then some (0x42, [])
      else if rowsBad vl n || (out.slot.isNone && !accFormat out.t.fmt) ||
          (scCarryInOn r && !perRowOk ci 0 cnt) || (scCarryOutOn r && !perRowOk co 0 cnt) then some (0x45, [])
      else if a.sideBad || (decide lin && b.sideBad) then some (0x19, [])
      else none

/-- The combination of two scan values; for LINREC the pair (a, b), for the others the second component is unused. -/
def scanComb (func : Nat) (u v : Nat × Nat) : Nat × Nat :=
  match func with
  | 0 => (add32 u.1 v.1, 0)
  | 1 => (maximum32 u.1 v.1, 0)
  | 2 => (minimum32 u.1 v.1, 0)
  | _ => (mul32 v.1 u.1, fma32 v.1 u.2 v.2)

/-- A carry applied to a scanned value; an absent carry leaves it. -/
def scanApply (func : Nat) (c : Option Nat) (x : Nat × Nat) : Nat :=
  match func, c with
  | 3, none => x.2
  | 3, some h => fma32 x.1 h x.2
  | _, none => x.1
  | 0, some h => add32 h x.1
  | 1, some h => maximum32 h x.1
  | _, some h => minimum32 h x.1

/-- One level of the scan: every lane takes the value of 2^d lanes before it. -/
def scanLevel (func d : Nat) (l : List (Option (Nat × Nat))) : List (Option (Nat × Nat)) :=
  List.zipWith (joinOpt (scanComb func)) (List.replicate (2 ^ d) none ++ l) l

/-- One strip: the inclusive results of its lanes, and the carry after it (R238). -/
def scanStrip (func : Nat) (carry : Option Nat) (xs : List (Option (Nat × Nat))) : List (Option Nat) × Option Nat :=
  let l := (List.range 10).foldl (fun x d => scanLevel func d x) xs
  let ys := List.zipWith (fun (x : Option (Nat × Nat)) (y : Option (Nat × Nat)) =>
    if x.isSome then y.map (scanApply func carry) else none) xs l
  (ys, match (ys.filterMap id).getLast? with
    | some v => some v
    | none => carry)

/-- A row in strips of 1,024, by fuel. -/
def scanRow (func : Nat) : Nat → Option Nat → List (Option (Nat × Nat)) → List (Option Nat) × Option Nat
  | 0, c, _ => ([], c)
  | f + 1, c, xs =>
    if xs.isEmpty then ([], c)
    else
      let a := scanStrip func c (xs.take 1024)
      let b := scanRow func f a.2 (xs.drop 1024)
      (a.1 ++ b.1, b.2)

/-- What an exclusive prefix gives a position without one present before it. -/
def scanIdentity (func : Nat) : Nat := if func = 1 then inf32 true else if func = 2 then inf32 false else 0

/-- The exclusive results: the nearest present inclusive result before each present position. -/
def exclusiveFrom (prev : Nat) : List (Option Nat) → List (Option Nat)
  | [] => []
  | none :: r => none :: exclusiveFrom prev r
  | some v :: r => some prev :: exclusiveFrom v r

/-- Where VSCAN's carry goes: the Local Store of any Square of the partition on the seat (R239). -/
def State.carryOffset (s : State) (p va pool : Nat) : Except RunFault (Nat × Nat) :=
  match s.translate p va true with
  | .error d => .error { cls := 0x31, detail := d, va := va, pool := pool }
  | .ok (.stack _) => .error { cls := 0x30, detail := 0x43, va := va, pool := pool }
  | .ok (.localStore q off) => .ok (q, off)

/-- What VSCAN does to one row: its output writes, its carry, and the fault it meets. -/
structure ScanRow where
  writes : List OutWrite
  carry : List (Nat × Nat × Byte)
  fault : Option RunFault
  deriving DecidableEq, Repr

def State.scanOneRow (s : State) (q : Nat) (o : Op) (row : Nat) : ScanRow :=
  let p := s.partOf q
  let r := o.bits
  let func := scFunc r
  let a := openedOr (s.scOpen p r o.index 0)
  let b := openedOr (s.scOpen p r o.index 1)
  let out := openedOr (s.scOpen p r o.index 2)
  let n := a.rowLen
  let rows := scRows r o.index
  let ci := s.poolTensor p (scCarryIn r) (s.valueShift p (scCarryIn r) rows)
  let co := s.poolTensor p (scCarryOut r) (s.valueShift p (scCarryOut r) rows)
  let cin : Except RunFault (Option Nat) :=
    if scCarryInOn r then (s.localElem q p 0x43 (scCarryIn r) (ci.at row) 32).map some else pure none
  match cin with
  | .error f => { writes := [], carry := [], fault := some f }
  | .ok c =>
    let x := runUntil (fun j =>
      if s.present q o.player (scMaskEnable r) (scMaskReg r) (row * n + j) then do
        let u ← s.streamFloat q p 0x43 a (row * n + j)
        let v ← if func = 3 then s.streamFloat q p 0x43 b (row * n + j) else pure 0
        pure (some (u, v))
      else pure none) n
    let y := scanRow func (n + 1) c x.1
    let vals := if scExclusive r then exclusiveFrom (c.getD (scanIdentity func)) y.1 else y.1
    let w := runUntil (fun j => match (vals.getD j none) with
      | some v => (s.streamWrite q p 0x43 out (row * n + j) (floatOut out.t.fmt (roundOf (scRound r) 0) v)).map (fun z => [z])
      | none => pure []) vals.length
    let fault := match w.2 with
      | some f => some f
      | none => x.2
    let cv := match y.2 with
      | some v => v
      | none => (Config.freeWord s.fresh row).toNat
    let carry := if fault.isNone && scCarryOutOn r then
        (List.range 4).mapM (fun i => (s.carryOffset p ((co.at row).1 + i) (scCarryOut r)).map (fun z =>
          (z.1, z.2, BitVec.ofNat 8 (cv / 256 ^ i))))
      else pure []
    match carry with
    | .ok l => { writes := w.1.flatten, carry := l, fault := fault }
    | .error f => { writes := w.1.flatten, carry := [], fault := some f }

/-- Write a row's carry into the Local Store of the Square that holds its four bytes. -/
def State.putCarry (s : State) (l : List (Nat × Nat × Byte)) : State :=
  l.foldl (fun t w => t.updSq w.1 (fun z => { z with ls := Mem.write 0 z.ls w.2.1 w.2.2 })) s

/-- VSCAN: rows in order, up to the first that fails. -/
def vscanRun (s : State) (q : Nat) (o : Op) : VecOut :=
  let p := s.partOf q
  let r := o.bits
  let a := openedOr (s.scOpen p r o.index 0)
  let b := openedOr (s.scOpen p r o.index 1)
  let ci := s.poolTensor p (scCarryIn r) (s.valueShift p (scCarryIn r) (scRows r o.index))
  let n := a.rowLen
  let x := (List.range (rowCount o.vl n)).foldl (fun (acc : List ScanRow × Bool) i =>
    if acc.2 then acc else
      let y := s.scanOneRow q o i
      (acc.1 ++ [y], y.fault.isSome)) ([], false)
  let s0 := s.touchPresent q o.player p (scMaskEnable r) (scMaskReg r) (if scFunc r = 3 then [a, b] else [a]) (x.1.length * n)
  let s1 := (if scCarryInOn r then s0.touchTensor q p ci x.1.length else s0).putOut q (x.1.flatMap (fun y => y.writes))
  let s2 := x.1.foldl (fun t y => t.putCarry y.carry) s1
  { state := { s2 with fresh := s2.fresh + 1 }, flags := 0, fault := (x.1.getLast?).bind (fun y => y.fault) }

/-! ### Lookup tables (R240 to R242) -/

def llDesc (r : Rec) : Nat := recBits r 64 16
def llQuads (r : Rec) : Nat := recBits r 80 4
def llBank (r : Rec) : Bool := recBit r 84

def lutLoadCheck (q : Nat) (s : State) (r : Rec) : Option IssueFault :=
  let p := s.partOf q
  if !recBodyOk r (bitsAt 64 21) then some (0x02, [])
  else firstDescFault [(llDesc r, s.useDesc p (llDesc r) 0 .read)]

/-- A LUT_SWAP in flight that has not switched yet. -/
def Op.pendingSwap (o : Op) : Bool := decide (recOpcode o.bits = 0x24) && decide (o.phase = .working)

/-- A bank that is active in some quad of a mask, or that a waiting swap makes active (Table VEC-12). -/
def Square.bankActive (x : Square) (quads : Nat) (bank : Bool) : Bool :=
  (bitsOf quads 4).any (fun k => decide (x.lutActive.testBit k = bank) ||
    x.inflight.any (fun o => o.pendingSwap && (llQuads o.bits).testBit k))

/-- The source of LUT_LOAD: a rank-1 tensor of exactly 4,096 bytes in a format of R241. -/
def lutSourceOk (t : Tensor) : Bool :=
  decide (t.rank = 1) && (accFormat t.fmt || decide (t.fmt = 7)) && decide (t.size 0 * t.bits = 32768)

/-- Write bytes of the lookup tables; words written whole carry new parity (R247). -/
def Square.lutWrite (x : Square) (ad : Nat) (bytes : List Byte) : Square :=
  { x with lut := Mem.writeAll 0 x.lut ad bytes
           lutErr := x.lutErr.filter (fun w => !(decide (ad ≤ 4 * w) && decide (4 * w + 4 ≤ ad + bytes.length))) }

/-- LUT_LOAD at the head of the queue: detail 0x46, or the bytes into the bank of each quad. -/
def lutLoadRun (s : State) (q : Nat) (o : Op) : VecOut :=
  let p := s.partOf q
  let r := o.bits
  let t := s.poolTensor p (llDesc r) 0
  if (s.sq q).bankActive (llQuads r) (llBank r) || !lutSourceOk t then
    { state := s, flags := 0, fault := some { cls := 0x30, detail := 0x46, va := 0, pool := llDesc r } }
  else
    let x := runUntil (fun k => s.localElem q p 0x43 (llDesc r) (t.at k) t.bits) t.count
    let bytes := x.1.flatMap (leBytes (t.bits / 8))
    { state := (s.updSq q (fun z => (bitsOf (llQuads r) 4).foldl (fun y k =>
        y.lutWrite (lutAddr k (if llBank r then 1 else 0) 0) bytes) z)).touchTensor q p t x.1.length
      flags := 0, fault := x.2 }

/-- The operation contains a LOOKUP. -/
def Op.hasLookup (o : Op) : Bool := decide (recOpcode o.bits = 0x21) && progLookup (elemOps o.bits o.operands)

/-- LUT_SWAP waits for the lookups, and for the loads that touch its quads, ahead of it (R242). -/
def Square.swapReady (x : Square) (o : Op) : Bool :=
  x.inflight.all (fun e => !(decide (e.id < o.id) && (e.hasLookup ||
    (decide (recOpcode e.bits = 0x23) && decide (llQuads e.bits &&& llQuads o.bits ≠ 0)))))

/-- The switch of the active-bank pointers. -/
def Square.swapBanks (x : Square) (quads : Nat) : Square := { x with lutActive := x.lutActive ^^^ (quads % 16) }

end Sys2Proof.Machine
end

