-- ==== Sys2Proof/Machine/Special.lean ====
section
/-!
DEFINITION. The row operations of class 0x4x: the soft maximum SMAX (R255 to R261) and ROW_STATS (R262 to R265) under the
extreme-argument policy (R254), with their checks (R268), row flags and counters (R266).
-/

namespace Sys2Proof.Machine

open Sys2Proof

/-- MaxFinite of an input format, in FP32 (R254). -/
def maxFinite (f : Nat) : Nat := if f = 1 then 0x7F7F0000 else if f = 2 then 0x477FE000 else 0x7F7FFFFF

/-- What a row operation does to one row: its writes, sticky flags, and the counts of R266 (void, clamps, NaN replacements,
infinity clamps). -/
structure RowOut where
  writes : List OutWrite
  flags : Nat
  voids : Nat
  clamps : Nat
  nans : Nat
  infs : Nat
  deriving DecidableEq, Repr

/-- The flag byte of a row (R266). -/
def rowFlagByte (void clamp nan inf : Bool) : Nat :=
  (if void then 1 else 0) + (if clamp then 2 else 0) + (if nan then 4 else 0) + (if inf then 8 else 0)

/-- Flags of one rounding step, without the NaN-in bit. -/
def stepFlags (ins : List Nat) (out : Nat) : Nat := fpFlags (ins.map dec32) (dec32 out) &&& 3

/-- A per-row tensor's shift, and a partial tensor's: rows along dimension 0 or 1 (R255, R262). -/
def State.rowTensorShift (s : State) (p i : Nat) (rows : Int) : Int :=
  let t := tensorOf ((s.desc p i).getD 0) 0
  rows * (if t.rank ≤ 1 then t.stride 0 else t.stride 1)

def State.rowTensor (s : State) (p i : Nat) (rows : Int) : Tensor := s.poolTensor p i (s.rowTensorShift p i rows)

/-- The descriptor checks of per-row tensors that are used and named. -/
def State.rowTensorFault (s : State) (p : Nat) (rows : Int) (l : List (Bool × Nat × Use)) : Option IssueFault :=
  firstDescFault ((l.filter (fun z => z.1 && decide (z.2.1 ≠ 0))).map (fun z =>
    (z.2.1, s.useDesc p z.2.1 (s.rowTensorShift p z.2.1 rows) z.2.2)))

/-- A partial tensor of `parts` components per row (R255, R265). -/
def statsOk (t : Tensor) (parts rows phase count : Nat) : Bool :=
  decide (t.fmt = 0) && decide (t.size 0 = parts) && decide (t.size 1 = rows) &&
    (if phase = 2 then decide (t.rank = 3) && decide (t.size 2 = count) else decide (t.rank = 2))

/-- Element (part, row, k) of a partial tensor. -/
def statsIndex (parts rows part row k : Nat) : Nat := part + parts * (row + rows * k)

/-! ### SMAX (Table FUN-5) -/

def smIn (r : Rec) : Nat := recBits r 64 16
def smOut (r : Rec) : Nat := recBits r 80 16
def smStats (r : Rec) : Nat := recBits r 96 16
def smLse (r : Rec) : Nat := recBits r 112 16
def smRowFlags (r : Rec) : Nat := recBits r 128 16
def smPhase (r : Rec) : Nat := recBits r 144 2
def smSingle (r : Rec) : Bool := recBit r 146
def smInSlot (r : Rec) : Bool := recBit r 147
def smOutSlot (r : Rec) : Bool := recBit r 148
def smRound (r : Rec) : Nat := recBits r 149 2
def smMaskReg (r : Rec) : Nat := recBits r 151 3
def smMaskEnable (r : Rec) : Bool := recBit r 154
def smLseOn (r : Rec) : Bool := recBit r 155
def smFlagsOn (r : Rec) : Bool := recBit r 156
def smIndexReg (r : Rec) : Nat := recBits r 157 2
def smShiftEnable (r : Rec) : Bool := recBit r 159
def smShiftRows (r : Rec) : Int := sfld r.toNat 160 11
def smP (r : Rec) : Nat := recBits r 171 7
def smScale (r : Rec) : Nat := recBits r 192 32
def smRows (r : Rec) (index : Nat) : Int := rowShift (smShiftEnable r) index (smShiftRows r)

def State.smOpen (s : State) (p : Nat) (r : Rec) (index : Nat) (out : Bool) : Except IssueFault Stream :=
  let rows := smRows r index
  s.openMain p (if out then smOut r else smIn r) (if out then smOutSlot r else smInSlot r) (if out then .write else .read)
    rows (fun k => s.rowBytes p k rows)

def smaxCheck (q pl : Nat) (s : State) (r : Rec) : Option IssueFault :=
  let p := s.partOf q
  let index := s.indexReg q pl (smIndexReg r)
  let rows := smRows r index
  let vl := (s.player q pl).vl
  let ph := smPhase r
  let a := openedOr (s.smOpen p r index false)
  let b := openedOr (s.smOpen p r index true)
  let n := a.rowLen
  let cnt := rowCount vl n
  let hasOut := decide (ph ≠ 1) && (smOutSlot r || decide (smOut r ≠ 0))
  let tensors := [(decide (ph = 1 ∨ ph = 2), smStats r, if ph = 1 then Use.write else Use.read),
    (smLseOn r, smLse r, Use.write), (smFlagsOn r, smRowFlags r, Use.write)]
  let badFmt := fun (x : Stream) => x.slot.isNone && !accFormat x.t.fmt
  let scale := dec32 (smScale r)
  if !recBodyOk r (bitsAt 64 114 ||| bitsAt 192 32) || (smInSlot r && decide (2 ^ 11 ≤ smIn r)) ||
      (smOutSlot r && decide (2 ^ 11 ≤ smOut r)) then some (0x02, [])
  else match (firstOpenFault ([s.smOpen p r index false] ++ if hasOut then [s.smOpen p r index true] else [])).or
      (s.rowTensorFault p rows tensors) with
    | some f => some f
    | none =>
      if decide (ph = 3) || decide (2 ≤ smRound r) || (smSingle r && decide (ph = 2)) ||
          (if ph = 2 then decide (smP r = 0) || decide (64 < smP r) else decide (smP r ≠ 0)) then some (0x4A, [])
      else if (decide (ph = 1) && (decide (smOut r ≠ 0) || smLseOn r)) || (decide (ph ≠ 1) && !hasOut) ||
          (decide (ph = 0) && decide (smStats r ≠ 0)) || (decide (ph ≠ 0) && decide (smStats r = 0)) ||
          (smLseOn r && decide (smLse r = 0)) || (smFlagsOn r && decide (smRowFlags r = 0)) then some (0x4B, [])
      else if badFmt a || (hasOut && badFmt b) then some (0x4C, [])
      else if a.bad vl || (hasOut && b.bad vl) then some (0x42, [])
      else if rowsBad vl n ||
          (decide (ph ≠ 0) && !statsOk (s.rowTensor p (smStats r) rows) 2 cnt ph (smP r)) ||
          (smLseOn r && !perRowOk (s.rowTensor p (smLse r) rows) 0 cnt) ||
          (smFlagsOn r && !perRowOk (s.rowTensor p (smRowFlags r) rows) 5 cnt) then some (0x4C, [])
      else if scale.isZero || !scale.isFin then some (0x4D, [])
      else none

/-- One position of a row: what it read, its z, and what was replaced (R256). -/
structure SmPos where
  present : Bool
  z : Nat
  xnan : Bool
  xinf : Bool
  nan : Bool
  inf : Bool
  ovf : Bool
  deriving DecidableEq, Repr

/-- Form z of a position (R256). `x` is none for a masked position. -/
def smPos (contained : Bool) (fmt scale : Nat) (x : Option Nat) : SmPos :=
  match x with
  | none => { present := contained, z := flip32 (maxFinite fmt), xnan := false, xinf := false, nan := false, inf := false
              ovf := false }
  | some v =>
    let y := if contained && isNan32 v then 0 else v
    let z := mul32 y scale
    let ovf := (dec32 z).isInf && (dec32 y).isFin
    let inf := contained && (dec32 z).isInf
    { present := true, z := if inf then (if (dec32 z).neg then flip32 (maxFinite fmt) else maxFinite fmt) else z
      xnan := isNan32 v, xinf := (dec32 v).isInf, nan := contained && isNan32 v, inf := inf, ovf := ovf }

/-- The running pair of the single-pass method (R258). -/
def smNext (x : Nat × Nat) (z : Nat) : Nat × Nat :=
  if lt32 x.1 z then (z, fma32 x.2 (exp32 (sub32 x.1 z)) one32)
  else if isNan32 z then (nan32, nan32)
  else (x.1, add32 x.2 (exp32 (sub32 z x.1)))

/-- The combination of two pairs (R258). -/
def smCombine (x y : Nat × Nat) : Nat × Nat :=
  let m := maximum32 x.1 y.1
  (m, fma32 x.2 (exp32 (sub32 x.1 m)) (mul32 y.2 (exp32 (sub32 y.1 m))))

/-- (m, s) of a row by the method, before R259; none where nothing is present. -/
def smStatsOf (single : Bool) (zs : List (Option Nat)) : Option (Nat × Nat) :=
  if single then reduceRow (fun z => (z, one32)) smNext smCombine zs
  else match rowMax zs with
    | none => none
    | some m => some (m, (rowSum (zs.map (fun z => z.map (fun v => exp32 (sub32 v m))))).getD 0)

/-- R259: an infinite m makes s NaN; a row without a present position has m = -∞ and s = +0. -/
def smFinish (x : Option (Nat × Nat)) : Nat × Nat :=
  match x with
  | none => (inf32 true, 0)
  | some (m, s) => (m, if (dec32 m).isInf then nan32 else s)

/-- One row of SMAX. -/
def State.smaxRow (s : State) (q : Nat) (o : Op) (row : Nat) : Except RunFault RowOut := do
  let p := s.partOf q
  let r := o.bits
  let ph := smPhase r
  let rows := smRows r o.index
  let a := openedOr (s.smOpen p r o.index false)
  let b := openedOr (s.smOpen p r o.index true)
  let n := a.rowLen
  let cnt := rowCount o.vl n
  let contained := (s.part p).contained
  let fmt := if a.slot.isSome then 0 else a.t.fmt
  let pos ← (List.range n).mapM (fun j =>
    if s.present q o.player (smMaskEnable r) (smMaskReg r) (row * n + j) then
      (s.streamFloat q p 0x4F a (row * n + j)).map (fun v => smPos contained fmt (smScale r) (some v))
    else pure (smPos contained fmt (smScale r) none))
  let void := (List.range n).all (fun j => !s.present q o.player (smMaskEnable r) (smMaskReg r) (row * n + j))
  let st := s.rowTensor p (smStats r) rows
  let pairs ← if ph = 2 then (List.range (smP r)).mapM (fun k => do
      let m ← s.localElem q p 0x4F (smStats r) (st.at (statsIndex 2 cnt 0 row k)) 32
      let t ← s.localElem q p 0x4F (smStats r) (st.at (statsIndex 2 cnt 1 row k)) 32
      pure (if m = inf32 true ∧ t = 0 then none else some (m, t)))
    else pure []
  let joined := if ph = 2 then pairs.foldl (joinOpt smCombine) none
    else smStatsOf (smSingle r) (pos.map (fun x => if x.present then some x.z else none))
  let ms := smFinish joined
  let outs ← if ph = 1 then pure [] else (List.range n).mapM (fun j => do
      let x := pos.getD j (smPos contained fmt (smScale r) none)
      let e := exp32 (sub32 x.z ms.1)
      let y := if x.present && joined.isSome then div32 e ms.2 else 0
      let fl := if x.present && joined.isSome then stepFlags [e, ms.2] y ||| stepFlags [x.z, ms.1] e else 0
      let w ← s.streamWrite q p 0x4F b (row * n + j) (floatOut b.t.fmt (roundOf (smRound r) 0) y)
      pure (w, fl))
  let lseV := if joined.isNone then inf32 true else add32 ms.1 (log32 ms.2)
  let lse := s.rowTensor p (smLse r) rows
  let lw ← if smLseOn r then
      (s.localWrite q p 0x4F (smLse r) (lse.at row) 32 lseV).map (fun w => [OutWrite.ls w]) else pure []
  let nan := pos.any (fun x => if contained then x.nan else x.present && x.xnan)
  let inf := pos.any (fun x => if contained then x.inf else x.present && x.xinf)
  let fl := s.rowTensor p (smRowFlags r) rows
  let fw ← if smFlagsOn r then
      (s.localWrite q p 0x4F (smRowFlags r) (fl.at row) 8 (rowFlagByte void false nan inf)).map (fun w => [OutWrite.ls w])
    else pure []
  let sw ← if ph = 1 then do
      let w1 ← s.localWrite q p 0x4F (smStats r) (st.at (statsIndex 2 cnt 0 row 0)) 32 ms.1
      let w2 ← s.localWrite q p 0x4F (smStats r) (st.at (statsIndex 2 cnt 1 row 0)) 32 ms.2
      pure [OutWrite.ls w1, OutWrite.ls w2]
    else pure []
  let invalid := !contained && joined.isSome && (isNan32 ms.1 || isNan32 ms.2)
  let flags := orAll (outs.map (fun w => w.2)) ||| (if invalid then 1 else 0) ||| (if pos.any (fun x => x.ovf) then 2 else 0) |||
    (if pos.any (fun x => x.xnan) then 4 else 0) ||| (if void then 16 else 0) |||
    (if contained && pos.any (fun x => x.nan || x.inf) then 64 else 0)
  pure { writes := outs.map (fun w => w.1) ++ lw ++ fw ++ sw, flags := flags, voids := if void then 1 else 0, clamps := 0
         nans := if contained then (pos.filter (fun x => x.nan)).length else 0
         infs := if contained then (pos.filter (fun x => x.inf)).length else 0 }

/-- The four row counters of a Square (R266). -/
def Square.countRows (x : Square) (l : List RowOut) : Square :=
  let add := fun (t : Tab Nat) (k n : Nat) => if n = 0 then t else Tab.upd 0 t k (fun c => satAdd c n)
  let sum := fun (f : RowOut → Nat) => (l.map f).foldl (· + ·) 0
  { x with rows := add (add (add (add x.rows 0 (sum (fun y => y.voids))) 1 (sum (fun y => y.clamps))) 2
      (sum (fun y => y.nans))) 3 (sum (fun y => y.infs)) }

/-- Make the rows that a row operation finished. -/
def State.putRows (s : State) (q : Nat) (l : List RowOut) : State :=
  (s.putOut q (l.flatMap (fun y => y.writes))).updSq q (fun x => x.countRows l)

/-- The elements of a partial tensor that rows 0 to `done` - 1 read (R261, R265). -/
def statsElems (parts cnt done count : Nat) : List Nat :=
  (List.range done).flatMap (fun row => (List.range count).flatMap (fun k =>
    (List.range parts).map (fun i => statsIndex parts cnt i row k)))

/-- SMAX: rows in order, each written in full (R268). -/
def smaxRun (s : State) (q : Nat) (o : Op) : VecOut :=
  let p := s.partOf q
  let r := o.bits
  let a := openedOr (s.smOpen p r o.index false)
  let n := a.rowLen
  let cnt := rowCount o.vl n
  let x := runUntil (s.smaxRow q o) cnt
  let s1 := s.touchPresent q o.player p (smMaskEnable r) (smMaskReg r) [a] (x.1.length * n)
  let s2 := if smPhase r = 2 then
      s1.touchElems q p (s.rowTensor p (smStats r) (smRows r o.index)) (statsElems 2 cnt x.1.length (smP r)) else s1
  { state := s2.putRows q x.1
    flags := orAll (x.1.map (fun y => y.flags)), fault := x.2 }

/-! ### ROW_STATS (Table FUN-6) -/

def rsIn (r : Rec) : Nat := recBits r 64 16
def rsMean (r : Rec) : Nat := recBits r 80 16
def rsRstd (r : Rec) : Nat := recBits r 96 16
def rsStats (r : Rec) : Nat := recBits r 112 16
def rsPivot (r : Rec) : Nat := recBits r 128 16
def rsRowFlags (r : Rec) : Nat := recBits r 144 16
def rsPhase (r : Rec) : Nat := recBits r 160 2
def rsRms (r : Rec) : Bool := recBit r 162
def rsPivotSrc (r : Rec) : Nat := recBits r 163 2
def rsInSlot (r : Rec) : Bool := recBit r 165
def rsMaskReg (r : Rec) : Nat := recBits r 166 3
def rsMaskEnable (r : Rec) : Bool := recBit r 169
def rsFlagsOn (r : Rec) : Bool := recBit r 170
def rsIndexReg (r : Rec) : Nat := recBits r 171 2
def rsShiftEnable (r : Rec) : Bool := recBit r 173
def rsShiftRows (r : Rec) : Int := sfld r.toNat 174 11
def rsP (r : Rec) : Nat := recBits r 185 7
def rsEpsilon (r : Rec) : Nat := recBits r 192 32
def rsRows (r : Rec) (index : Nat) : Int := rowShift (rsShiftEnable r) index (rsShiftRows r)

def State.rsOpen (s : State) (p : Nat) (r : Rec) (index : Nat) : Except IssueFault Stream :=
  let rows := rsRows r index
  s.openMain p (rsIn r) (rsInSlot r) .read rows (fun k => s.rowBytes p k rows)

def rowStatsCheck (q pl : Nat) (s : State) (r : Rec) : Option IssueFault :=
  let p := s.partOf q
  let index := s.indexReg q pl (rsIndexReg r)
  let rows := rsRows r index
  let vl := (s.player q pl).vl
  let ph := rsPhase r
  let a := openedOr (s.rsOpen p r index)
  let n := a.rowLen
  let cnt := rowCount vl n
  let useMean := !rsRms r && decide (ph ≠ 1)
  let tensors := [(useMean, rsMean r, Use.write), (decide (ph ≠ 1), rsRstd r, Use.write),
    (decide (ph ≠ 0), rsStats r, if ph = 1 then Use.write else Use.read),
    (decide (rsPivotSrc r = 1), rsPivot r, Use.read), (rsFlagsOn r, rsRowFlags r, Use.write)]
  let needs := fun (used : Bool) (ref : Nat) => used != decide (ref ≠ 0)
  let eps := dec32 (rsEpsilon r)
  if !recBodyOk r (bitsAt 64 160) || (rsInSlot r && decide (2 ^ 11 ≤ rsIn r)) then some (0x02, [])
  else match (firstOpenFault [s.rsOpen p r index]).or (s.rowTensorFault p rows tensors) with
    | some f => some f
    | none =>
      if decide (ph = 3) || decide (rsPivotSrc r = 3) ||
          (if ph = 2 then decide (rsP r = 0) || decide (64 < rsP r) else decide (rsP r ≠ 0)) then some (0x4A, [])
      else if needs useMean (rsMean r) || needs (decide (ph ≠ 1)) (rsRstd r) || needs (decide (ph ≠ 0)) (rsStats r) ||
          needs (decide (rsPivotSrc r = 1)) (rsPivot r) || (rsFlagsOn r && decide (rsRowFlags r = 0)) then some (0x4B, [])
      else if a.slot.isNone && !accFormat a.t.fmt then some (0x4C, [])
      else if a.bad vl then some (0x42, [])
      else if rowsBad vl n ||
          (useMean && !perRowOk (s.rowTensor p (rsMean r) rows) 0 cnt) ||
          (decide (ph ≠ 1) && !perRowOk (s.rowTensor p (rsRstd r) rows) 0 cnt) ||
          (decide (ph ≠ 0) && !statsOk (s.rowTensor p (rsStats r) rows) 3 cnt ph (rsP r)) ||
          (decide (rsPivotSrc r = 1) && !perRowOk (s.rowTensor p (rsPivot r) rows) 0 cnt) ||
          (rsFlagsOn r && !perRowOk (s.rowTensor p (rsRowFlags r) rows) 5 cnt) then some (0x4C, [])
      else if !eps.isFin || (eps.neg && !eps.isZero) then some (0x4D, [])
      else if (decide (rsPivotSrc r = 2) && decide (ph ≠ 0)) || (rsRms r && decide (rsPivotSrc r ≠ 0)) then some (0x4E, [])
      else none

/-- The sums of a row: count, S1, S2, with step flags (R263). -/
structure RsSums where
  n : Nat
  s1 : Nat
  s2 : Nat
  flags : Nat
  deriving DecidableEq, Repr

def rsSums (c : Nat) (xs : List (Option Nat)) : RsSums :=
  let ds := xs.map (fun x => x.map (fun v => sub32 v c))
  let d := ds.filterMap id
  let a := (rowSum ds).getD 0
  let b := (rowSumSq ds).getD 0
  { n := rne32 (valNat d.length), s1 := a, s2 := b
    flags := orAll ((xs.filterMap id).map (fun v => stepFlags [v, c] (sub32 v c))) ||| stepFlags d a ||| stepFlags d b }

/-- Sums joined with one rounding per addition (R265). -/
def rsJoin (x y : RsSums) : RsSums :=
  { n := add32 x.n y.n, s1 := add32 x.s1 y.s1, s2 := add32 x.s2 y.s2
    flags := x.flags ||| y.flags ||| stepFlags [x.s1, y.s1] (add32 x.s1 y.s1) ||| stepFlags [x.s2, y.s2] (add32 x.s2 y.s2) }

/-- The results of R263 from the sums: mean, rstd, whether the variance was clamped, NaNs replaced, and flags. -/
def rsFinish (contained rms : Bool) (c eps : Nat) (x : RsSums) : Nat × Nat × Bool × Nat × Nat :=
  if (dec32 x.n).isZero then
    let e := fmtFP32.sqrt .nearest eps
    (0, div32 one32 e, false, 0, stepFlags [one32, e] (div32 one32 e))
  else
    let fix := fun (v : Nat) => if contained && isNan32 v then 0 else v
    let rep := fun (v : Nat) => if contained && isNan32 v then 1 else 0
    let a0 := div32 x.s1 x.n
    let e0 := div32 x.s2 x.n
    let a := if rms then 0 else fix a0
    let e2 := fix e0
    let v0 := if rms then e2 else fmtFP32.fnmadd .nearest a a e2
    let v1 := fix v0
    let clamp := !rms && lt32 v1 0
    let v := if clamp then 0 else v1
    let mean := add32 a c
    let t := add32 v eps
    let sq := fmtFP32.sqrt .nearest t
    let rstd := div32 one32 sq
    let fl := x.flags ||| (if rms then 0 else stepFlags [x.s1, x.n] a0) ||| stepFlags [x.s2, x.n] e0 |||
      (if rms then 0 else stepFlags [a, a, e2] v0 ||| stepFlags [a, c] mean) ||| stepFlags [v, eps] t ||| stepFlags [t] sq |||
      stepFlags [one32, sq] rstd
    (mean, rstd, clamp, (if rms then 0 else rep a0 + rep v0) + rep e0, fl)

/-- One row of ROW_STATS. -/
def State.statsRow (s : State) (q : Nat) (o : Op) (row : Nat) : Except RunFault RowOut := do
  let p := s.partOf q
  let r := o.bits
  let ph := rsPhase r
  let rows := rsRows r o.index
  let a := openedOr (s.rsOpen p r o.index)
  let n := a.rowLen
  let cnt := rowCount o.vl n
  let contained := (s.part p).contained
  let mf := maxFinite (if a.slot.isSome then 0 else a.t.fmt)
  let raw ← if ph = 2 then pure [] else (List.range n).mapM (fun j =>
    if s.present q o.player (rsMaskEnable r) (rsMaskReg r) (row * n + j) then
      (s.streamFloat q p 0x4F a (row * n + j)).map some
    else pure none)
  let seen := raw.filterMap id
  let read := fun (v : Nat) =>
    if contained && isNan32 v then 0
    else if contained && (dec32 v).isInf then (if (dec32 v).neg then flip32 mf else mf) else v
  let xs := raw.map (fun x => x.map read)
  let pv := s.rowTensor p (rsPivot r) rows
  let c ← if rsPivotSrc r = 1 then s.localElem q p 0x4F (rsPivot r) (pv.at row) 32
    else pure (if rsPivotSrc r = 2 then ((xs.filterMap id).headD 0) else 0)
  let st := s.rowTensor p (rsStats r) rows
  let get := fun (part k : Nat) => s.localElem q p 0x4F (rsStats r) (st.at (statsIndex 3 cnt part row k)) 32
  let sums ← if ph = 2 then do
      let l ← (List.range (rsP r)).mapM (fun k => do
        let n ← get 0 k
        let s1 ← get 1 k
        let s2 ← get 2 k
        pure ({ n := n, s1 := s1, s2 := s2, flags := 0 } : RsSums))
      pure (match l with
        | [] => { n := 0, s1 := 0, s2 := 0, flags := 0 }
        | x :: rest => rest.foldl rsJoin x)
    else pure (rsSums c xs)
  let void := if ph = 2 then (dec32 sums.n).isZero else seen.isEmpty
  let fin := rsFinish contained (rsRms r) c (rsEpsilon r) sums
  let clamp := decide (ph ≠ 1) && fin.2.2.1
  let late := if ph = 1 then 0 else fin.2.2.2.1
  let nans := (seen.filter isNan32).length
  let infs := (seen.filter (fun v => (dec32 v).isInf)).length
  let mean := s.rowTensor p (rsMean r) rows
  let rstd := s.rowTensor p (rsRstd r) rows
  let fl := s.rowTensor p (rsRowFlags r) rows
  let mw ← if ph ≠ 1 ∧ rsRms r = false then
      (s.localWrite q p 0x4F (rsMean r) (mean.at row) 32 fin.1).map (fun w => [OutWrite.ls w]) else pure []
  let rw_ ← if ph ≠ 1 then
      (s.localWrite q p 0x4F (rsRstd r) (rstd.at row) 32 fin.2.1).map (fun w => [OutWrite.ls w]) else pure []
  let sw ← if ph = 1 then
      [(0, sums.n), (1, sums.s1), (2, sums.s2)].mapM (fun z =>
        (s.localWrite q p 0x4F (rsStats r) (st.at (statsIndex 3 cnt z.1 row 0)) 32 z.2).map OutWrite.ls)
    else pure []
  let byte := rowFlagByte void clamp (decide (nans ≠ 0) || decide (late ≠ 0)) (decide (infs ≠ 0))
  let fw ← if rsFlagsOn r then
      (s.localWrite q p 0x4F (rsRowFlags r) (fl.at row) 8 byte).map (fun w => [OutWrite.ls w]) else pure []
  let replaced := contained && (decide (nans ≠ 0) || decide (infs ≠ 0) || decide (late ≠ 0))
  let flags := (if ph = 1 then sums.flags else fin.2.2.2.2) ||| (if nans ≠ 0 then 4 else 0) ||| (if void then 16 else 0) |||
    (if clamp then 32 else 0) ||| (if replaced then 64 else 0)
  pure { writes := mw ++ rw_ ++ sw ++ fw, flags := flags, voids := if void then 1 else 0, clamps := if clamp then 1 else 0
         nans := if contained then nans + late else 0, infs := if contained then infs else 0 }

/-- ROW_STATS: rows in order, each written in full (R268). -/
def rowStatsRun (s : State) (q : Nat) (o : Op) : VecOut :=
  let p := s.partOf q
  let r := o.bits
  let a := openedOr (s.rsOpen p r o.index)
  let n := a.rowLen
  let cnt := rowCount o.vl n
  let rows := rsRows r o.index
  let x := runUntil (s.statsRow q o) cnt
  let s1 := if rsPhase r = 2 then s.touchElems q p (s.rowTensor p (rsStats r) rows) (statsElems 3 cnt x.1.length (rsP r))
    else s.touchPresent q o.player p (rsMaskEnable r) (rsMaskReg r) [a] (x.1.length * n)
  let s2 := if rsPivotSrc r = 1 then s1.touchTensor q p (s.rowTensor p (rsPivot r) rows) x.1.length else s1
  { state := s2.putRows q x.1
    flags := orAll (x.1.map (fun y => y.flags)), fault := x.2 }

end Sys2Proof.Machine
end

