-- ==== Sys2Proof/Machine/Blocks.lean ====
section
/-!
DEFINITION. Block lists (R137 to R142): the moves of one list entry, reaching the places of a gather or scatter by a Mover
or the Vector Engine, running moves up to the first that fails, presence bitmaps; and VBLOCK (R243, R244).
-/

namespace Sys2Proof.Machine

open Sys2Proof

/-- A gather, scatter-store or scatter-add: its tensors and their pool indices, the entries to process, the rounding of an
addition and its Dice stream. `engine` is the Square whose engine runs it, none for a Mover. -/
structure BlockOp where
  engine : Option Nat
  kind : Nat
  data : Tensor
  dense : Tensor
  list : Tensor
  bitmap : Option Tensor
  dataPool : Nat
  densePool : Nat
  listPool : Nat
  bitmapPool : Nat
  count : Nat
  round : Nat
  stream : Nat
  offset : Nat
  deriving DecidableEq, Repr

/-- Elements of a whole block. -/
def Tensor.blockSize (t : Tensor) : Nat := t.blkCols * (if t.rank < 2 then 1 else t.blkRows)

/-- The list is malformed (R138, detail 0x1C): the dense side holds one whole block for each entry of the list (log 15). -/
def blockListBad (data dense list : Tensor) : Bool :=
  !listOk data list || decide (dense.count ≠ data.blockSize * listEntries data list)

/-- The formats of R244 (log 15: a Mover's scatter-add takes the same). -/
def blockFormatsOk (kind fdata fdense : Nat) : Bool :=
  if kind = 2 then accFormat fdata && (decide (fdense = 0) || decide (fdense = fdata)) else decide (fdense = fdata)

/-- A presence bitmap serves a data tensor (R142; log 15). -/
def bitmapOk (data bm : Tensor) : Bool := decide (bm.rank = 1) && decide (bm.fmt = 7) && decide (data.blocks ≤ 32 * bm.count)

/-- One element to move: where from (none for zero), where to, and the linear index of the data tensor's element. -/
structure Move where
  src : Option (Nat × Nat)
  dst : Nat × Nat
  index : Nat
  deriving DecidableEq, Repr

/-- The linear index of an element of a tensor. -/
def Tensor.linear (t : Tensor) (ix : List Nat) : Nat :=
  ((ix.zip (t.sizes.take t.rank)).foldr (fun x a => x.1 + x.2 * a) 0)

def Tensor.placeNat (t : Tensor) (ix : List Nat) : Nat × Nat := ((t.place ix).1.toNat, (t.place ix).2)

/-- The moves of entry j that names block b, in dense order; under ZERO a block out of range reads as zeros. -/
def BlockOp.moves (o : BlockOp) (j : Nat) (b : Option Nat) : List Move :=
  let base := j * o.data.blockSize
  match b with
  | none => (List.range o.data.blockSize).map (fun i => { src := none, dst := o.dense.at (base + i), index := 0 })
  | some n =>
    let els := o.data.blockElems n
    ((List.range els.length).zip els).filterMap (fun x =>
      if o.kind = 0 then some { src := x.2.map o.data.placeNat, dst := o.dense.at (base + x.1), index := 0 }
      else x.2.map (fun ix =>
        { src := some (o.dense.at (base + x.1)), dst := o.data.placeNat ix, index := o.data.linear ix }))

/-! ### Reaching bytes -/

/-- Why a byte may not be reached (R132 to R136, R283, R285): an engine reaches its own Local Store, and stack memory only
with `stackOk` (detail 0x43). -/
def State.reachFault (s : State) (engine : Option Nat) (stackOk : Bool) (p va pool : Nat) (write : Bool) :
    Option RunFault :=
  match s.translate p va write with
  | .error d => some { cls := 0x31, detail := d, va := va, pool := pool }
  | .ok (.localStore q _) => match engine with
    | some e => if q = e then none else some { cls := 0x30, detail := 0x43, va := va, pool := pool }
    | none => none
  | .ok (.stack _) =>
    if engine.isSome && !stackOk then some { cls := 0x30, detail := 0x43, va := va, pool := pool }
    else if write then (s.writeFault p va).map (fun d => { cls := 0x31, detail := d, va := va, pool := pool })
    else none

/-- The first fault of the bytes of an element. -/
def State.elemFault (s : State) (engine : Option Nat) (stackOk : Bool) (p pool : Nat) (write : Bool) (at_ : Nat × Nat)
    (bits : Nat) : Option RunFault :=
  (elemVas at_ bits).foldl (fun f va => f.or (s.reachFault engine stackOk p va pool write)) none

/-- What stops a move: its source, then its destination (which an addition reads first). -/
def State.moveFault (s : State) (p : Nat) (o : BlockOp) (m : Move) : Option RunFault :=
  let sp := if o.kind = 0 then o.dataPool else o.densePool
  let dp := if o.kind = 0 then o.densePool else o.dataPool
  let sb := if o.kind = 0 then o.data.bits else o.dense.bits
  let db := if o.kind = 0 then o.dense.bits else o.data.bits
  let onData := decide (o.kind ≠ 0)
  let f1 := m.src.bind (fun a => s.elemFault o.engine (!onData) p sp false a sb)
  let f2 := if o.kind = 2 then s.elemFault o.engine onData p dp false m.dst db else none
  (f1.or f2).or (s.elemFault o.engine onData p dp true m.dst db)

/-- The code that a move of a source code writes. `earlier` counts the earlier entries of the operation that name its block (R141,
R244). -/
def State.codeFor (s : State) (p : Nat) (o : BlockOp) (earlier : Nat) (m : Move) (v : Nat) : Nat :=
  if o.kind ≠ 2 then v
  else
    let x := s.part p
    let old := s.vaElem p m.dst o.data.bits
    let tensor := (o.stream % 2 ^ 28 + earlier) % 2 ^ 28
    let w := if o.round = 2 then
        diceWord (bookJobSeed x.book) (o.stream / 2 ^ 28 * 2 ^ 28 + tensor) x.stepCounter (o.offset + m.index) else 0
    floatOut o.data.fmt (roundOf o.round w) (add32 (widen o.data.fmt old) (widen o.dense.fmt v))

/-- Element width of the source of an operation's moves. -/
def BlockOp.srcBits (o : BlockOp) : Nat := if o.kind = 0 then o.data.bits else o.dense.bits

/-- Element width of their destination. -/
def BlockOp.dstBits (o : BlockOp) : Nat := if o.kind = 0 then o.dense.bits else o.data.bits

/-- The code that a move between local places writes. -/
def State.moveCode (s : State) (p : Nat) (o : BlockOp) (earlier : Nat) (m : Move) : Nat :=
  s.codeFor p o earlier m (match m.src with
    | some a => s.vaElem p a o.srcBits
    | none => 0)

/-- Run moves in order up to the first that fails; of the writes before it, those to its own line are not made (R136).
`code` gives what move number i writes. The fault, and how many moves were made before it. -/
def State.runMoves (s : State) (p : Nat) (o : BlockOp) (code : Nat → Move → Nat) (ms : List Move) :
    State × Option RunFault × Nat :=
  let bad := ms.findIdx? (fun m => (s.moveFault p o m).isSome)
  let good := match bad with
    | some i => ms.take i
    | none => ms
  let f := bad.bind (fun i => (ms[i]?).bind (s.moveFault p o))
  let sb := if o.kind = 0 then o.data.bits else o.dense.bits
  let db := if o.kind = 0 then o.dense.bits else o.data.bits
  let clear := fun (m : Move) => match f with
    | some x => decide (m.dst.1 / 128 ≠ x.va / 128)
    | none => true
  let ws := ((List.range good.length).zip good).flatMap (fun x =>
    if clear x.2 then elemWrites x.2.dst db (code x.1 x.2) else [])
  let vas := good.flatMap (fun m => (match m.src with
    | some a => elemVas a sb
    | none => []) ++ (if o.kind = 2 then elemVas m.dst db else []))
  let pools := [if o.kind = 0 then o.densePool else o.dataPool]
  ((s.touchVas p vas pools).makeWrites p ws pools, f, (good.takeWhile clear).length)

/-- What moves cost at the memory-side dies (R244, R312): their reads, an addition's reads of what it writes, their writes. -/
def State.moveTraffic (s : State) (p : Nat) (o : BlockOp) (ms : List Move) : List (Nat × Traffic) :=
  let dst := ms.flatMap (fun m => elemVas m.dst o.dstBits)
  s.chunkTraffic p (ms.flatMap (fun m => match m.src with
    | some a => elemVas a o.srcBits
    | none => [])) false ++ (if o.kind = 2 then s.chunkTraffic p dst false else []) ++ s.chunkTraffic p dst true

/-! ### Entries -/

/-- The numbers of the list elements that entry j holds. -/
def BlockOp.words (o : BlockOp) (j : Nat) : List Nat := if o.data.listFmt = 1 then [2 * j, 2 * j + 1] else [j]

/-- What stops the read of an entry. -/
def State.entryFault (s : State) (p : Nat) (o : BlockOp) (j : Nat) : Option RunFault :=
  (o.words j).foldl (fun f k => f.or (s.elemFault o.engine false p o.listPool false (o.list.at k) 32)) none

/-- The block that entry j names, if it is in range (R138, Table TDB-5). -/
def State.entryTarget (s : State) (p : Nat) (o : BlockOp) (j : Nat) : Option Nat :=
  let ws := (o.words j).map (fun k => s.vaElem p (o.list.at k) 32)
  entryBlock o.data (ws.getD 0 0) (ws.getD 1 0)

/-- The moves of entry j; none where it is out of range under FAULT. -/
def State.entryMoves (s : State) (p : Nat) (o : BlockOp) (j : Nat) : Option (List Move) :=
  match s.entryTarget p o j with
  | some b => some (o.moves j (some b))
  | none => if o.data.policy = 0 then none
    else if o.data.policy = 2 ∧ o.kind = 0 then some (o.moves j none) else some []

/-- Earlier entries of the operation that name the block of entry j. -/
def State.earlierSame (s : State) (p : Nat) (o : BlockOp) (j : Nat) : Nat :=
  match s.entryTarget p o j with
  | some b => ((List.range j).filter (fun k => decide (s.entryTarget p o k = some b))).length
  | none => 0

/-- An entry out of range is counted in 6p30 (R139). -/
def State.countIndex (s : State) (p : Nat) : State :=
  s.updPart p (fun x => { x with indexOutOfRange := satAdd x.indexOutOfRange 1 })

/-- The bit of a presence bitmap that an entry sets once it is applied (R142). -/
def State.markBlock (s : State) (p : Nat) (o : BlockOp) (j : Nat) : State × Option RunFault :=
  match o.bitmap, s.entryTarget p o j with
  | some bm, some b =>
    let at_ := ((bm.at (b / 32)).1 + b % 32 / 8, b % 8)
    match (s.elemFault o.engine false p o.bitmapPool false at_ 1).or (s.elemFault o.engine false p o.bitmapPool true at_ 1)
    with
    | some f => (s, some f)
    | none => (s.makeWrites p (elemWrites at_ 1 1), none)
  | _, _ => (s, none)

/-- What follows an entry whose moves are made: the count of one out of range, the bitmap. -/
def State.endEntry (s : State) (p : Nat) (o : BlockOp) (j : Nat) : State × Option RunFault :=
  if (s.entryTarget p o j).isNone then (s.countIndex p, none)
  else if o.kind = 0 then (s, none) else s.markBlock p o j

/-- The fault of an entry out of range under FAULT (detail 0x1D). -/
def indexFault (o : BlockOp) (j : Nat) : RunFault :=
  { cls := 0x30, detail := 0x1D, va := (o.list.at ((o.words j).headD 0)).1, pool := o.listPool, entry := some j }

/-- One entry whole, unless an earlier one stopped the operation. -/
def blockStep (p : Nat) (o : BlockOp) (x : State × Option RunFault) (j : Nat) : State × Option RunFault :=
  if x.2.isSome then x
  else
    let s := x.1
    match s.entryFault p o j with
    | some f => (s, some f)
    | none => match s.entryMoves p o j with
      | none => (s.countIndex p, some (indexFault o j))
      | some ms =>
        let t := s.runMoves p o (fun _ m => s.moveCode p o (s.earlierSame p o j) m) ms
        let u := t.1.chargeAll p none (s.moveTraffic p o (ms.take t.2.2))
        match t.2.1 with
        | some f => (u, some f)
        | none => u.endEntry p o j

/-! ### VBLOCK (Table VEC-9) -/

def vbData (r : Rec) : Nat := recBits r 64 16
def vbDense (r : Rec) : Nat := recBits r 80 16
def vbList (r : Rec) : Nat := recBits r 96 16
def vbBitmap (r : Rec) : Nat := recBits r 112 16
def vbKind (r : Rec) : Nat := recBits r 128 2
def vbRound (r : Rec) : Nat := recBits r 130 2
def vbBitmapOn (r : Rec) : Bool := recBit r 132
def vbStream (r : Rec) : Nat := recBits r 136 32
def vbCount (r : Rec) : Nat := recBits r 168 32
def vbOffset (r : Rec) : Nat := recBits r 200 42

/-- The block operation of a VBLOCK record on a Square. One whose data tensor or dense side is empty has nothing to move and touches no
address (R123). -/
def State.vblockOp (s : State) (q : Nat) (r : Rec) : BlockOp :=
  let p := s.partOf q
  let t := fun (i : Nat) => s.poolTensor p i 0
  let entries := listEntries (t (vbData r)) (t (vbList r))
  { engine := some q, kind := vbKind r, data := t (vbData r), dense := t (vbDense r), list := t (vbList r)
    bitmap := if vbBitmapOn r then some (t (vbBitmap r)) else none
    dataPool := vbData r, densePool := vbDense r, listPool := vbList r, bitmapPool := vbBitmap r
    count := if (t (vbData r)).empty || (t (vbDense r)).empty then 0
      else if vbCount r = 0 then entries else min (vbCount r) entries
    round := vbRound r, stream := vbStream r, offset := vbOffset r }

/-- The checks of VBLOCK at issue (R246, R244). -/
def vblockCheck (q : Nat) (s : State) (r : Rec) : Option IssueFault :=
  let p := s.partOf q
  let o := s.vblockOp q r
  let g := decide (o.kind = 0)
  let descs := [(o.dataPool, s.useDesc p o.dataPool 0 (if g then .read else .write)),
      (o.densePool, s.useDesc p o.densePool 0 (if g then .write else .read)),
      (o.listPool, s.useDesc p o.listPool 0 .list)] ++
    (if o.kind = 2 then [(o.dataPool, s.useDesc p o.dataPool 0 .read)] else []) ++
    (if vbBitmapOn r then [(o.bitmapPool, s.useDesc p o.bitmapPool 0 .write)] else [])
  if !recBodyOk r (bitsAt 64 69 ||| bitsAt 136 106) then some (0x02, [])
  else if decide (o.kind = 3) || decide (o.round = 3) || (decide (o.kind ≠ 2) && decide (o.round ≠ 0)) ||
      (!vbBitmapOn r && decide (vbBitmap r ≠ 0)) ||
      (if o.round = 2 then !streamOk o.stream else decide (o.stream ≠ 0)) then some (0x48, [])
  else match firstDescFault descs with
    | some f => some f
    | none =>
      if blockListBad o.data o.dense o.list then some (0x1C, [(.pool, o.listPool)])
      else if !blockFormatsOk o.kind o.data.fmt o.dense.fmt then some (0x48, [])
      else if (match o.bitmap with
          | some bm => !bitmapOk o.data bm
          | none => false) then some (0x48, [(.pool, o.bitmapPool)])
      else if decide (o.round = 2) && decide (2 ^ 42 < o.offset + o.data.count) then some (0x49, [])
      else none

/-- VBLOCK: its entries in list order. -/
def vblockRun (s : State) (q : Nat) (o : Op) : VecOut :=
  let p := s.partOf q
  let b := s.vblockOp q o.bits
  let x := (List.range b.count).foldl (blockStep p b) (s, none)
  { state := x.1, flags := 0, fault := x.2 }

end Sys2Proof.Machine
end

