-- ==== Sys2Proof/Machine/VectorQueue.lean ====
section
/-!
DEFINITION. The vector queue (R216 to R220, R229, R242): issue of its operations, when the head starts, what starting does,
VSET_LENGTH, LUT_SWAP's switch, the scoreboard's releases (R200, R201) and the completion of an operation (R99).
-/

namespace Sys2Proof.Machine

open Sys2Proof

/-! ### Starting -/

/-- The effect of a vector operation by its opcode. -/
def vectorRun (s : State) (q : Nat) (o : Op) : VecOut :=
  match recOpcode o.bits with
  | 0x21 => vrunRun s q o
  | 0x22 => maskOpRun s q o
  | 0x23 => lutLoadRun s q o
  | 0x25 => vblockRun s q o
  | 0x30 => vreduceRun s q o
  | 0x31 => vscanRun s q o
  | 0x40 => smaxRun s q o
  | 0x41 => rowStatsRun s q o
  | 0x70 => accLoadRun s q o
  | 0x71 => accStoreRun s q o
  | 0x72 => accCombineRun s q o
  | _ => { state := s, flags := 0, fault := none }

/-- A run-time fault of a vector operation lets nothing behind it start (Table VEC-12); one of an accumulator operation
stops only that operation (R210). -/
def stopsQueue (opcode : Nat) : Bool := decide (opcode < 0x70)

/-- The queue head runs: it occupies the lanes, makes its effect, and leaves the queue. -/
def State.runVector (s : State) (q : Nat) (o : Op) : State :=
  let x := vectorRun s q o
  let t := (x.state.updSq q (fun y => { y with vqueue := y.vqueue.filter (fun i => decide (i ≠ o.id)), vbusy := some o.id })).updOp
    q o.id (fun y => { y with phase := .done, held := false, flags := x.flags, faulted := x.fault.isSome })
  match x.fault with
  | none => t
  | some f =>
    (t.updSq q (fun y => { y with vstopped := y.vstopped || stopsQueue (recOpcode o.bits)
                                  vfault := if stopsQueue (recOpcode o.bits) then y.vfault ++ o.slots else y.vfault })).runFault q o f

/-- The switch of a LUT_SWAP: at once, or later when what it waits for has completed (R242). -/
def State.runSwap (s : State) (q : Nat) (o : Op) : State :=
  let t := s.updSq q (fun y => { y with vqueue := y.vqueue.filter (fun i => decide (i ≠ o.id)) })
  if (s.sq q).swapReady o then
    (t.updSq q (fun y => y.swapBanks (llQuads o.bits))).updOp q o.id (fun y => { y with phase := .done })
  else t.updOp q o.id (fun y => { y with phase := .working })

/-- The interlocks other than slots (R229, R242): no earlier operation of the Player still writes a mask that it reads, and
no earlier LUT_SWAP is still to switch before a LOOKUP. -/
def Square.interlocksOpen (x : Square) (o : Op) : Bool :=
  x.inflight.all (fun e => !(decide (e.id < o.id) &&
    ((decide (e.player = o.player) && decide (e.writesMask &&& o.readsMask ≠ 0)) || (o.hasLookup && e.pendingSwap))))

/-- The operation claims a slot of one that failed: it runs on what that one left (Table ACC-8; log 109). -/
def Square.afterFault (x : Square) (o : Op) : Bool := o.slots.any (fun k => x.vfault.contains k)

/-- The operation that may start next, where the lanes are free: the head of the queue, or of a stopped queue the first that claims
a slot of a failed one. -/
def Square.vectorHead (x : Square) : Option Op :=
  if x.vbusy.isSome then none
  else if x.vstopped then (x.vqueue.filterMap x.op).find? x.afterFault
  else (x.vqueue.head?).bind x.op

/-- Start the head where its interlocks allow; a slot that is not free holds it on the scoreboard (R201). -/
def State.startHead (s : State) (q : Nat) : State :=
  match (s.sq q).vectorHead with
  | none => s
  | some o =>
    if o.held || !(s.sq q).interlocksOpen o then s
    else if recOpcode o.bits = 0x24 then s.runSwap q o
    else if (s.sq q).slotsFree o then s.runVector q o
    else s.holdOp q o.id

/-- Start what may start now: a LUT_SWAP at the head leaves the lanes free for the operation behind it. -/
def State.vectorProgress (s : State) (q : Nat) : State :=
  (s.sq q).vqueue.foldl (fun t _ => t.startHead q) s

/-- VECTOR_QUEUE_START (R216): the last strip of the operation in the lanes has entered; the queue starts the next. -/
def execVectorQueueStart (q : Nat) (s : State) : Out :=
  onUnit (decide (q < 144)) ((s.updSq q (fun x => { x with vbusy := none })).vectorProgress q)

/-- SCOREBOARD_SLOT_ACCESS (R200): an operation that was held makes its access once every earlier claim on its slots has
been released. -/
def execScoreboardSlotAccess (q op : Nat) (s : State) : Out :=
  onUnit (decide (q < 144)) (match (s.sq q).op op with
    | some o =>
      if !o.held || !(s.sq q).slotsFree o then s
      else if o.isMatmul then
        (if o.phase = .waiting then s.runStream q o else (s.runDrain q o).arrayProgress q)
      else if (s.sq q).vqueue.head? = some op ∨ (s.sq q).vstopped then
        ((s.updOp q op (fun y => { y with held := false })).vectorProgress q)
      else s
    | none => s)

/-- OPERATION_COMPLETE (R99): an operation whose writes have been accepted; a LUT_SWAP completes at its switch (R242). -/
def execOperationComplete (q op : Nat) (s : State) : Out :=
  onUnit (decide (q < 144)) (match (s.sq q).op op with
    | some o =>
      let go := fun (t : State) => ((t.complete q o).arrayProgress q).vectorProgress q
      if o.phase = .done then go s
      else if o.pendingSwap && (s.sq q).swapReady o then go (s.updSq q (fun y => y.swapBanks (llQuads o.bits)))
      else s
    | none => s)

/-! ### Issue -/

/-- The slots that stream references name, once each. -/
def slotRefs (l : List (Bool × Nat)) : List Nat := distinct ((l.filter (fun x => x.1)).map (fun x => x.2 % 16))

/-- Issue a vector operation: into the queue with its claims, and started where the lanes are free. -/
def State.issueVector (s : State) (q pl : Nat) (r : Rec) (operands : List Rec) (index : Nat) (slots : List Nat)
    (reads writes : Nat) : State :=
  let id := (s.sq q).nextOp
  let t := s.issueOp q pl r .vector .waiting operands index slots reads writes
  (t.updSq q (fun x => { x with vqueue := x.vqueue ++ [id] })).vectorProgress q

/-- VSET_LENGTH (R219): its checks. -/
def vsetLengthCheck (_ : State) (r : Rec) : Option IssueFault :=
  if recBytes r 8 4 = 0 ∨ 65536 < recBytes r 8 4 then some (0x40, [])
  else if !recBodyOk r (bytesAt 8 8 ||| bitsAt 128 3) then some (0x02, []) else none

/-- VSET_LENGTH (R219): executes at issue. -/
def execVsetLength (q pl : Nat) (s : State) : Out :=
  playerOp s q pl 0x20 noPre vsetLengthCheck (fun t r =>
    let m := recBytes r 8 4
    let n := if recBit r 128 then min m (recBytes r 12 4 - t.indexReg q pl (recBits r 129 2) * m) else m
    t.atIssue q pl r (t.updPlayer q pl (fun P => { P with vl := n })))

/-- VRUN (R221): issued together with its operand records. -/
def execVrun (q pl : Nat) (s : State) : Out :=
  playerOp s q pl 0x21 noPre (vrunCheck q pl) (fun t r =>
    let pc := (t.player q pl).pc
    let operands := (List.range (cdiv (vrOpCount r) 4)).map (fun i => ((t.sq q).record (pc + 1 + i)).getD 0)
    let ops := elemOps r operands
    t.issueVector q pl r operands (t.indexReg q pl (vrIndexReg r))
      (slotRefs ((vrUsed r).map (fun i => (vrSlot r i, vrRef r i)))) (progReads ops) (progWrites ops))

/-- MASK_OP (R233). -/
def execMaskOp (q pl : Nat) (s : State) : Out :=
  playerOp s q pl 0x22 noPre (maskOpCheck q pl) (fun t r =>
    let m := 1 <<< moMask r
    t.issueVector q pl r [] 0 [] (if moAction r = 3 then m else 0) (if moAction r = 3 then 0 else m))

/-- LUT_LOAD (R241). -/
def execLutLoad (q pl : Nat) (s : State) : Out :=
  playerOp s q pl 0x23 noPre (lutLoadCheck q) (fun t r => t.issueVector q pl r [] 0 [] 0 0)

/-- LUT_SWAP (R242). -/
def execLutSwap (q pl : Nat) (s : State) : Out :=
  playerOp s q pl 0x24 noPre (bodyCheck (bitsAt 80 4)) (fun t r => t.issueVector q pl r [] 0 [] 0 0)

/-- VBLOCK (R243). -/
def execVblock (q pl : Nat) (s : State) : Out :=
  playerOp s q pl 0x25 noPre (vblockCheck q) (fun t r => t.issueVector q pl r [] 0 [] 0 0)

/-- VREDUCE (R235). -/
def execVreduce (q pl : Nat) (s : State) : Out :=
  playerOp s q pl 0x30 noPre (vreduceCheck q pl) (fun t r =>
    t.issueVector q pl r [] (t.indexReg q pl (rdIndexReg r))
      (slotRefs [(rdInSlot r, rdIn r), (rdOutSlot r, rdOut r)]) (maskBit (rdMaskEnable r) (rdMaskReg r)) 0)

/-- VSCAN (R238). -/
def execVscan (q pl : Nat) (s : State) : Out :=
  playerOp s q pl 0x31 noPre (vscanCheck q pl) (fun t r =>
    t.issueVector q pl r [] (t.indexReg q pl (scIndexReg r))
      (slotRefs [(scSlot r 0, scIn0 r), (scSlot r 1 && decide (scFunc r = 3), scIn1 r), (scSlot r 2, scOut r)])
      (maskBit (scMaskEnable r) (scMaskReg r)) 0)

/-- SMAX (R256). -/
def execSmax (q pl : Nat) (s : State) : Out :=
  playerOp s q pl 0x40 noPre (smaxCheck q pl) (fun t r =>
    t.issueVector q pl r [] (t.indexReg q pl (smIndexReg r))
      (slotRefs [(smInSlot r, smIn r), (smOutSlot r && decide (smPhase r ≠ 1), smOut r)])
      (maskBit (smMaskEnable r) (smMaskReg r)) 0)

/-- ROW_STATS (R263). -/
def execRowStats (q pl : Nat) (s : State) : Out :=
  playerOp s q pl 0x41 noPre (rowStatsCheck q pl) (fun t r =>
    t.issueVector q pl r [] (t.indexReg q pl (rsIndexReg r)) (slotRefs [(rsInSlot r, rsIn r)])
      (maskBit (rsMaskEnable r) (rsMaskReg r)) 0)

/-- ACC_LOAD (R203). -/
def execAccLoad (q pl : Nat) (s : State) : Out :=
  playerOp s q pl 0x70 noPre (accLoadCheck q pl) (fun t r =>
    t.issueVector q pl r [] (t.indexReg q pl (accIndexReg r)) [accSlot r] 0 0)

/-- ACC_STORE (R204). -/
def execAccStore (q pl : Nat) (s : State) : Out :=
  playerOp s q pl 0x71 noPre (accStoreCheck q pl) (fun t r =>
    t.issueVector q pl r [] (t.indexReg q pl (accIndexReg r)) [accSlot r] 0 0)

/-- ACC_COMBINE (R206). -/
def execAccCombine (q pl : Nat) (s : State) : Out :=
  playerOp s q pl 0x72 noPre (accCombineCheck q pl) (fun t r =>
    t.issueVector q pl r [] (t.indexReg q pl (accIndexReg r)) [accSlot r] 0 0)

end Sys2Proof.Machine
end

