-- ==== Sys2Proof/Machine/Mover.lean ====
section
/-!
DEFINITION. Mover channels (chapter 06): starting a chain, making a descriptor current with its checks (R153, R157, R160),
pacing, completion (R161), abort and cancellation (R164, R166) and their ends, the class 0x5x operations (R158, R159).
-/

namespace Sys2Proof.Machine

open Sys2Proof

/-! ### What a channel runs -/

/-- The section 3 record that a channel runs. -/
def State.transferOf (s : State) (c : Channel) : List Byte :=
  match c.transfer with
  | some i => (linkRecords (s.part c.partition).book).getD i []
  | none => []

/-- The Square whose wait slots and entries a channel's descriptors name (R152, R351, R371). -/
def State.homeSquare (s : State) (m : MoverId) (ch : Nat) : Nat :=
  match m with
  | .square q => q
  | _ => rd (s.transferOf (s.channel m ch)) 0x10 1

/-- Which side of a copy is not local memory: 0 none, 1 the destination, 2 the source (R351, R367). -/
def State.farSide (s : State) (m : MoverId) (ch : Nat) : Nat :=
  let r := s.transferOf (s.channel m ch)
  match m with
  | .square _ => 0
  | .link _ => if rd r 3 1 = 2 then 2 else 1
  | .host => if rd r 2 1 % 2 = 0 then 2 else 1

/-- A channel's place in events. -/
def moverLoc (m : MoverId) (ch desc : Nat) : List (LocKind × Nat) :=
  (match m with
   | .square q => [(.moverSquare, q)]
   | .host => [(.moverHost, 0)]
   | .link l => [(.moverLink, l)]) ++ [(.channel, ch), (.descriptor, desc)]

/-- The current Mover descriptor of a channel. -/
def State.mdesc (s : State) (c : Channel) : Rec := (s.part c.partition).mdesc.getD c.desc 0

/-- The transfer of a channel's current descriptor: a copy is a gather of single elements for what reaching them does. -/
def State.channelOp (s : State) (m : MoverId) (ch : Nat) : BlockOp :=
  let c := s.channel m ch
  let p := c.partition
  let d := s.mdesc c
  let k := mdKind d
  let src := s.poolTensor p (mdSrc d) c.srcShift
  let dst := s.poolTensor p (mdDst d) c.dstShift
  { engine := none, kind := k - 1
    data := if k ≤ 1 then src else dst, dense := if k ≤ 1 then dst else src
    list := s.poolTensor p (mdList d) 0
    bitmap := if mdBitmapEnable d then some (s.poolTensor p (mdBitmap d) 0) else none
    dataPool := if k ≤ 1 then mdSrc d else mdDst d, densePool := if k ≤ 1 then mdDst d else mdSrc d
    listPool := mdList d, bitmapPool := mdBitmap d, count := s.mdTotal p d, round := mdRound d, stream := 0, offset := 0 }

/-! ### Starting a chain -/

/-- The channel accepts a chain; its first descriptor is to become current. -/
def State.startChain (s : State) (m : MoverId) (ch p first : Nat) (srcShift dstShift : Int) (transfer : Option Nat)
    (repeatNo : Nat) : State :=
  s.updChannel m ch (fun c =>
    { c with phase := .fetched, partition := p, desc := first, srcShift := srcShift, dstShift := dstShift, done := 0
             pos := 0, codes := [], faultAddress := 0, transfer := transfer, repeatNo := repeatNo, posted := true
             staged := [], stagedFrom := 0, raw := [], trailers := [], trailerGroup := 0, trailerOut := none })

/-! ### Faults -/

/-- A fault of a channel: its event, its abort with a cause, and the freeze of its partition (R136, R153, R168). -/
def State.moverFault (s : State) (m : MoverId) (ch : Nat) (f : RunFault) (cause : Nat) : State :=
  let c := s.channel m ch
  let loc := moverLoc m ch c.desc ++ [(.va, f.va), (.pool, f.pool)] ++ (match f.entry with
    | some e => [(.index, e)]
    | none => [])
  let s1 := s.updChannel m ch (fun y => { y with phase := .aborting cause, faultAddress := f.va })
  (s1.raise f.cls f.detail (some c.partition) loc []).freeze c.partition 2

/-! ### Making a descriptor current -/

/-- Source and destination of a copy overlap (R143); a far side shares no space with the near one. -/
def copyMeets (far : Nat) (src dst : Tensor) : Bool := decide (far = 0) && extentsMeet src dst

/-- An overlapping copy is plain (R144), or an in-place swap (R145). -/
def overlapOk (swap : Nat) (src dst : Tensor) : Bool :=
  if swap = 0 then sameLayout src dst && dst.nested else sameLayout src dst && decide (src.base = dst.base)

/-- The bytes of a swap unit (Table MOV-3). -/
def swapUnit (mode : Nat) : Nat := if mode = 1 then 2 else if mode = 4 then 8 else 4

/-- A swap that R157 refuses for n elements of a source. -/
def swapBad (mode n : Nat) (src : Tensor) : Bool :=
  let eb := src.bits / 8
  let u := swapUnit mode
  decide (mode ≠ 0) && (decide (src.bits < 8) || decide (src.size 0 * eb % u ≠ 0) ||
    (decide (src.size 0 ≠ 0) && decide (n % src.size 0 * eb % u ≠ 0)))

/-- The descriptors that a Mover descriptor names, each checked for its use. -/
def State.mdUses (s : State) (p : Nat) (d : Rec) (ss ds : Int) : List (Nat × Except Nat Tensor) :=
  let k := mdKind d
  [(mdSrc d, s.useDesc p (mdSrc d) ss .read), (mdDst d, s.useDesc p (mdDst d) ds .write)] ++
    (if k = 3 then [(mdDst d, s.useDesc p (mdDst d) ds .read)] else []) ++
    (if k = 0 then [] else [(mdList d, s.useDesc p (mdList d) 0 .list)]) ++
    (if mdBitmapEnable d then [(mdBitmap d, s.useDesc p (mdBitmap d) 0 .write)] else [])

/-- The checks of a descriptor that becomes current after those of Table TDB-2 (Table MOV-5, R138, R145); 0 is no failure. -/
def State.currentFault (s : State) (m : MoverId) (ch : Nat) : Nat :=
  let c := s.channel m ch
  let d := s.mdesc c
  let o := s.channelOp m ch
  let k := mdKind d
  let src := s.poolTensor c.partition (mdSrc d) c.srcShift
  let dst := s.poolTensor c.partition (mdDst d) c.dstShift
  let far := s.farSide m ch
  if k = 0 then
    if decide (src.fmt ≠ dst.fmt) || decide (src.count < o.count) || decide (dst.count < o.count) then 0x25
    else if swapBad (mdSwap d) o.count src then 0x26
    else if copyMeets far src dst && !overlapOk (mdSwap d) src dst then 0x1B
    else if mdPaceKind d = 2 ∧ mdPaceArg d % 32 = ch then 0x27
    else 0
  else if mdSwap d ≠ 0 then 0x26
  else if !blockFormatsOk o.kind o.data.fmt o.dense.fmt then 0x25
  else if blockListBad o.data o.dense o.list then 0x1C
  else if (match o.bitmap with
      | some bm => !bitmapOk o.data bm
      | none => false) then 0x1C
  else if copyMeets far src dst then 0x1B
  else if mdPaceKind d = 2 ∧ mdPaceArg d % 32 = ch then 0x27
  else 0

/-- The pacing condition of a descriptor holds (R160). -/
def State.paced (s : State) (m : MoverId) (ch : Nat) : Bool :=
  let c := s.channel m ch
  let d := s.mdesc c
  let x := s.part c.partition
  match mdPaceKind d with
  | 1 => decide (x.turnStart x.turn + mdPaceArg d ≤ s.now)
  | 2 => decide (mdPaceArg d / 256 % 65536 ≤ (s.channel m (mdPaceArg d % 32)).completions)
  | _ => true

/-- The descriptor's transfer begins; one without elements has been transferred. -/
def State.activate (s : State) (m : MoverId) (ch : Nat) : State :=
  let empty := decide ((s.channelOp m ch).count = 0)
  s.updChannel m ch (fun c => { c with phase := if empty then .written else .active })

/-- A host transfer that needs version 2 of Aslet, at version 1 (Table ASL-8). -/
def State.versionShort (s : State) (m : MoverId) (ch : Nat) : Bool :=
  decide (m = .host) && decide (rd (s.transferOf (s.channel m ch)) 1 1 % 4 ≠ 0) && decide (s.aslet.version < 2)

/-- DESCRIPTOR_CURRENT (R153): the checks; a descriptor whose pacing condition holds starts at once (R160). The channel was active
until it waits for another's completion count (R118). -/
def execDescriptorCurrent (m : MoverId) (ch : Nat) (s : State) : Out :=
  onUnit (moverHas m ch) (
    let c := s.channel m ch
    if c.phase = .fetched then
      match firstDescFault (s.mdUses c.partition (s.mdesc c) c.srcShift c.dstShift) with
      | some f => s.moverFault m ch { cls := 0x30, detail := f.1, va := 0, pool := ((f.2.map (·.2)).headD 0) } 0x04
      | none =>
        let f := s.currentFault m ch
        if s.versionShort m ch then s.moverFault m ch { cls := 0x30, detail := 0x62, va := 0, pool := 0 } 0x04
        else if f ≠ 0 then s.moverFault m ch { cls := 0x30, detail := f, va := 0, pool := mdSrc (s.mdesc c) } 0x04
        else if s.paced m ch then s.activate m ch
        else (s.updChannel m ch (fun y => { y with phase := .pacing })).active c.partition
    else s)

/-- PACING_MET (R160): a Turn-timer offset is reached, or another channel's completion count. -/
def execPacingMet (m : MoverId) (ch : Nat) (s : State) : Out :=
  onUnit (moverHas m ch) (
    let c := s.channel m ch
    let d := s.mdesc c
    let x := s.part c.partition
    if c.phase = .pacing then
      if mdPaceKind d = 1 then (s.reach (x.turnStart x.turn + mdPaceArg d)).activate m ch
      else if s.paced m ch then s.activate m ch
      else s
    else s)

/-! ### Completion (R161) -/

/-- A channel has written its status record: Mover operations that wait for it go on (R158). -/
def State.channelEnded (s : State) (m : MoverId) (ch : Nat) : State :=
  match m with
  | .square q => s.updSq q (fun x => { x with inflight := x.inflight.map (fun o =>
      let left := o.kind.channels.filter (fun c => decide (c ≠ ch))
      match o.kind with
      | .moverAbort _ => { o with kind := .moverAbort left, phase := if left.isEmpty then .done else o.phase }
      | .moverCancel _ => { o with kind := .moverCancel left, phase := if left.isEmpty then .done else o.phase }
      | _ => o) })
  | _ => s

/-- The wait-slot addition of a descriptor (R94). -/
def State.moverSlot (s : State) (m : MoverId) (ch : Nat) (d : Rec) : State :=
  if mdSlotEnable d then
    s.addSlot (s.homeSquare m ch) (mdSlotPlayer d) (mdSlotIndex d) (moverLoc m ch (s.channel m ch).desc)
  else s

/-- The post of a descriptor. -/
def State.moverPost (s : State) (m : MoverId) (ch : Nat) (d : Rec) : State :=
  if mdPostEnable d then s.post (s.homeSquare m ch) (mdPostEntry d) (mdPostSem d) 1 else s

/-- Every request that the running chain sent is answered, and none of the channel waits for a token. -/
def State.answered (s : State) (m : MoverId) (ch : Nat) : Bool :=
  (s.channel m ch).sent.all (fun z => !z.live) && !s.tokenWaits m ch &&
    (match m with
     | .host => !s.aslet.waits ch && (s.channel m ch).trailerOut.isNone
     | _ => true)

/-- A request that was refused (R344): the chain that still runs aborts with cause 0x03 and the remote address, also while its last
descriptor waits for acknowledgements under Barrier 1 (R161); of one that has completed event 0x31 detail 0x0A tells. The partition
freezes. -/
def State.refusedRequest (s : State) (m : MoverId) (ch p : Nat) (live : Bool) (desc va : Nat) : State :=
  let c := s.channel m ch
  let last := decide (c.phase = .written) && s.chainEnds c.partition c.desc
  let s1 :=
    if live && (s.stoppable c || (last && mdBarrier (s.mdesc c))) then
      s.updChannel m ch (fun y => { y with phase := .aborting 0x03, faultAddress := va })
    else if live && !last then s
    else s.raise 0x31 0x0A (some p) (moverLoc m ch desc ++ [(.va, va)]) []
  s1.freeze p 2

/-- A report of a channel to the management controller, with its last status record (R165). -/
def State.moverReport (s : State) (m : MoverId) (ch detail p desc : Nat) : State :=
  s.raise 0x30 detail (some p) (moverLoc m ch desc) (((s.channel m ch).status.bytes false).map (·.toNat))

/-- DESCRIPTOR_COMPLETE (R161): count, wait slot and post, report, then the next descriptor or the status record. -/
def execDescriptorComplete (m : MoverId) (ch : Nat) (s : State) : Out :=
  onUnit (moverHas m ch) (
    let c := s.channel m ch
    let d := s.mdesc c
    if decide (c.phase = .written) && (!mdBarrier d || s.answered m ch) then
      let s1 := (s.updChannel m ch (fun y => { y with completions := y.completions + 1 })).active c.partition
      let s2 := (s1.moverSlot m ch d).moverPost m ch d
      let s3 := if mdReport d then s2.moverReport m ch 0x2F c.partition c.desc else s2
      let c3 := s3.channel m ch
      if c3.phase = .written then
        if mdNext d = mdEnd then (s3.endChannel m ch 0x1 0x00).channelEnded m ch
        else s3.updChannel m ch (fun y => { y with phase := .fetched, desc := mdNext d, done := 0, pos := 0, codes := [] })
      else s3
    else s)

/-! ### Abort and cancellation -/

/-- MOVER_ABORT_END (R164): the burst under way is written and every write acknowledged; status record, wait slot, report. -/
def execMoverAbortEnd (m : MoverId) (ch : Nat) (s : State) : Out :=
  onUnit (moverHas m ch) (
    let c := s.channel m ch
    match c.phase with
    | .aborting cause =>
      if s.answered m ch then
        let d := s.mdesc c
        let s1 := (s.endChannel m ch 0x2 cause).active c.partition
        let s2 := (if mdSlotEnable d then
          s1.addSlot (s.homeSquare m ch) (mdSlotPlayer d) (mdSlotIndex d) (moverLoc m ch c.desc) else s1)
        (s2.moverReport m ch 0x28 c.partition c.desc).channelEnded m ch
      else s
    | _ => s)

/-- MOVER_CANCEL_END (R166): status record and report, and nothing else. -/
def execMoverCancelEnd (m : MoverId) (ch : Nat) (s : State) : Out :=
  onUnit (moverHas m ch) (
    let c := s.channel m ch
    match c.phase with
    | .cancelling cause =>
      if s.answered m ch then
        (((s.endChannel m ch 0x3 cause).active c.partition).moverReport m ch 0x29 c.partition c.desc).channelEnded m ch
      else s
    | _ => s)

/-! ### The operations of Table MOV-4 -/

def msChannel (r : Rec) : Nat := recBits r 64 4
def msIndexReg (r : Rec) : Nat := recBits r 68 2
def msShiftEnable (r : Rec) : Bool := recBit r 70
def msFirst (r : Rec) : Nat := recBytes r 12 4

/-- The checks of MOVER_START (R159). -/
def moverStartCheck (q : Nat) (s : State) (r : Rec) : Option IssueFault :=
  if !recBodyOk r (bitsAt 64 7 ||| bytesAt 12 12) then some (0x02, [])
  else if (s.channel (.square q) (msChannel r)).busy then some (0x20, [(.channel, msChannel r)])
  else if (s.part (s.partOf q)).mdesc.length ≤ msFirst r then some (0x24, [(.descriptor, msFirst r)])
  else none

/-- MOVER_START (R158): completes on acceptance. -/
def execMoverStart (q pl : Nat) (s : State) : Out :=
  playerOp s q pl 0x50 noPre (moverStartCheck q) (fun t r =>
    let i := if msShiftEnable r then (t.indexReg q pl (msIndexReg r) : Int) else 0
    (t.startChain (.square q) (msChannel r) (t.partOf q) (msFirst r) (i * recInt r 16) (i * recInt r 20) none 0).issueOp
      q pl r .moverStart .done [] 0 [] 0 0)

/-- The busy channels of a mask. -/
def State.busyIn (s : State) (q mask : Nat) : List Nat :=
  (bitsOf mask 16).filter (fun ch => (s.channel (.square q) ch).busy)

/-- MOVER_ABORT (R158, R164). -/
def execMoverAbort (q pl : Nat) (s : State) : Out :=
  playerOp s q pl 0x51 noPre (bodyCheck (bytesAt 8 2)) (fun t r =>
    let chs := t.busyIn q (recBytes r 8 2)
    (chs.foldl (fun u ch => u.abortChannel (.square q) ch 0x01) t).issueOp q pl r (.moverAbort chs)
      (if chs.isEmpty then .done else .waiting) [] 0 [] 0 0)

/-- MOVER_CANCEL (R158, R166). -/
def execMoverCancel (q pl : Nat) (s : State) : Out :=
  playerOp s q pl 0x52 noPre (bodyCheck (bytesAt 8 2)) (fun t r =>
    let chs := t.busyIn q (recBytes r 8 2)
    (chs.foldl (fun u ch => u.cancelChannel (.square q) ch 0x06) t).issueOp q pl r (.moverCancel chs)
      (if chs.isEmpty then .done else .waiting) [] 0 [] 0 0)

end Sys2Proof.Machine
end

