-- ==== Sys2Proof/Machine/MoverBurst.lean ====
section
/-!
DEFINITION. A Mover's bursts (R149, R150): the destination walk of a copy (R144, R154), gather or scatter (R155), swaps
(R157), the burst into local memory, onto a link (R341 to R351) and to or from a host record (R367 to R369), Book placement
(R373) and weight delivery (R392).
-/

namespace Sys2Proof.Machine

open Sys2Proof

/-! ### The walk -/

/-- The bit address of a place. -/
def bitAddr (a : Nat × Nat) : Nat := a.1 * 8 + a.2

/-- Element pairs of a copy in the order of its walk: element order, or for a plain overlapping copy the safe direction
(R144). -/
def copyWalk (far : Nat) (swap n : Nat) (src dst : Tensor) : List (Nat × Move) :=
  let l := (List.range n).map (fun k => (k, ({ src := some (src.at k), dst := dst.at k, index := 0 } : Move)))
  if copyMeets far src dst && decide (swap = 0) && decide (dst.base ≠ src.base) then
    if dst.base < src.base then l.mergeSort (fun a b => decide (bitAddr a.2.dst ≤ bitAddr b.2.dst))
    else l.mergeSort (fun a b => decide (bitAddr b.2.dst ≤ bitAddr a.2.dst))
  else l

/-- The entries whose moves are still to make, up to the first that stops the walk. -/
def State.restEntries (s : State) (p : Nat) (o : BlockOp) (done : Nat) : List (Nat × List Move) :=
  (((List.range (o.count - done)).map (fun i => done + i)).takeWhile (fun j =>
    (s.entryFault p o j).isNone && (s.entryMoves p o j).isSome)).map (fun j => (j, (s.entryMoves p o j).getD []))

/-- The moves still to make, with their element numbers for a copy and entry numbers otherwise. -/
def State.restMoves (s : State) (m : MoverId) (ch : Nat) : List (Nat × Move) :=
  let c := s.channel m ch
  let o := s.channelOp m ch
  let d := s.mdesc c
  if mdKind d = 0 then (copyWalk (s.farSide m ch) (mdSwap d) o.count o.data o.dense).drop c.done
  else ((s.restEntries c.partition o c.done).flatMap (fun e => e.2.map (fun y => (e.1, y)))).drop c.pos

/-- An element goes on with a run of bits [lo, hi): after it or before it, adjoining in bytes, or in bits for `exact`, and
within one 4 KiB block (R150). -/
def joinsRun (exact : Bool) (lo hi p bits : Nat) : Bool :=
  let up := decide (hi ≤ p) && (if exact then decide (p = hi) else decide (p / 8 ≤ cdiv hi 8))
  let down := decide (p + bits ≤ lo) && (if exact then decide (p + bits = lo) else decide (lo / 8 ≤ cdiv (p + bits) 8))
  (up || down) && decide (min lo p / 32768 = (max hi (p + bits) - 1) / 32768)

/-- How many further places of a list go on with a run. -/
def runLength (exact : Bool) (bits : Nat) : Nat → Nat → List Nat → Nat
  | _, _, [] => 0
  | lo, hi, p :: r =>
    if joinsRun exact lo hi p bits then 1 + runLength exact bits (min lo p) (max hi (p + bits)) r else 0

/-- The length of the next burst: the longest run of destination places. -/
def burstLength (exact : Bool) (bits : Nat) (places : List Nat) : Nat :=
  match places with
  | [] => 0
  | p :: r => 1 + runLength exact bits p (p + bits) r

/-! ### Swaps (R157) -/

/-- Which source byte of a unit an output byte takes (Table MOV-3). -/
def swapByte (mode i : Nat) : Nat :=
  match mode with
  | 1 => [1, 0].getD i 0
  | 2 => [3, 2, 1, 0].getD i 0
  | 3 => [2, 3, 0, 1].getD i 0
  | _ => [7, 6, 5, 4, 3, 2, 1, 0].getD i 0

/-- Elements of a group of whole units: read and swapped together. -/
def swapGroup (mode eb : Nat) : Nat := if eb = 0 then 1 else max eb (swapUnit mode) / eb

/-- The codes of a group after the swap. -/
def swapCodes (mode eb : Nat) (codes : List Nat) : List Nat :=
  let bytes := codes.flatMap (leBytes eb)
  let u := swapUnit mode
  let out := (List.range bytes.length).map (fun i => byteAt bytes (i / u * u + swapByte mode (i % u)))
  (List.range codes.length).map (fun i => rd out (i * eb) eb)

/-- The codes that a copy's elements k to k + n - 1 take, whole swap groups, of which `have_` were read before. -/
def State.swapRead (s : State) (p mode : Nat) (src : Tensor) (have_ : List Nat) (k n : Nat) : List Nat :=
  let eb := src.bits / 8
  let g := swapGroup mode eb
  let col := fun (i : Nat) => if src.size 0 = 0 then 0 else i % src.size 0
  let first := k + have_.length
  let last := k + n
  let upto := if last ≤ first then first else last + (g - col last % g) % g
  let groups := (List.range (cdiv (upto - first) g)).map (fun i => first + g * i)
  have_ ++ groups.flatMap (fun a => swapCodes mode eb ((List.range g).map (fun i => s.vaElem p (src.at (a + i)) src.bits)))

/-! ### Moving on -/

/-- Pass over the entries whose moves are made: their counts and bitmap bits (R139, R142). -/
def State.passEntries (s : State) (m : MoverId) (ch : Nat) : Nat → State × Option RunFault
  | 0 => (s, none)
  | n + 1 =>
    let c := s.channel m ch
    let o := s.channelOp m ch
    let p := c.partition
    if decide (c.done < o.count) && (s.entryFault p o c.done).isNone then
      match s.entryMoves p o c.done with
      | some ms =>
        if ms.length ≤ c.pos then
          let x := s.endEntry p o c.done
          match x.2 with
          | some f => (x.1, some f)
          | none => State.passEntries (x.1.updChannel m ch (fun y => { y with done := y.done + 1, pos := y.pos - ms.length }))
              m ch n
        else (s, none)
      | none => (s, none)
    else (s, none)

/-- n elements are written: the channel moves on and, past the last, all of its Count has been transferred. -/
def State.advanceWalk (s : State) (m : MoverId) (ch n : Nat) (codes : List Nat) : State × Option RunFault :=
  let o := s.channelOp m ch
  let copy := decide (mdKind (s.mdesc (s.channel m ch)) = 0)
  let s1 := s.updChannel m ch (fun c =>
    { c with done := if copy then c.done + n else c.done, pos := if copy then 0 else c.pos + n, codes := codes
             paid := c.paid && decide (n = 0) })
  let x := if copy then (s1, none) else s1.passEntries m ch (o.count + 1)
  if decide ((x.1.channel m ch).done = o.count) && x.2.isNone then
    (x.1.updChannel m ch (fun c => { c with phase := .written }), none)
  else x

/-- The fault that an entry in the walk's way raises: its read, or its index (R139). -/
def State.stopFault (s : State) (m : MoverId) (ch : Nat) : State :=
  let c := s.channel m ch
  let o := s.channelOp m ch
  match s.entryFault c.partition o c.done with
  | some f => s.moverFault m ch f 0x03
  | none => (s.countIndex c.partition).moverFault m ch (indexFault o c.done) 0x05

/-- End a burst: the fault of a write, the walk's next place. -/
def State.endBurst (s : State) (m : MoverId) (ch n : Nat) (codes : List Nat) (f : Option RunFault) : State :=
  let x := s.advanceWalk m ch n codes
  match f.or x.2 with
  | some e => (x.1.updChannel m ch (fun c => { c with phase := .active })).moverFault m ch e 0x03
  | none => x.1.active (s.channel m ch).partition

/-- The codes that the next n moves write. -/
def State.burstCodes (s : State) (m : MoverId) (ch : Nat) (ms : List Move) : List Nat :=
  let c := s.channel m ch
  let o := s.channelOp m ch
  let d := s.mdesc c
  if mdKind d = 0 ∧ mdSwap d ≠ 0 then s.swapRead c.partition (mdSwap d) o.data c.codes c.done ms.length
  else ms.map (s.moveCode c.partition o 0)

/-- The moves of the next burst (R150). -/
def State.nextMoves (s : State) (m : MoverId) (ch : Nat) : List Move :=
  let rest := (s.restMoves m ch).map (·.2)
  rest.take (burstLength false (s.channelOp m ch).dstBits (rest.map (fun y => bitAddr y.dst)))

/-- A burst between local places. -/
def State.localBurst (s : State) (m : MoverId) (ch : Nat) : State :=
  let c := s.channel m ch
  let o := s.channelOp m ch
  let ms := s.nextMoves m ch
  let codes := s.burstCodes m ch ms
  let x := s.runMoves c.partition o (fun i _ => codes.getD i 0) ms
  x.1.endBurst m ch x.2.2 (codes.drop x.2.2) x.2.1

/-! ### Codes that come from the far side -/

/-- Elements of a group of the channel's swap; 1 without one. -/
def State.codeGroup (s : State) (m : MoverId) (ch : Nat) : Nat :=
  let mode := mdSwap (s.mdesc (s.channel m ch))
  if mode = 0 then 1 else swapGroup mode ((s.channelOp m ch).data.bits / 8)

/-- How many of a channel's codes are the start of a group that is not whole yet: they wait unswapped (R157). -/
def State.rawCodes (s : State) (m : MoverId) (ch : Nat) : Nat :=
  let c := s.channel m ch
  (c.done + c.codes.length) % s.codeGroup m ch

/-- The codes with more that come: whole groups are swapped. -/
def State.takeCodes (s : State) (m : MoverId) (ch : Nat) (new : List Nat) : List Nat :=
  let c := s.channel m ch
  let mode := mdSwap (s.mdesc c)
  let g := s.codeGroup m ch
  let k := c.codes.length - s.rawCodes m ch
  if mode = 0 then c.codes ++ new
  else
    let raw := c.codes.drop k ++ new
    let eb := (s.channelOp m ch).data.bits / 8
    c.codes.take k ++ ((List.range (raw.length / g)).flatMap (fun i => swapCodes mode eb ((raw.drop (i * g)).take g))) ++
      raw.drop (raw.length / g * g)

/-- Codes come for a channel. -/
def State.storeCodes (s : State) (m : MoverId) (ch : Nat) (new : List Nat) : State :=
  let l := s.takeCodes m ch new
  s.updChannel m ch (fun c => { c with codes := l })

/-- The codes that the next burst needs: its own, and the rest of the last one's group. -/
def State.wantCodes (s : State) (m : MoverId) (ch : Nat) : Nat :=
  let n := (s.nextMoves m ch).length
  let g := s.codeGroup m ch
  n + (g - ((s.channel m ch).done + n) % g) % g

/-- The moves whose codes have not come, as far as the next burst needs them. -/
def State.unread (s : State) (m : MoverId) (ch : Nat) : List Move :=
  (((s.restMoves m ch).map (·.2)).take (s.wantCodes m ch)).drop (s.channel m ch).codes.length

/-- Moves without a source, next in order, read as zero (Table TDB-5). -/
def State.zeroCodes (s : State) (m : MoverId) (ch : Nat) : State :=
  let k := ((s.unread m ch).takeWhile (fun y => y.src.isNone)).length
  if k = 0 then s else s.storeCodes m ch (List.replicate k 0)

/-- A burst whose codes are all there is written. -/
def State.writeFar (s : State) (m : MoverId) (ch : Nat) : State :=
  let c := s.channel m ch
  let o := s.channelOp m ch
  let ms := (s.nextMoves m ch).map (fun y => { y with src := none })
  let x := s.runMoves c.partition o (fun i y => s.codeFor c.partition o 0 y (c.codes.getD i 0)) ms
  x.1.endBurst m ch x.2.2 (c.codes.drop x.2.2) x.2.1

/-! ### Onto a link -/

/-- The bytes of a run of elements [lo, hi) in bits, from the byte of lo. -/
def runBytes (lo hi bits : Nat) (places codes : List Nat) : List Byte :=
  let base := lo / 8 * 8
  leBytes (cdiv hi 8 - lo / 8)
    ((places.zip codes).foldl (fun a x => a + (x.2 % 2 ^ bits) * 2 ^ (x.1 - base)) 0)

/-- Send a request of a link channel along its record's route, with a tag that its answer carries, for the entries whose blocks it
writes. -/
def State.linkRequest (s : State) (l ch va : Nat) (blocks : List (Nat × Nat)) (t : Txn) : State :=
  let c := s.channel (.link l) ch
  let r := s.transferOf c
  let route := (linkRecords (s.part c.partition).book).getD (rd r 0xC 4) []
  let tag := (s.link l).nextTag
  let s1 := (s.updLink l (fun x => { x with nextTag := (tag + 1) % 65536 })).updChannel (.link l) ch (fun y =>
    { y with sent := y.sent ++ [{ tag := tag, desc := c.desc, va := va, live := true, blocks := blocks }], paid := false })
  s1.sendRoute c.partition route { t with txnTag := tag, address := va }

/-- What the next burst onto a link is: its moves, the entries and blocks that they belong to, its transactions with their addresses, how
many places of the walk it covers, the codes that it leaves over. -/
structure TrainPlan where
  moves : List Move
  blocks : List (Nat × Nat)
  trains : List (Nat × Txn)
  n : Nat
  rest : List Nat := []
  deriving DecidableEq, Repr

/-- The bytes that the trains of a plan carry. -/
def TrainPlan.bytes (t : TrainPlan) : Nat := (t.trains.map (fun x => x.2.data.length)).foldl (· + ·) 0

/-- The entries of a list of moves with the blocks that they name (R156). -/
def State.movedBlocks (s : State) (p : Nat) (o : BlockOp) (l : List (Nat × Move)) : List (Nat × Nat) :=
  if o.kind = 0 then []
  else (distinct (l.map (·.1))).filterMap (fun j => (s.entryTarget p o j).map (fun b => (j, b)))

/-- The Inline bytes of a train of a run by its record's kind (Table LNK-7). -/
def trainInline (r : List Byte) (transfer desc pos len lo hi : Nat) : List Byte :=
  let kind := rd r 3 1
  let headKeep := 2 ^ (lo % 8) - 1
  let tailKeep := if hi % 8 = 0 then 0 else 256 - 2 ^ (hi % 8)
  let one := decide (len = 1)
  if kind = 1 then
    leBytes 4 len ++ leBytes 1 (if one then headKeep ||| tailKeep else headKeep) ++ leBytes 1 (if one then 0 else tailKeep)
  else if kind = 5 then leBytes 4 len ++ leBytes 2 (rd r 0x20 2) ++ [0, 0] ++ leBytes 8 (rd r 0x28 8)
  else leBytes 4 len ++ Config.gradInline transfer desc pos

/-- A train that holds a run of the destination walk. -/
def State.runTrain (s : State) (l ch : Nat) : TrainPlan :=
  let m := MoverId.link l
  let c := s.channel m ch
  let o := s.channelOp m ch
  let r := s.transferOf c
  let bits := o.dstBits
  let all := s.restMoves m ch
  let n := burstLength true bits (all.map (fun y => bitAddr y.2.dst))
  let ms := (all.take n).map (·.2)
  let places := ms.map (fun y => bitAddr y.dst)
  let lo := places.foldl min (places.headD 0)
  let hi := places.foldl (fun a b => max a (b + bits)) 0
  let len := cdiv hi 8 - lo / 8
  let codes := s.burstCodes m ch ms
  { moves := ms, blocks := s.movedBlocks c.partition o (all.take n)
    trains := [(lo / 8, { kind := rd r 3 1, inl := trainInline r (c.transfer.getD 0) c.desc c.done len lo hi
                          data := runBytes lo hi bits places codes })]
    n := n, rest := codes.drop n }

/-- The longest data of a train at a link's version (Table LNK-3). -/
def trainLimit (version : Nat) : Nat := if version < 2 then 4096 else 8192

/-- Bytes of the sign words of n elements, and where their scales start (Table STP-5). -/
def signBytes (n : Nat) : Nat := 4 * cdiv n 32
def scaleStart (n : Nat) : Nat := cdiv (signBytes n) 64 * 64

/-- The bytes of 32-bit words. -/
def wordsBytes (l : List Nat) : List Byte := l.flatMap (leBytes 4)

/-- A GRAD_SIGN train (R347): of the sign form that a copy of 32-bit words sends, the sign words of as many whole blocks as a train
holds, then their scales; the elements and the block size are the transfer's (log 35). -/
def State.signTrain (s : State) (l ch : Nat) : TrainPlan :=
  let m := MoverId.link l
  let c := s.channel m ch
  let o := s.channelOp m ch
  let tr := c.transfer.getD 0
  let log := 8 + (Config.signLog tr c.desc).val
  let total := min (1 + Config.signCount tr c.desc) (32 * o.count)
  let w := 2 ^ log / 32
  let j := c.done / (w + 1)
  let left := cdiv total (2 ^ log) - j
  let k := max 1 ((List.range 256).filter (fun i =>
    decide (i < left) && decide (scaleStart ((i + 1) * 2 ^ log) + 4 * (i + 1) ≤ trainLimit (s.link l).version))).length
  let n := min (k * 2 ^ log) (total - j * 2 ^ log)
  let signs := (List.range (cdiv n 32)).map (fun i => j * w + i)
  let scales := (List.range (cdiv n (2 ^ log))).map (fun i => scaleStart total / 4 + j + i)
  let code := fun (i : Nat) => s.vaElem c.partition (o.data.at i) 32
  { moves := (signs ++ scales).map (fun i => { src := some (o.data.at i), dst := o.dense.at i, index := 0 }), blocks := []
    trains := [((o.dense.at (j * w)).1,
      { kind := 6, inl := leBytes 4 (scaleStart n + 4 * scales.length) ++ leBytes 4 n ++ leBytes 8 log ++
          leBytes 8 (o.dense.at (scales.headD 0)).1
        data := padTo (scaleStart n) (wordsBytes (signs.map code)) ++ wordsBytes (scales.map code) })]
    n := if left ≤ k then o.count - c.done else signs.length + scales.length }

/-- A GRAD_TOPK train (R347): of a gather, as many whole list entries as a train holds, with their blocks. Toward a version-1 peer two
WRITE trains carry them (Table LNK-3). Where the entries go at the destination is the transfer's (log 35). -/
def State.topkTrain (s : State) (l ch : Nat) : TrainPlan :=
  let m := MoverId.link l
  let c := s.channel m ch
  let o := s.channelOp m ch
  let p := c.partition
  let v := (s.link l).version
  let block := cdiv (o.data.blockSize * o.data.bits) 8
  let per := if v < 2 then trainLimit v / block else trainLimit v / (4 + block)
  let es := ((s.restEntries p o c.done).takeWhile (fun e => !e.2.isEmpty)).take (max 1 per)
  let list := wordsBytes (es.map (fun e => s.vaElem p (o.list.at e.1) 32))
  let data := es.flatMap (fun e => leBytes block
    ((((List.range e.2.length).zip (e.2.map (s.moveCode p o 0))).map (fun z => z.2 % 2 ^ o.data.bits * 2 ^ (z.1 * o.data.bits))).sum))
  let at1 := Config.topkList (c.transfer.getD 0) c.desc + 4 * c.done
  let at2 := (o.dense.at (c.done * o.data.blockSize)).1
  { moves := es.flatMap (·.2), blocks := []
    trains := if v < 2 then
        [(at1, { kind := 1, inl := leBytes 4 list.length ++ [0, 0], data := list }),
         (at2, { kind := 1, inl := leBytes 4 data.length ++ [0, 0], data := data })]
      else [(at1, { kind := 7, inl := leBytes 4 (list.length + data.length) ++ leBytes 4 es.length ++ leBytes 8 block ++ leBytes 8 at2
                    data := list ++ data })]
    n := (es.map (fun e => e.2.length)).sum }

/-- The next burst onto a link by the kind of the transfer: compressed forms whole block by whole block, anything else as a run. -/
def State.trainPlan (s : State) (l ch : Nat) : TrainPlan :=
  let o := s.channelOp (.link l) ch
  let c := s.channel (.link l) ch
  let kind := rd (s.transferOf c) 3 1
  let copy := decide (mdKind (s.mdesc c) = 0)
  if kind = 6 ∧ copy ∧ o.data.bits = 32 then s.signTrain l ch
  else if kind = 7 ∧ !copy ∧ o.kind = 0 ∧ c.pos = 0 then s.topkTrain l ch
  else s.runTrain l ch

/-- A scatter's next burst waits while one of its entries names the block of one of the last eight entries whose writes have no
acknowledgement yet (R156). -/
def Channel.entryWaits (c : Channel) (blocks : List (Nat × Nat)) : Bool :=
  let out := ((c.sent.filter (fun z => z.live)).flatMap (fun z => z.blocks)).eraseDups.reverse.take 8
  blocks.any (fun b => out.any (fun z => decide (z.2 = b.2) && decide (z.1 ≠ b.1)))

/-- The next train may go now: in a window of the Turn's slot set (R87, R349), and not before earlier entries' writes. -/
def State.trainGoes (s : State) (l ch : Nat) (t : TrainPlan) : Bool :=
  let c := s.channel (.link l) ch
  (s.link l).mayTransfer c.partition ((s.part c.partition).turnWindows l) s.now t.bytes && !c.entryWaits t.blocks

/-- The local bytes that moves read. -/
def movesRead (bits : Nat) (ms : List Move) : List Nat :=
  ms.flatMap (fun y => match y.src with
    | some a => elemVas a bits
    | none => [])

/-- What stops the reads of moves whose destination is not local. -/
def State.sourceFault (s : State) (p : Nat) (o : BlockOp) (ms : List Move) : Option RunFault :=
  ms.findSome? (fun y => y.src.bind (fun a => s.elemFault none true p (if o.kind = 0 then o.dataPool else o.densePool) false a o.srcBits))

/-- A burst whose destination is the remote side. -/
def State.trainBurst (s : State) (l ch : Nat) : State :=
  let m := MoverId.link l
  let c := s.channel m ch
  let o := s.channelOp m ch
  let t := s.trainPlan l ch
  if !s.trainGoes l ch t then s
  else match s.sourceFault c.partition o t.moves with
    | some f => s.moverFault m ch f 0x03
    | none =>
      (t.trains.foldl (fun u x => u.linkRequest l ch x.1 t.blocks x.2) (s.touchVas c.partition (movesRead o.srcBits t.moves))).endBurst
        m ch t.n t.rest none

/-- The moves that one READ serves: a run of destination places whose source bits adjoin in the same order, up to a limit of bytes. -/
def readRun (dstBits srcBits limit : Nat) (ms : List Move) : List Move :=
  match ms with
  | [] => []
  | a :: rest =>
    let n := burstLength false dstBits ((a :: rest).map (fun y => bitAddr y.dst))
    let s0 := bitAddr (a.src.getD (0, 0))
    (((List.range n).zip (a :: rest)).takeWhile (fun z =>
      decide (z.2.src.isSome = true) && decide (bitAddr (z.2.src.getD (0, 0)) = s0 + z.1 * srcBits) &&
        decide (cdiv (s0 + (z.1 + 1) * srcBits) 8 - s0 / 8 ≤ limit))).map (·.2)

/-- The longest READ of a version (Table LNK-3). -/
def readLimit (version : Nat) : Nat := if version < 2 then 4096 else 8192

/-- The moves of the READ that goes next, or has gone. -/
def State.readMoves (s : State) (l ch : Nat) : List Move :=
  let o := s.channelOp (.link l) ch
  readRun o.dstBits o.srcBits (readLimit (s.link l).version) (s.unread (.link l) ch)

/-- The bytes that a READ of moves asks for, from which address. -/
def readSpan (srcBits : Nat) (ms : List Move) : Nat × Nat :=
  let lo := bitAddr ((ms.headD { src := none, dst := (0, 0), index := 0 }).src.getD (0, 0))
  (lo / 8, cdiv (lo + ms.length * srcBits) 8 - lo / 8)

/-- A burst whose source is the remote side: READs bring its codes in (R342), then it is written. -/
def State.readBurst (s : State) (l ch : Nat) : State :=
  let m := MoverId.link l
  if (s.channel m ch).sent.any (fun z => z.live) then s
  else
    let u := s.zeroCodes m ch
    if (u.unread m ch).isEmpty then u.writeFar m ch
    else
      let z := readSpan (u.channelOp m ch).srcBits (u.readMoves l ch)
      u.linkRequest l ch z.1 [] { kind := 2, inl := leBytes 4 z.2 }

/-- The data of a READ are there (R344): their codes wait for their burst. -/
def State.readArrived (s : State) (l ch : Nat) (data : List Byte) : State :=
  let m := MoverId.link l
  let o := s.channelOp m ch
  let ms := s.readMoves l ch
  let bit0 := (((ms.headD { src := none, dst := (0, 0), index := 0 }).src).getD (0, 0)).2
  let v := leNat data
  s.storeCodes m ch ((List.range ms.length).map (fun i => fld v (bit0 + i * o.srcBits) o.srcBits))

/-! ### Host records (R367 to R369) -/

/-- Bytes of a record. -/
def hostRecordSize (r : List Byte) : Nat := if (rd r 1 1).testBit 1 then 65536 else 4096

/-- Bring record i of a channel in and open it: the trailers of its group, its bytes, then the checks of R369. -/
def State.recordStep (s : State) (ch i size : Nat) (key : Option (BitVec 288)) (aad : List Byte → List Byte) (expect : Nat) :
    State × Option (Except Nat (List Byte)) :=
  let x := s.part (hostPart ch)
  let c := s.channel .host ch
  if s.aslet.waits ch then (s, none)
  else if c.trailerGroup ≠ i / 64 + 1 ∨ c.trailers.length < 4096 then
    ((s.updChannel .host ch (fun y => { y with trailers := [], trailerGroup := i / 64 + 1, raw := [] })).hostRead ch .trailers
      (x.trailerAddr size (i / 64 * 64)) 4096, none)
  else if c.raw.length < size then
    ((s.updChannel .host ch (fun y => { y with raw := [] })).hostRead ch .record (x.bounceBase + i * size) size, none)
  else match key with
    | none => (s, none)
    | some k =>
      let trailer := slice c.trailers (64 * (i % 64)) 64
      (s.updChannel .host ch (fun y => { y with raw := [] }), some (openRecord k (aad trailer) expect trailer c.raw))

/-- The bounce key of a partition in one direction (R385). -/
def Partition.bounceKey (x : Partition) (toHost : Bool) : Option (BitVec 288) :=
  x.bounceKeys.map (fun k => Config.hkdfExpand k (("bounce " ++ (if toHost then "d2h" else "h2d")).toUTF8.toList.map (fun b =>
    BitVec.ofNat 8 b.toNat)))

/-- A record that fails: event 0x70, the abort, the freeze (R369). -/
def State.recordFault (s : State) (ch code off : Nat) : State :=
  s.moverFault .host ch { cls := 0x70, detail := if code = 2 then 0x21 else 0x20, va := off, pool := 0 } 0x03

/-- Whether a host-side place of a burst lies beyond the bounce area, and where. -/
def Partition.areaFault (x : Partition) (places : List Nat) (bits : Nat) : Option Nat :=
  (places.find? (fun b => decide (x.bounceLen ≤ (b + bits - 1) / 8))).map (fun b => b / 8)

/-- The codes of the unread moves, in order, whose source lies in the record at hand. -/
def State.recordCodes (s : State) (ch i size : Nat) : List Nat :=
  let c := s.channel .host ch
  let bits := (s.channelOp .host ch).srcBits
  ((s.unread .host ch).takeWhile (fun y => match y.src with
    | some b => decide (b.1 / size = i)
    | none => true)).map (fun y => match y.src with
    | some b => fld (leNat (slice c.staged (b.1 - i * size) ((b.2 + bits + 7) / 8))) b.2 bits
    | none => 0)

/-- A burst from host memory: the records that hold its source are brought in one after the other and give their codes; with all of
them there it is written. -/
def State.hostInBurst (s : State) (ch : Nat) : State :=
  let m := MoverId.host
  let u := s.zeroCodes m ch
  let c := u.channel m ch
  let p := c.partition
  let x := u.part p
  let o := u.channelOp m ch
  let size := hostRecordSize (u.transferOf c)
  match (u.unread m ch).head? with
  | none => u.writeFar m ch
  | some a =>
    let off := (a.src.getD (0, 0)).1
    let i := off / size
    if !x.inArea off then u.moverFault m ch { cls := 0x31, detail := 0x09, va := off, pool := o.dataPool } 0x03
    else if c.stagedFrom = i + 1 then
      u.storeCodes m ch (u.recordCodes ch i size)
    else
      let st := u.recordStep ch i size (x.bounceKey false) (fun t => recordAad t p (i * size)) x.bounceIn
      match st.2 with
      | none => st.1
      | some (.error e) => st.1.recordFault ch e (i * size)
      | some (.ok plain) =>
        (st.1.updPart p (fun y => { y with bounceIn := y.bounceIn + 1 })).updChannel m ch (fun y =>
          { y with staged := plain, stagedFrom := i + 1 })

/-- Seal the staged record and write it; its trailer follows the acknowledgements (R369). -/
def State.flushRecord (s : State) (ch size : Nat) : State :=
  let c := s.channel .host ch
  let p := c.partition
  let x := s.part p
  match x.bounceKey true with
  | none => s
  | some key =>
    if c.stagedFrom = 0 then s
    else
      let i := c.stagedFrom - 1
      let z := sealRecord key p (i * size) x.bounceOut c.staged
      let s1 := (s.updPart p (fun y => { y with bounceOut := y.bounceOut + 1 })).updChannel .host ch (fun y =>
        { y with staged := [], stagedFrom := 0, unsent := 0, trailerOut := some (x.trailerAddr size i, z.1) })
      s1.hostWrite ch .recordWrite (x.bounceBase + i * size) z.2

/-- Put a run of bits into staged bytes. -/
def stagePut (l : List Byte) (at_ bits v : Nat) : List Byte :=
  let n := max l.length (cdiv (at_ + bits) 8)
  leBytes n (setFld (leNat (padTo n l)) at_ bits v)

/-- A burst to host memory does not go yet, or has its record written first, or faults: nothing is read for it. -/
def State.hostOutHeld (s : State) (ch : Nat) : Bool :=
  let c := s.channel .host ch
  let x := s.part c.partition
  let ms := s.nextMoves .host ch
  match ms.head? with
  | none => true
  | some a =>
    s.aslet.waits ch || c.trailerOut.isSome || x.bounceKeys.isNone || !x.inArea a.dst.1 ||
      (decide (c.stagedFrom ≠ 0) && decide (c.stagedFrom ≠ a.dst.1 / hostRecordSize (s.transferOf c) + 1)) ||
      (s.sourceFault c.partition (s.channelOp .host ch) ms).isSome

/-- A burst to host memory, within one record, whose size a 4 KiB burst divides; a record that is complete is sealed and sent. -/
def State.hostOutBurst (s : State) (ch : Nat) : State :=
  let m := MoverId.host
  let c := s.channel m ch
  let p := c.partition
  let x := s.part p
  let o := s.channelOp m ch
  let size := hostRecordSize (s.transferOf c)
  let rest := (s.restMoves m ch).map (·.2)
  let bits := o.dstBits
  match rest.head? with
  | none => s
  | some a =>
    let off := a.dst.1
    let i := off / size
    if s.aslet.waits ch || c.trailerOut.isSome || x.bounceKeys.isNone then s
    else if !x.inArea off then s.moverFault m ch { cls := 0x31, detail := 0x09, va := off, pool := mdDst (s.mdesc c) } 0x03
    else if c.stagedFrom ≠ 0 ∧ c.stagedFrom ≠ i + 1 then s.flushRecord ch size
    else
      let ms := s.nextMoves m ch
      match s.sourceFault p o ms with
      | some f => s.moverFault m ch f 0x03
      | none =>
        let codes := s.burstCodes m ch ms
        let staged := (ms.zip codes).foldl (fun l z => stagePut l (bitAddr z.1.dst - i * size * 8) bits z.2) c.staged
        let s0 := ((s.touchVas p (movesRead o.srcBits ms)).updChannel m ch (fun y =>
          { y with staged := staged, stagedFrom := i + 1 })).endBurst m ch ms.length (codes.drop ms.length) none
        let s1 := s0.updChannel m ch (fun y => { y with unsent := y.unsent + (y.done - c.done) })
        if decide ((s1.channel m ch).phase = .written) || decide (size ≤ staged.length) then s1.flushRecord ch size else s1

/-! ### Placement and delivery (channel 2p + 1) -/

/-- The key under which records of a placement arrive: the Tenant's bounce key, or the Operator session's (R368). -/
def State.placeKey (s : State) (p : Nat) : Option (BitVec 288) :=
  if (s.part p).placeBy = 0 then
    (s.session 0).map (fun x => Config.hkdfExpand x.prk ("bounce h2d".toUTF8.toList.map (fun b => BitVec.ofNat 8 b.toNat)))
  else (s.part p).bounceKey false

/-- The Sequence that a placement's next record carries. -/
def State.placeSeq (s : State) (p : Nat) : Nat :=
  if (s.part p).placeBy = 0 then ((s.session 0).map (fun x => x.bounceIn)).getD 0 else (s.part p).bounceIn

/-- One record of a Book placement (R373). -/
def State.placeBurst (s : State) (p : Nat) : State :=
  let ch := 2 * p + 1
  let x := s.part p
  let off := x.srcOffset + x.image.length
  let i := off / 4096
  if x.bytes ≤ x.image.length then s
  else if !x.inArea off then s.moverFault .host ch { cls := 0x31, detail := 0x09, va := off, pool := 0 } 0x03
  else
    let st := s.recordStep ch i 4096 (s.placeKey p) (fun t => recordAad t p (i * 4096)) (s.placeSeq p)
    match st.2 with
    | none => st.1
    | some (.error e) => st.1.recordFault ch e (i * 4096)
    | some (.ok plain) =>
      let s1 := if x.placeBy = 0 then st.1.updSession 0 (fun y => { y with bounceIn := y.bounceIn + 1 })
        else st.1.updPart p (fun y => { y with bounceIn := y.bounceIn + 1 })
      let new := (plain.drop (off - i * 4096)).take (x.bytes - x.image.length)
      let from_ := partArea p + x.image.length
      (s1.updPart p (fun y => { y with image := y.image ++ new })).freshDevice (fun off =>
        decide (from_ / 64 * 64 ≤ off) && decide (off < from_ + new.length))

/-- One record of a weight delivery (R390, R392): opened under the weight key, written at TargetAddress. -/
def State.deliverBurst (s : State) (p : Nat) : State :=
  let ch := 2 * p + 1
  let x := s.part p
  let done := 4096 * x.weightSeq
  let off := rd x.weightTarget 0 8 + done
  let i := off / 4096
  if x.weightImageBytes ≤ done then s
  else if !x.inArea off then s.moverFault .host ch { cls := 0x31, detail := 0x09, va := off, pool := 0 } 0x03
  else
    let key := x.weightKey.map (fun k => BitVec.ofNat 288 (k.toNat + x.weightSalt * 2 ^ 256))
    let st := s.recordStep ch i 4096 key (fun t => slice t 0x10 16 ++ leBytes 8 x.weightImageId) x.weightSeq
    match st.2 with
    | none => st.1
    | some (.error _) =>
      ((st.1.raise 0x70 0x51 (some p) [(.index, i)] []).updPart p (fun y =>
        { y with weightKey := none, deliverStatus := 2, delivering := false })).updChannel .host ch (fun c => { c with phase := .idle })
    | some (.ok plain) =>
      let va := rd x.weightTarget 8 8 + done
      let l := plain.take (x.weightImageBytes - done)
      let ws := ((List.range l.length).zip l).map (fun z => ({ va := va + z.1, byte := z.2, keep := 0 } : ByteWrite))
      let fenced := decide (x.runState ≠ .stopped)
      let y := st.1.splitWrites p ws fenced
      let s1 := (st.1.makeWrites p y.1 [] fenced).chargeAll p none (st.1.chunkTraffic p (y.1.map (fun w => w.va)) true)
      match y.2 with
      | some f => s1.moverFault .host ch { cls := 0x31, detail := f.1, va := f.2, pool := 0 } 0x03
      | none => s1.updPart p (fun z => { z with weightSeq := z.weightSeq + 1 })

/-! ### The command -/

/-- The work of a burst, by the placement and the far side. -/
def State.runBurst (s : State) (m : MoverId) (ch : Nat) : State :=
  match m, s.farSide m ch with
  | .host, 2 => s.hostInBurst ch
  | .host, _ => s.hostOutBurst ch
  | .link l, 2 => s.readBurst l ch
  | .link l, _ => s.trainBurst l ch
  | _, _ => s.localBurst m ch

/-- What a burst costs at the regulators (R162; log 108): the sectors that it reads and writes in stack memory, the bytes that it passes
on to a link; nothing where it does not go yet. -/
def State.burstCharges (s : State) (m : MoverId) (ch : Nat) : List (Nat × Traffic) :=
  let p := (s.channel m ch).partition
  let o := s.channelOp m ch
  let far := ((s.nextMoves m ch).map (fun y => { y with src := none })).takeWhile (fun y => (s.moveFault p o y).isNone)
  match m, s.farSide m ch with
  | .square _, _ => s.moveTraffic p o ((s.nextMoves m ch).takeWhile (fun y => (s.moveFault p o y).isNone))
  | .host, 2 => if (s.unread m ch).isEmpty then s.moveTraffic p o far else []
  | .host, _ => if s.hostOutHeld ch then [] else s.chunkTraffic p (movesRead o.srcBits (s.nextMoves m ch)) false
  | .link l, 2 =>
    if (s.channel m ch).sent.any (fun z => z.live) then []
    else
      let u := s.zeroCodes m ch
      if (u.unread m ch).isEmpty then s.moveTraffic p o far
      else [passTraffic p l (readSpan o.srcBits (u.readMoves l ch)).2]
  | .link l, _ =>
    let t := s.trainPlan l ch
    if s.trainGoes l ch t && (s.sourceFault p o t.moves).isNone then
      s.chunkTraffic p (movesRead o.srcBits t.moves) false ++ t.trains.map (fun x => passTraffic p l x.2.data.length)
    else []

/-- A burst whose tokens are taken runs; one that waits for a token runs once it has them (R162). -/
def State.paidBurst (s : State) (m : MoverId) (ch : Nat) : State :=
  let t := if (s.channel m ch).paid then s
    else s.chargeAll (s.channel m ch).partition (some (m, ch)) (s.burstCharges m ch)
  if t.tokenWaits m ch then t.updChannel m ch (fun c => { c with paid := true }) else t.runBurst m ch

/-- The next burst of an active channel. Entries that the walk passes over come first. -/
def State.burst (s : State) (m : MoverId) (ch : Nat) : State :=
  let y := s.advanceWalk m ch 0 (s.channel m ch).codes
  match y.2 with
  | some f => y.1.moverFault m ch f 0x03
  | none =>
    if (y.1.channel m ch).phase ≠ .active then y.1
    else if (y.1.restMoves m ch).isEmpty then y.1.stopFault m ch
    else y.1.paidBurst m ch

/-- The host-interface Mover's channel 2p + 1 places a Book or delivers weights. -/
def State.serviceBurst (s : State) (p : Nat) : State :=
  if (s.part p).placing then s.placeBurst p else if (s.part p).delivering then s.deliverBurst p else s

/-- The next burst of a channel, unless it is not active or waits for a token. -/
def State.moverBurst (s : State) (m : MoverId) (ch : Nat) : State :=
  if decide ((s.channel m ch).phase ≠ .active) || s.tokenWaits m ch then s
  else if decide (m = .host) && decide (ch % 2 = 1) then s.serviceBurst (hostPart ch)
  else s.burst m ch

/-- MOVER_BURST (R149). -/
def execMoverBurst (m : MoverId) (ch : Nat) (s : State) : Out := onUnit (moverHas m ch) (s.moverBurst m ch)

end Sys2Proof.Machine
end

