-- ==== Sys2Proof/Machine/Dict.lean ====
section
/-!
DEFINITION. The listing of the object dictionary (R425 to R443, Tables OBD-1 to OBD-11): for each object its type as a
length, the access of the three roles, and the scope of a staged object.
-/

namespace Sys2Proof.Machine

open Sys2Proof

/-- Access codes (R408): — no access. -/
inductive Acc where
  | no | ro | rw | wo | st | co
  deriving DecidableEq, Repr

/-- The length of an object's value: exact, or a maximum (STR and most DOMAINs). -/
inductive Len where
  | exact (n : Nat)
  | upTo (n : Nat)
  deriving DecidableEq, Repr

/-- Scope of a staged object (R418). -/
inductive Scope where
  | unstaged | module | partition
  deriving DecidableEq, Repr

/-- An object of the dictionary. `pre` marks the pre-session objects (R407). -/
structure Obj where
  len : Len
  op : Acc
  te : Acc
  sv : Acc
  scope : Scope := .unstaged
  pre : Bool := false
  deriving DecidableEq, Repr

def objU8 (op te sv : Acc) : Obj := { len := .exact 1, op := op, te := te, sv := sv }
def objU16 (op te sv : Acc) : Obj := { len := .exact 2, op := op, te := te, sv := sv }
def objU32 (op te sv : Acc) : Obj := { len := .exact 4, op := op, te := te, sv := sv }
def objU64 (op te sv : Acc) : Obj := { len := .exact 8, op := op, te := te, sv := sv }
def objEq (n : Nat) (op te sv : Acc) : Obj := { len := .exact n, op := op, te := te, sv := sv }
def objMax (n : Nat) (op te sv : Acc) : Obj := { len := .upTo n, op := op, te := te, sv := sv }
def Obj.mod (o : Obj) : Obj := { o with scope := .module }
def Obj.ofPart (o : Obj) : Obj := { o with scope := .partition }
def Obj.early (o : Obj) : Obj := { o with pre := true }
/-- Sub 00 of an index: the highest sub-index (R427). -/
def objTop : Obj := objU8 .co .co .co
def objTopOpSv : Obj := objU8 .co .no .co

/-- Table OBD-1. -/
def obj1 (idx sub : Nat) : Option Obj :=
  match idx, sub with
  | 0x1000, 0 => some objTop.early
  | 0x1000, 1 => some (objMax 32 .co .co .co).early
  | 0x1000, 2 => some (objMax 32 .co .co .co).early
  | 0x1000, 3 => some (objMax 16 .co .co .co).early
  | 0x1000, 4 => some (objU8 .co .co .co).early
  | 0x1001, 0 => some objTop
  | 0x1001, 1 => some (objU32 .rw .ro .rw)
  | 0x1001, 2 => some (objEq 48 .rw .ro .rw)
  | 0x1001, 3 => some (objU64 .ro .ro .ro)
  | 0x1001, 4 => some (objMax 4096 .ro .no .ro)
  | 0x1003, 0 => some objTopOpSv
  | 0x1003, 1 => some (objMax 65536 .ro .no .ro)
  | 0x1003, 2 => some (objU64 .ro .no .ro)
  | 0x1018, 0 => some objTop.early
  | 0x1018, 1 => some (objU64 .co .co .co).early
  | 0x1018, 2 => some (objU8 .ro .ro .ro).early
  | 0x1020, _ => if sub ≤ 6 then some objTop.early else none
  | 0x1040, 0 => some (objEq 960 .co .co .co)
  | 0x1F52, 0 => some objTopOpSv
  | 0x1F52, 1 => some (objMax 16777216 .wo .no .no)
  | 0x1F52, 2 => some (objU8 .ro .no .ro)
  | 0x1F53, 0 => some (objU8 .wo .no .no)
  | 0x1F54, 0 => some (objU8 .ro .no .ro)
  | 0x1F55, 0 => some (objU8 .ro .ro .ro)
  | _, _ =>
    if idx = 0x1F50 ∨ idx = 0x1F51 then
      match sub with
      | 0 => some objTop
      | 1 => some (objU8 .ro .no .ro)
      | 2 => some (objEq 48 .ro .ro .ro)
      | 3 => some (objMax 32 .ro .ro .ro)
      | _ => none
    else none

/-- Table OBD-2. -/
def obj2 (idx sub : Nat) : Option Obj :=
  if idx = 0x2010 then
    if sub = 0 then some objTop
    else if sub ≤ 0x10 then some (objEq 64 .st .ro .ro).ofPart
    else if sub ≤ 0x20 then some (objMax 16777216 .st .no .no).ofPart
    else if sub ≤ 0x30 then some (objU32 .ro .no .ro)
    else none
  else if idx = 0x2F00 then
    match sub with
    | 0 => some objTop
    | 1 => some (objU8 .wo .wo .no)
    | 2 => some (objEq 16 .ro .ro .no)
    | 3 => some (objU8 .wo .wo .no)
    | 4 => some (objU32 .ro .ro .ro)
    | 5 => some (objMax 4096 .ro .ro .no)
    | _ => none
  else none

/-- Table OBD-5. -/
def obj3 (idx sub : Nat) : Option Obj :=
  match idx, sub with
  | 0x3000, 0 => some (objU8 .ro .ro .ro)
  | 0x3000, 1 => some (objU8 .wo .no .no)
  | 0x3000, 2 => some (objU8 .ro .ro .ro)
  | 0x3000, 3 => some (objU8 .st .no .ro).mod
  | 0x3000, 4 => some (objU8 .ro .ro .ro)
  | 0x3010, 0 => some objTop
  | 0x3010, 1 => some (objU32 .ro .no .ro)
  | 0x3010, 2 => some (objU32 .ro .no .ro)
  | 0x3010, 3 => some (objU32 .ro .ro .ro)
  | 0x3010, 4 => some (objU32 .rw .no .rw)
  | 0x3010, 5 => some (objEq 32 .ro .no .ro)
  | 0x3020, 0 => some objTopOpSv
  | 0x3020, 1 => some (objMax 256 .ro .no .ro)
  | 0x3020, 2 => some (objU8 .co .no .co)
  | 0x3020, 3 => some (objU8 .ro .no .ro)
  | 0x3020, 4 => some (objMax 256 .ro .no .ro)
  | 0x3020, 5 => some (objU8 .st .no .ro).mod
  | 0x3020, 6 => some (objU8 .st .no .ro).mod
  | 0x3100, 0 => some objTopOpSv
  | 0x3100, 1 => some (objU32 .ro .no .ro)
  | 0x3100, 2 => some (objU32 .wo .no .no)
  | 0x3200, 0 => some objTop
  | 0x3200, 1 => some (objEq 36 .ro .ro .ro)
  | 0x3200, 2 => some (objEq 16 .ro .ro .ro)
  | 0x3200, 3 => some (objU64 .rw .no .rw)
  | 0x3210, 0 => some objTopOpSv
  | 0x3210, 1 => some (objU32 .ro .no .ro)
  | 0x3210, 2 => some (objU32 .ro .no .ro)
  | 0x3210, 3 => some (objU32 .ro .no .ro)
  | 0x3210, 4 => some (objU32 .rw .no .rw)
  | _, _ => none

/-- Table OBD-6. -/
def obj4 (idx sub : Nat) : Option Obj :=
  if idx = 0x4000 then
    if sub = 0 then some objTop
    else if sub ≤ 3 then some (objU8 .ro .ro .ro)
    else if 0x10 ≤ sub ∧ sub ≤ 0x1F then some (objEq 16 .st .st .no).ofPart
    else none
  else if idx = 0x4200 then
    match sub with
    | 0 => some objTop
    | 1 => some (objU8 .st .no .ro).mod
    | 2 => some (objU64 .ro .ro .ro)
    | 3 => some (objU8 .ro .ro .ro)
    | _ => none
  else if 0x4100 ≤ idx ∧ idx < 0x4160 then
    match sub with
    | 0 => some objTop
    | 1 => some (objU8 .ro .no .ro)
    | 2 => some (objU8 .ro .no .ro)
    | 3 => some (objEq 8 .ro .no .ro)
    | 4 => some (objU32 .ro .no .ro)
    | 5 => some (objU32 .st .no .ro).mod
    | 6 => some (objU64 .st .ro .ro).mod
    | 7 => some (objU8 .no .no .wo)
    | 8 => some (objEq 16 .ro .no .ro)
    | 9 => some (objEq 48 .rw .no .rw)
    | _ => none
  else none

/-- Table OBD-7. -/
def obj5 (idx sub : Nat) : Option Obj :=
  match idx, sub with
  | 0x5000, 0 => some objTopOpSv
  | 0x5000, 1 => some (objU64 .co .no .co)
  | 0x5000, 2 => some (objEq 32 .ro .no .ro)
  | 0x5000, 3 => some (objEq 24 .ro .no .ro)
  | 0x5200, 0 => some objTopOpSv
  | 0x5200, 1 => some (objU32 .co .no .co)
  | 0x5200, 2 => some (objU32 .co .no .co)
  | 0x5200, 3 => some (objU32 .ro .no .ro)
  | 0x5200, 4 => some (objEq 128 .rw .no .rw)
  | 0x5300, 0 => some objTopOpSv
  | 0x5300, 1 => some (objU8 .st .no .ro).mod
  | 0x5300, 2 => some (objU32 .st .no .ro).mod
  | 0x5300, 3 => some (objU16 .no .no .wo)
  | 0x5300, 4 => some (objEq 64 .ro .no .ro)
  | _, _ =>
    if 0x5100 ≤ idx ∧ idx < 0x5120 then
      match sub with
      | 0 => some objTopOpSv
      | 1 => some (objU32 .ro .no .ro)
      | 2 => some (objEq 64 .ro .no .ro)
      | 3 => some (objU8 .ro .no .ro)
      | 4 => some (objEq 1584 .rw .no .rw)
      | _ => none
    else none

/-- Table OBD-8: the objects of one partition, by the low byte of the index. -/
def obj6 (low sub : Nat) : Option Obj :=
  match low, sub with
  | 0x00, 0 => some (objU8 .ro .ro .ro)
  | 0x01, 0 => some (objU8 .wo .wo .no)
  | 0x02, 0 => some objTop
  | 0x02, 1 => some (objU64 .rw .rw .no)
  | 0x02, 2 => some (objU64 .rw .rw .no)
  | 0x02, 3 => some (objU8 .wo .wo .no)
  | 0x02, 4 => some (objU8 .ro .ro .ro)
  | 0x02, 5 => some (objU64 .ro .ro .ro)
  | 0x10, 0 => some objTop
  | 0x10, 1 => some (objU32 .ro .ro .ro)
  | 0x10, 2 => some (objU8 .ro .ro .ro)
  | 0x10, 3 => some (objU16 .ro .ro .ro)
  | 0x10, 4 => some (objU64 .ro .ro .ro)
  | 0x10, 5 => some (objU32 .st .st .no).ofPart
  | 0x10, 6 => some (objU16 .ro .ro .ro)
  | 0x10, 7 => some (objU8 .ro .ro .ro)
  | 0x10, 8 => some (objU64 .ro .ro .ro)
  | 0x10, 9 => some (objU16 .ro .ro .ro)
  | 0x20, 0 => some objTop
  | 0x20, 1 => some (objU64 .rw .rw .ro)
  | 0x20, 2 => some (objU64 .rw .rw .ro)
  | 0x20, 3 => some (objEq 32 .ro .ro .ro)
  | 0x20, 4 => some (objU16 .ro .ro .ro)
  | 0x20, 5 => some (objU8 .rw .rw .ro)
  | 0x20, 6 => some (objU8 .rw .rw .ro)
  | 0x20, 7 => some (objU64 .ro .ro .ro)
  | 0x20, 8 => some (objU64 .ro .ro .ro)
  | 0x30, 0 => some objTop
  | 0x30, _ => if sub ≤ 5 then some (objU64 .rw .rw .ro) else none
  | _, _ => none

/-- Table OBD-9. -/
def obj7 (idx sub : Nat) : Option Obj :=
  match idx, sub with
  | 0x7000, 0 => some objTop.early
  | 0x7000, 4 => some (objMax 4096 .ro .ro .ro).early
  | 0x7000, 6 => some (objMax 48 .st .ro .ro).mod.early
  | 0x7000, 7 => some (objEq 48 .co .co .co).early
  | 0x7000, 8 => some (objMax 64 .co .co .co).early
  | 0x7000, _ => if sub ≤ 5 then some (objMax 4096 .co .co .co).early else none
  | 0x7010, 0 => some objTop
  | 0x7010, 1 => some (objEq 64 .wo .wo .wo)
  | 0x7010, 2 => some (objEq 512 .ro .ro .ro)
  | 0x7010, 3 => some (objU16 .ro .ro .ro)
  | 0x7020, 0 => some objTop
  | 0x7020, 1 => some (objEq 160 .wo .wo .wo).early
  | 0x7020, 2 => some (objEq 256 .ro .ro .ro).early
  | 0x7020, 3 => some (objMax 16384 .wo .wo .wo).early
  | 0x7020, 4 => some (objU32 .ro .no .ro)
  | _, _ =>
    if 0x7030 ≤ idx ∧ idx < 0x7040 then
      match sub with
      | 0x00 => some objTop
      | 0x01 => some (objU32 .ro .ro .ro)
      | 0x02 => some (objU8 .wo .wo .no)
      | 0x03 => some (objU32 .ro .ro .ro)
      | 0x04 => some (objU8 .ro .ro .ro)
      | 0x05 => some (objU32 .ro .ro .ro)
      | 0x06 => some (objMax 48 .st .ro .no).ofPart
      | 0x07 => some (objU8 .ro .ro .ro)
      | 0x08 => some (objU32 .st .st .no).ofPart
      | 0x10 => some (objEq 128 .no .wo .no)
      | 0x11 => some (objEq 24 .no .wo .no)
      | 0x12 => some (objU8 .no .wo .no)
      | 0x13 => some (objU8 .ro .ro .no)
      | _ => none
    else none

/-- Table OBD-10. -/
def obj8 (idx sub : Nat) : Option Obj :=
  if idx = 0x8000 then
    if sub = 0 then some objTopOpSv else if sub ≤ 8 then some (objU64 .rw .no .rw) else none
  else if idx = 0x8100 then
    if sub = 0 then some objTop
    else if 0x10 ≤ sub ∧ sub ≤ 0x1F then some (objMax 36896 .ro .ro .ro)
    else if 0x20 ≤ sub ∧ sub ≤ 0x2F then some (objU32 .st .st .no).ofPart
    else none
  else if idx = 0x8200 then
    match sub with
    | 0 => some objTopOpSv
    | 1 => some (objMax 4096 .ro .no .ro)
    | 2 => some (objU8 .no .no .wo)
    | 3 => some (objU8 .ro .no .ro)
    | _ => none
  else none

/-- Table OBD-11: the subs of a Square's object. -/
def obj9 (sub : Nat) : Option Obj :=
  match sub with
  | 0x00 => some objTop
  | 0x01 => some (objU64 .ro .ro .ro)
  | 0x02 => some (objU32 .ro .ro .ro)
  | 0x03 => some (objEq 64 .ro .ro .ro)
  | 0x04 => some (objU8 .ro .ro .ro)
  | 0x05 => some (objU8 .ro .ro .ro)
  | 0x06 => some (objEq 512 .ro .ro .ro)
  | 0x07 => some (objU64 .rw .rw .ro)
  | 0x08 => some (objU64 .rw .rw .ro)
  | 0x09 => some (objEq 24 .rw .rw .ro)
  | 0x0A => some (objEq 32 .rw .rw .ro)
  | 0x0B => some (objU64 .rw .rw .ro)
  | 0x0C => some (objEq 8 .ro .no .ro)
  | 0x0D => some (objEq 8 .ro .no .ro)
  | 0x0E => some (objU8 .ro .ro .ro)
  | 0x0F => some (objU8 .no .no .wo)
  | 0x10 => some (objU8 .no .no .wo)
  | _ => none

/-- The objects of the module (R425): any other index or sub-index is not defined. -/
def objOf (idx sub : Nat) : Option Obj :=
  match idx / 0x1000 with
  | 1 => obj1 idx sub
  | 2 => obj2 idx sub
  | 3 => obj3 idx sub
  | 4 => obj4 idx sub
  | 5 => obj5 idx sub
  | 6 => obj6 (idx % 0x100) sub
  | 7 => obj7 idx sub
  | 8 => obj8 idx sub
  | 9 => if idx < 0x9094 then obj9 sub else none
  | _ => none

/-- The partition an object belongs to; none for a module's object. -/
def objPart (idx sub : Nat) : Option Nat :=
  if idx = 0x2010 then (if sub = 0 then none else some ((sub - 1) % 16))
  else if idx = 0x4000 then (if 0x10 ≤ sub then some (sub - 0x10) else none)
  else if idx / 0x1000 = 6 then some (idx / 0x100 % 16)
  else if 0x7030 ≤ idx ∧ idx < 0x7040 then some (idx - 0x7030)
  else if idx = 0x8100 then (if 0x10 ≤ sub then some (sub % 16) else none)
  else none

/-- Access of a session's role to an object (R407, R426): session 0 Operator, 1 Service, 2 + p Tenant of P p. -/
def Obj.access (o : Obj) (sess : Nat) : Acc := if sess = 0 then o.op else if sess = 1 then o.sv else o.te

/-- A Tenant reaches its own partition's objects and those open to every Tenant (R408, R426): Square objects belong to the
partition that owns the Square; those of unowned and reserve Squares are no Tenant's. -/
def State.reaches (s : State) (sess idx sub : Nat) : Bool :=
  if sess < 2 then true
  else if 0x9000 ≤ idx then decide (idx < 0x9090) && decide (s.owner (idx - 0x9000) = some (sess - 2))
  else match objPart idx sub with
    | some p => decide (p = sess - 2)
    | none => true

end Sys2Proof.Machine
end

