-- ==== Sys2Proof/Machine/Frames.lean ====
section
/-!
DEFINITION. Receiving a Ulyan request: its frame (R404, R405), stored responses (R406), what an unsealed frame may reach
(R407), the order of judgement up to its form (R409, orders 1 to 4), and the response.
-/

namespace Sys2Proof.Machine

open Sys2Proof

/-- Abort codes (Table ULY-3). -/
def abNoSession : Nat := 0x05060001
def abNoObject : Nat := 0x05030001
def abAccess : Nat := 0x05030002
def abForm : Nat := 0x05030003
def abRange : Nat := 0x05040001
def abBusy : Nat := 0x05050002
def abState : Nat := 0x05050001
def abConflict : Nat := 0x05040002

/-- The request writes this object. -/
def reqNames (r : Req) (idx sub : Nat) : Bool := decide (r.index = idx) && decide (r.sub = sub)

/-- The value that a request writes. -/
def reqValue (r : Req) : Nat := leNat r.payload

/-- The partition of a request to 6pxx. -/
def reqPart (r : Req) : Nat := r.index / 0x100 % 16

/-- The request writes sub `sub` of 6p`low`. -/
def reqNames6 (r : Req) (low sub : Nat) : Bool :=
  decide (r.index / 0x1000 = 6) && decide (r.index % 0x100 = low) && decide (r.sub = sub)

/-- The request writes one byte of a value. -/
def reqByteIs (r : Req) (v : Nat) : Bool := decide (r.payload = [BitVec.ofNat 8 v])

/-- Frame kinds (Table ULY-2). -/
def kRead : Nat := 0x01
def kWrite : Nat := 0x03
def kSegStart : Nat := 0x05
def kSegData : Nat := 0x06
def kSegAck : Nat := 0x07
def kEventAck : Nat := 0x09
def kClose : Nat := 0x0A
def kSegCancel : Nat := 0x0B

/-- The kind of the response to a request kind. -/
def respKind (kind : Nat) : Nat := if kind = kRead then 0x02 else 0x04

/-- The dictionary answers in every state but OFF and SAFE (R452). -/
def State.reachable (s : State) : Bool := decide (s.power.state ≠ .off) && decide (s.power.state ≠ .safe)

def reqHead (r : Req) (kind : Nat) : List Byte := ulyHead r.version kind r.sealed r.rsv r.requestId r.sequence
def reqTail (r : Req) : List Byte := ulyTail r.index r.sub (r.rsv / 32768) r.length r.code

/-- The bytes of a request on the wire. -/
def State.reqWire (s : State) (r : Req) (kind : Nat) : List Byte :=
  ulyWire (if r.sealed then (s.session r.session).map (fun x => x.key false) else none) r.sequence (reqHead r kind) (reqTail r) r.payload
    (some r.tag)

/-- A frame of a tunnel channel is consumed: its credit goes back (R372). -/
def Aslet.consume (a : Aslet) (ch : Nat) (m : Nat × List Byte) : Aslet :=
  ({ a with inbox := a.inbox.erase m }).send { kind := 6, channel := ch, length := 1 }

/-- Take the request from its carrier: in the tunnel it is the oldest message of its channel (R372). None where that message
is not this frame. A pair that brought it reversed is counted (R403). -/
def State.takeFrame (s : State) (r : Req) (kind : Nat) : Option State :=
  match r.carrier with
  | .mgmt _ => some (if r.reversed then s.count 7 else s)
  | .tunnel ch =>
    match s.aslet.inbox.find? (fun m => decide (m.1 = ch)) with
    | none => none
    | some m =>
      if m.2 = s.reqWire r kind then some (s.updAslet (fun a => a.consume ch m)) else none

/-- Send the response to a request and keep it, the last 32 of its session (R406). -/
def State.answer (s : State) (r : Req) (kind code : Nat) (value : List Byte) : State :=
  let who := if r.sealed then some r.session else none
  let f : Response := { carrier := r.carrier, session := who, version := r.version, sequence := 0, requestId := r.requestId
                        kind := kind, index := r.index, sub := r.sub, code := code, value := value }
  let s1 := s.sendFrame who f
  match who with
  | none => s1
  | some n => s1.updSession n (fun x =>
      let l := x.last ++ [f]
      { x with last := l.drop (l.length - 32) })

/-- A write's response. -/
def State.reply (s : State) (r : Req) (code : Nat) : State := s.answer r 0x04 code []

/-- Kinds that are answered with a response: a request, or the segment that completes a write (Table ULY-2, R410). -/
def isRequestKind (kind : Nat) : Bool :=
  decide (kind = kRead) || decide (kind = kWrite) || decide (kind = kSegStart) || decide (kind = kSegData)

/-- Admit a request's frame. The state with what receiving it changed, and true where it is to be judged: a sealed frame that
fails its tag or Sequence, or comes on another carrier than its session's (R372), is discarded and counted (R405), a known RequestId is
answered with the stored response (R406). -/
def State.admitFrame (s : State) (r : Req) (kind : Nat) : State × Bool :=
  if !s.reachable then (s, false)
  else match s.takeFrame r kind with
    | none => (s, false)
    | some s0 =>
      if !r.sealed then (s0, true)
      else match s0.session r.session with
        | none => (s0.count 6, false)
        | some x =>
          if r.carrier ≠ x.carrier ∨ r.sequence < x.rxSeq ∨
              Config.gcmTag (x.key false) r.sequence (reqHead r kind) (reqTail r ++ r.payload) ≠ r.tag then (s0.count 6, false)
          else
            let s1 := s0.updSession r.session (fun y => { y with rxSeq := r.sequence + 1 })
            match x.last.find? (fun f => isRequestKind kind && decide (f.requestId = r.requestId)) with
            | some f => (s1.sendFrame (some r.session) f, false)
            | none => (s1, true)

/-- What a Sealed partition refuses to every role but its Tenant (R392): LOAD, Place, the BookLocation writes, a change of the
page map. An empty map passes: with an empty entry it removes the partition, and alone the check refuses it (`State.mapConflict`). -/
def State.sealRefuses (s : State) (r : Req) : Bool :=
  match objPart r.index r.sub with
  | none => false
  | some p =>
    (s.part p).sealed && decide (r.session ≠ 2 + p) &&
      ((reqNames6 r 0x01 0 && decide (r.payload = [1])) || reqNames6 r 0x02 1 || reqNames6 r 0x02 2 || reqNames6 r 0x02 3 ||
        (decide (r.index = 0x2010) && decide (0x11 ≤ r.sub) && !r.payload.isEmpty))

/-- The role's access to an object: an unsealed frame reads the pre-session objects and writes the handshake objects only. -/
def State.mayAccess (s : State) (r : Req) (o : Obj) (write : Bool) : Bool :=
  let a := if r.sealed then o.access r.session else if o.pre then o.op else .no
  let ok := if write then decide (a = .rw) || decide (a = .wo) || (decide (a = .st) && r.sealed)
    else decide (a = .ro) || decide (a = .rw) || decide (a = .st) || decide (a = .co)
  ok && (!r.sealed || s.reaches r.session r.index r.sub) && !(write && s.sealRefuses r)

/-- A length that the object's type takes. -/
def Len.fits (l : Len) (n : Nat) : Bool :=
  match l with
  | .exact k => decide (n = k)
  | .upTo k => decide (n ≤ k)

/-- The Version that a frame must carry (R415). -/
def State.versionOk (s : State) (r : Req) : Bool :=
  if r.sealed then (match s.session r.session with
    | some x => decide (r.version = x.version)
    | none => false)
  else decide (r.version = 1) || decide (r.version = 2)

/-- Orders 1 to 4 of Table ULY-3 for a read or write of n value bytes; 0 where none of them holds. -/
def State.judgeForm (s : State) (r : Req) (write : Bool) (n : Nat) : Nat :=
  match objOf r.index r.sub with
  | none => if r.sealed then abNoObject else abNoSession
  | some o =>
    if !r.sealed && !o.pre then abNoSession
    else if !s.mayAccess r o write then abAccess
    else if !s.versionOk r || decide (r.rsv ≠ 0) || decide (r.length ≠ r.payload.length) ||
        (write && !o.len.fits n) || (!write && decide (n ≠ 0)) then abForm
    else 0

/-! ### Segmented transfers (R410, R411) -/

def carrierKey (c : Carrier) : Nat :=
  match c with
  | .mgmt n => 2 * n
  | .tunnel ch => 2 * ch + 1

/-- Which transfer a frame belongs to: its session's, or its carrier's before a session. -/
def transferKey (r : Req) : Nat := if r.sealed then r.session else 18 + carrierKey r.carrier

def State.transfer (s : State) (k : Nat) : Option SegTransfer := (s.sec.transfers.find? (fun e => decide (e.1 = k))).map (·.2)
def State.putTransfer (s : State) (k : Nat) (t : SegTransfer) : State :=
  s.updSec (fun c => { c with transfers := Tab.put c.transfers k t })
def State.dropTransfer (s : State) (k : Nat) : State :=
  s.updSec (fun c => { c with transfers := c.transfers.filter (fun e => decide (e.1 ≠ k)) })

/-- The open write transfer that a frame carries a segment of. -/
def State.writing (s : State) (r : Req) : Option SegTransfer :=
  match s.transfer (transferKey r) with
  | none => none
  | some t => if t.write && decide (t.request.index = r.index) && decide (t.request.sub = r.sub) then some t else none

/-- The whole value, where the frame is the last segment of a write. -/
def State.lastSegment (s : State) (r : Req) : Option (List Byte) :=
  match s.writing r with
  | none => none
  | some t =>
    let v := t.data ++ r.payload
    if r.code = t.next ∧ v.length = t.total ∧ r.payload.length ≤ t.segBytes ∧ r.rsv = 0 ∧ r.length = r.payload.length then some v
    else none

/-- The write that a segmented transfer has brought whole. -/
def wholeWrite (r : Req) (v : List Byte) : Req := { r with payload := v, length := v.length, code := 0 }

/-- Judge a write that has arrived whole: its form, then its own conditions, then its effect with the response. -/
def State.judged (s : State) (r : Req) (chk : State → Nat) (act : State → State) : State :=
  let f := s.judgeForm r true r.payload.length
  if f ≠ 0 then s.reply r f
  else
    let c := chk s
    if c ≠ 0 then s.reply r c else act s

/-- Run a write command: accept its frame, judge its form, then its own conditions in Table ULY-3's order, then its effect
with the response. `chk` answers an abort code or 0. -/
def State.command (s : State) (r : Req) (chk : State → Nat) (act : State → State) : State :=
  match s.writing r with
  | none =>
    let a := s.admitFrame r kWrite
    if !a.2 then a.1 else a.1.judged r chk act
  | some _ =>
    match s.lastSegment r with
    | none => s
    | some v =>
      let a := s.admitFrame r kSegData
      if !a.2 then a.1 else (a.1.dropTransfer (transferKey r)).judged (wholeWrite r v) chk act

/-- Run a write command whose conditions and effect need the value: they take the request as it is whole. -/
def State.commandWith (s : State) (r : Req) (chk : Req → State → Nat) (act : Req → State → State) : State :=
  match s.writing r with
  | none => s.command r (chk r) (act r)
  | some _ =>
    match s.lastSegment r with
    | none => s
    | some v => s.command r (chk (wholeWrite r v)) (act (wholeWrite r v))

end Sys2Proof.Machine
end

