-- ==== Sys2Proof/Machine/StepGate.lean ====
section
/-!
DEFINITION. The training step (chapter 11): batch advances, carry swaps and schedule patches (R287 to R289), the begin of a
step (R271), the gate's vote, combination and decision (R275 to R277), opening and closing (R278 to R281), and the
counters' writes (R280, R282, R286).
-/

namespace Sys2Proof.Machine

open Sys2Proof

/-! ### Records of sections 4 and 5 -/

def advanceRecords (b : List Byte) : List (List Byte) := (stepRecords b).filter (fun r => decide (rd r 0 1 = 0x04))
def swapRecords (b : List Byte) : List (List Byte) := (stepRecords b).filter (fun r => decide (rd r 0 1 = 0x05))
def checkpointRecord (b : List Byte) : Option (List Byte) := (stepRecords b).find? (fun r => decide (rd r 0 1 = 0x06))
def advanceDesc (r : List Byte) : Nat := rd r 2 2
def advanceRing (r : List Byte) : Nat := rd r 4 4
def advanceStride (r : List Byte) : Int := sfld (rd r 8 8) 0 36
def swapCurrent (r : List Byte) : Nat := rd r 2 2
def swapShadow (r : List Byte) : Nat := rd r 4 2
def checkpointEvery (r : List Byte) : Nat := rd r 4 4

/-- The pool descriptor at an index of a Book. -/
def bookDesc (b : List Byte) (i : Nat) : DescBits := BitVec.ofNat 512 (rd (secRecord b 6 64 i) 0 64)

/-- A schedule column's header (R289). -/
def columnHeader (b : List Byte) (c : Nat) : List Byte := secRecord b 4 32 c
def columnRows (h : List Byte) : Nat := rd h 0 4
def columnPatches (h : List Byte) : Nat := rd h 4 4
def columnValues (h : List Byte) : Nat := rd h 8 8
def columnPatchesAt (h : List Byte) : Nat := rd h 0x10 8
/-- The value of a column for a step counter: value min(StepCounter, Rows - 1). -/
def columnValue (b : List Byte) (h : List Byte) (step : Nat) : Nat :=
  rd (section_ b 4) (columnValues h + 4 * min step (columnRows h - 1)) 4
/-- Patch entry i of a column. -/
def columnPatch (b : List Byte) (h : List Byte) (i : Nat) : Nat := rd (section_ b 4) (columnPatchesAt h + 8 * i) 8

/-! ### Advances, swaps, patches -/

/-- A descriptor with Base moved and its Check recomputed (R287). -/
def movedDesc (d : DescBits) (base : Int) : DescBits := descReseal (setFld d.toNat 0 42 (base.toNat % 2 ^ 42))

/-- Apply every batch advance for the present batch counter: Base moves, the window stays anchored to the Book's Base (R287). -/
def State.applyAdvances (s : State) (p : Nat) : State :=
  s.updPart p (fun x =>
    { x with pool := (advanceRecords x.book).foldl (fun pool r =>
        let d := bookDesc x.book (advanceDesc r)
        let k := if advanceRing r = 0 then 0 else x.batchCounter % advanceRing r
        pool.set (advanceDesc r) (movedDesc d (((fld d.toNat 0 42 : Nat) : Int) + (k : Int) * advanceStride r))) x.pool
             anchors := (advanceRecords x.book).foldl (fun a r =>
               Tab.put a (advanceDesc r) (fld (bookDesc x.book (advanceDesc r)).toNat 0 42)) x.anchors })

/-- Two descriptors with Base and WindowStart exchanged and their Checks recomputed. -/
def swapDescs (a b : DescBits) : DescBits × DescBits :=
  let na := a.toNat
  let nb := b.toNat
  (descReseal (setFld (setFld na 0 42 (fld nb 0 42)) 424 20 (fld nb 424 20)),
   descReseal (setFld (setFld nb 0 42 (fld na 0 42)) 424 20 (fld na 424 20)))

/-- Two windows' anchors exchanged with the Base of their descriptors. -/
def swapAnchors (pool : List DescBits) (a : Tab Nat) (i j : Nat) : Tab Nat :=
  let at_ := fun (k : Nat) => Tab.get (fld (pool.getD k 0).toNat 0 42) a k
  if a.any (fun e => decide (e.1 = i) || decide (e.1 = j)) then Tab.put (Tab.put a i (at_ j)) j (at_ i) else a

/-- One carry swap of a partition's pool. -/
def Partition.swapCarry (x : Partition) (r : List Byte) : Partition :=
  let y := swapDescs (x.pool.getD (swapCurrent r) 0) (x.pool.getD (swapShadow r) 0)
  { x with pool := (x.pool.set (swapCurrent r) y.1).set (swapShadow r) y.2
           anchors := swapAnchors x.pool x.anchors (swapCurrent r) (swapShadow r) }

/-- Apply every carry swap (R288). -/
def State.applySwaps (s : State) (p : Nat) : State :=
  s.updPart p (fun x => (swapRecords x.book).foldl Partition.swapCarry x)

/-- Write a value into Imm of element operation `op` of the VRUN at record i of a Square's records. -/
def patchRecords (recs : List Rec) (i op v : Nat) : List Rec :=
  let k := i + 1 + op / 4
  recs.set k (BitVec.ofNat 256 (setFld (recs.getD k 0).toNat (64 * (op % 4) + 32) 32 v))

/-- Patch the schedule values of the present step counter (R289). -/
def State.applyPatches (s : State) (p : Nat) : State :=
  let x := s.part p
  let b := x.book
  (List.range (secEntries b 4)).foldl (fun t c =>
    let h := columnHeader b c
    let v := columnValue b h x.stepCounter
    (List.range (columnPatches h)).foldl (fun u i =>
      let e := columnPatch b h i
      u.updSq (fld e 0 8) (fun y => { y with recs := patchRecords y.recs (fld e 8 24) (fld e 32 6) v })) t) s

/-! ### The begin of a step (R271) -/

/-- The logical Squares of the Book's SquareMask. -/
def bookSquares (b : List Byte) : List Nat := bitsOf (bookSquareMask b) 144

/-- The boundary that begins a step: gate words +0, the error latch clear, no vote yet. -/
def State.beginStep (s : State) (p : Nat) (g : List Byte) : State :=
  let s1 := (bookSquares (s.part p).book).foldl (fun t q => t.updSq q (fun y => y.lsWrite (gateWord g) [0, 0, 0, 0])) s
  s1.updPart p (fun x => { x with errorLatch := false, vote := none, childVotes := [], voteSent := false, decision := none
                                  stepOpen := false, inStep := true })

/-! ### Gate messages (Table STP-2) -/

def gateStepMin (m : GateMsg) : Nat := fld m.toNat 0 64
def gateStepMax (m : GateMsg) : Nat := fld m.toNat 64 64
def gateSeatMin (m : GateMsg) : Nat := fld m.toNat 128 12
def gateSeatMax (m : GateMsg) : Nat := fld m.toNat 144 12
def gateNonFinite (m : GateMsg) : Bool := bit m.toNat 160
def gateHwFault (m : GateMsg) : Bool := bit m.toNat 161
def gateSeatBad (m : GateMsg) : Nat := fld m.toNat 168 12
def gateKind (m : GateMsg) : Nat := fld m.toNat 184 8
/-- The reserved fields are 0 and Kind is a vote or a decision. -/
def gateMsgOk (m : GateMsg) : Bool :=
  let n := m.toNat
  decide (fld n 140 4 = 0) && decide (fld n 156 4 = 0) && decide (fld n 162 6 = 0) && decide (fld n 180 4 = 0) &&
    decide (fld n 192 64 = 0) && (decide (gateKind m = 1) || decide (gateKind m = 2))

/-- The numbers of a gate message. -/
def gateVoteOf (m : GateMsg) : GateVote :=
  { stepMin := gateStepMin m, stepMax := gateStepMax m, seatMin := gateSeatMin m, seatMax := gateSeatMax m
    nonFinite := gateNonFinite m, hwFault := gateHwFault m, seatBad := gateSeatBad m }

/-- The message of a vote's numbers. -/
def gateMsgOf (v : GateVote) (kind : Nat) : GateMsg :=
  BitVec.ofNat 256 (v.stepMin % 2 ^ 64 + (v.stepMax % 2 ^ 64) * 2 ^ 64 + (v.seatMin % 4096) * 2 ^ 128 +
    (v.seatMax % 4096) * 2 ^ 144 + (if v.nonFinite then 2 ^ 160 else 0) + (if v.hwFault then 2 ^ 161 else 0) +
    (v.seatBad % 4096) * 2 ^ 168 + kind * 2 ^ 184)

/-- Combine two votes (R276). -/
def GateVote.combine (a b : GateVote) : GateVote :=
  { stepMin := min a.stepMin b.stepMin
    stepMax := max a.stepMax b.stepMax
    seatMin := if a.stepMin < b.stepMin then a.seatMin else if b.stepMin < a.stepMin then b.seatMin
      else min a.seatMin b.seatMin
    seatMax := if b.stepMax < a.stepMax then a.seatMax else if a.stepMax < b.stepMax then b.seatMax
      else min a.seatMax b.seatMax
    nonFinite := a.nonFinite || b.nonFinite
    hwFault := a.hwFault || b.hwFault
    seatBad :=
      let fa := a.nonFinite || a.hwFault
      let fb := b.nonFinite || b.hwFault
      if fa && fb then min a.seatBad b.seatBad else if fa then a.seatBad else if fb then b.seatBad else 0 }

/-- The gate opens (R277). -/
def GateVote.opens (v : GateVote) : Bool := !v.nonFinite && !v.hwFault && decide (v.stepMin = v.stepMax)

/-- The GATE transaction of Table LNK-7: the Table identity's slot and the message. -/
def gateTxn (m : GateMsg) : Txn := { kind := 0x0B, inl := leBytes 32 m.toNat }

/-! ### The vote (R275 to R277) -/

/-- An FP32 word that is NaN or infinite. -/
def notFinite32 (w : Nat) : Bool := decide (fld w 23 8 = 0xFF)

/-- The events of a closed gate (R281), with a detail in place of those of the causes when it sticks. -/
def State.closedEvents (s : State) (p : Nat) (m : GateMsg) (stuck : Bool) : State :=
  let v := gateVoteOf m
  let arg := [m.toNat]
  let s1 := if v.nonFinite && !stuck then s.raise 0x80 0x01 (some p) [(.seat, v.seatBad)] arg else s
  let s2 := if v.hwFault && !stuck then s1.raise 0x80 0x02 (some p) [(.seat, v.seatBad)] arg else s1
  let s3 := if decide (v.stepMin ≠ v.stepMax) then
    s2.raise 0x81 (if stuck then 0x03 else 0x01) (some p) [(.seat, v.seatMin), (.seat, v.seatMax)] arg else s2
  if stuck && (v.nonFinite || v.hwFault) then s3.raise 0x80 0x03 (some p) [(.seat, v.seatBad)] arg else s3

/-- The decision has reached the seat (Table STP-3 step 4): forwarded, recorded, its events raised. -/
def State.takeDecision (s : State) (p : Nat) (g : List Byte) (m : GateMsg) : State :=
  let s1 := (gateChildren g).foldl (fun t c => t.sendSeat p c (gateTxn m)) s
  let s2 := s1.updPart p (fun x => { x with decision := some m, lastGate := m })
  s2.closedEvents p m false

/-- With every child's vote in (a gate message does not name its sender: the votes are counted, log 19), the combined vote goes to Parent, or the root decides (Table STP-3 steps 2 and 3). -/
def State.castVote (s : State) (p : Nat) (g : List Byte) : State :=
  let x := s.part p
  match x.vote with
  | none => s
  | some own =>
    if x.voteSent || decide (x.childVotes.length < (gateChildren g).length) then s
    else
      let v := x.childVotes.foldl (fun a e => a.combine e.2) own
      let s1 := s.updPart p (fun y => { y with voteSent := true })
      if gateParent g = x.seat then s1.takeDecision p g (gateMsgOf v 2)
      else s1.sendSeat p (gateParent g) (gateTxn (gateMsgOf v 1))

/-- The seat's gate Turn is under way and has not voted. -/
def Partition.gateTurn (x : Partition) : Bool :=
  match x.workTurn with
  | some n => x.inStep && decide (some (x.planIndex n) = gateTurnIndex x.book)
  | none => false

/-- The seat's own vote (R275). -/
def State.ownVote (s : State) (p : Nat) (g : List Byte) : GateVote :=
  let x := s.part p
  let bad := (bookSquares x.book).any (fun q => notFinite32 ((s.sq q).lsNat (gateWord g) 4))
  let hw := x.errorLatch || x.restoreNeeded
  { stepMin := x.stepCounter, stepMax := x.stepCounter, seatMin := x.seat, seatMax := x.seat, nonFinite := bad
    hwFault := hw, seatBad := if bad || hw then x.seat else 0 }

/-- GATE_VOTE (R275): at GateOffset of the gate Turn the gate words are read and the vote is formed. -/
def execGateVote (p : Nat) (s : State) : Out :=
  onUnit (decide (p < 16)) (
    let x := s.part p
    match gateRecord x.book with
    | none => s
    | some g =>
      if x.gateTurn && x.vote.isNone && x.tabled then
        let s0 := s.reach (x.turnStart (x.workTurn.getD 0) + gateOffset g)
        (s0.updPart p (fun y => { y with vote := some (s0.ownVote p g) })).castVote p g
      else s)

/-- The oldest message at the gate unit is taken from it; one with a reserved field set or a reserved Kind is discarded and
counted (R276). -/
def State.takeGate (s : State) (p kind : Nat) : Option (State × Nat × GateMsg) :=
  match (s.part p).gateIn with
  | [] => none
  | e :: r =>
    if gateMsgOk e.2 && decide (gateKind e.2 ≠ kind) then none
    else some (s.updPart p (fun x => { x with gateIn := r }), e.1, e.2)

/-- GATE_VOTE_RECEIVED (R276): a child's vote. One beyond the number of children is ignored. -/
def execGateVoteReceived (p : Nat) (s : State) : Out :=
  onUnit (decide (p < 16)) (
    match s.takeGate p 1 with
    | none => s
    | some (t, l, m) =>
      if !gateMsgOk m then t.count 3
      else match gateRecord (t.part p).book with
        | none => t
        | some g =>
          if (t.part p).childVotes.length < (gateChildren g).length then
            (t.updPart p (fun x => { x with childVotes := x.childVotes ++ [(l, gateVoteOf m)] })).castVote p g
          else t)

/-- GATE_DECISION_RECEIVED (R277): the decision from the parent. -/
def execGateDecisionReceived (p : Nat) (s : State) : Out :=
  onUnit (decide (p < 16)) (
    match s.takeGate p 2 with
    | none => s
    | some (t, _, m) =>
      if !gateMsgOk m then t.count 3
      else match gateRecord (t.part p).book with
        | none => t
        | some g =>
          if decide (gateParent g ≠ (t.part p).seat) && (t.part p).gateTurn &&
              (t.part p).decision.isNone then t.takeDecision p g m
          else t)

/-! ### Opening and closing (R278 to R280) -/

/-- The boundary that ends the gate Turn applies the decision. -/
def State.applyGate (s : State) (p : Nat) (g : List Byte) : State :=
  let x := s.part p
  match x.decision with
  | none => s
  | some m =>
    let v := gateVoteOf m
    let s0 := s.updPart p (fun y => { y with decision := none, stepOpen := v.opens })
    if v.opens then
      let s1 := s0.updPart p (fun y => { y with stepCounter := (y.stepCounter + 1) % 2 ^ 64
                                                batchCounter := (y.batchCounter + 1) % 2 ^ 64 })
      (((s1.applyAdvances p).applySwaps p).applyPatches p).updPart p (fun y => { y with consecutiveClosures := 0 })
    else
      let closures := min (x.consecutiveClosures + 1) 65535
      let s1 := s0.updPart p (fun y => { y with consecutiveClosures := closures, closedSteps := satAdd y.closedSteps 1 })
      let abandon := v.nonFinite && !v.hwFault && decide (v.stepMin = v.stepMax) && decide (gateClosedAction g = 0)
      let s2 := if abandon then
        (s1.updPart p (fun y => { y with batchCounter := (y.batchCounter + 1) % 2 ^ 64
                                         abandonedSteps := satAdd y.abandonedSteps 1 })).applyAdvances p else s1
      if gateMaxClosures g ≤ closures then
        (s2.updPart p (fun y => { y with gateStuck := true })).closedEvents p m true
      else s2

/-- The kind of a Turn in the plan period after the gate's update Turns: a checkpoint Turn (flag [1]). -/
def isCheckpointTurn (b : List Byte) (i : Nat) : Bool :=
  match gateTurnIndex b, gateRecord b with
  | some gi, some g => decide (gi + gateUpdateCount g < i) && (planFlags b i).testBit 1
  | _, _ => false

/-- Checkpoint Turns that ran are over: the counters as they stood then (R290). -/
def State.checkpointDone (s : State) (p : Nat) : State :=
  s.updPart p (fun x => match x.ckpt with
    | some c => { x with lastCheckpointStep := c.1, lastCheckpointBatch := c.2, ckpt := none }
    | none => x)

/-- The start of a Turn of the plan: a checkpoint that ran ends with its Turns (R290); the first entry of the plan begins a step,
unless the gate is stuck (R280); the Turn after the gate Turn takes the decision (R283). -/
def State.planEnter (s : State) (p n : Nat) (g : List Byte) (gi : Nat) : State :=
  let x := s.part p
  let i := x.planIndex n
  let s0 := if isCheckpointTurn x.book i then s else s.checkpointDone p
  let s1 := if i = 0 then
      (if x.gateStuck then s0.updPart p (fun y => { y with inStep := false, stepOpen := false }) else s0.beginStep p g)
    else s0
  if i = gi + 1 ∧ (s1.part p).inStep then s1.applyGate p g else s1

/-- The entry is a checkpoint Turn after an opened gate. -/
def Partition.atCheckpoint (y : Partition) (i : Nat) (g : List Byte) (gi : Nat) : Bool :=
  !y.gateStuck && y.inStep && y.stepOpen && decide (gi + gateUpdateCount g < i) && (planFlags y.book i).testBit 1

/-- The checkpoint is due at this step (R290). -/
def Partition.checkpointDue (y : Partition) : Bool :=
  let every := ((checkpointRecord y.book).map checkpointEvery).getD 1
  decide (every ≠ 0) && decide (y.stepCounter % every = 0)

/-- Whether the entry's segments run (R279, R280, R290, R291). -/
def Partition.entryRuns (y : Partition) (i : Nat) (g : List Byte) (gi : Nat) : Bool :=
  if y.gateStuck || !y.inStep then false
  else if i ≤ gi then true
  else if !y.stepOpen then false
  else if i ≤ gi + gateUpdateCount g then true
  else if (planFlags y.book i).testBit 1 then y.checkpointDue
  else if (planFlags y.book i).testBit 2 then decide (gateEvalEvery g ≠ 0) && decide (y.stepCounter % gateEvalEvery g = 0)
  else true

/-- Begin Turn n of the plan for the gate (R270, R271, R278 to R280; a version-1 Book has no checkpoint record, its checkpoint
Turns run after every opening: log 20); true where its segments run, false where it passes
empty. -/
def State.planTurn (s : State) (p n : Nat) : State × Bool :=
  match gateRecord (s.part p).book, gateTurnIndex (s.part p).book with
  | some g, some gi =>
    let i := (s.part p).planIndex n
    let t := s.planEnter p n g gi
    let y := t.part p
    (if y.atCheckpoint i g gi && y.checkpointDue then
        t.updPart p (fun z => { z with ckpt := some (z.stepCounter, z.batchCounter) })
      else t, y.entryRuns i g gi)
  | _, _ => (s, true)

/-! ### Writes of the step objects -/

/-- GATE_STUCK_WRITE (R280): 0 only, while HELD only. -/
def execGateStuckWrite (r : Req) (s : State) : Out :=
  .next (
    let p := reqPart r
    if !(reqNames6 r 0x20 5) then s
    else s.command r (fun t => if reqValue r ≠ 0 then abRange else if (t.part p).runState ≠ .held then abState else 0)
      (fun t => (t.updPart p (fun x => { x with gateStuck := false })).reply r 0))

/-- STEP_COUNTER_WRITE (R282): StepCounter and BatchCounter in LOADED, STOPPED and HELD; a changed batch counter moves the
batch advances (R287). -/
def execStepCounterWrite (r : Req) (s : State) : Out :=
  .next (
    let p := reqPart r
    if !(reqNames6 r 0x20 1 || reqNames6 r 0x20 2) then s
    else s.command r (fun t =>
        let st := (t.part p).runState
        if st = .loaded ∨ st = .stopped ∨ st = .held then 0 else abState)
      (fun t =>
        if r.sub = 1 then (t.updPart p (fun x => { x with stepCounter := reqValue r })).reply r 0
        else ((t.updPart p (fun x => { x with batchCounter := reqValue r })).applyAdvances p).reply r 0))

/-- RESTORE_NEEDED_WRITE (R286): 0 only, while HELD only. -/
def execRestoreNeededWrite (r : Req) (s : State) : Out :=
  .next (
    let p := reqPart r
    if !(reqNames6 r 0x20 6) then s
    else s.command r (fun t => if reqValue r ≠ 0 then abRange else if (t.part p).runState ≠ .held then abState else 0)
      (fun t => (t.updPart p (fun x => { x with restoreNeeded := false })).reply r 0))

end Sys2Proof.Machine
end

