-- ==== Sys2Proof/Machine/Turn.lean ====
section
/-!
DEFINITION. Turns: transfers of section 3 (R351, R371), a Turn's segments (R66, R88), the end of a Turn and its overrun (R66,
R74), slack (R72), Hold and resume at a boundary (R78, R79), and the Table start (R61).
-/

namespace Sys2Proof.Machine

open Sys2Proof

/-! ### Transfers -/

/-- The Mover and channel of a section 3 transfer record of a partition. -/
def transferChannel (p : Nat) (r : List Byte) : MoverId × Nat :=
  if rd r 0 1 = 3 then (.link (rd r 2 1), rd r 1 1 % 8) else (.host, 2 * p)

/-- The semaphores that a repeat waits on, or with `after` those it posts: entry and semaphore (R351, R371). -/
def transferSems (r : List Byte) (after : Bool) : List (Nat × Bool) :=
  if rd r 0 1 = 3 then
    (if bit (rd r 0x11 1) 7 then [(rd r 0x11 1 % 128, after)] else []) ++
      (if bit (rd r 0x12 1) 7 then [(rd r 0x12 1 % 128, !after)] else [])
  else if bit (rd r 0x11 1) 7 then
    [(rd r 0x11 1 % 128, if rd r 2 1 % 2 = 0 then !after else after)]
  else []

/-- A repeat's shift: (r mod D) times the record's shift; without an entry there is no depth, and r itself counts
(log 21). -/
def State.transferShift (s : State) (q : Nat) (enable : Nat) (rep : Nat) (shift : Int) : Int :=
  let d := (s.entry q (enable % 128)).depth
  ((if bit enable 7 && decide (d ≠ 0) then rep % d else rep : Nat) : Int) * shift

/-- Start the next repeat of a channel's transfer where its semaphores allow (R351). The channel is their waiter (R107). -/
def State.nextRepeat (s : State) (m : MoverId) (ch : Nat) : State :=
  let c := s.channel m ch
  let p := c.partition
  let r := s.transferOf c
  let q := rd r 0x10 1
  if c.transfer.isNone || c.busy || !c.posted then s
  else if rd r 0x14 2 ≤ c.repeatNo then s.updChannel m ch (fun y => { y with transfer := none })
  else if !s.mayIssue p then s
  else
    let ws := transferSems r false
    let other := ws.find? (fun w => match (s.entry q w.1).waiter w.2 with
      | some x => decide (x ≠ .mover m ch)
      | none => false)
    let bad := ws.find? (fun w => !(s.entry q w.1).owns w.2)
    match bad, other with
    | some w, _ => (s.updChannel m ch (fun y => { y with transfer := none })).placeFault p 0x03 [(.square, q), (.entry, w.1)]
    | none, some w =>
      (s.updChannel m ch (fun y => { y with transfer := none })).placeFault p 0x05 [(.square, q), (.entry, w.1)]
    | none, none =>
      let s1 := ws.foldl (fun t w => t.updEntry q w.1 (fun e => e.setWaiter w.2 (.mover m ch))) s
      if ws.any (fun w => decide ((s.entry q w.1).sem w.2 = 0)) then s1
      else
        let s2 := ws.foldl (fun t w => t.updEntry q w.1 (fun e => e.setSem w.2 (e.sem w.2 - 1))) s1
        let spc := if rd r 0 1 = 3 then rd r 0x12 1 else rd r 0x11 1
        let ss := s2.transferShift q (rd r 0x11 1) c.repeatNo (sfld (rd r 0x18 4) 0 32)
        let ds := s2.transferShift q spc c.repeatNo (sfld (rd r 0x1C 4) 0 32)
        s2.startChain m ch p (rd r 8 4) ss ds c.transfer c.repeatNo

/-- A transfer record starts at the start of a Turn of its plan entry. A channel that is not free then faults as MOVER_START
does (R159; log 21). -/
def State.startTransfer (s : State) (p k : Nat) : State :=
  let r := (linkRecords (s.part p).book).getD k []
  let mc := transferChannel p r
  let c := s.channel mc.1 mc.2
  if c.busy || c.transfer.isSome then s.placeFault p 0x20 (moverLoc mc.1 mc.2 (rd r 8 4))
  else
    (s.updChannel mc.1 mc.2 (fun y =>
      { y with transfer := some k, repeatNo := 0, posted := true, partition := p })).nextRepeat mc.1 mc.2

/-- The transfers of a plan entry start. -/
def State.startTransfers (s : State) (p i : Nat) : State :=
  let rs := linkRecords (s.part p).book
  ((List.range rs.length).filter (fun k =>
    let r := rs.getD k []
    (decide (rd r 0 1 = 3) || decide (rd r 0 1 = 4)) && decide (rd r 4 4 = i))).foldl (fun t k => t.startTransfer p k) s

/-- Everything that the channel's chain sent is acknowledged, as for Barrier 1. -/
def State.acknowledged (s : State) (m : MoverId) (ch : Nat) : Bool :=
  (s.channel m ch).sent.isEmpty && s.answered m ch

/-- TRANSFER_REPEAT (R351, R371): the posts of the repeat that has ended, then the next repeat. -/
def execTransferRepeat (m : MoverId) (ch : Nat) (s : State) : Out :=
  onUnit (moverHas m ch) (
    let c := s.channel m ch
    if c.transfer.isNone || c.busy then s
    else if c.posted then s.nextRepeat m ch
    else if s.acknowledged m ch then
      let r := s.transferOf c
      let s1 := (transferSems r true).foldl (fun t w => t.post (rd r 0x10 1) w.1 w.2 1)
        (s.updChannel m ch (fun y => { y with posted := true }))
      s1.nextRepeat m ch
    else s)

/-! ### The end of a Turn (R66) -/

/-- The channels whose transfers belong to a partition's Turns. -/
def State.turnChannels (s : State) (p : Nat) : List (MoverId × Nat) :=
  (s.squaresOf p).flatMap (fun q => (List.range 16).map (fun ch => (MoverId.square q, ch))) ++
    (List.range 96).flatMap (fun l => ((List.range 8).filter (fun ch =>
      decide ((s.channel (.link l) ch).partition = p))).map (fun ch => (MoverId.link l, ch))) ++ [(.host, 2 * p), (.host, 2 * p + 1)]

def State.channelQuiet (s : State) (m : MoverId) (ch : Nat) : Bool :=
  let c := s.channel m ch
  !c.busy && c.transfer.isNone && c.sent.isEmpty

/-- The seat's Turn has ended: every Square, every channel, every acknowledgement, the gate's decision (R66, R74, R119). -/
def State.workEnded (s : State) (p : Nat) : Bool :=
  let x := s.part p
  !x.frozen && (bookSquares x.book).all (fun q => (s.sq q).endedAt.isSome) &&
    (s.turnChannels p).all (fun c => s.channelQuiet c.1 c.2) && (!x.gateTurn || x.decision.isSome)

/-- What is late: Squares by number; 144 stands for a transfer or the gate's decision alone. -/
def State.lateUnits (s : State) (p : Nat) : List Nat :=
  match (bookSquares (s.part p).book).filter (fun q =>
      (s.sq q).endedAt.isNone || (List.range 16).any (fun ch => (s.channel (.square q) ch).busy)) with
  | [] => [144]
  | l => l

/-! ### Starting the work of a Turn -/

/-- A Square starts a segment, or passes the Turn without one (R88). -/
def Square.startSegment (x : Square) (seg : Option Nat) (now : Nat) : Square :=
  let y := { x with seg := seg, players := (List.range 16).map (fun k =>
    (k, { x.player k with running := false, stopped := false, loops := [] })) }
  match y.segment with
  | some g => if g.count = 0 then { y with endedAt := some now }
    else { y with endedAt := none } |>.updPlayer 0 (fun P => P.start 0)
  | none => { y with endedAt := some now }

/-- The waiters of the last Turn are forgotten (R107). -/
def Square.clearWaiters (x : Square) : Square :=
  { x with chain := x.chain.map (fun (e : Nat × Entry) => (e.1, { e.2 with waiterF := none, waiterE := none })) }

/-- The seat starts the work of Turn n: the gate's part, the segments, the transfers. -/
def State.runTurn (s : State) (p n : Nat) : State :=
  let s0 := s.updPart p (fun x => { x with workTurn := some n })
  let y := s0.planTurn p n
  let b := (s.part p).book
  let i := (s.part p).planIndex n
  let s1 := (bookSquares b).foldl (fun t q => t.updSq q (fun x =>
    x.clearWaiters.startSegment (if y.2 then some (planSegment b i) else none) t.now)) y.1
  (if y.2 then s1.startTransfers p i else s1).active p

/-! ### A boundary -/

/-- A Player's sticky word passes to its last value (R95). -/
def Player.boundary (P : Player) : Player := { P with lastSticky := P.sticky, sticky := 0 }

/-- A sticky word is added to a Square's counters of invalid, overflow and NaN in (R95, R188). -/
def addSticky (t : Tab Nat) (w : Word) : Tab Nat :=
  (bitsOf w.toNat 3).foldl (fun u b => Tab.upd 0 u b (fun n => satAdd n 1)) t

/-- The sticky words of a Square at a boundary: added to its counters, then cleared (R95). -/
def Square.boundary (x : Square) : Square :=
  { x with arith := x.players.foldl (fun t (e : Nat × Player) => addSticky t e.2.sticky) x.arith
           players := x.players.map (fun (e : Nat × Player) => (e.1, e.2.boundary)) }

/-- What every boundary does to a partition's counters: sticky words (R95), completion counts (R160), new bounce keys
(R386). -/
def State.turnReset (s : State) (p : Nat) : State :=
  let s1 := (s.squaresOf p).foldl (fun t q => t.updSq q Square.boundary) s
  let s2 := (s1.turnChannels p).foldl (fun t c => t.updChannel c.1 c.2 (fun y => { y with completions := 0 })) s1
  s2.updPart p Partition.settleBounce

/-- A Square records its slack (R72): what was left of the Turn of length `len` when its Players ended it; 1 where its segment was
empty. One that has not ended its Turn records none. -/
def Square.recordSlack (x : Square) (now len : Nat) : Square :=
  let empty := match x.segment with
    | some g => decide (g.count = 0)
    | none => true
  match x.endedAt with
  | none => x
  | some t => { x with slackKnown := true, lastSlack := if empty then slackOf 1 1 else slackOf (now - t) len }

/-- Each Square of the partition that has ended its Turn records its slack. -/
def State.recordSlack (s : State) (p : Nat) : State :=
  (bookSquares (s.part p).book).foldl (fun t q => t.updSq q (fun x => x.recordSlack t.now (s.part p).lengthNs)) s

/-- A Turn overrun (R74): no segment, event 0x10, the out-of-specification flag unless the partition is frozen (R119), a
Hold with cause 0x07. The segments of the Turn wait for the late work (log 22). -/
def State.overrun (s : State) (p n : Nat) : State :=
  let x := s.part p
  let late := s.lateUnits p
  let s1 := late.foldl (fun t q =>
    t.raise 0x10 0x01 (some p) (if q < 144 then [(.square, q)] else [(.seat, x.seat)]) []) s
  let s2 := if x.frozen then s1 else s1.setFlag 0
  (s2.updPart p (fun y => { y with late := late, deferred := y.deferred ++ [n] })).requestHold p 0x07

/-- Turn marks go out on every link of the Table (R66 step 3). -/
def State.sendMarks (s : State) (p n : Nat) : State :=
  let x := s.part p
  (tableLinks x.book).foldl (fun t l => t.sendOrdered p l
    { tableId := x.tableId, kind := 3, rsv := 0, cause := 0, seat := x.seat, stamp := s.now, arg := n % 2 ^ 32 }) s

/-- The Hold takes effect (R78): no segment, HELD; the event of each Hold (R473); planned retrains that waited for it begin
(R355). With every holder released by then the Table resumes after the latest Release (R79). -/
def State.enterHeld (s : State) (p n : Nat) : State :=
  let s1 := if s.workEnded p && !isCheckpointTurn (s.part p).book ((s.part p).planIndex n) then s.checkpointDone p else s
  let s2 := s1.updPart p (fun x =>
    { x.settleBounce with runState := .held, heldAt := some n, heldSince := s.now, holdTarget := none
                          resumeAt := if x.holders.isEmpty then some (wholeUs (x.lastRelease + x.bound)) else none })
  (((s.part p).holdCauses).foldl (fun t h => t.holdEvent p h.2 1 h.1) s2).beginRetrains

/-- Turn n begins at the seat: its slack and the trim of its domains (R72, R73) at every boundary but one whose work waits. -/
def State.beginTurn (s : State) (p n : Nat) : State :=
  let x := s.part p
  let s1 := (s.updPart p (fun y =>
    { y with turn := n, heldAt := none, resumeAt := none
             runState := if y.holdTarget.isSome then .draining else .running })).turnReset p
  let s2 := s1.sendMarks p n
  if x.late ≠ [] then (s2.updPart p (fun y => { y with deferred := y.deferred ++ [n] })).trim p
  else if x.workTurn.isNone then (s2.trim p).runTurn p n
  else
    let s3 := (s2.recordSlack p).trim p
    if s.workEnded p then s3.runTurn p n else s3.overrun p n

/-- The boundary of Turn n: the Hold that targets it, or the Turn. -/
def State.boundary (s : State) (p n : Nat) : State :=
  match (s.part p).holdTarget with
  | some t => if t ≤ n then s.enterHeld p n else s.beginTurn p n
  | none => s.beginTurn p n

/-- TURN_BOUNDARY (R66): the Turn timer reaches the start of the next Turn. -/
def execTurnBoundary (p : Nat) (s : State) : Out :=
  onUnit (decide (p < 16)) (
    let x := s.part p
    if x.runState = .running ∨ x.runState = .draining then (s.reach (x.turnStart (x.turn + 1))).boundary p (x.turn + 1)
    else s)

/-- The joined set is complete, and no Join was refused (R61, R62). -/
def Partition.formed (x : Partition) : Bool := decide (x.joined.length = bookSeats x.book) && decide (x.joinFault = 0xFFFF)

/-- TABLE_START_INSTANT (R61): Turn 0 begins; the RUN requests are answered. A seat whose Table has not formed starts none (R62). -/
def execTableStartInstant (p : Nat) (s : State) : Out :=
  onUnit (decide (p < 16)) (
    let x := s.part p
    match x.start with
    | some st =>
      if x.runState = .armed ∧ x.formed then
        let e := wholeUs (st.1 + x.bound)
        let s1 := (s.reach e).updPart p (fun y =>
          { y with epoch := e, epochTurn := 0, turn := 0, start := none, workTurn := none, runs := [], runState := .running })
        x.runs.foldl (fun t r => t.reply r 0) (s1.boundary p 0)
      else s
    | none => s)

/-- TABLE_RESUME (R79): the resume instant is the new epoch, the held Turn the new n_E; a changed Turn length is in force
from here on (R86). -/
def execTableResume (p : Nat) (s : State) : Out :=
  onUnit (decide (p < 16)) (
    let x := s.part p
    match x.heldAt, x.resumeAt with
    | some h, some t =>
      if x.runState = .held then
        let s1 := (s.reach t).updPart p (fun y =>
          { y with epoch := t, epochTurn := h
                   turnLength := if y.turnLengthSet = 0 then y.turnLength else y.turnLengthSet - 1
                   turnLengthSet := 0, lengths := [] })
        s1.boundary p h
      else s
    | _, _ => s)

/-- LATE_WORK_END (R74): the late work has ended. The segments that waited run next; with none left the seat releases its
Hold. -/
def execLateWorkEnd (p : Nat) (s : State) : Out :=
  onUnit (decide (p < 16)) (
    let x := s.part p
    if x.late ≠ [] ∧ s.workEnded p then
      match x.deferred with
      | n :: r => (s.updPart p (fun y => { y with deferred := r })).runTurn p n
      | [] =>
        let t := (x.late.filter (fun q => decide (q < 144))).foldl (fun u q => u.updSq q (fun y => { y with overran := true })) s
        (t.updPart p (fun y => { y with late := [] })).releaseHold p 0x07 2
    else s)

/-- OVERRUN_TIMEOUT (R74): 100 ms after the Hold took effect the partition enters FAULTED. -/
def execOverrunTimeout (p : Nat) (s : State) : Out :=
  onUnit (decide (p < 16)) (
    let x := s.part p
    if x.late ≠ [] ∧ x.runState = .held ∧ !s.workEnded p then
      ((s.reach (x.heldSince + 100000000)).raise 0x10 0x04 (some p) [(.seat, x.seat)] []).enterFaulted p
    else s)

end Sys2Proof.Machine
end

