-- ==== Sys2Proof/Machine/Book.lean ====
section
/-!
DEFINITION. The checks of a Book: LOAD's seven steps (R83) and the ARM checks in the order of R503 (R105, R116, R130, R153,
R289, R298, R352, R377).
-/

namespace Sys2Proof.Machine

open Sys2Proof

/-! ### LOAD (R83) -/

/-- Step 1: Magic, HeaderBytes, SectionCount, HeaderCrc. -/
def loadHeaderOk (b : List Byte) : Bool :=
  decide (256 ≤ b.length) && decide (rd b 0 4 = 0x4B4F4F42) && decide (rd b 8 2 = 256) && decide (rd b 0xA 2 = 8) &&
    decide (rd b 0xFC 4 = crc32 (b.take 0xFC))

/-- The record size of a section with one; 0 for sections 0, 4 and 7. -/
def sectionRecord (k : Nat) : Nat := [0, 16, 32, 64, 0, 64, 64, 0].getD k 0

/-- A section lies in the Book with its alignment and record count. -/
def sectionOk (b : List Byte) (k : Nat) : Bool :=
  decide (secOffset b k % 64 = 0) && decide (secOffset b k + secBytes b k ≤ bookBytes b) &&
    (decide (sectionRecord k = 0) || decide (secBytes b k = secEntries b k * sectionRecord k))

/-- Two sections share no byte. -/
def sectionsApart (b : List Byte) (i j : Nat) : Bool :=
  decide (secBytes b i = 0) || decide (secBytes b j = 0) || decide (secOffset b i + secBytes b i ≤ secOffset b j) ||
    decide (secOffset b j + secBytes b j ≤ secOffset b i)

/-- The layout of one Square block. -/
def blockOk (b : List Byte) (off end_ q : Nat) : Bool :=
  let n := blockSegments b off
  decide (off + 32 ≤ end_) && decide (blockSquare b off = q) && decide (blockSize b off % 64 = 0) &&
    decide (blockRecordsOffset b off % 32 = 0) && decide (1056 + 32 * n ≤ blockRecordsOffset b off) &&
    decide (blockRecordsOffset b off ≤ blockSize b off) && decide (off + blockSize b off ≤ end_) &&
    (List.range n).all (fun i =>
      let g := blockSegment b off i
      decide (g.first + g.count ≤ blockRecordCount b off))

/-- The Square blocks stand one after another and fill their section. -/
def blocksFill (b : List Byte) (end_ : Nat) : List Nat → Nat → Bool
  | [], off => decide (off = end_)
  | q :: r, off => blockOk b off end_ q && blocksFill b end_ r (off + blockSize b off)

/-- Step 3: the layout. -/
def loadLayoutOk (b : List Byte) (placed : Nat) : Bool :=
  let mask := bookSquares b
  decide (bookBytes b = placed) && (List.range 8).all (sectionOk b) &&
    (List.range 8).all (fun i => (List.range i).all (fun j => sectionsApart b i j)) &&
    decide (secBytes b 7 = 0) && decide (secEntries b 7 = 0) && decide (secEntries b 6 ≤ 65536) &&
    decide (secEntries b 0 = mask.length) && blocksFill b (secOffset b 0 + secBytes b 0) mask (secOffset b 0)

/-- The indices of the operation records among a block's records: operand records carry no header (R221). -/
def headIndices (recs : List Rec) : Nat → Nat → List Nat
  | 0, _ => []
  | n + 1, i =>
    if recs.length ≤ i then [] else i :: headIndices recs n (i + 1 + operandCount (recs.getD i 0))

/-- A block's records. -/
def blockRecords (b : List Byte) (off : Nat) : List Rec := (List.range (blockRecordCount b off)).map (blockRecord b off)

/-- The operation records of a block, by index. -/
def blockHeads (b : List Byte) (off : Nat) : List Nat :=
  headIndices (blockRecords b off) (blockRecordCount b off) 0

/-- Reserved fields of a Square block: header, chain-link entries, segment entries, record headers. -/
def blockReservedOk (b : List Byte) (off : Nat) : Bool :=
  decide (rd b (off + 1) 1 = 0) && decide (rd b (off + 0x10) 16 = 0) &&
    (List.range 128).all (fun e =>
      let v := blockEntryBits b off e
      decide (fld v 10 2 = 0) && decide (fld v 39 1 = 0) && decide (fld v 56 8 = 0)) &&
    (List.range (blockSegments b off)).all (fun i => decide (rd b (off + 1056 + 32 * i + 8) 8 = 0)) &&
    (blockHeads b off).all (fun i => recHeaderOk (blockRecord b off i))

/-- Reserved fields of a plan entry; evaluation Turns are version 2 (R84). -/
def planReservedOk (b : List Byte) (i : Nat) : Bool :=
  decide (planFlags b i / (if bookVersion b = 1 then 4 else 8) = 0) && decide (rd (secRecord b 1 16 i) 12 4 = 0)

/-- Step 4: reserved fields. -/
def loadReservedOk (b : List Byte) : Bool :=
  decide (bookFlags b / 2 = 0) && decide (rd b 0xD 1 = 0) && decide (rd b 0xE 2 = 0) && decide (rd b 0x18 2 / 4096 = 0) &&
    decide (rd b 0x1A 2 / 8192 = 0) && decide (rd b 0x1E 2 = 0) && decide (rd b 0x3A 6 = 0) && decide (rd b 0xE0 28 = 0) &&
    (List.range (secEntries b 1)).all (planReservedOk b) && (bookBlocks b).all (blockReservedOk b)

/-- Step 5: values. -/
def loadValuesOk (b : List Byte) : Bool :=
  decide (bookSeat b < bookSeats b) && decide (1 ≤ bookSeats b) && decide (bookSeats b ≤ 4096) &&
    decide (8 ≤ bookTurnLength b) && decide (1 ≤ bookPlanLength b) && decide (bookPlanLength b = secEntries b 1) &&
    (List.range (secEntries b 1)).all (fun i =>
      (bookBlocks b).all (fun off => decide (planSegment b i < blockSegments b off)))

/-- Every proven finish is at most 95 % of a Turn length in µs (R69). -/
def finishOk (b : List Byte) (len : Nat) : Bool :=
  (List.range (secEntries b 1)).all (fun i => decide (planFinish b i * 100 ≤ len * 1000 * 95))

/-- The check index of R83 that fails first; 0 none. Format versions from 1 to `maxFormat` are supported (1020:06). -/
def loadFaultOf (maxFormat : Nat) (b : List Byte) (squares : BitVec 144) : Nat :=
  if !loadHeaderOk b then 1
  else if !(decide (1 ≤ bookVersion b) && decide (bookVersion b ≤ maxFormat)) then 2
  else if !loadLayoutOk b b.length then 3
  else if !loadReservedOk b then 4
  else if !loadValuesOk b then 5
  else if bookSquareMask b ≠ squares.toNat then 6
  else if !finishOk b (bookTurnLength b) then 7
  else 0

/-! ### ARM (R503): section 0 -/

/-- What ARM refuses with: the detail of event 0x30 (0 where R116 gives none), Location and Argument. -/
abbrev ArmFault := Nat × List (LocKind × Nat) × List Nat

/-- The first fault of a list of things to check. -/
def firstFault {α : Type} (f : α → Option ArmFault) (l : List α) : Option ArmFault := l.findSome? f

/-- The fields of a chain-link entry (Table SQP-5) as ARM loads them: F 0, E D, epoch 0. -/
def entryOf (v : Nat) : Entry :=
  { depth := fld v 0 8, consumer := bit v 8, isLocal := bit v 9, peerSeat := fld v 12 12, peerSquare := fld v 24 8
    peerEntry := fld v 32 7, producerChannels := fld v 40 16, full := 0, empty := fld v 0 8, epoch := 0 }

/-- A chain-link entry that ARM refuses (R105). -/
def entryBad (e : Entry) : Bool :=
  decide (64 < e.depth) ||
    (e.isLocal && (e.consumer || decide (e.peerSeat ≠ 0) || decide (e.peerSquare ≠ 0) || decide (e.peerEntry ≠ 0))) ||
    decide (143 < e.peerSquare) ||
    (decide (e.depth ≠ 0) && !e.isLocal && !e.consumer && decide (e.producerChannels ≠ 0))

/-- R116: the program store, shares, empty segments. -/
def blockArmBad (b : List Byte) (off : Nat) : Bool :=
  decide (524288 < blockSize b off) || (List.range (blockSegments b off)).any (fun i =>
    let g := blockSegment b off i
    decide (256 < g.share.foldl (· + ·) 0) ||
      (decide (g.count = 0) && (decide (g.first ≠ 0) || g.share.any (fun x => decide (x ≠ 0)))))

def armBlock (b : List Byte) (off : Nat) : Option ArmFault :=
  if blockArmBad b off then some (0, [], [])
  else firstFault (fun e =>
    if entryBad (entryOf (blockEntryBits b off e)) then some (0x0B, [(.square, blockSquare b off), (.entry, e)], []) else none)
    (List.range 128)

/-! ### Sections 6 and 2 -/

def bookMover (b : List Byte) (i : Nat) : Rec := BitVec.ofNat 256 (rd (secRecord b 2 32 i) 0 32)

def armDesc (b : List Byte) (p i : Nat) : Option ArmFault :=
  let f := descArmFault (bookDesc b i) p
  if f ≠ 0 then some (f, [(.pool, i)], []) else none

/-- The descriptors of a chain from its first, rising (R152). -/
def chainFrom (b : List Byte) : Nat → Nat → List Nat
  | 0, _ => []
  | n + 1, i =>
    if secEntries b 2 ≤ i then []
    else
      let nx := mdNext (bookMover b i)
      i :: (if nx = mdEnd then [] else if nx ≤ i then [] else chainFrom b n nx)

def chainOf (b : List Byte) (i : Nat) : List Nat := chainFrom b (secEntries b 2) i

/-- The reserved bits of a Mover descriptor (Table MOV-2). -/
def mdReservedOk (r : Rec) : Bool :=
  decide (recBits r 60 4 = 0) && decide (recBits r 140 4 = 0) && decide (recBits r 163 1 = 0) &&
    decide (recBits r 180 12 = 0) && decide (recBits r 224 16 = 0)

/-- The ARM checks of a Mover descriptor in the order of Table MOV-5, then R130's pool indices. `host` marks a chain of the
host-interface Mover (Table MOV-1). -/
def armMoverFault (b : List Byte) (host : Bool) (i : Nat) : Nat :=
  let r := bookMover b i
  let k := mdKind r
  let pk := mdPaceKind r
  let pa := mdPaceArg r
  let named := [mdSrc r, mdDst r] ++ (if k = 0 then [] else [mdList r]) ++ (if mdBitmapEnable r then [mdBitmap r] else [])
  if !mdCheckOk r then 0x21
  else if !mdReservedOk r || (decide (k = 0) && decide (mdList r ≠ 0)) || (!mdBitmapEnable r && decide (mdBitmap r ≠ 0)) ||
      (decide (k ≠ 3) && decide (mdRound r ≠ 0)) || (decide (pk = 0) && decide (pa ≠ 0)) ||
      (decide (pk = 2) && (decide (fld pa 5 3 ≠ 0) || decide (fld pa 24 8 ≠ 0))) then 0x22
  else if decide (3 < k) || decide (4 < mdSwap r) || decide (pk = 3) || decide (1 < mdRound r) ||
      (host && decide (k = 3)) then 0x23
  else if decide (mdNext r ≠ mdEnd) && (decide (mdNext r ≤ i) || decide (secEntries b 2 ≤ mdNext r)) then 0x24
  else if (decide (pk = 1) && decide (bookTurnLength b * 1000 ≤ pa)) ||
      (decide (pk = 2) && ((!host && decide (16 ≤ pa % 32)) || decide (fld pa 8 16 = 0))) then 0x27
  else if named.any (fun x => decide (secEntries b 6 ≤ x)) then 0x1E
  else 0

/-- The descriptors that host transfers reach. -/
def hostChains (b : List Byte) : List Nat :=
  ((linkRecords b).filter (fun r => decide (rd r 0 1 = 4))).flatMap (fun r => chainOf b (rd r 8 4))

def armMover (b : List Byte) (i : Nat) : Option ArmFault :=
  let f := armMoverFault b ((hostChains b).contains i) i
  if f ≠ 0 then some (f, [(.descriptor, i)], []) else none

/-! ### Section 3 (R352, R377) -/

/-- Bytes [off, off + n) of a record are 0. -/
def zeros (r : List Byte) (off n : Nat) : Bool := decide (rd r off n = 0)

def routeReservedOk (r : List Byte) : Bool :=
  decide (rd r 1 1 / 2 = 0) && decide (rd r 2 2 / 4096 = 0) && zeros r 5 11 && zeros r 0x20 32
def windowReservedOk (r : List Byte) : Bool := zeros r 1 1 && zeros r 6 58
def transferReservedOk (r : List Byte) : Bool :=
  zeros r 0x16 2 && zeros r 0x22 6 && zeros r 0x30 16
def hostReservedOk (r : List Byte) : Bool :=
  decide (rd r 1 1 / 4 = 0) && decide (rd r 2 1 / 2 = 0) && zeros r 3 1 && zeros r 0xC 4 && zeros r 0x12 2 &&
    zeros r 0x16 2 && zeros r 0x20 32

/-- Route faults 0x59 and 0x5A. -/
def State.armRoute (s : State) (b r : List Byte) : Nat :=
  let n := rd r 4 1
  let hop := fun (i : Nat) => rd r (0x10 + i) 1
  let seat := rd r 2 2 % 4096
  if decide (n = 0) || decide (16 < n) || (List.range (min n 16)).any (fun i => decide (95 < hop i)) ||
      (List.range (16 - n)).any (fun i => decide (hop (n + i) ≠ 0xFF)) || decide (bookSeats b ≤ seat) ||
      decide (seat = bookSeat b) then 0x59
  else if bit (rd r 1 1) 0 && decide ((s.link (hop 0)).version = 1) then 0x5A
  else 0

/-- The offset of a Square's block, where SquareMask has it. -/
def blockOf (b : List Byte) (q : Nat) : Option Nat := (bookBlocks b).find? (fun off => decide (blockSquare b off = q))

def blockEntry (b : List Byte) (q e : Nat) : Entry :=
  match blockOf b q with
  | some off => entryOf (blockEntryBits b off e)
  | none => {}

/-- Two transfers of one channel in one plan entry, the later at index i (0x5E). -/
def transferTwice (b : List Byte) (i : Nat) : Bool :=
  let r := (linkRecords b).getD i []
  ((linkRecords b).take i).any (fun x => decide (rd x 0 1 = 3) && decide (rd x 2 1 = rd r 2 1) &&
    decide (rd x 1 1 % 8 = rd r 1 1 % 8) && decide (rd x 4 4 = rd r 4 4))

/-- The faults of a link transfer record after its reserved fields, with the descriptor for 0x27 (R160). -/
def armTransfer (b : List Byte) (i : Nat) : Nat × Option Nat :=
  let r := (linkRecords b).getD i []
  let route := (linkRecords b).getD (rd r 0xC 4) []
  let kind := rd r 3 1
  let chain := chainOf b (rd r 8 4)
  let q := rd r 0x10 1
  let rdy := rd r 0x11 1
  let spc := rd r 0x12 1
  let fp32 := fun (k : Nat) => decide ((tensorOf (bookDesc b k) 0).fmt = 0)
  let paceBad := fun (j : Nat) =>
    let d := bookMover b j
    decide (mdPaceKind d = 2) && (decide (8 ≤ mdPaceArg d % 32) || decide (mdPaceArg d % 32 = rd r 1 1 % 8))
  if decide (8 ≤ rd r 1 1) || decide (rd route 0 1 ≠ 1) || decide (rd route 0x10 1 ≠ rd r 2 1) || decide (secEntries b 2 ≤ rd r 8 4) ||
      chain.any (fun j => decide (mdKind (bookMover b j) = 3)) ||
      !(decide (kind = 1) || decide (kind = 2) || decide (kind = 5) || decide (kind = 6) || decide (kind = 7)) ||
      decide (rd r 0x14 2 = 0) ||
      (decide (kind = 5) && chain.any (fun j => !fp32 (mdSrc (bookMover b j)) || !fp32 (mdDst (bookMover b j)))) ||
      (decide (kind ≠ 5) && (decide (rd r 0x20 2 ≠ 0) || decide (rd r 0x28 8 ≠ 0))) then (0x5C, none)
  else match chain.find? paceBad with
    | some j => (0x27, some j)
    | none =>
      let er := blockEntry b q (rdy % 128)
      let es := blockEntry b q (spc % 128)
      if (blockOf b q).isNone || decide (143 < rd r 0x13 1) ||
          (bit rdy 7 && (decide (er.depth = 0) || !er.isLocal)) ||
          (bit spc 7 && (decide (es.depth = 0) || es.isLocal || es.consumer || decide (es.peerSquare ≠ rd r 0x13 1) ||
            decide (es.peerSeat ≠ rd route 2 2 % 4096))) then (0x5D, none)
      else if transferTwice b i then (0x5E, none)
      else (0, none)

/-- A host-side tensor of a host transfer runs beyond the area at some repeat (0x63). -/
def hostBeyond (b r : List Byte) (len : Nat) : Bool :=
  let q := rd r 0x10 1
  let e := rd r 0x11 1
  let d := (blockEntry b q (e % 128)).depth
  let reps := if bit e 7 && decide (d ≠ 0) then min (rd r 0x14 2) d else rd r 0x14 2
  let inward := decide (rd r 2 1 % 2 = 0)
  let shift := if inward then sfld (rd r 0x18 4) 0 32 else sfld (rd r 0x1C 4) 0 32
  (chainOf b (rd r 8 4)).any (fun j =>
    let m := bookMover b j
    let i := if inward then mdSrc m else mdDst m
    let out := fun (k : Nat) =>
      let t := tensorOf (bookDesc b i) ((k : Int) * shift)
      !t.empty && (decide (t.lo < 0) || decide ((len : Int) ≤ t.hi))
    out 0 || out (reps - 1))

/-- The faults of a host transfer record (R377), with the descriptor for 0x27: one that names channel 2p, which runs it (R160). -/
def State.armHost (s : State) (b r : List Byte) (p : Nat) : Nat × Option Nat :=
  let q := rd r 0x10 1
  let e := blockEntry b q (rd r 0x11 1 % 128)
  let paceBad := fun (j : Nat) => decide (mdPaceKind (bookMover b j) = 2) && decide (mdPaceArg (bookMover b j) % 32 = 2 * p)
  if !hostReservedOk r || decide (rd r 0x14 2 = 0) then (0x60, none)
  else if (blockOf b q).isNone || (bit (rd r 0x11 1) 7 && (decide (e.depth = 0) || !e.isLocal)) then (0x61, none)
  else if decide (rd r 1 1 % 4 ≠ 0) && decide (s.aslet.version = 1) then (0x62, none)
  else if secEntries b 2 ≤ rd r 8 4 then (0x24, none)
  else match (chainOf b (rd r 8 4)).find? paceBad with
    | some j => (0x27, some j)
    | none => (if hostBeyond b r (s.part p).bounceLen then 0x63 else 0, none)

/-- A Book with host transfers needs its session's bounce keys and an area (R370). -/
def Partition.bounceReady (x : Partition) (b : List Byte) : Bool :=
  (linkRecords b).all (fun r => decide (rd r 0 1 ≠ 4)) || (x.bounceKeys.isSome && decide (x.bounceLen ≠ 0))

/-- The checks of record i of section 3 (Table LNK-9). -/
def State.armLinkRecord (s : State) (b : List Byte) (p i : Nat) : Option ArmFault :=
  let r := (linkRecords b).getD i []
  let say := fun (f : Nat) => if f ≠ 0 then some (f, [(LocKind.index, i)], ([] : List Nat)) else none
  let sayAt := fun (f : Nat × Option Nat) => match f.2 with
    | some j => some (f.1, [(LocKind.descriptor, j)], ([] : List Nat))
    | none => say f.1
  match rd r 0 1 with
  | 1 => if !routeReservedOk r then say 0x58 else say (s.armRoute b r)
  | 2 =>
    if !windowReservedOk r then say 0x58
    else say (if rd r 5 1 &&& windowSet (s.link (rd r 4 1)).windowMap p ≠ rd r 5 1 then 0x5B else 0)
  | 3 =>
    if !transferReservedOk r then say 0x58
    else sayAt (armTransfer b i)
  | 4 => sayAt (s.armHost b r p)
  | _ => say 0x58

/-- Seats that posts, resets and gate messages go to, each with the source of the message. -/
def messageTargets (b : List Byte) : List (Nat × List (LocKind × Nat)) :=
  ((bookBlocks b).flatMap (fun off => (List.range 128).filterMap (fun e =>
    let x := entryOf (blockEntryBits b off e)
    if x.depth ≠ 0 ∧ !x.isLocal then some (x.peerSeat, [(LocKind.square, blockSquare b off), (.entry, e)]) else none))) ++
  ((List.range (secEntries b 5)).flatMap (fun i =>
    let r := (stepRecords b).getD i []
    if rd r 0 1 = 1 then (gateParent r :: gateChildren r).map (fun k => (k, [(LocKind.index, i)])) else []))

/-- A target without a route (R352): index 0xFFFF_FFFF, the seat in Argument. -/
def armTargets (b : List Byte) : Option ArmFault :=
  (messageTargets b).findSome? (fun t =>
    if t.1 ≠ bookSeat b ∧ (routeTo b t.1).isNone then some (0x59, (.index, 0xFFFFFFFF) :: t.2, [t.1]) else none)

/-! ### Section 4 (R289) -/

/-- The regions of a column: its values and its patches, with its number. -/
def columnRegions (b : List Byte) : List (Nat × Nat × Nat × Nat) :=
  (List.range (secEntries b 4)).flatMap (fun c =>
    let h := columnHeader b c
    [(columnValues h, 4 * columnRows h, 4, c), (columnPatchesAt h, 8 * columnPatches h, 8, c)])

/-- A region breaks the layout of section 4, or overlaps an earlier one. -/
def regionBad (b : List Byte) (rs : List (Nat × Nat × Nat × Nat)) (i : Nat) : Bool :=
  let x := rs.getD i (0, 0, 1, 0)
  decide (x.1 % x.2.2.1 ≠ 0) || decide (x.1 < 32 * secEntries b 4) || decide (secBytes b 4 < x.1 + x.2.1) ||
    (rs.take i).any (fun y => decide (0 < x.2.1) && decide (0 < y.2.1) && decide (x.1 < y.1 + y.2.1) && decide (y.1 < x.1 + x.2.1))

def armColumns (b : List Byte) : Option ArmFault :=
  let rs := columnRegions b
  if secBytes b 4 < 32 * secEntries b 4 then some (0x56, [(.index, 0)], [])
  else (List.range rs.length).findSome? (fun i =>
    if regionBad b rs i then some (0x56, [(.index, (rs.getD i (0, 0, 1, 0)).2.2.2)], []) else none)

/-- A patch names an element operation of a VRUN of a Square of the Book. -/
def patchOk (b : List Byte) (e : Nat) : Bool :=
  match blockOf b (fld e 0 8) with
  | none => false
  | some off =>
    let r := blockRecord b off (fld e 8 24)
    (blockHeads b off).contains (fld e 8 24) && decide (recOpcode r = 0x21) && decide (fld e 32 6 < recBits r 160 7)

def armColumn (b : List Byte) (c : Nat) : Option ArmFault :=
  let h := columnHeader b c
  let say := fun (f : Nat) => some (f, [(LocKind.index, c)], ([] : List Nat))
  let ps := (List.range (columnPatches h)).map (columnPatch b h)
  if !zeros h 0x18 8 || ps.any (fun e => decide (e / 2 ^ 38 ≠ 0)) then say 0x50
  else if decide (columnRows h = 0) || decide (columnPatches h = 0) || ps.any (fun e => !patchOk b e) then say 0x56
  else none

/-! ### Section 5 (R298) -/

/-- Indices of the step records of a kind. -/
def stepKind (b : List Byte) (k : Nat) : List Nat :=
  (List.range (secEntries b 5)).filter (fun i => decide (rd ((stepRecords b).getD i []) 0 1 = k))

/-- The gate Turns of the plan. -/
def gateTurns (b : List Byte) : List Nat := (List.range (secEntries b 1)).filter (fun i => (planFlags b i).testBit 0)

/-- The plan stands in the order of R270: plain Turns, the gate Turn, UpdateCount plain Turns, checkpoint Turns, evaluation
Turns. -/
def planOrderOk (b g : List Byte) : Bool :=
  match gateTurns b with
  | [gi] =>
    let n := secEntries b 1
    let u := gateUpdateCount g
    let fl := fun (i : Nat) => planFlags b i % 8
    decide (gi + u < n) && (List.range gi).all (fun i => decide (fl i = 0)) && decide (fl gi = 1) &&
      (List.range u).all (fun i => decide (fl (gi + 1 + i) = 0)) &&
      (List.range (n - (gi + 1 + u))).all (fun i =>
        let f := fl (gi + 1 + u + i)
        (decide (f = 2) || decide (f = 4)) && (decide (i = 0) || decide (fl (gi + u + i) ≤ f)))
  | _ => false

/-- The section-wide checks 0x51 and 0x52. -/
def armStepWide (b : List Byte) : Option ArmFault :=
  let gates := stepKind b 1
  let cks := stepKind b 6
  let want := if gateTurns b = [] then 0 else 1
  if gates.length ≠ want then some (0x51, [(.index, gates.getD 1 (gates.headD 0))], [])
  else if decide (1 < cks.length) || (decide (cks ≠ []) && decide (bookVersion b = 1)) then
    some (0x51, [(.index, cks.getD 1 (cks.headD 0))], [])
  else match gates with
    | [i] => if planOrderOk b ((stepRecords b).getD i []) then none else some (0x52, [(.index, i)], [])
    | _ => none

def gateReservedOk (r : List Byte) : Bool :=
  decide (rd r 1 1 / 4 = 0) && decide (rd r 0x12 2 / 4096 = 0) && zeros r 0x15 3 &&
    (List.range 8).all (fun i => decide (rd r (0x18 + 2 * i) 2 / 4096 = 0)) && zeros r 0x28 24

/-- The step-gate record (Table STP-1). -/
def armGate (b r : List Byte) : Nat :=
  let kids := rd r 0x14 1
  if !gateReservedOk r || decide (1 < gateClosedAction r) || decide (gateMaxClosures r = 0) ||
      decide (gateWord r % 4 ≠ 0) || decide (2 ^ 24 ≤ gateWord r) || decide (gateUpdateCount r = 0) ||
      (List.range (8 - kids)).any (fun i => decide (rd r (0x18 + 2 * (kids + i)) 2 ≠ 0)) then 0x50
  else if decide (bookSeats b ≤ gateParent r) || decide (8 < kids) ||
      (gateChildren r).any (fun c => decide (bookSeats b ≤ c)) then 0x57
  else 0

/-- The pages of a state range. -/
def rangePages (r : List Byte) : Nat × Nat := (rangeBase r / 65536, (rangeEnd r - 1) / 65536)

/-- A state range record (Table STP-4, R285): the earlier ranges share no page with it. -/
def armRange (b r : List Byte) (earlier : List (List Byte)) : Nat :=
  let f := rd r 1 1
  let fl := rd r 2 1
  let n := rangeBytes r
  let p := rangePages r
  let blocks := cdiv (cdiv (n * 8) (fmtBits f)) 256
  if decide (fl / 8 ≠ 0) || !zeros r 3 1 || !zeros r 6 2 || decide (rd r 8 8 / 2 ^ 42 ≠ 0) || !zeros r 0x18 40 ||
      (!bit fl 2 && decide (rd r 4 2 ≠ 0)) || decide (n = 0) then 0x50
  else if !fmtKnown f || decide (32 ≤ f) || decide (rangeBase r % 65536 ≠ 0) || decide (2 ^ 41 < rangeEnd r) ||
      earlier.any (fun e => decide (p.1 ≤ (rangePages e).2) && decide ((rangePages e).1 ≤ p.2)) then 0x53
  else if bit fl 2 && decide (secEntries b 6 ≤ rd r 4 2) then 0x1E
  else if bit fl 2 && decide ((tensorOf (bookDesc b (rd r 4 2)) 0).count < cdiv blocks 32) then 0x53
  else 0

/-- A batch advance record (R287). -/
def armAdvance (b r : List Byte) : Nat :=
  let d := bookDesc b (advanceDesc r)
  if !zeros r 1 1 || decide (rd r 8 8 / 2 ^ 36 ≠ 0) || !zeros r 0x10 48 then 0x50
  else if secEntries b 6 ≤ advanceDesc r then 0x1E
  else if decide (advanceRing r = 0) ||
      !(tensorOf d (((advanceRing r - 1 : Nat) : Int) * advanceStride r)).windowOk then 0x54
  else 0

/-- A carry swap record (R288). -/
def armSwap (b r : List Byte) : Nat :=
  let x := tensorOf (bookDesc b (swapCurrent r)) 0
  let y := tensorOf (bookDesc b (swapShadow r)) 0
  if !zeros r 1 1 || !zeros r 6 58 then 0x50
  else if decide (secEntries b 6 ≤ swapCurrent r) || decide (secEntries b 6 ≤ swapShadow r) then 0x1E
  else if decide (x.fmt ≠ y.fmt) || decide (x.rank ≠ y.rank) || decide (x.sizes ≠ y.sizes) ||
      decide (x.strides ≠ y.strides) || decide (x.winPages ≠ y.winPages) then 0x55
  else 0

def armStepRecord (b : List Byte) (i : Nat) : Option ArmFault :=
  let r := (stepRecords b).getD i []
  let f := match rd r 0 1 with
    | 1 => armGate b r
    | 3 => armRange b r (((stepRecords b).take i).filter (fun x => decide (rd x 0 1 = 3)))
    | 4 => armAdvance b r
    | 5 => armSwap b r
    | 6 => if !zeros r 1 3 || !zeros r 8 56 || decide (checkpointEvery r = 0) then 0x50 else 0
    | _ => 0x50
  if f ≠ 0 then some (f, [(.index, i)], []) else none

/-! ### All of ARM -/

/-- The first failure of ARM's checks in the order of R503. -/
def State.armFault (s : State) (p : Nat) : Option ArmFault :=
  let b := (s.part p).book
  (firstFault (armBlock b) (bookBlocks b)).or
    ((firstFault (armDesc b p) (List.range (secEntries b 6))).or
      ((firstFault (armMover b) (List.range (secEntries b 2))).or
        (((firstFault (s.armLinkRecord b p) (List.range (secEntries b 3))).or (armTargets b)).or
          ((armColumns b).or ((firstFault (armColumn b) (List.range (secEntries b 4))).or
            ((armStepWide b).or (firstFault (armStepRecord b) (List.range (secEntries b 5)))))))))

end Sys2Proof.Machine
end

