-- ==== Sys2Proof/Machine/TableMsg.lean ====
section
/-!
DEFINITION. Table messages that arrive (R60 to R65, R77 to R80, R86) and the time source (R63, R65).
-/

namespace Sys2Proof.Machine

open Sys2Proof

/-- A seat in a Table that is formed or forming. -/
def Partition.seated (x : Partition) : Bool := x.tabled || decide (x.runState = .armed) || decide (x.runState = .faulted)

/-- The partition whose seat a Table identity names. -/
def State.partOfTable (s : State) (id : Nat) : Option Nat :=
  (List.range 16).find? (fun p => (s.part p).seated && decide ((s.part p).tableId = id))

/-- The oldest Table message of a link, where it is of a kind: taken. -/
def State.takeTable (s : State) (l kind : Nat) : Option (State × TableMsg) :=
  match (s.link l).tableIn with
  | [] => none
  | m :: r => if m.kind = kind then some (s.updLink l (fun x => { x with tableIn := r }), m) else none

/-- A Turn number from its low 32 bits, nearest to the present Turn. -/
def wideTurn (cur low : Nat) : Nat :=
  let base := cur / 2 ^ 32 * 2 ^ 32 + low
  if cur + 2 ^ 31 < base ∧ 2 ^ 32 ≤ base then base - 2 ^ 32 else if base + 2 ^ 31 < cur then base + 2 ^ 32 else base

/-! ### Formation -/

/-- The joined set is complete: gate-tree roots are counted where the Book has a step gate (R298). -/
def State.joinedComplete (s : State) (p : Nat) : State :=
  let x := s.part p
  let roots := x.joined.filter (fun j => j.root)
  if decide (x.joined.length = bookSeats x.book) && (gateRecord x.book).isSome && decide (roots.length ≠ 1) then
    s.raise 0x30 0x57 (some p) [] [roots.length, (roots.map (fun j => j.seat)).foldl min (match roots with
      | [] => 0
      | j :: _ => j.seat)]
  else s

/-- A Join passes the check of R60: its Stamp is the Table digest, its seat another, its WindowSet this end's. -/
def State.joinOk (s : State) (p l : Nat) (m : TableMsg) : Bool :=
  let x := s.part p
  decide (m.stamp = bookDigest x.book) && decide (m.seat ≠ x.seat) &&
    decide (fld m.arg 8 8 = windowSet (s.link l).windowMap p)

/-- A Join is refused (R62): JoinFault, event 0x11, no forwarding. -/
def State.refuseJoin (s : State) (p : Nat) (m : TableMsg) : State :=
  (s.updPart p (fun x => { x with joinFault := m.seat })).raise 0x11 0x0F (some p) [(.seat, m.seat)] []

/-- Judge a Join at a seat (R60, R62): joined and flooded, or refused and not forwarded. -/
def State.takeJoin (s : State) (p l : Nat) (m : TableMsg) : State :=
  let s0 := s.remember p m
  if s.joinOk p l m then
    let s1 := s0.updPart p (fun x =>
      { x with joined := x.joined ++ [{ seat := m.seat, protocol := fld m.arg 0 8, root := bit m.arg 16 }]
               tableProtocol := min x.tableProtocol (fld m.arg 0 8) })
    (s1.flood p m (some l)).joinedComplete p
  else s0.refuseJoin p m

/-- A Join that cannot be an echo of the seat's own: it has one Table link only (log 23). -/
def Partition.noEcho (x : Partition) (m : TableMsg) : Bool :=
  decide (m.seat = x.seat) && decide ((tableLinks x.book).length ≤ 1)

/-- A Join reaches the seat on a link. Each copy is held to the check of R60 on its own link: of one that the seat has joined or
refused already, a further link's copy is refused or changes nothing. The second sending of a copy is recognised (R346). -/
def State.meetJoin (s : State) (p l : Nat) (m : TableMsg) : State :=
  let x := s.part p
  if x.knowsOn l m then s
  else if x.knows m && !x.noEcho m then
    if decide (m.seat = x.seat) || s.joinOk p l m then s.rememberOn p l m else (s.rememberOn p l m).refuseJoin p m
  else (s.rememberOn p l m).takeJoin p l m

/-- JOIN_RECEIVED (R60). One for a Table with no seat here yet waits for the seat's ARM (log 23). -/
def execJoinReceived (l : Nat) (s : State) : Out :=
  onUnit (decide (l < 96)) (
    match s.takeTable l 4 with
    | none => s
    | some (t, m) =>
      match t.partOfTable m.tableId with
      | none => { t with earlyJoins := t.earlyJoins ++ [(l, m)] }
      | some p => t.meetJoin p l m)

/-- START_RECEIVED (R61): the earliest stamp, then the lower seat, fixes Turn 0. -/
def execStartReceived (l : Nat) (s : State) : Out :=
  onUnit (decide (l < 96)) (
    match s.takeTable l 5 with
    | none => s
    | some (t, m) =>
      match t.partOfTable m.tableId with
      | none => t
      | some p =>
        if (t.part p).knows m then t
        else
          let t1 := (t.remember p m).updPart p (fun x => { x with start := match x.start with
            | some b => if m.stamp < b.1 ∨ (m.stamp = b.1 ∧ m.seat < b.2) then some (m.stamp, m.seat) else some b
            | none => some (m.stamp, m.seat) })
          t1.flood p m (some l))

/-! ### Holds, Releases, Lengths -/

/-- HOLD_RECEIVED (R77). -/
def execHoldReceived (l : Nat) (s : State) : Out :=
  onUnit (decide (l < 96)) (
    match s.takeTable l 1 with
    | none => s
    | some (t, m) =>
      match t.partOfTable m.tableId with
      | none => t
      | some p =>
        if (t.part p).knows m then t
        else ((t.remember p m).flood p m (some l)).takeHold p m.seat m.cause (wideTurn (t.part p).turn m.arg))

/-- The outcome that a Release stands for: an action complete for causes 0x02 to 0x05, otherwise a release (R473). -/
def releaseOutcome (cause : Nat) : Nat := if 2 ≤ cause ∧ cause ≤ 5 then 3 else 2

/-- RELEASE_RECEIVED (R79). -/
def execReleaseReceived (l : Nat) (s : State) : Out :=
  onUnit (decide (l < 96)) (
    match s.takeTable l 2 with
    | none => s
    | some (t, m) =>
      match t.partOfTable m.tableId with
      | none => t
      | some p =>
        if (t.part p).knows m then t
        else
          (((t.remember p m).flood p m (some l)).holdEvent p m.cause (releaseOutcome m.cause) m.seat).updPart p
            (fun x => x.dropHold m.seat m.stamp))

/-- The length in µs that the seat has committed; none without a change. -/
def Partition.newLength (x : Partition) : Option Nat :=
  if x.turnLengthSet = 0 then none
  else some (if x.turnLengthSet = 1 then bookTurnLength x.book else x.turnLengthSet - 1)

/-- The seat's own Hold for its length ends once every seat has sent the same length (R86 step 4). The Hold is told apart
from the operator's by its number (cause 0x06). -/
def lengthHold : Nat := 0x106

def State.lengthsAgree (s : State) (p : Nat) : State :=
  let x := s.part p
  match x.newLength with
  | none => s
  | some v =>
    if decide (x.lengths.length = bookSeats x.book) && x.lengths.all (fun e => decide (e.2 = v)) then
      s.releaseHold p lengthHold 2
    else s

/-- A Length of a seat (R86): a later one replaces the earlier; one that differs from the seat's own leaves it held and raises event
0x11. One that comes before the seat's own commit is compared at no time but by the count of equal lengths (log 103). -/
def State.takeLength (s : State) (p : Nat) (m : TableMsg) : State :=
  let x := s.part p
  let v := fld m.arg 0 16
  let s1 := s.updPart p (fun y => { y with lengths := Tab.put y.lengths m.seat v })
  match x.newLength with
  | none => s1
  | some own => if v = own then s1.lengthsAgree p else s1.raise 0x11 0x06 (some p) [(.seat, m.seat)] [5]

/-- LENGTH_RECEIVED (R86): a Table at version 1 has no such message and discards it. -/
def execLengthReceived (l : Nat) (s : State) : Out :=
  onUnit (decide (l < 96)) (
    match s.takeTable l 6 with
    | none => s
    | some (t, m) =>
      match t.partOfTable m.tableId with
      | none => t
      | some p =>
        if (t.part p).tableProtocol < 2 then t.count 2
        else if (t.part p).knows m then t
        else ((t.remember p m).flood p m (some l)).takeLength p m)

/-! ### Turn marks (R65) -/

/-- The delay of a link: half its round trip (R358). -/
def Link.delay (x : Link) : Nat := x.roundTrip / 2

/-- A Turn mark came within 100 ns of its expected arrival. -/
def State.markInTime (s : State) (p l : Nat) : Bool :=
  let due := (s.part p).turnStart (s.part p).turn + (s.link l).delay
  decide (s.now ≤ due + 100) && decide (due ≤ s.now + 100)

/-- No link's Turn marks fail R65. -/
def Partition.aligned (x : Partition) : Bool := x.lateMarks.all (fun e => decide (e.2 < 3))

/-- TURN_MARK_RECEIVED (R65): a wrong number, or the third mark in turn outside the window, is an alignment fault. The seat acts on the
first copy that a link brings (R346); its Hold ends once the marks of every link pass. -/
def execTurnMarkReceived (l : Nat) (s : State) : Out :=
  onUnit (decide (l < 96)) (
    match s.takeTable l 3 with
    | none => s
    | some (t, m) =>
      match t.partOfTable m.tableId with
      | none => t
      | some p =>
        let x := t.part p
        if x.knowsOn l m || !(decide (x.runState = .running) || decide (x.runState = .draining)) then t
        else
          let okN := decide (m.arg = x.turn % 2 ^ 32)
          let t0 := t.rememberOn p l m
          if okN && t.markInTime p l then
            let t1 := t0.updPart p (fun y => { y with lateMarks := Tab.put y.lateMarks l 0 })
            if (t1.part p).aligned then t1.releaseHold p 0x08 2 else t1
          else
            let k := if okN then Tab.get 0 x.lateMarks l + 1 else 3
            let t1 := t0.updPart p (fun y => { y with lateMarks := Tab.put y.lateMarks l k })
            if 3 ≤ k then (t1.raise 0x10 0x02 (some p) [(.link, l)] []).requestHold p 0x08 else t1)

/-- TIME_SOURCE_LOST (R65). -/
def execTimeSourceLost (s : State) : Out :=
  .next (if s.holdover then s else ({ s with holdover := true } : State).raise 0x10 0x03 none [] [])

/-- TIME_SOURCE_RESTORED (R65): the source is followed again. -/
def execTimeSourceRestored (s : State) : Out := .next { s with holdover := false }

end Sys2Proof.Machine
end

