-- ==== Sys2Proof/Machine/RunCommand.lean ====
section
/-!
DEFINITION. The run commands of 6p01 (R421, Table ULY-5): LOAD, ARM, RUN, HOLD, RELEASE, STOP, UNLOAD.
-/

namespace Sys2Proof.Machine

open Sys2Proof

/-- The request is a run command with a code. -/
def isRunCommand (r : Req) (code : Nat) : Bool := reqNames6 r 0x01 0 && reqByteIs r code

/-- Run a run command with its condition of order 7 and others, and its effect. -/
def runCommand (s : State) (r : Req) (code : Nat) (chk : State → Nat) (act : State → State) : Out :=
  .next (if isRunCommand r code then s.command r chk act else s)

/-- RUN requests that Turn 0 never answers are refused. -/
def State.refuseRuns (s : State) (p : Nat) : State :=
  (s.part p).runs.foldl (fun t r => t.reply r abState) (s.updPart p (fun x => { x with runs := [] }))

/-- What a partition holds of its Table is gone (STOP, R421; a new LOAD or ARM). -/
def Partition.leaveTable (x : Partition) : Partition :=
  { x with joined := [], start := none, holdTarget := none, holders := [], ownHold := [], holdCauses := [], seen := [], seenOn := []
           lastRelease := 0, resumeAt := none, heldAt := none, lengths := [], lateMarks := [], late := [], deferred := []
           workTurn := none, turnLengthSet := 0, vote := none, childVotes := [], voteSent := false, decision := none
           gateIn := [], inStep := false, stepOpen := false, ckpt := none }

/-- The Players of a Square stop, and nothing is in flight. -/
def Square.halt (x : Square) : Square :=
  { x with seg := none, inflight := [], vqueue := [], vbusy := none, vstopped := false, vfault := [], claims := []
           players := x.players.map (fun (e : Nat × Player) => (e.1, { e.2 with running := false, stopped := false })) }

def State.haltSquares (s : State) (p : Nat) : State := (s.squaresOf p).foldl (fun t q => t.updSq q Square.halt) s

/-! ### LOAD (R83) -/

/-- What LOAD does to a Square: Overlap mode (R181), VL 0 (R219), masks cleared (R232), bank 0 active in every quad (R240). -/
def Square.onLoad (x : Square) : Square :=
  { x with chainMode := false, lutActive := 0
           players := x.players.map (fun (e : Nat × Player) => (e.1, { e.2 with vl := 0, masks := [] })) }

/-- LOAD's effect: the earlier loaded state is discarded, the Book measured and checked. -/
def State.load (s : State) (p : Nat) : State × Nat :=
  let x := s.part p
  let s1 := ((s.haltSquares p).dropTableKeys p).updPart p (fun y =>
    { y.leaveTable with book := [], pool := [], mdesc := [], contained := false, bookMeasurement := Config.sha384 x.image
                        runState := .empty })
  let f := loadFaultOf (s.service.maxima.getD 5 2) x.image x.squares
  if f ≠ 0 then (s1.updPart p (fun y => { y with loadFault := f }), abRange)
  else
    let b := x.image
    let s2 := s1.updPart p (fun y =>
      { y with loadFault := 0, book := b, tableId := bookTableId b, seat := bookSeat b, stepCounter := 0, batchCounter := 0
               contained := decide (bookFlags b % 2 = 1), turnLength := 0, runState := .loaded })
    ((s2.squaresOf p).foldl (fun t q => t.updSq q Square.onLoad) s2, 0)

/-- LOAD (R83). -/
def execLoad (r : Req) (s : State) : Out :=
  runCommand s r 0x01 (fun t =>
      let x := t.part (reqPart r)
      if x.placing then abBusy
      else if !(decide (x.runState = .empty) || decide (x.runState = .stopped) || decide (x.runState = .faulted)) then abState
      else if x.placedBytes = 0 then abState
      else 0)
    (fun t => let y := t.load (reqPart r); y.1.reply r y.2)

/-! ### ARM (R116, R481, Table TTB-1 step 1) -/

/-- A Square takes its block (R116): records, segments, chain-link entries, empty wait slots (R94). -/
def Square.takeBlock (x : Square) (b : List Byte) (off : Nat) : Square :=
  { x.halt with recs := blockRecords b off
                segs := (List.range (blockSegments b off)).map (blockSegment b off)
                chain := (List.range 128).map (fun e => (e, entryOf (blockEntryBits b off e)))
                players := x.players.map (fun (e : Nat × Player) =>
                  (e.1, { e.2 with running := false, stopped := false, slots := [], loops := [], index := [] }))
                endedAt := none }

/-- The seat's own Join (Table TTB-5); `high` is the highest Table protocol that the module supports (R85). -/
def ownJoin (high : Nat) (x : Partition) : TableMsg :=
  let root := match gateRecord x.book with
    | some g => decide (gateParent g = x.seat)
    | none => false
  { tableId := x.tableId, kind := 4, rsv := 0, cause := 0, seat := x.seat, stamp := bookDigest x.book
    arg := high + if root then 65536 else 0 }

/-- Joins that came before the seat armed are taken now (log 23). -/
def State.takeEarly (s : State) (p : Nat) : State :=
  let mine := s.earlyJoins.filter (fun e => decide (e.2.tableId = (s.part p).tableId))
  let s1 := { s with earlyJoins := s.earlyJoins.filter (fun e => decide (e.2.tableId ≠ (s.part p).tableId)) }
  mine.foldl (fun t e => t.meetJoin p e.1 e.2) s1

/-- KEYSHAREs that came before the seat armed give their keys now (log 23). -/
def State.takeShares (s : State) (p l : Nat) : State :=
  let mine := fun (z : Nat × Nat × List Byte) => decide (z.2.1 = (s.part p).tableId)
  let s1 := s.updLink l (fun x => { x with shares := x.shares.filter (fun z => !mine z) })
  let s2 := ((s.link l).shares.filter mine).foldl (fun t z => t.installKey p l z.1 z.2.2) s1
  (s2.updLink l (fun x => x.drain s.now)).takeStream l

/-- The Joins go out, and a KEYSHARE on each link of the Table (R343). -/
def State.sendJoin (s : State) (p : Nat) : State :=
  let m := ownJoin (s.service.maxima.getD 4 2) (s.part p)
  let s1 := ((tableLinks (s.part p).book).foldl (fun t l => (t.offerKey p l).takeShares p l) s)
  ((s1.remember p m).flood p m none).joinedComplete p

/-- ARM's effect once every check has passed. -/
def State.arm (s : State) (p : Nat) : State :=
  let b := (s.part p).book
  let s1 := (bookBlocks b).foldl (fun t off => t.updSq (blockSquare b off) (fun x => x.takeBlock b off)) s
  let s2 := s1.updPart p (fun x =>
    { x.leaveTable with anchors := [], pool := (List.range (secEntries b 6)).map (bookDesc b)
                        mdesc := (List.range (secEntries b 2)).map (bookMover b)
                        turn := 0, epoch := 0, epochTurn := 0, frozen := false, errorLatch := false, runState := .armed
                        tableProtocol := s.service.maxima.getD 4 2, joinFault := 0xFFFF, lastActivity := s.now })
  let s3 := s2.updPart p (fun x =>
    { x with joined := [{ seat := x.seat, protocol := s.service.maxima.getD 4 2, root := bit (ownJoin 2 x).arg 16 }] })
  let s4 := if (s3.part p).stepCounter % 2 = 1 then s3.applySwaps p else s3
  (((s4.applyAdvances p).applyPatches p).takeEarly p).sendJoin p

/-- ARM (R503). It waits for the end of a delivery, so that no Book runs during one (R392; log 113), and a Book with host transfers for
its bounce keys and area (R370). -/
def execArm (r : Req) (s : State) : Out :=
  runCommand s r 0x02 (fun t =>
      if t.service.selfTest = 1 then abBusy
      else if (t.part (reqPart r)).runState ≠ .loaded then abState
      else if t.power.state ≠ .active then abState
      else if (t.part (reqPart r)).delivering then abBusy
      else if !(t.part (reqPart r)).bounceReady (t.part (reqPart r)).book then abState
      else 0)
    (fun t =>
      let p := reqPart r
      match t.armFault p with
      | some f => (if f.1 = 0 then t else t.raise 0x30 f.1 (some p) f.2.1 f.2.2).reply r abRange
      | none => (t.arm p).reply r 0)

/-! ### RUN, HOLD, RELEASE, STOP, UNLOAD -/

/-- What RUN needs (R61, R85, R298). -/
def Partition.mayRun (x : Partition) : Bool :=
  decide (x.runState = .armed) && x.formed &&
    ((gateRecord x.book).isNone || decide ((x.joined.filter (fun j => j.root)).length = 1)) &&
    decide (bookProtocolMin x.book ≤ x.tableProtocol)

/-- RUN (R61): floods a Start; answered when Turn 0 begins (R421). -/
def execRun (r : Req) (s : State) : Out :=
  runCommand s r 0x03 (fun t => if (t.part (reqPart r)).delivering then abBusy else if (t.part (reqPart r)).mayRun then 0 else abState)
    (fun t =>
      let p := reqPart r
      let x := t.part p
      let m : TableMsg := { tableId := x.tableId, kind := 5, rsv := 0, cause := 0, seat := x.seat, stamp := t.now, arg := 0 }
      let t1 := t.updPart p (fun y =>
        { y with runs := y.runs ++ [r]
                 start := match y.start with
                   | some b => if t.now < b.1 ∨ (t.now = b.1 ∧ y.seat < b.2) then some (t.now, y.seat) else some b
                   | none => some (t.now, y.seat) })
      (t1.remember p m).flood p m none)

/-- HOLD (R421): answered once the Hold has been flooded. -/
def execHold (r : Req) (s : State) : Out :=
  runCommand s r 0x04 (fun t =>
      let x := t.part (reqPart r)
      if x.tabled && !x.ownHold.contains 0x06 then 0 else abState)
    (fun t => (t.requestHold (reqPart r) 0x06).reply r 0)

/-- RELEASE (R421). -/
def execRelease (r : Req) (s : State) : Out :=
  runCommand s r 0x05 (fun t =>
      let x := t.part (reqPart r)
      if (decide (x.runState = .draining) || decide (x.runState = .held)) && x.ownHold.contains 0x06 then 0 else abState)
    (fun t => (t.releaseHold (reqPart r) 0x06 2).reply r 0)

/-- STOP (R421): the partition leaves its Table and keeps its memory. -/
def execStop (r : Req) (s : State) : Out :=
  runCommand s r 0x06 (fun t =>
      let x := t.part (reqPart r)
      if x.runState = .armed ∨ x.runState = .held then 0 else abState)
    (fun t =>
      let p := reqPart r
      let t1 := ((t.refuseRuns p).haltSquares p).dropTableKeys p
      (t1.updPart p (fun x => { x.leaveTable with runState := .stopped })).reply r 0)

/-- UNLOAD (R421): the loaded Book and the placed image are discarded. -/
def execUnload (r : Req) (s : State) : Out :=
  runCommand s r 0x07 (fun t =>
      let x := t.part (reqPart r)
      if x.runState = .loaded ∨ x.runState = .stopped ∨ x.runState = .faulted then 0 else abState)
    (fun t =>
      let p := reqPart r
      let t1 := (t.haltSquares p).dropTableKeys p
      (t1.updPart p (fun x =>
        { x.leaveTable with book := [], pool := [], mdesc := [], image := [], placedBytes := 0, contained := false
                            runState := .empty })).reply r 0)

end Sys2Proof.Machine
end

