-- ==== Sys2Proof/Machine/Supply.lean ====
section
/-!
DEFINITION. Power states and thermal levels: changes of state (R451), clearing Squares (R34), SAFE (R461), the loss of supply
(R444, R454), rails (R446), thermal levels (R458 to R460).
-/

namespace Sys2Proof.Machine

open Sys2Proof

/-! ### Squares (R34) -/

/-- A cleared Square (R34): Local Store, Accumulator Memory, Player and mask registers, semaphores, lookup tables and Mover
staging at zero. -/
def Square.cleared (x : Square) : Square :=
  { x.halt with
    ls := [], acc := [], players := [], lut := [], lutActive := 0, lsErr := [], accErr := [], lutErr := []
    maskErr := [], tempErr := [], feedErr := [], drainErr := []
    chain := x.chain.map (fun (e : Nat × Entry) =>
      (e.1, { e.2 with full := 0, empty := 0, epoch := 0, waiterF := none, waiterE := none }))
    mover := x.mover.map (fun (c : Nat × Channel) =>
      (c.1, { c.2 with codes := [], staged := [], stagedFrom := 0, raw := [] })) }

def State.clearSquare (s : State) (q : Nat) : State := s.updSq q Square.cleared

/-- The Squares are cleared as the compute dies power up (R452). -/
def State.clearSquares (s : State) : State := (List.range 144).foldl (fun t q => t.clearSquare q) s

/-! ### Rails (Table PWR-2): 0 off, 1 on, 2 shut down on short -/

def railsFrom (lo hi v : Nat) (t : Tab Nat) : Tab Nat :=
  (List.range (hi - lo)).foldl (fun u i => if Tab.get 0 u (lo + i) = 2 then u else Tab.put u (lo + i) v) t

def State.setRails (s : State) (lo hi v : Nat) : State :=
  s.updPower (fun x => { x with rails := railsFrom lo hi v x.rails })

/-- The rails that a power state feeds (Table PWR-4): the compute dies' 0 to 3, the rest of the dies' 4 to 21, the
always-on domain's 22, the auxiliary 23. -/
def State.railsFor (s : State) (st : PowerState) : State :=
  match st with
  | .off => s.setRails 0 24 0
  | .boot => ((s.setRails 0 22 0).setRails 22 23 1).setRails 23 24 1
  | .ready => (s.setRails 0 4 0).setRails 4 24 1
  | .active => s.setRails 0 24 1
  | .standby => (s.setRails 0 4 0).setRails 4 24 1
  | .sleep => (s.setRails 0 4 0).setRails 4 22 0
  | .safe => s.setRails 0 22 0

/-- A change of power state (R451): event 0x90 detail 0x07. -/
def State.toPower (s : State) (st : PowerState) : State :=
  ((s.updPower (fun x => { x with state := st })).railsFor st).raise 0x90 0x07 none [] []

/-! ### Links that lose their power -/

/-- A link is down without a fault of its own: it carries nothing, and its entry into DOWN is counted. -/
def Link.unplug (x : Link) : Link :=
  { x with state := 0, counters := if x.up then Tab.upd 0 x.counters 5 (fun n => satAdd n 1) else x.counters }

def State.linksDown (s : State) : State := { s with links := s.links.map (fun (e : Nat × Link) => (e.1, e.2.unplug)) }

/-! ### SAFE -/

/-- SAFE (R450, R461, R465): the always-on domain only. -/
def State.enterSafe (s : State) : State :=
  if s.power.state = .off ∨ s.power.state = .safe then s
  else
    let s1 := (s.linksDown.updAslet (fun a => { a with state := 0, tunnel := false })).toPower .safe
    (s1.raise 0x90 0x09 none [] []).setFlag 1

/-! ### The loss of supply -/

/-- What outlives a loss of power (R428, R450, R467, R486): fuses, flash with its images, the non-volatile store of kept
objects, the reverse-polarity latch, the pins, the flags of 1001:01. -/
def State.unpowered (s : State) : State :=
  { State.reset with
    now := s.now
    fresh := s.fresh
    pending := s.pending
    slotPins := s.slotPins
    statusFlags := s.statusFlags
    timeSource := s.timeSource
    phys := s.phys.map (fun (e : Nat × Phys) => (e.1, { fuses := e.2.fuses, fieldSet := e.2.fieldSet }))
    links := s.links.map (fun (e : Nat × Link) => (e.1, { swapThreshold := e.2.swapThreshold }))
    groups := s.groups.map (fun (e : Nat × LinkGroup) => (e.1, { cable := e.2.cable }))
    dram := { autoRepair := s.dram.autoRepair, repairThreshold := s.dram.repairThreshold
              stackTab := s.dram.stackTab.map (fun (e : Nat × Stack) =>
                (e.1, { map := e.2.map, free := e.2.free, retired := e.2.retired, returned := e.2.returned })) }
    sec := { operatorAnchor := s.sec.operatorAnchor, nextKey := s.sec.nextKey, aliasGeneration := s.sec.aliasGeneration }
    power := { wakeSources := s.power.wakeSources, slackLow := s.power.slackLow, slackHigh := s.power.slackHigh
               reverseLatch := s.power.reverseLatch, inputVoltage := s.power.inputVoltage }
    service := { images := s.service.images, active := s.service.active } }

/-- The module goes OFF (Table PWR-1): every rail stops; the sessions end with the restart (R386); the next BOOT reports
the cause. -/
def State.goOff (s : State) (cause : Nat) : State :=
  if s.power.state = .off then s
  else
    let s1 := s.unpowered.updPower (fun x => { x with pendingCause := cause })
    s.sec.sessions.foldl (fun t e => t.raise 0x70 0x33 (if 2 ≤ e.1 then some (e.1 - 2) else none) [(.session, e.1)] []) s1

/-- OFF becomes BOOT (Table PWR-5, Table SVC-1 step 1): the reverse latch is read and cleared, the pins are read (R493). -/
def State.boot (s : State) : State :=
  let c := s.power.pendingCause
  let cause := if s.power.reverseLatch then 3 else c
  let flags := (if s.power.reverseLatch then 1 else 0) + (if c = 3 then 2 else 0)
  let s1 := (s.updPower (fun x =>
    { x with resetCause := cause, supplyFlags := flags, reverseLatch := false, pendingCause := 0, inputOn := true
             inputSince := s.now })).toPower .boot
  { s1 with slotId := s1.slotPins % 8, coordinatorSilent := false }

/-! ### Thermal levels (R458 to R461) -/

/-- Rising thresholds of Warm, Hot, Critical and the limit, in °C (Table PWR-8): stack zones, then compute dies. -/
def zoneThresholds (z : Nat) : List Nat := if z < 32 then [85, 92, 95, 100] else [90, 95, 98, 105]

/-- A reading is at or above so many °C. -/
def atLeast (reading : Word) (c : Nat) : Bool :=
  let v := dec32 reading.toNat
  !v.isNan && !v.lt (valNat c)

/-- The level up to which a reading raises a zone. -/
def levelUp (th : List Nat) (reading : Word) : Nat → Nat → Nat
  | 0, l => l
  | n + 1, l => if l < 3 ∧ atLeast reading (th.getD l 0) then levelUp th reading n (l + 1) else l

/-- The level down to which a reading lowers a zone: 3 K below the threshold of the level. -/
def levelDown (th : List Nat) (reading : Word) : Nat → Nat → Nat
  | 0, l => l
  | n + 1, l =>
    if 0 < l ∧ ((dec32 reading.toNat).cmp (valNat (th.getD (l - 1) 0 - 3)) ≤ 0 ∧ (dec32 reading.toNat).isNan = false) then
      levelDown th reading n (l - 1)
    else l

/-- The level of a zone after a reading. -/
def newLevel (z level : Nat) (reading : Word) : Nat :=
  let th := zoneThresholds z
  levelDown th reading 3 (levelUp th reading 3 level)

/-- The compute domains that a zone at Hot holds (R459). -/
def zoneDomains (z : Nat) : List Nat :=
  (List.range 36).filter (fun d => (domainSquares d).any (fun q => (sqZones q).contains z))

/-- The highest level among all zones and dies. -/
def State.topLevel (s : State) : Nat := (List.range 36).foldl (fun m z => max m (s.zoneLevel z)) 0

/-- What a change of level does (R459, R460): Hot moves the zone's domains to 0.68 V at once; Critical requests a Hold;
its cause ends when no zone is at Hot or Critical. -/
def State.levelActions (s : State) (z old new : Nat) : State :=
  let s1 := if old < 2 ∧ 2 ≤ new then (zoneDomains z).foldl (fun t d => t.setDomain d 680) s else s
  let s2 := if old < 3 ∧ new = 3 then s1.holdModule 0x01 else s1
  if s2.topLevel < 2 then s2.releaseModule 0x01 2 else s2

/-- Judge the level of a zone by a reading (R458, R461). -/
def State.judgeZone (s : State) (z : Nat) (reading : Word) : State :=
  if atLeast reading ((zoneThresholds z).getD 3 0) then
    (s.raise 0x60 0x04 none [(.zone, z)] [reading.toNat]).enterSafe
  else
    let old := s.zoneLevel z
    let new := newLevel z old reading
    if new = old then s
    else
      ((s.updThermal (fun x => { x with level := Tab.put x.level z new, changes := satAdd x.changes 1 })).raise 0x60 new none
        [(.zone, z)] [reading.toNat]).levelActions z old new

/-- A compute domain at the voltage it has without trim: 0.68 V where it is not owned, Hot or limited. -/
def State.settleDomain (s : State) (d : Nat) : State :=
  if !s.domainOwned d || s.domainHot d || s.power.limited then s.setDomain d 680 else s

end Sys2Proof.Machine
end

