-- ==== Sys2Proof/Machine/Values.lean ====
section
/-!
DEFINITION. The value that every object of the dictionary reads as (R425 to R443, Tables OBD-1 to OBD-11).
-/

namespace Sys2Proof.Machine

open Sys2Proof

/-- The highest sub-index of an index (R427). -/
def topSub (idx : Nat) : Nat := ((List.range 256).filter (fun k => decide (k ≠ 0) && (objOf idx k).isSome)).getLastD 0

/-- A table of 64-bit counters as bytes. -/
def counterBytes (n : Nat) (f : Nat → Nat) : List Byte := (List.range n).flatMap (fun i => leBytes 8 (f i))

/-- (index, sub) pairs as 4-byte entries. -/
def pairBytes (l : List (Nat × Nat)) : List Byte := l.flatMap (fun o => leBytes 2 o.1 ++ leBytes 1 o.2 ++ [0])

def wordBytes (w : Word) : List Byte := leBytes 4 w.toNat
def boolBytes (b : Bool) : List Byte := leBytes 1 (if b then 1 else 0)

/-- Bytes of a constant vector. -/
def vecBytes {n : Nat} (v : Vector Byte n) : List Byte := v.toList

/-! ### Table OBD-1 -/

def powerCode (st : PowerState) : Nat :=
  match st with
  | .off => 0
  | .boot => 1
  | .ready => 2
  | .active => 3
  | .standby => 4
  | .sleep => 5
  | .safe => 6

/-- An entry of FunctionTable (Table FUN-2). -/
def functionEntry (code : Nat) : List Byte :=
  leBytes 1 code ++ leBytes 1 (funKind code) ++ leBytes 1 (funDegree code) ++ [0] ++
    (List.range 3).flatMap (fun i => wordBytes (funConst code (i + 1))) ++
    (List.range 12).flatMap (fun i => wordBytes (funCoef code i))

/-- The history of 1003, oldest first. -/
def State.historyBytes (s : State) : List Byte :=
  ((s.events.zip (List.range s.events.length)).flatMap (fun e =>
    e.1.bytes (Config.historyNumber (s.eventsRaised - s.events.length + e.2)).toNat))

/-- The firmware image of a slot (0 A, 1 B); one that was never staged is as made (log 28). -/
def madeImage (n : Nat) : Image :=
  { state := if n = 0 then 2 else 1, measurement := Config.imageAtManufacture n, version := Config.versionAtManufacture n }
def State.image (s : State) (n : Nat) : Image := Tab.get (madeImage n) s.service.images n

def State.read1 (s : State) (idx sub : Nat) : List Byte :=
  match idx, sub with
  | 0x1000, 1 => textBytes "Saranawell"
  | 0x1000, 2 => textBytes "Velder 9600"
  | 0x1000, 3 => textBytes "SW-V9600-LQ"
  | 0x1000, 4 => [0xB1]
  | 0x1001, 1 => leBytes 4 s.statusFlags
  | 0x1001, 2 => counterBytes 6 (fun i => Tab.get 0 s.flagEvents i)
  | 0x1001, 3 => leBytes 8 (s.now - s.power.inputSince)
  | 0x1001, 4 => pairBytes s.defaulted
  | 0x1003, 1 => s.historyBytes
  | 0x1003, 2 => leBytes 8 s.eventsRaised
  | 0x1018, 1 => leBytes 8 Config.deviceSerial.toNat
  | 0x1018, 2 => leBytes 1 s.slotId
  | 0x1020, k => leBytes 1 (s.service.maxima.getD (k - 1) 0)
  | 0x1040, _ => (List.range 15).flatMap (fun i => functionEntry (i + 1))
  | 0x1F52, _ => leBytes 1 s.service.stageStatus
  | 0x1F54, _ => leBytes 1 s.service.activation
  | 0x1F55, _ => leBytes 1 s.service.active
  | 0x1F50, 1 => leBytes 1 (s.image 0).state
  | 0x1F50, 2 => leBytes 48 (s.image 0).measurement.toNat
  | 0x1F50, 3 => (s.image 0).version
  | 0x1F51, 1 => leBytes 1 (s.image 1).state
  | 0x1F51, 2 => leBytes 48 (s.image 1).measurement.toNat
  | 0x1F51, 3 => (s.image 1).version
  | _, _ => []

/-! ### Table OBD-2 -/

/-- A partition's entry (Table OBD-3). -/
def Partition.entryBytes (x : Partition) : List Byte :=
  leBytes 18 x.squares.toNat ++ [0, 0] ++ leBytes 1 x.weight ++ [0, 0, 0] ++ leBytes 2 x.rho ++ leBytes 2 x.kappa ++
    List.replicate 36 0

/-- CheckResult (R417). -/
def CheckResult.bytes (c : CheckResult) : List Byte :=
  leBytes 4 c.code ++ leBytes 2 c.index ++ leBytes 1 c.sub ++ [0] ++ leBytes 2 c.otherIndex ++ leBytes 1 c.otherSub ++ [0] ++
    leBytes 4 c.staged

def State.read2 (s : State) (who idx sub : Nat) : List Byte :=
  if idx = 0x2010 then
    if sub ≤ 0x10 then (s.part (sub - 1)).entryBytes
    else if sub ≤ 0x20 then pageMapBytes (s.part (sub - 0x11)).pageMap
    else leBytes 4 (s.part (sub - 0x21)).trRoot
  else match sub, s.session who with
    | 2, some x => x.check.bytes
    | 4, _ => leBytes 4 s.sec.generation
    | 5, some x => pairBytes (x.shadow.map (fun e => e.1))
    | _, _ => []

/-! ### Table OBD-5 -/

/-- The voltage of a domain in V as an F32: compute domains by trim, the fixed ones at 0.75 V, the always-on one at 0.8 V. -/
def State.domainVolts (s : State) (d : Nat) : Word :=
  let mv := if d < 36 then s.domainMv d else if d < 46 then 750 else 800
  BitVec.ofNat 32 (rne32 ((valNat mv).div (valNat 1000)))

/-- FlowEstimate (R464). -/
def State.flowEstimate (s : State) : Word :=
  let rise := (dec32 s.thermal.outlet.toNat).add (dec32 s.thermal.inlet.toNat).negate
  if rise.lt (valNat 2) then 0
  else BitVec.ofNat 32 (rne32 (((valNat 60).mul (dec32 s.power.inputPower.toNat)).div ((valNat 3980).mul rise)))

def State.read3 (s : State) (idx sub : Nat) : List Byte :=
  match idx, sub with
  | 0x3000, 0 => leBytes 1 (powerCode s.power.state)
  | 0x3000, 2 => leBytes 1 s.power.wakeCause
  | 0x3000, 3 => leBytes 1 s.power.wakeSources
  | 0x3000, 4 => leBytes 1 s.power.resetCause
  | 0x3010, 1 => wordBytes s.power.inputVoltage
  | 0x3010, 2 => wordBytes (Config.sensor 0x301002 s.now)
  | 0x3010, 3 => wordBytes s.power.inputPower
  | 0x3010, 4 => leBytes 4 s.power.supplyFlags
  | 0x3010, 5 => (List.range 32).flatMap (fun i => leBytes 1 (Tab.get 0 s.power.rails i))
  | 0x3020, 1 => (List.range 47).flatMap (fun d => wordBytes (s.domainVolts d))
  | 0x3020, 2 => [47]
  | 0x3020, 3 => boolBytes s.power.aonLow
  | 0x3020, 4 => (List.range 47).flatMap (fun d => wordBytes (Tab.get 0 s.power.domainSlack d))
  | 0x3020, 5 => leBytes 1 s.power.slackLow
  | 0x3020, 6 => leBytes 1 s.power.slackHigh
  | 0x3100, 1 => leBytes 4 s.power.padHeld
  | 0x3200, 1 => (List.range 36).flatMap (fun z => leBytes 1 (s.zoneLevel z))
  | 0x3200, 2 => (List.range 4).flatMap (fun d => wordBytes (Tab.get 0 s.thermal.junction d))
  | 0x3200, 3 => leBytes 8 s.thermal.changes
  | 0x3210, 1 => wordBytes s.thermal.inlet
  | 0x3210, 2 => wordBytes s.thermal.outlet
  | 0x3210, 3 => wordBytes s.flowEstimate
  | 0x3210, 4 => leBytes 4 s.thermal.coolantFlags
  | _, _ => []

/-! ### Table OBD-6 -/

/-- Lane map of one direction: connector lanes of link lanes 0 to 3, 0xFF unused (R329). -/
def laneBytes (l : List Nat) : List Byte := (List.range 4).flatMap (fun i => leBytes 1 (l.getD i 0xFF))

def Link.read (x : Link) (sub : Nat) : List Byte :=
  match sub with
  | 1 => leBytes 1 x.state
  | 2 => leBytes 1 x.version
  | 3 => laneBytes x.txLanes ++ laneBytes x.rxLanes
  | 4 => leBytes 4 x.roundTrip
  | 5 => leBytes 4 x.swapThreshold
  | 6 => leBytes 8 x.windowMap.toNat
  | 8 => leBytes 8 x.peerSerial ++ leBytes 8 (x.peerLink % 128)
  | 9 => counterBytes 6 (fun i => Tab.get 0 x.counters i)
  | _ => []

def State.read4 (s : State) (idx sub : Nat) : List Byte :=
  if idx = 0x4000 then
    match sub with
    | 1 => leBytes 1 s.aslet.state
    | 2 => leBytes 1 s.aslet.version
    | 3 => leBytes 1 s.aslet.width
    | _ => leBytes 8 (s.part (sub - 0x10)).bounceBase ++ leBytes 8 (s.part (sub - 0x10)).bounceLen
  else if idx = 0x4200 then
    match sub with
    | 1 => leBytes 1 s.timeSource
    | 2 => leBytes 8 s.now
    | _ => boolBytes s.holdover
  else (s.link (idx - 0x4100)).read sub

/-! ### Table OBD-7 -/

/-- The sum of one kind of read outcome over a stack. -/
def Stack.total (x : Stack) (kind : Nat) : Nat :=
  (List.range 66).foldl (fun n ch => satAdd n (Tab.get 0 x.counters (3 * ch + kind))) 0

def State.outcomeTotal (s : State) (kind : Nat) : Nat :=
  (List.range 32).foldl (fun n st => satAdd n ((s.stack st).total kind)) 0

def migCode (m : MigPhase) : Nat :=
  match m with
  | .idle => 0
  | .training => 1
  | .copying => 2
  | .awaitingHold => 3
  | .awaitingRetry => 3
  | .testing => 4

/-- One die's eight bytes of MigrationState. -/
def MemDie.bytes (d : MemDie) : List Byte :=
  leBytes 1 (migCode d.mig) ++ leBytes 2 (d.migStack % 32 + 32 * (d.migChannel % 64)) ++ leBytes 1 (min d.queue.length 255) ++
    leBytes 4 d.copyPtr

def State.reservedTotal (s : State) : Nat := (List.range 16).foldl (fun n p => n + (s.part p).rho) 0

def State.read5 (s : State) (idx sub : Nat) : List Byte :=
  match idx, sub with
  | 0x5000, 1 => leBytes 8 2199023255552
  | 0x5000, 2 => (List.range 32).flatMap (fun st => leBytes 1 (s.stack st).free.length)
  | 0x5000, 3 => counterBytes 3 s.outcomeTotal
  | 0x5200, 1 => leBytes 4 512
  | 0x5200, 2 => leBytes 4 1024
  | 0x5200, 3 => leBytes 4 s.reservedTotal
  | 0x5200, 4 => counterBytes 16 (fun p => Tab.get 0 s.dram.tokenWait p)
  | 0x5300, 1 => boolBytes s.dram.autoRepair
  | 0x5300, 2 => leBytes 4 s.dram.repairThreshold
  | 0x5300, 4 => (List.range 8).flatMap (fun d => (s.memDie d).bytes)
  | _, _ =>
    let x := s.stack (idx - 0x5100)
    match sub with
    | 1 => wordBytes x.temperature
    | 2 => (List.range 64).flatMap (fun ch => leBytes 1 (x.physical ch))
    | 3 => leBytes 1 x.free.length
    | 4 => counterBytes 198 (fun i => Tab.get 0 x.counters i)
    | _ => []

/-! ### Table OBD-8 -/

def runCode (r : RunState) : Nat :=
  match r with
  | .empty => 0
  | .loaded => 1
  | .armed => 2
  | .running => 3
  | .held => 4
  | .draining => 5
  | .stopped => 6
  | .faulted => 7

/-- The Turn length that reads back: the committed one, else the Book's that is in force. -/
def Partition.turnLengthValue (x : Partition) : Nat := if x.turnLengthSet = 0 then x.turnLength else x.turnLengthSet - 1

def Partition.read (x : Partition) (low sub : Nat) : List Byte :=
  match low, sub with
  | 0x00, _ => leBytes 1 (runCode x.runState)
  | 0x02, 1 => leBytes 8 x.srcOffset
  | 0x02, 2 => leBytes 8 x.bytes
  | 0x02, 4 => leBytes 1 x.placeStatus
  | 0x02, 5 => leBytes 8 x.placedBytes
  | 0x10, 1 => leBytes 4 x.turn
  | 0x10, 2 => leBytes 1 x.tableProtocol
  | 0x10, 3 => leBytes 2 x.joined.length
  | 0x10, 4 => leBytes 8 x.epoch
  | 0x10, 5 => leBytes 4 x.turnLengthValue
  | 0x10, 6 => leBytes 2 x.joinFault
  | 0x10, 7 => leBytes 1 x.loadFault
  | 0x10, 8 => leBytes 8 x.tableId
  | 0x10, 9 => leBytes 2 (x.seat % 4096)
  | 0x20, 1 => leBytes 8 x.stepCounter
  | 0x20, 2 => leBytes 8 x.batchCounter
  | 0x20, 3 => leBytes 32 x.lastGate.toNat
  | 0x20, 4 => leBytes 2 x.consecutiveClosures
  | 0x20, 5 => boolBytes x.gateStuck
  | 0x20, 6 => boolBytes x.restoreNeeded
  | 0x20, 7 => leBytes 8 x.lastCheckpointStep
  | 0x20, 8 => leBytes 8 x.lastCheckpointBatch
  | 0x30, 1 => leBytes 8 x.closedSteps
  | 0x30, 2 => leBytes 8 x.abandonedSteps
  | 0x30, 3 => leBytes 8 x.frozenWrites
  | 0x30, 4 => leBytes 8 x.indexOutOfRange
  | 0x30, 5 => leBytes 8 x.stalePosts
  | _, _ => []

/-! ### Table OBD-9 -/

/-- The handshake of a carrier. -/
def State.handshake (s : State) (c : Carrier) : Option Handshake := (s.sec.handshakes.find? (fun h => decide (h.1 = c))).map (·.2)

/-- The session numbers that are open, as bits: 0 Operator, 1 Service, 2 + p Tenants. -/
def State.sessionsOpen (s : State) : Nat := maskOf (s.sec.sessions.map (fun e => e.1))

/-- Milliseconds of RetryAfter: its bound while an activation holds the alias key back (R389). -/
def State.retryAfter (s : State) : Nat := if s.service.activation = 1 then 20 else 0

def State.read7 (s : State) (who : Nat) (c : Carrier) (idx sub : Nat) : List Byte :=
  match idx, sub with
  | 0x7000, 6 => s.sec.operatorAnchor
  | 0x7000, 7 => vecBytes Config.serviceAnchor
  | 0x7000, 8 => Config.measurementExtensionId.take 64
  | 0x7000, k => (s.certificate k).take 4096
  | 0x7010, 2 => padTo 512 ((s.session who).map (fun x => x.report)).toList.flatten
  | 0x7010, 3 => leBytes 2 s.retryAfter
  | 0x7020, 2 => padTo 256 ((s.handshake c).map (fun h => h.serverHello)).toList.flatten
  | 0x7020, 4 => leBytes 4 s.sessionsOpen
  | _, _ =>
    let x := s.part (idx - 0x7030)
    match sub with
    | 0x01 => leBytes 4 x.keyGeneration
    | 0x03 => leBytes 4 x.sweepRemaining
    | 0x04 => leBytes 1 x.sweepState
    | 0x05 => leBytes 4 x.unrekeyed
    | 0x06 => x.tenantAnchor
    | 0x07 => boolBytes x.sealed
    | 0x08 => leBytes 4 x.rotateInterval
    | 0x13 => leBytes 1 x.deliverStatus
    | _ => []

/-! ### Table OBD-10 -/

/-- Every Record field of a wait-graph record as 0 (R431, Table SQP-9). -/
def maskRecords (l : List Byte) : List Byte :=
  (l.zip (List.range l.length)).map (fun b => if 32 ≤ b.2 ∧ 12 ≤ b.2 % 16 then 0 else b.1)

/-- The wait-graph record, its LatePosts as they stand (R120). -/
def Partition.stalemateBytes (x : Partition) (masked : Bool) : List Byte :=
  let l := if x.stalemateRecord.isEmpty then []
    else x.stalemateRecord.take 0x14 ++ leBytes 4 x.latePosts ++ x.stalemateRecord.drop 0x18
  if masked then maskRecords l else l

def State.read8 (s : State) (who idx sub : Nat) : List Byte :=
  match idx, sub with
  | 0x8000, k => leBytes 8 (Tab.get 0 s.counters k)
  | 0x8200, 1 => s.service.selfTestResult
  | 0x8200, 3 => leBytes 1 s.service.selfTest
  | 0x8100, k =>
    let x := s.part (k % 16)
    if k < 0x20 then x.stalemateBytes (x.sealed && decide (who < 2)) else leBytes 4 x.stalemateTimeout
  | _, _ => []

/-! ### Table OBD-11 -/

/-- The four fuse fields of a physical Square (R191): set in the field, else at manufacture. -/
def State.fuse (s : State) (q i : Nat) : Nat :=
  Tab.get (match Config.fuseAtManufacture q i with
    | some k => k.val
    | none => 0xFF) (s.physSq q).fuses i

/-- The physical row (`i` 0) or column (`i` 2) of a logical one: they map in rising order onto those that no fuse field disables; what
is left over at the top stays idle (R191). -/
def State.physLine (s : State) (q i n : Nat) : Option Nat :=
  ((List.range 130).filter (fun k => decide (s.fuse q i ≠ k) && decide (s.fuse q (i + 1) ≠ k)))[n]?

def listBytes (n : Nat) (l : List Nat) : List Byte := (List.range n).flatMap (fun i => leBytes 1 (l.getD i 0xFF))

/-- The physical Square that an object's subs 0C to 10 describe (R443, R480): the object's own. -/
def State.physBytes (s : State) (q sub : Nat) : List Byte :=
  let x := s.physSq q
  match sub with
  | 0x0C => listBytes 4 x.testRows ++ listBytes 4 x.testCols
  | 0x0D => (List.range 4).flatMap (fun i => leBytes 1 (s.fuse q i)) ++ leBytes 1 x.fieldSet ++ [0, 0, 0]
  | 0x0E => leBytes 1 x.repairState
  | _ => []

/-- The value of a Square's object. The reserves 144 to 147 show their own physical state, and in sub 04 what they carry. -/
def State.readSquare (s : State) (who q sub : Nat) : List Byte :=
  let x := s.sq q
  let masked := decide (who < 2) && (match x.owner with
    | some p => (s.part p).sealed
    | none => false)
  match sub with
  | 0x01 => leBytes 8 (min (x.beats + Config.beatsIn q s.now) (2 ^ 64 - 1))
  | 0x02 => wordBytes x.lastSlack
  | 0x03 => (List.range 16).flatMap (fun pl => wordBytes (x.player pl).lastSticky)
  | 0x04 => leBytes 1 ((if 144 ≤ q then (s.physSq q).carries else x.owner).getD 0xFF)
  | 0x05 => leBytes 1 (x.carrier.getD q)
  | 0x06 => (List.range 16).flatMap (fun ch => (Tab.get ({} : Channel) x.mover ch).status.bytes masked)
  | 0x07 => leBytes 8 x.slotConflicts
  | 0x08 => leBytes 8 x.saturations
  | 0x09 => counterBytes 3 (fun i => Tab.get 0 x.arith i)
  | 0x0A => counterBytes 4 (fun i => Tab.get 0 x.rows i)
  | 0x0B => leBytes 8 x.corrected
  | _ => s.physBytes q sub

/-! ### The dictionary -/

/-- The value of an object for a session (or none) on a carrier. -/
def State.readObject (s : State) (who : Nat) (c : Carrier) (idx sub : Nat) : List Byte :=
  if sub = 0 ∧ topSub idx ≠ 0 ∧ idx ≠ 0x3000 then leBytes 1 (topSub idx)
  else match idx / 0x1000 with
    | 1 => s.read1 idx sub
    | 2 => s.read2 who idx sub
    | 3 => s.read3 idx sub
    | 4 => s.read4 idx sub
    | 5 => s.read5 idx sub
    | 6 => (s.part (idx / 0x100 % 16)).read (idx % 0x100) sub
    | 7 => s.read7 who c idx sub
    | 8 => s.read8 who idx sub
    | 9 => s.readSquare who (idx - 0x9000) sub
    | _ => []

end Sys2Proof.Machine
end

