-- ==== Sys2Proof/Machine/Staged.lean ====
section
/-!
DEFINITION. Staged objects (R416 to R419): the values each one takes (R434 to R442), the check for conflicts (R35, R86, R134,
R314, R366, R383, R418, R469), and what a commit applies (R34, R309, R381).
-/

namespace Sys2Proof.Machine

open Sys2Proof

/-- (index, sub) and the bytes to be written there. -/
abbrev Pair := (Nat × Nat) × List Byte

/-! ### Values -/

/-- The run at a place of a page map (Table OBD-4). -/
def runOf (b : List Byte) (i : Nat) : PageRun :=
  let w := rd b (16 * i) 4
  let isLocal := w.testBit 28
  { vpage := w % 2 ^ 26, read := w.testBit 26, write := w.testBit 27, isLocal := isLocal
    page := if isLocal then rd b (16 * i + 4) 1 else rd b (16 * i + 4) 4 % 2 ^ 25
    square := if isLocal then rd b (16 * i + 5) 1 else 0, pages := rd b (16 * i + 8) 4 }

def runsOf (b : List Byte) : List PageRun := (List.range (b.length / 16)).map (runOf b)

/-- A run is one that R436 takes: reserved bits 0, its Kind that of its half of the address space, its pages in range. -/
def runOk (b : List Byte) (i : Nat) : Bool :=
  let r := runOf b i
  let raw := rd b (16 * i) 16
  let half := decide (2 ^ 25 ≤ r.vpage)
  decide (fld raw 29 3 = 0) && decide (fld raw 96 32 = 0) && decide (1 ≤ r.pages) && (half == r.isLocal) &&
    decide (r.vpage + r.pages ≤ if half then 2 ^ 26 else 2 ^ 25) &&
    (if r.isLocal then decide (r.square < 144) && decide (r.page + r.pages ≤ 256) && decide (fld raw 48 16 = 0)
     else decide (r.page < 0x1F80000) && decide (fld raw 57 7 = 0))

/-- The virtual pages rise from run to run and none is shared. -/
def runsRise : List PageRun → Bool
  | [] => true
  | [_] => true
  | a :: b :: r => decide (a.vpage + a.pages ≤ b.vpage) && runsRise (b :: r)

def pageMapOk (b : List Byte) : Bool :=
  decide (b.length % 16 = 0) && (List.range (b.length / 16)).all (runOk b) && runsRise (runsOf b)

/-- A partition entry is one that Table OBD-3 takes. -/
def entryOk (b : List Byte) : Bool :=
  let squares := rd b 0 18
  let weight := rd b 0x14 1
  decide (rd b 0x12 2 = 0) && decide (weight < 16) && (decide (weight ≠ 0) || decide (squares = 0)) &&
    decide (rd b 0x15 3 = 0) && decide (rd b 0x18 2 ≤ 51200) && decide (rd b 0x1A 2 ≤ 51200) && decide (rd b 0x1C 36 = 0)

def bounceOk (b : List Byte) : Bool :=
  decide (rd b 0 8 % 65536 = 0) && decide (rd b 8 8 % 65536 = 0) && decide (rd b 8 8 ≤ 2 ^ 36)

def windowMapOk (v : Nat) : Bool := (List.range 8).all (fun w => decide (fld v (8 * w) 8 < 32))

/-- A value is in a staged object's range, with reserved bits 0 (Table ULY-3, order 5). -/
def stagedOk (idx sub : Nat) (b : List Byte) : Bool :=
  let v := leNat b
  if idx = 0x2010 then (if sub ≤ 0x10 then entryOk b else pageMapOk b)
  else if idx = 0x3000 then decide (v < 8)
  else if idx = 0x3020 then (if sub = 5 then decide (1 ≤ v) && decide (v ≤ 98) else decide (2 ≤ v) && decide (v ≤ 99))
  else if idx = 0x4000 then bounceOk b
  else if idx = 0x4200 then decide (v = 0xFF) || decide (v < 96)
  else if idx / 0x100 = 0x41 then (if sub = 5 then decide (1 ≤ v) else windowMapOk v)
  else if idx = 0x5300 then (if sub = 1 then decide (v ≤ 1) else decide (1 ≤ v))
  else if idx / 0x1000 = 6 then decide (v = 0) || (decide (8 ≤ v) && decide (v ≤ 65535))
  else if idx = 0x8100 then decide (8 ≤ v) && decide (v ≤ 65535)
  else true

/-! ### The state as a staged set would leave it -/

def staged (sh : List Pair) (idx sub : Nat) : Option (List Byte) := (sh.find? (fun e => decide (e.1 = (idx, sub)))).map (·.2)

def setEntry (x : Partition) (b : List Byte) : Partition :=
  { x with squares := BitVec.ofNat 144 (rd b 0 18), weight := rd b 0x14 1, rho := rd b 0x18 2, kappa := rd b 0x1A 2 }

/-- A partition's entry and page map after the set. -/
def State.partAfter (s : State) (sh : List Pair) (p : Nat) : Partition :=
  let x := s.part p
  let y := match staged sh 0x2010 (1 + p) with
    | some b => setEntry x b
    | none => x
  let z := match staged sh 0x2010 (0x11 + p) with
    | some b => { y with pageMap := runsOf b }
    | none => y
  match staged sh 0x4000 (0x10 + p) with
  | some b => { z with bounceBase := rd b 0 8, bounceLen := rd b 8 8 }
  | none => z

/-- A partition exists while its Squares or its page map are non-empty (R435). -/
def Partition.present (x : Partition) : Bool := decide (x.squares ≠ 0) || !x.pageMap.isEmpty

/-- Physical extents of a run: stack pages as [page, page + pages), Local Store pages of a Square apart. -/
def PageRun.meets (a b : PageRun) : Bool :=
  (a.isLocal == b.isLocal) && (!a.isLocal || decide (a.square = b.square)) && decide (a.page < b.page + b.pages) &&
    decide (b.page < a.page + a.pages)

def runsMeet : List PageRun → Bool
  | [] => false
  | a :: r => r.any (fun b => a.meets b) || runsMeet r

/-! ### The check (R417) -/

/-- A conflict: its Code and the object it conflicts with (0, 0 if none). -/
abbrev Conflict := Nat × Nat × Nat

def Partition.settled (x : Partition) : Bool := decide (x.runState = .empty) || decide (x.runState = .stopped)

/-- Conflicts of a partition entry (R35, R314, R435, R469). -/
def State.entryConflict (s : State) (sh : List Pair) (p : Nat) : Option Conflict :=
  let new := s.partAfter sh p
  let old := s.part p
  let others := (List.range 16).filter (fun k => decide (k ≠ p))
  match others.find? (fun k => decide ((s.partAfter sh k).squares &&& new.squares ≠ 0)) with
  | some k => some (abConflict, 0x2010, 1 + k)
  | none =>
    if new.squares ≠ old.squares ∧ old.settled = false then some (abState, 0, 0)
    else if (bitsOf (new.squares &&& ~~~old.squares).toNat 144).any (fun q => decide ((s.physSq q).repairState = 2)) then
      some (abConflict, 0, 0)
    else if new.kappa < new.rho then some (abConflict, 0x2010, 1 + p)
    else if 39424 < (List.range 16).foldl (fun n k => n + (s.partAfter sh k).rho) 0 then
      match others.find? (fun k => decide ((s.partAfter sh k).rho ≠ 0)) with
      | some k => some (abConflict, 0x2010, 1 + k)
      | none => some (abConflict, 0, 0)
    else if new.rho < old.rho ∧ old.settled = false then some (abState, 0, 0)
    else none

/-- Conflicts of a page map (R134). While the partition is Sealed its map stays, unless the set removes the partition (R392). -/
def State.mapConflict (s : State) (sh : List Pair) (p : Nat) : Option Conflict :=
  let new := s.partAfter sh p
  if (s.part p).sealed && new.present && decide (new.pageMap ≠ (s.part p).pageMap) then some (abAccess, 0, 0)
  else if runsMeet new.pageMap then some (abConflict, 0x2010, 0x11 + p)
  else match (List.range 16).find? (fun k => decide (k ≠ p) && (s.partAfter sh k).pageMap.any (fun b =>
      !b.isLocal && new.pageMap.any (fun a => a.meets b))) with
    | some k => some (abConflict, 0x2010, 0x11 + k)
    | none =>
      if new.pageMap.any (fun r => !r.isLocal && decide (0x1F80000 < r.page + r.pages)) then some (abConflict, 0, 0)
      else if new.pageMap.any (fun r => r.isLocal && !new.squares.getLsbD r.square) then some (abConflict, 0x2010, 1 + p)
      else none

/-- Local Store pages that a partition maps of a Square that the set takes from it (R134). -/
def State.orphanConflict (s : State) (sh : List Pair) (p : Nat) : Option Conflict :=
  let new := s.partAfter sh p
  if (staged sh 0x2010 (0x11 + p)).isNone && new.pageMap.any (fun r => r.isLocal && !new.squares.getLsbD r.square) then
    some (abConflict, 0x2010, 0x11 + p)
  else none

/-- Conflicts of a bounce area: overlap (R366), and a busy channel 2p + 1 (Table ASL-8). -/
def State.bounceConflict (s : State) (sh : List Pair) (p : Nat) : Option Conflict :=
  let new := s.partAfter sh p
  match (List.range 16).find? (fun k =>
      let y := s.partAfter sh k
      decide (k ≠ p) && decide (new.bounceBase < y.bounceBase + y.bounceLen) &&
        decide (y.bounceBase < new.bounceBase + new.bounceLen) && decide (new.bounceLen ≠ 0) && decide (y.bounceLen ≠ 0)) with
  | some k => some (abConflict, 0x4000, 0x10 + k)
  | none => if (s.channel .host (2 * p + 1)).busy then some (abBusy, 0, 0) else none

/-- Conflicts of a Turn length (R86). -/
def State.lengthConflict (s : State) (p : Nat) (b : List Byte) : Option Conflict :=
  let x := s.part p
  let len := if leNat b = 0 then bookTurnLength x.book else leNat b
  if x.tableProtocol = 1 then some (abConflict, 0, 0)
  else if x.runState ≠ .held then some (abState, 0, 0)
  else if !finishOk x.book len then some (abRange, 0, 0)
  else none

/-- Conflict of a slack bound with the other one (R437). -/
def State.slackConflict (s : State) (sh : List Pair) (sub : Nat) : Option Conflict :=
  let low := match staged sh 0x3020 5 with
    | some b => leNat b
    | none => s.power.slackLow
  let high := match staged sh 0x3020 6 with
    | some b => leNat b
    | none => s.power.slackHigh
  if high ≤ low then some (abConflict, 0x3020, 11 - sub) else none

/-- The first conflict of one pair. -/
def State.pairConflict (s : State) (sh : List Pair) (e : Pair) : Option Conflict :=
  let idx := e.1.1
  let sub := e.1.2
  if idx = 0x2010 then
    if sub ≤ 0x10 then
      match s.entryConflict sh (sub - 1) with
      | some c => some c
      | none => s.orphanConflict sh (sub - 1)
    else s.mapConflict sh (sub - 0x11)
  else if idx = 0x4000 then s.bounceConflict sh (sub - 0x10)
  else if idx = 0x3020 then s.slackConflict sh sub
  else if idx / 0x1000 = 6 then s.lengthConflict (idx / 0x100 % 16) e.2
  else if idx / 0x10 = 0x703 ∧ sub = 6 ∧ (s.part (idx % 16)).runState ≠ .empty then some (abState, 0, 0)
  else none

/-- The partition that a pair affects while it runs, by the Table it runs in (R418). -/
def State.pairTable (s : State) (e : Pair) : Option Nat :=
  match objPart e.1.1 e.1.2 with
  | none => none
  | some p =>
    let x := s.part p
    if x.runState = .running ∨ x.runState = .draining then some x.tableId else none

/-- The first conflict of a set in rising order (R417), with the pair that it is found at. -/
def State.firstConflict (s : State) (sh : List Pair) (first : Option (Nat × Nat × Nat)) : List Pair → Option (Pair × Conflict)
  | [] => none
  | e :: r =>
    match s.pairConflict sh e with
    | some c => some (e, c)
    | none =>
      match s.pairTable e, first with
      | some t, some (t0, i0, k0) =>
        if t = t0 then s.firstConflict sh first r else some (e, (abConflict, i0, k0))
      | some t, none => s.firstConflict sh (some (t, e.1.1, e.1.2)) r
      | none, _ => s.firstConflict sh first r

/-- The result of a check of a set (R417). -/
def State.checkSet (s : State) (sh : List Pair) : CheckResult :=
  match s.firstConflict sh none sh with
  | none => { staged := sh.length }
  | some (e, c) =>
    { code := c.1, index := e.1.1, sub := e.1.2, otherIndex := c.2.1, otherSub := c.2.2, staged := sh.length }

/-! ### Page initialisation before a commit (R309) -/

/-- The stack pages of a map. -/
def stackPages (m : List PageRun) : List Nat :=
  m.flatMap (fun r => if r.isLocal then [] else (List.range r.pages).map (fun i => r.page + i))

/-- The set gives the partition a new generation 0 (R381). -/
def State.newKeys (s : State) (sh : List Pair) (p : Nat) : Bool :=
  let x := s.part p
  let y := s.partAfter sh p
  (y.present && !x.present) || (y.present && (match staged sh (0x7030 + p) 6 with
    | some b => decide (b ≠ x.tenantAnchor)
    | none => false))

/-- The pages done so far are sealed under the key that the partition will have with the set: a prepared one where the set gives
it new keys, else its current one (R309, R381). -/
def State.initFits (s : State) (sh : List Pair) (p : Nat) : Bool := s.newKeys sh p == (s.part p).preparedKey.isSome

/-- Pages that the set adds to a partition and that are not initialised yet under the key that it will have. -/
def State.pagesNeeded (s : State) (sh : List Pair) (p : Nat) : List Nat :=
  let old := stackPages (s.part p).pageMap
  (stackPages (s.partAfter sh p).pageMap).filter (fun k =>
    !old.contains k && !(s.initFits sh p && (s.part p).pagesDone.contains k))

/-- Begin the initialisation of the pages that a set adds: under the keys that the partition will have. -/
def State.beginInit (s : State) (sh : List Pair) : State :=
  (List.range 16).foldl (fun t p =>
    let need := s.pagesNeeded sh p
    let fits := s.initFits sh p
    let t1 := t.updPart p (fun x => { x with pagesToInit := need, pagesDone := if fits then x.pagesDone else []
                                             preparedKey := if fits then x.preparedKey else none })
    if s.newKeys sh p && !fits && !s.sec.entropyFailed then
      (t1.updPart p (fun x => { x with preparedKey := some t1.sec.nextKey })).updSec (fun c => { c with nextKey := c.nextKey + 1 })
    else t1) s

/-- Every page that a set adds is initialised. -/
def State.initDone (s : State) (sh : List Pair) : Bool := (List.range 16).all (fun p => (s.pagesNeeded sh p).isEmpty)

/-! ### Applying a set (R419) -/

/-- A committed Turn length (R86): the seat holds, sends its Length, and takes it. -/
def State.commitLength (s : State) (p v : Nat) : State :=
  let s1 := (s.updPart p (fun x => { x with turnLengthSet := v + 1 })).requestHold p lengthHold
  let x := s1.part p
  let m : TableMsg := { tableId := x.tableId, kind := 6, rsv := 0, cause := 0, seat := x.seat, stamp := s1.now
                        arg := (if v = 0 then bookTurnLength x.book else v) % 65536 }
  ((s1.remember p m).flood p m none).takeLength p m

/-- One pair takes its new value; the entry, map, and keys of a partition are the work of `State.reown`. -/
def State.applyPair (s : State) (e : Pair) : State :=
  let idx := e.1.1
  let sub := e.1.2
  let b := e.2
  let v := leNat b
  if idx = 0x2010 then
    if sub ≤ 0x10 then s.updPart (sub - 1) (fun x => setEntry x b)
    else s.setPageMap (sub - 0x11) (runsOf b)
  else if idx = 0x3000 then s.updPower (fun x => { x with wakeSources := v })
  else if idx = 0x3020 then
    s.updPower (fun x => if sub = 5 then { x with slackLow := v } else { x with slackHigh := v })
  else if idx = 0x4000 then s.updPart (sub - 0x10) (fun x => { x with bounceBase := rd b 0 8, bounceLen := rd b 8 8 })
  else if idx = 0x4200 then { s with timeSource := v }
  else if idx / 0x100 = 0x41 then
    s.updLink (idx - 0x4100) (fun x => if sub = 5 then { x with swapThreshold := v } else { x with windowMap := BitVec.ofNat 64 v })
  else if idx = 0x5300 then
    (if sub = 1 then { s with dram := { s.dram with autoRepair := decide (v = 1) } }
    else { s with dram := { s.dram with repairThreshold := v } })
  else if idx / 0x1000 = 6 then s.commitLength (idx / 0x100 % 16) v
  else if idx = 0x7000 then s.updSec (fun c => { c with operatorAnchor := b })
  else if idx / 0x10 = 0x703 then
    s.updPart (idx % 16) (fun x => if sub = 6 then { x with tenantAnchor := b } else { x with rotateInterval := v })
  else if idx = 0x8100 then s.updPart (sub % 16) (fun x => { x with stalemateTimeout := v })
  else s

/-- The owners of the Squares follow the entries; a Square that leaves its partition is cleared (R34), and a domain
without an owned Square falls to 0.68 V (R449). -/
def State.reown (s : State) : State :=
  let s1 := (List.range 144).foldl (fun t q =>
    let o := (List.range 16).find? (fun p => (t.part p).squares.getLsbD q)
    let was := t.owner q
    let t1 := if was.isSome && decide (was ≠ o) then t.clearSquare q else t
    if was = o then t1 else t1.updSq q (fun x => { x with owner := o })) s
  (List.range 36).foldl (fun t d => t.settleDomain d) s1

/-- A partition loses its keys: what its pages hold is lost with them (R381, R310), and a delivery ends (Table SEC-9). -/
def State.destroyKeys (s : State) (p : Nat) : State :=
  let s0 := if (s.part p).delivering then s.updChannel .host (2 * p + 1) (fun c => { c with phase := .idle, staged := [] }) else s
  (s0.updPart p (fun x =>
    { x with curKey := none, prevKey := none, preparedKey := none, sealed := false, weightKey := none, delivering := false
             sweepState := 0, sweepRemaining := 0 })).raise 0x70 0x53 (some p) [] []

/-- Generation 0 of a partition's keys (R381). After the entropy source has failed none is generated (R380). -/
def State.freshKeys (s : State) (p : Nat) : State :=
  if s.sec.entropyFailed && (s.part p).preparedKey.isNone then
    s.updPart p (fun x => { x with curKey := none, prevKey := none, keyGeneration := 0, sweepState := 0, sweepRemaining := 0, unrekeyed := 0 })
  else
  let k := (s.part p).preparedKey.getD s.sec.nextKey
  let s1 := if (s.part p).preparedKey.isSome then s else s.updSec (fun c => { c with nextKey := c.nextKey + 1 })
  s1.updPart p (fun x =>
    { x with curKey := some k, prevKey := none, keyGeneration := 0, preparedKey := none, sweepState := 0
             sweepRemaining := 0, unrekeyed := 0 })

/-- A partition that a commit creates takes its Defaults (R381, R428). -/
def State.newPartition (s : State) (p : Nat) : State :=
  s.updPart p (fun x => { ({} : Partition) with preparedKey := x.preparedKey, pagesDone := x.pagesDone, pagesToInit := x.pagesToInit })

/-- Everything a set changes, at one instant (R419). -/
def State.applySet (s : State) (sh : List Pair) : State :=
  let parts := List.range 16
  let created := parts.filter (fun p => (s.partAfter sh p).present && !(s.part p).present)
  let removed := parts.filter (fun p => (s.part p).present && !(s.partAfter sh p).present)
  let keyed := parts.filter (fun p => s.newKeys sh p)
  let s0 := created.foldl (fun t p => t.newPartition p) s.refillAll
  let s1 := (sh.foldl (fun t e => t.applyPair e) s0).reown
  let s2 := keyed.foldl (fun t p => t.freshKeys p) s1
  let s3 := removed.foldl (fun t p => t.destroyKeys p) s2
  let s4 := parts.foldl (fun t p => if (t.part p).pagesDone.isEmpty && (t.part p).pagesToInit.isEmpty then t
    else t.updPart p (fun x => { x with pagesDone := [], pagesToInit := [] })) s3
  (s4.updSec (fun c => { c with generation := (c.generation + 1) % 2 ^ 32 })).serveAll

end Sys2Proof.Machine
end

