-- ==== Sys2Proof/Machine/Objects.lean ====
section
/-!
DEFINITION. Writing objects that are not staged: clearing counters (R423, R430), which requests have a row of their own, the
plain writes of R440 and R441, and the return of lost objects to their Defaults (R484).
-/

namespace Sys2Proof.Machine

open Sys2Proof

/-! ### Counters (R430) -/

/-- An object is a counter that software may clear. -/
def isCounter (idx sub : Nat) : Bool :=
  (decide (idx = 0x1001) && decide (sub = 2)) || (decide (idx = 0x3200) && decide (sub = 3)) ||
    (decide (0x4100 ≤ idx) && decide (idx < 0x4160) && decide (sub = 9)) ||
    (decide (0x5100 ≤ idx) && decide (idx < 0x5120) && decide (sub = 4)) || (decide (idx = 0x5200) && decide (sub = 4)) ||
    (decide (idx / 0x1000 = 6) && decide (idx % 0x100 = 0x30) && decide (1 ≤ sub) && decide (sub ≤ 5)) ||
    (decide (idx = 0x8000) && decide (1 ≤ sub) && decide (sub ≤ 8)) ||
    (decide (0x9000 ≤ idx) && decide (7 ≤ sub) && decide (sub ≤ 0x0B))

def Partition.clearCounter (x : Partition) (sub : Nat) : Partition :=
  match sub with
  | 1 => { x with closedSteps := 0 }
  | 2 => { x with abandonedSteps := 0 }
  | 3 => { x with frozenWrites := 0 }
  | 4 => { x with indexOutOfRange := 0 }
  | _ => { x with stalePosts := 0 }

def Square.clearCounter (x : Square) (sub : Nat) : Square :=
  match sub with
  | 7 => { x with slotConflicts := 0 }
  | 8 => { x with saturations := 0 }
  | 9 => { x with arith := [] }
  | 0x0A => { x with rows := [] }
  | _ => { x with corrected := 0 }

/-- Clear a counter, or a DOMAIN of counters whole. -/
def State.clearCounter (s : State) (idx sub : Nat) : State :=
  if idx = 0x1001 then { s with flagEvents := [] }
  else if idx = 0x3200 then s.updThermal (fun x => { x with changes := 0 })
  else if idx = 0x5200 then { s with dram := { s.dram with tokenWait := [] } }
  else if idx = 0x8000 then { s with counters := Tab.put s.counters sub 0 }
  else if idx / 0x1000 = 4 then s.updLink (idx - 0x4100) (fun x => { x with counters := [] })
  else if idx / 0x1000 = 5 then s.updStack (idx - 0x5100) (fun x => { x with counters := [] })
  else if idx / 0x1000 = 6 then s.updPart (idx / 0x100 % 16) (fun x => x.clearCounter sub)
  else s.updSq (idx - 0x9000) (fun x => x.clearCounter sub)

/-- COUNTER_CLEAR (R423, R430): only zeros; an increment at the same instant is applied after it (R30). -/
def execCounterClear (r : Req) (s : State) : Out :=
  .next (if isCounter r.index r.sub then
      s.commandWith r (fun w _ => if w.payload.any (fun b => decide (b ≠ 0)) then abRange else 0)
        (fun w t => (t.clearCounter w.index w.sub).reply w 0)
    else s)

/-! ### Status flags (R422) -/

/-- An object of status flags. -/
def isFlags (idx sub : Nat) : Bool :=
  (decide (idx = 0x1001) && decide (sub = 1)) || (decide (idx = 0x3010) && decide (sub = 4)) ||
    (decide (idx = 0x3210) && decide (sub = 4))

/-- Bits that an object of flags has. -/
def flagBits (idx : Nat) : Nat := if idx = 0x1001 then 6 else if idx = 0x3010 then 3 else 2

/-- A mask of flags without the bits written 1. -/
def clearBits (flags v : Nat) : Nat := flags &&& (flags ^^^ v)

/-- Clear the flags written 1. With bit 5 of 1001:01 the list 1001:04 empties (R434). -/
def State.clearFlags (s : State) (idx v : Nat) : State :=
  if idx = 0x1001 then
    { s with statusFlags := clearBits s.statusFlags v, defaulted := if v.testBit 5 then [] else s.defaulted }
  else if idx = 0x3010 then s.updPower (fun x => { x with supplyFlags := clearBits x.supplyFlags v })
  else s.updThermal (fun x => { x with coolantFlags := clearBits x.coolantFlags v })

/-- FLAG_CLEAR (R422): writing 1 to a bit clears it; a set at the same instant comes last (R30). -/
def execFlagClear (r : Req) (s : State) : Out :=
  .next (if isFlags r.index r.sub then
      s.command r (fun _ => if reqValue r < 2 ^ flagBits r.index then 0 else abRange)
        (fun t => (t.clearFlags r.index (reqValue r)).reply r 0)
    else s)

/-! ### Requests with a row of their own -/

/-- A write that a row of its own carries out: run commands, Place, counters, flags, the handshake and so on. -/
def hasRow (r : Req) : Bool :=
  let v := reqValue r
  isCounter r.index r.sub || isFlags r.index r.sub ||
    (reqNames6 r 0x01 0 && decide (1 ≤ v) && decide (v ≤ 7)) || reqNames6 r 0x02 3 || reqNames6 r 0x20 1 || reqNames6 r 0x20 2 ||
    reqNames6 r 0x20 5 || reqNames6 r 0x20 6 || reqNames r 0x1F52 1 || reqNames r 0x1F53 0 ||
    (reqNames r 0x2F00 1 && (decide (v = 1) || decide (v = 2))) || reqNames r 0x2F00 3 ||
    (reqNames r 0x3000 1 && decide (3 ≤ v) && decide (v ≤ 5)) || reqNames r 0x3100 2 ||
    (decide (r.index / 0x100 = 0x41) && decide (r.sub = 7)) || reqNames r 0x5300 3 || reqNames r 0x7010 1 ||
    reqNames r 0x7020 1 || reqNames r 0x7020 3 ||
    (decide (r.index / 0x10 = 0x703) && (decide (r.sub = 2) || decide (r.sub = 0x10) || decide (r.sub = 0x12))) ||
    reqNames r 0x8200 2 || (decide (r.index / 0x1000 = 9) && (decide (r.sub = 0x0F) || decide (r.sub = 0x10)))

/-! ### Plain writes -/

/-- The staged object that a request writes. -/
def isStaged (r : Req) : Bool :=
  match objOf r.index r.sub with
  | some o => decide (o.scope ≠ .unstaged)
  | none => false

/-- Pairs in rising order of index and sub (R417). -/
def pairLt (a b : Nat × Nat) : Bool := decide (a.1 < b.1) || (decide (a.1 = b.1) && decide (a.2 < b.2))

/-- A pair put into a shadow, in order, in place of an earlier value. -/
def stagePair (e : Pair) : List Pair → List Pair
  | [] => [e]
  | x :: r => if x.1 = e.1 then e :: r else if pairLt e.1 x.1 then e :: x :: r else x :: stagePair e r

/-- Conditions of a write into the shadow: its range, a pending commit, the list's length, the anchor's state (R383). -/
def State.stageCheck (s : State) (w : Req) : Nat :=
  match s.session w.session with
  | none => abNoSession
  | some x =>
    if !stagedOk w.index w.sub w.payload then abRange
    else if x.committing.isSome then abBusy
    else if (staged x.shadow w.index w.sub).isNone && decide (1024 ≤ x.shadow.length) then abBusy
    else if w.index / 0x10 = 0x703 ∧ w.sub = 6 ∧ (s.part (w.index % 16)).runState ≠ .empty then abState
    else 0

/-- Conditions of a plain write: BookLocation while EMPTY only (R440); a code that no row takes is out of range. -/
def State.plainCheck (s : State) (w : Req) : Nat :=
  if isStaged w then s.stageCheck w
  else if reqNames6 w 0x02 1 || reqNames6 w 0x02 2 then
    if (s.part (reqPart w)).runState = .empty then 0 else abState
  else if w.index / 0x10 = 0x703 ∧ w.sub = 0x11 then 0
  else abRange

/-- The effect of a plain write. -/
def State.plainWrite (s : State) (w : Req) : State :=
  if isStaged w then s.updSession w.session (fun x => { x with shadow := stagePair ((w.index, w.sub), w.payload) x.shadow })
  else if reqNames6 w 0x02 1 then s.updPart (reqPart w) (fun x => { x with srcOffset := reqValue w })
  else if reqNames6 w 0x02 2 then s.updPart (reqPart w) (fun x => { x with bytes := reqValue w })
  else if w.index / 0x10 = 0x703 then s.updPart (w.index % 16) (fun x => { x with weightTarget := w.payload })
  else s

/-- Another transfer writes this object (Table ULY-3, order 6). -/
def State.transferBusy (s : State) (w : Req) : Bool :=
  s.sec.transfers.any (fun e => e.2.write && decide (e.2.request.index = w.index) && decide (e.2.request.sub = w.sub))

/-- WRITE_REQ (R410): a write of an object without a row of its own is judged and applied whole. -/
def execWriteReq (r : Req) (s : State) : Out :=
  .next (if hasRow r || (s.writing r).isSome then s
    else s.command r (fun t => let c := t.plainCheck r; if c = abRange then c else if t.transferBusy r then abBusy else c)
      (fun t => (t.plainWrite r).reply r 0))

/-! ### Defaults of lost objects (R484) -/

/-- The Default of a staged object (Tables OBD-2 to OBD-10). -/
def defaultStaged (idx sub : Nat) : List Byte :=
  if idx = 0x3000 then [7]
  else if idx = 0x3020 then (if sub = 5 then [10] else [20])
  else if idx = 0x4000 then List.replicate 16 0
  else if idx = 0x4200 then [0xFF]
  else if idx / 0x100 = 0x41 then (if sub = 5 then leBytes 4 65536 else leBytes 8 0)
  else if idx = 0x5300 then (if sub = 1 then [1] else leBytes 4 256)
  else if idx = 0x8100 then leBytes 4 64
  else if idx / 0x10 = 0x703 ∧ sub = 8 then leBytes 4 0
  else []

/-- A partition is removed by the loss of its entry (R484, R381): no Squares, no page map, no keys; the Squares are
cleared. -/
def State.losePartition (s : State) (p : Nat) : State :=
  ((s.updPart p (fun x => { x with squares := 0, weight := 0, rho := 0, kappa := 0 })).setPageMap p []).reown.destroyKeys p

/-- A partition's own object returns to its Default. -/
def Partition.defaulted (x : Partition) (low sub : Nat) : Partition :=
  match low, sub with
  | 0x02, 1 => { x with srcOffset := 0 }
  | 0x02, 2 => { x with bytes := 0 }
  | 0x02, 4 => { x with placeStatus := 0 }
  | 0x02, 5 => { x with placedBytes := 0 }
  | 0x10, 5 => { x with turnLengthSet := 0, turnLength := 0 }
  | 0x10, 6 => { x with joinFault := 0xFFFF }
  | 0x10, 7 => { x with loadFault := 0 }
  | 0x20, 1 => { x with stepCounter := 0 }
  | 0x20, 2 => { x with batchCounter := 0 }
  | 0x20, 3 => { x with lastGate := 0 }
  | 0x20, 4 => { x with consecutiveClosures := 0 }
  | 0x20, 5 => { x with gateStuck := false }
  | 0x20, 6 => { x with restoreNeeded := false }
  | 0x20, 7 => { x with lastCheckpointStep := 0 }
  | 0x20, 8 => { x with lastCheckpointBatch := 0 }
  | _, _ => x

/-- A stored status object returns to its Default. -/
def State.defaultStatus (s : State) (o : Nat × Nat) : State :=
  match o with
  | (0x1001, 1) => { s with statusFlags := s.statusFlags &&& 0x20 }
  | (0x1003, 1) => { s with events := [] }
  | (0x1003, 2) => { s with eventsRaised := 0 }
  | (0x1F52, 2) => s.updService (fun v => { v with stageStatus := 0 })
  | (0x2F00, 4) => s.updSec (fun c => { c with generation := 0 })
  | (0x3000, 2) => s.updPower (fun v => { v with wakeCause := 0 })
  | (idx, sub) =>
    if idx = 0x8100 then s.updPart (sub % 16) (fun x => { x with stalemateRecord := [] })
    else if idx / 0x10 = 0x703 ∧ sub = 5 then s.updPart (idx % 16) (fun x => { x with unrekeyed := 0 })
    else if idx / 0x10 = 0x703 ∧ sub = 0x13 then s.updPart (idx % 16) (fun x => { x with deliverStatus := 0 })
    else s

/-- One object returns to its Default. An object that shows the present state of a unit has no value of its own to lose (log 25). -/
def State.defaultObject (s : State) (o : Nat × Nat) : State :=
  if isCounter o.1 o.2 then s.clearCounter o.1 o.2
  else match objOf o.1 o.2 with
    | none => s
    | some ob =>
      if o.1 = 0x2010 ∧ o.2 ≤ 0x10 then s.losePartition (o.2 - 1)
      else if o.1 = 0x2010 ∧ 0x20 < o.2 then s.updPart (o.2 - 0x21) (fun x => { x with trRoot := 0 })
      else if o.1 / 0x1000 = 6 then s.updPart (o.1 / 0x100 % 16) (fun x => x.defaulted (o.1 % 0x100) o.2)
      else if ob.scope ≠ .unstaged then s.applyPair (o, defaultStaged o.1 o.2)
      else s.defaultStatus o

/-- Objects lost with a device-region sector return to their Defaults, are listed, and put their partitions into FAULTED. -/
def State.settleLost (s : State) : State :=
  let l := s.lostObjects
  let old := if l.contains (0x1001, 4) then [] else s.defaulted
  let s1 : State := { s with lostObjects := [], defaulted := (old ++ l).take 1024 }
  l.foldl (fun t o =>
    let t1 := t.defaultObject o
    match objPart o.1 o.2 with
    | some p => t1.enterFaulted p
    | none => t1) s1

end Sys2Proof.Machine
end

