-- ==== Sys2Proof/Machine/Ulyan.lean ====
section
/-!
DEFINITION. Ulyan requests that are not commands of another chapter: reads, segmented transfers (R410, R411), event frames
(R414), the end of a session (R386), check and commit (R416 to R419).
-/

namespace Sys2Proof.Machine

open Sys2Proof

/-- The bytes that a frame on a carrier holds (R403). -/
def frameLimit (c : Carrier) : Nat :=
  match c with
  | .mgmt _ => 1232
  | .tunnel _ => 4096

/-- The session number that a request reads as; an unsealed one is no session's. -/
def reqWho (r : Req) : Nat := if r.sealed then r.session else 999

/-- READ_REQ (R410): judged, then answered with the whole object; what does not fit one frame is read by segments. -/
def execReadReq (r : Req) (s : State) : Out :=
  .next (
    let a := s.admitFrame r kRead
    if !a.2 then a.1
    else
      let f := a.1.judgeForm r false r.payload.length
      if f ≠ 0 then a.1.answer r 0x02 f []
      else
        let v := a.1.readObject (reqWho r) r.carrier r.index r.sub
        if frameLimit r.carrier < v.length + (if r.sealed then 48 else 32) then a.1.answer r 0x02 abForm []
        else a.1.answer r 0x02 0 v)

/-! ### Segmented transfers -/

/-- The k-th segment of a read. -/
def SegTransfer.segment (t : SegTransfer) (k : Nat) : List Byte := slice t.data (k * t.segBytes) t.segBytes

/-- The segments of a read; an empty object has one empty segment. -/
def SegTransfer.count (t : SegTransfer) : Nat := max 1 (cdiv t.data.length t.segBytes)

/-- A frame of a transfer that the module sends: SEG_DATA, SEG_ACK or SEG_CANCEL, its number in Code. -/
def State.sendSeg (s : State) (t : SegTransfer) (kind code : Nat) (value : List Byte) : State :=
  let r := t.request
  s.sendFrame (if r.sealed then some r.session else none)
    { carrier := r.carrier, session := none, version := r.version, sequence := 0, requestId := r.requestId, kind := kind
      index := r.index, sub := r.sub, code := code, value := value }

/-- Send the segments of a read that may go out: at most 16 unacknowledged. -/
def State.pushSegments : Nat → Nat → State → State
  | 0, _, s => s
  | n + 1, k, s =>
    match s.transfer k with
    | none => s
    | some t =>
      if !t.write && decide (t.next < t.count) && decide (t.next < t.acked + 16) then
        State.pushSegments n k ((s.sendSeg t kSegData t.next (t.segment t.next)).putTransfer k
          { t with next := t.next + 1, lastSent := s.now })
      else s

/-- The fields of a SEG_START's payload: total, segment bytes, and whether it writes. -/
def segTotal (r : Req) : Nat := rd r.payload 0 8
def segSize (r : Req) : Nat := rd r.payload 8 4
def segWrites (r : Req) : Bool := decide (rd r.payload 12 4 % 2 = 1)

/-- Judge a SEG_START (Table ULY-3). -/
def State.segCheck (s : State) (r : Req) : Nat :=
  let w := segWrites r
  match objOf r.index r.sub with
  | none => if r.sealed then abNoObject else abNoSession
  | some o =>
    if !r.sealed && !o.pre then abNoSession
    else if !s.mayAccess r o w then abAccess
    else if !s.versionOk r || decide (r.rsv ≠ 0) || decide (r.length ≠ r.payload.length) || decide (r.payload.length ≠ 16) ||
        (w && !o.len.fits (segTotal r)) then abForm
    else if rd r.payload 12 4 / 2 ≠ 0 ∨ segSize r = 0 ∨ frameLimit r.carrier < segSize r + 48 then abRange
    else if (s.transfer (transferKey r)).isSome || (w && s.transferBusy r) then abBusy
    else 0

/-- SEG_START (R410): opens a transfer; of a read, its copy is taken now and its first segments go out. -/
def execSegStart (r : Req) (s : State) : Out :=
  .next (
    let a := s.admitFrame r kSegStart
    if !a.2 then a.1
    else
      let w := segWrites r
      let f := a.1.segCheck r
      if f ≠ 0 then a.1.answer r (if w then 0x04 else 0x02) f []
      else
        let data := if w then [] else a.1.readObject (reqWho r) r.carrier r.index r.sub
        let t : SegTransfer := { request := r, write := w, total := segTotal r, segBytes := segSize r, data := data, next := 0
                                 acked := 0, lastFrame := a.1.now, lastSent := a.1.now }
        (a.1.putTransfer (transferKey r) t).pushSegments 16 (transferKey r))

/-- The frame belongs to the open transfer of its session or carrier. -/
def State.inTransfer (s : State) (r : Req) : Option SegTransfer :=
  match s.transfer (transferKey r) with
  | none => none
  | some t => if t.request.index = r.index ∧ t.request.sub = r.sub then some t else none

/-- A segment of the right size: full, or the last one. -/
def SegTransfer.sizeOk (t : SegTransfer) (n : Nat) : Bool := decide (n = min t.segBytes (t.total - t.data.length))

/-- SEG_DATA (R410, R411): the next segment is taken and acknowledged; the last one completes a write, which is then judged as
a whole. A segment that came already is acknowledged again; another one is discarded. -/
def execSegData (r : Req) (s : State) : Out :=
  .next (
    match s.writing r with
    | none => (s.admitFrame r kSegData).1
    | some t =>
      let k := transferKey r
      let whole := s.lastSegment r
      let own := match whole with
        | some v => hasRow (wholeWrite r v)
        | none => false
      if own then s
      else
        let a := s.admitFrame r kSegData
        if !a.2 then a.1
        else if r.rsv ≠ 0 ∨ r.length ≠ r.payload.length then a.1
        else match whole with
          | some v =>
            let w := wholeWrite r v
            (a.1.dropTransfer k).judged w (fun u => u.plainCheck w) (fun u => (u.plainWrite w).reply w 0)
          | none =>
            if r.code = t.next ∧ t.sizeOk r.payload.length = true then
              (a.1.putTransfer k { t with data := t.data ++ r.payload, next := t.next + 1, lastFrame := a.1.now }).sendSeg t kSegAck
                r.code []
            else if r.code < t.next then
              (a.1.putTransfer k { t with lastFrame := a.1.now }).sendSeg t kSegAck (t.next - 1) []
            else a.1)

/-- SEG_ACK (R410): of segment k it covers every segment up to k; the last one ends a read, and the module acknowledges it. -/
def execSegAck (r : Req) (s : State) : Out :=
  .next (
    let a := s.admitFrame r kSegAck
    if !a.2 ∨ r.rsv ≠ 0 ∨ r.payload ≠ [] then a.1
    else match a.1.inTransfer r with
      | none => a.1
      | some t =>
        if t.write ∨ t.next ≤ r.code then a.1
        else
          let k := transferKey r
          let u := { t with acked := max t.acked (r.code + 1), lastFrame := a.1.now }
          if t.count ≤ u.acked then (a.1.dropTransfer k).sendSeg t kSegAck r.code []
          else (a.1.putTransfer k u).pushSegments 16 k)

/-- SEG_CANCEL (R411): the transfer ends, the object unchanged. -/
def execSegCancel (r : Req) (s : State) : Out :=
  .next (
    let a := s.admitFrame r kSegCancel
    if !a.2 ∨ r.rsv ≠ 0 ∨ r.payload ≠ [] then a.1
    else match a.1.inTransfer r with
      | none => a.1
      | some _ => a.1.dropTransfer (transferKey r))

/-- SEGMENT_RESEND_TIMEOUT (R410): 100 ms after it was sent, the oldest unacknowledged segment is sent again. -/
def execSegmentResendTimeout (k : Nat) (s : State) : Out :=
  .next (
    match s.transfer k with
    | none => s
    | some t =>
      if t.write ∨ t.next ≤ t.acked then s
      else
        let s1 := s.reach (t.lastSent + 100000000)
        (s1.putTransfer k { t with lastSent := s1.now }).sendSeg t kSegData t.acked (t.segment t.acked))

/-- SEGMENT_TRANSFER_ABANDON (R410): 2 s without a frame end a transfer as if cancelled. -/
def execSegmentTransferAbandon (k : Nat) (s : State) : Out :=
  .next (
    match s.transfer k with
    | none => s
    | some t => (s.reach (t.lastFrame + 2000000000)).dropTransfer k)

/-! ### Events (R414) -/

/-- EVENT_ACK (R414): every record up to the number is acknowledged. -/
def execEventAck (r : Req) (s : State) : Out :=
  .next (
    let a := s.admitFrame r kEventAck
    if !a.2 ∨ r.rsv ≠ 0 ∨ r.payload.length ≠ 4 ∨ r.sealed = false then a.1
    else a.1.updSession r.session (fun x => { x with unacked := x.unacked.filter (fun e => decide (leNat r.payload < e.1)) }))

/-- Records that one EVENT frame may carry (R414). -/
def eventBatch (x : Session) : Nat :=
  if x.version = 1 then 1 else match x.carrier with
    | .mgmt _ => 18
    | .tunnel _ => 63

/-- EVENT_RESEND (R414): the oldest unacknowledged records are sent again. -/
def execEventResend (sess : Nat) (s : State) : Out :=
  .next (
    match s.session sess with
    | none => s
    | some x =>
      match x.unacked.take (eventBatch x) with
      | [] => s
      | l => s.sendFrame (some sess)
          { carrier := x.carrier, session := some sess, version := x.version, sequence := 0, requestId := 0, kind := 0x08, index := 0
            sub := 0, code := 0, value := l.flatMap (fun e => e.2.bytes e.1) })

/-! ### The end of a session (R386) -/

/-- A session ends: its keys, shadow and transfer are gone. A commit that it has pending is still applied (Table ULY-6). -/
def State.endSession (s : State) (n : Nat) : State :=
  (s.dropTransfer n).updSec (fun c => { c with sessions := c.sessions.filter (fun e => decide (e.1 ≠ n)) })

/-- The partition that a session's events name. -/
def sessPart (n : Nat) : Option Nat := if 2 ≤ n then some (n - 2) else none

/-- CLOSE (R386): the session ends, with event 0x70 detail 0x33. -/
def execClose (r : Req) (s : State) : Out :=
  .next (
    let a := s.admitFrame r kClose
    if !a.2 ∨ r.rsv ≠ 0 ∨ r.payload ≠ [] ∨ r.sealed = false then a.1
    else (a.1.endSession r.session).raise 0x70 0x33 (sessPart r.session) [(.session, r.session)] [])

/-! ### Check and commit (R416 to R419) -/

/-- CHECK (R417): the shadow is checked; with no conflict the initialisation of added pages begins (R309). -/
def execCheck (r : Req) (s : State) : Out :=
  .next (if !(reqNames r 0x2F00 1 && reqByteIs r 1) then s
    else s.command r (fun t => match t.session r.session with
        | some x => if x.committing.isSome then abBusy else 0
        | none => abNoSession)
      (fun t => match t.session r.session with
        | none => t
        | some x =>
          let c := t.checkSet x.shadow
          let t1 := t.updSession r.session (fun y => { y with check := c })
          if c.code = 0 then (t1.beginInit x.shadow).reply r 0 else t1.reply r c.code))

/-- CHECK_DISCARD (R416). -/
def execCheckDiscard (r : Req) (s : State) : Out :=
  .next (if !(reqNames r 0x2F00 1 && reqByteIs r 2) then s
    else s.command r (fun t => match t.session r.session with
        | some x => if x.committing.isSome then abBusy else 0
        | none => abNoSession)
      (fun t => (t.updSession r.session (fun y => { y with shadow := [] })).reply r 0))

/-- The first running partition that a set's pairs are in. -/
def State.runningIn (s : State) (sh : List Pair) : Option Nat :=
  (sh.filterMap (fun e => objPart e.1.1 e.1.2)).find? (fun p =>
    decide ((s.part p).runState = .running) || decide ((s.part p).runState = .draining))

/-- A commit's set is applied, and its request answered where its session still waits for it (R419, Table ULY-6). -/
def State.finishCommit (s : State) (c : PendingCommit) : State :=
  let s1 := (s.updSec (fun y => { y with commits := y.commits.filter (fun d => decide (d ≠ c)) })).applySet c.set
  match s1.session c.session with
  | some x =>
    if x.committing = some c.request then
      (s1.updSession c.session (fun y => { y with committing := none, shadow := [] })).reply c.request 0
    else s1
  | none => s1

/-- COMMIT (R419): checked again; applied at once, or at the first boundary at least 20 µs ahead where its partition runs. -/
def execCommit (r : Req) (s : State) : Out :=
  .next (if !(reqNames r 0x2F00 3) then s
    else s.command r (fun t => match t.session r.session with
        | some x => if !reqByteIs r 1 then abRange else if x.committing.isSome then abBusy else 0
        | none => abNoSession)
      (fun t => match t.session r.session with
        | none => t
        | some x =>
          let c := t.checkSet x.shadow
          let t1 := t.updSession r.session (fun y => { y with check := c })
          if c.code ≠ 0 then t1.reply r c.code
          else if !t1.initDone x.shadow then (t1.beginInit x.shadow).reply r abBusy
          else
            match t1.runningIn x.shadow with
            | none => ((t1.applySet x.shadow).updSession r.session (fun y => { y with shadow := [] })).reply r 0
            | some p =>
              let y := t1.part p
              let d : PendingCommit := { session := r.session, part := some p
                                         at_ := y.turnStart (y.firstTurnFrom (t1.now + 20000)), set := x.shadow, request := r }
              (t1.updSession r.session (fun z => { z with committing := some r })).updSec (fun z =>
                { z with commits := z.commits ++ [d] })))

/-- COMMIT_APPLY (R419): the pending commit's instant, or its partition has left RUNNING. -/
def execCommitApply (sess : Nat) (s : State) : Out :=
  .next (
    match s.sec.commits.find? (fun c => decide (c.session = sess)) with
    | none => s
    | some c =>
      let runs : Bool := match c.part with
        | some p => decide ((s.part p).runState = .running) || decide ((s.part p).runState = .draining)
        | none => false
      (if runs then s.reach c.at_ else s).finishCommit c)

end Sys2Proof.Machine
end

