-- ==== Sys2Proof/Machine/Memory.lean ====
section
/-!
DEFINITION. Stack memory at work: sector reads and writes (R304, R305), refresh (R318), patrol scrub (R323), page
initialisation (R309), channel migration (R324 to R327), the training of the stacks (R467).
-/

namespace Sys2Proof.Machine

open Sys2Proof

/-- A stack serves requests: its dies are powered, it is trained, and its control pads are not held (Table PWR-4, R455). -/
def State.stackOn (s : State) (st : Nat) : Bool :=
  (decide (s.power.state = .ready) || decide (s.power.state = .active) || decide (s.power.state = .standby)) &&
    !s.power.memTraining && !s.power.padHeld.testBit (4 + st / 4)

/-- The byte of a dictionary object that stands at an address of the dictionary's areas, 0 elsewhere (R504). -/
def State.dictByte (s : State) (pa : Nat) : Byte :=
  let off := pa % 2 ^ 34
  if inDevice pa && decide (0x10000000 ≤ off) && decide (off < 0x20000000) then
    match Config.dictPlace off with
    | some (o, i) => byteAt (s.readObject 0 (.mgmt 0) o.1 o.2) i
    | none => 0
  else 0

/-- The 64 bytes that a read of a sector delivers; the device region's with the dictionary's content. -/
def State.deliveredBytes (s : State) (owner pa : Nat) : List Byte :=
  (List.range 64).map (fun i =>
    let a := pa / 64 * 64 + i
    if owner = deviceOwner then s.readByte owner a ^^^ s.dictByte a else s.readByte owner a)

/-- The partition of an owner; the device region has none. -/
def ownerPart (owner : Nat) : Option Nat := if owner < 16 then some owner else none

/-- A sector is read: its bytes are delivered, and the outcome has its effects. -/
def State.readSector (s : State) (owner pa : Nat) : State :=
  let v := s.deliveredBytes owner pa
  let s1 := (s.readEffects owner (pa / 64 * 64) (ownerPart owner) true).settleLost.chargeStack owner pa 1 0
  { s1 with dram := { s1.dram with delivered := v } }

/-- MEMORY_READ (R304): the stored bits are first disturbed as the operand says. -/
def execMemoryRead (owner pa : Nat) (upset : BitVec 580) (s : State) : Out :=
  onUnit (decide (owner ≤ 16) && decide (pa < 2 ^ 41))
    (if s.stackOn (paStack pa) then (s.upsetSector pa upset).readSector owner pa else s)

/-- The writes of a run of bytes within a sector: position, byte, no kept bits. -/
def sectorWrites (pa : Nat) (bytes : List Byte) : List (Nat × Byte × Byte) :=
  (bytes.zip (List.range bytes.length)).map (fun b => (pa % 64 + b.2, b.1, 0))

/-- MEMORY_WRITE (R305): a whole sector, or a read-modify-write of a part that is refused over data it cannot verify. -/
def execMemoryWrite (owner pa : Nat) (bytes : List Byte) (upset : BitVec 580) (s : State) : Out :=
  onUnit (decide (owner ≤ 16) && decide (pa < 2 ^ 41) && decide (pa % 64 + bytes.length ≤ 64))
    (if s.stackOn (paStack pa) then
      let new := if owner = deviceOwner then (bytes.zip (List.range bytes.length)).map (fun b => b.1 ^^^ s.dictByte (pa + b.2))
        else bytes
      let t := (s.upsetSector pa upset).writeBytes owner pa (ownerPart owner) (sectorWrites pa new)
      (if owner = deviceOwner then t.settleLost else t).chargeStack owner pa 1 (if bytes.length < 64 then 1 else 0)
    else s)

/-- REFRESH (R318): a channel's interval of 3.9 µs, or 1.95 µs at Warm or above, expires and it is refreshed. -/
def execRefresh (st ch : Nat) (s : State) : Out :=
  onUnit (decide (st < 32) && decide (ch < 66)) (
    let step := if 1 ≤ s.zoneLevel st then 1950 else 3900
    let s1 := s.reach (Tab.get 1 (s.stack st).refreshedAt ch - 1 + step)
    s1.updStack st (fun x => { x with refreshedAt := Tab.put x.refreshedAt ch (s1.now + 1) }))

/-! ### Patrol scrub (R323) -/

/-- A sector's check code fails, or a 1 in the reserved bit makes it uncorrectable (R302, R304). -/
def State.codeFails (s : State) (pa : Nat) : Bool := (s.sectorMeta pa).codeFails

/-- The partition whose page map holds a physical address. -/
def State.partOfPage (s : State) (pa : Nat) : Option Nat := (List.range 16).find? (fun p => (s.vaOf p pa).isSome)

/-- Scrub of a sector of a partition or of no one. -/
def State.scrub (s : State) (pa : Nat) : State :=
  let m := s.sectorMeta pa
  let part := s.partOfPage pa
  let st := paStack pa
  if s.codeFails pa then
    let s1 := (s.countRead st (s.physOf pa) 1).raise 0x41 0x23 part (memLoc st (s.physOf pa) (paRow pa) pa) []
    let s2 := match part with
      | some p => s1.dataError p (s.vaOf p pa) false
      | none => s1
    s2.triggerMigration st (paChannel pa)
  else if sectorDecode m.upset = .clean then s
  else s.correctedRead part pa 0x22

/-- Scrub of a device-region sector: a copy that fails is restored from the other one (R311, R323). -/
def State.scrubDevice (s : State) (pa : Nat) : State :=
  let m := s.sectorMeta pa
  if s.codeFails pa then
    let s1 := s.failedCopy pa true
    if s.codeFails (mirrorOf pa) then ((s1.failedCopy (mirrorOf pa) true).deviceLost pa).settleLost else s1.restoreCopy pa none
  else if sectorDecode m.upset = .clean then s
  else s.correctedRead none pa 0x22

/-- PATROL_SCRUB (R323): one sector of a logical channel, its check code only. -/
def execPatrolScrub (st ch sector : Nat) (upset : BitVec 580) (s : State) : Out :=
  onUnit (decide (st < 32) && decide (ch < 64) && decide (sector < 2 ^ 24)) (
    let pa := placeAddress st ch (sector / 64) (sector % 64)
    if s.stackOn st then
      let s1 := (s.upsetSector pa upset).chargeStack 17 pa 1 0
      if inDevice pa then s1.scrubDevice pa else s1.scrub pa
    else s)

/-! ### Page initialisation (R309) -/

/-- Every sector of a page is written with zeros under the key that the partition will have, with good side-band. -/
def State.initPage (s : State) (p page : Nat) : State :=
  let x := s.part p
  let gen := if x.preparedKey.isSome then false else decide (x.keyGeneration % 2 = 1)
  let key := match x.preparedKey with
    | some k => k
    | none => x.curKey.getD 0
  let s1 : State := { s with dram := { s.dram with pages := Tab.put s.dram.pages page { owner := p, key := key, keyGen := gen } } }
  (List.range 1024).foldl (fun t i =>
    t.storeAt (page * 65536 + 64 * i) { owner := p, key := key, keyGen := gen, reservedBit := false, upset := 0 } []) s1

/-- The maintenance charge of a page's sixteen chunks (Table MEM-3). -/
def State.chargePage (s : State) (page : Nat) : State :=
  (List.range 16).foldl (fun t i => t.chargeStack 17 (page * 65536 + 4096 * i) 64 0) s

/-- PAGE_INITIALISATION (R309): a page that a checked set adds. -/
def execPageInitialisation (p page : Nat) (s : State) : Out :=
  onUnit (decide (p < 16) && decide (page < 2 ^ 25)) (
    if (s.part p).pagesToInit.contains page then
      ((s.initPage p page).chargePage page).updPart p (fun x =>
        { x with pagesToInit := x.pagesToInit.filter (fun k => decide (k ≠ page)), pagesDone := x.pagesDone ++ [page] })
    else s)

/-! ### Channel migration (R324 to R327, Table MEM-10) -/

/-- MIGRATE_REQUEST (R324): a channel that is queued, migrating or retired is answered busy (R325). -/
def execMigrateRequest (r : Req) (s : State) : Out :=
  .next (if !reqNames r 0x5300 3 then s
    else
      let v := reqValue r
      let st := v % 32
      let ch := fld v 5 6
      s.command r (fun t =>
          if fld v 11 5 ≠ 0 then abRange
          else if t.migrationPending (st / 4) st ch || (t.stack st).retired.contains ((t.stack st).physical ch) then abBusy
          else 0)
        (fun t => (t.triggerMigration st ch).reply r 0))

/-- MIGRATION_SPARE_TRAINED (R326 step 2): the copy begins at chunk 0. -/
def execMigrationSpareTrained (die : Nat) (s : State) : Out :=
  onUnit (decide (die < 8)) (
    if (s.memDie die).mig = .training then s.updMemDie die (fun d => { d with mig := .copying, copyPtr := 0, copyAt := s.now })
    else s)

/-- The Hold cause of a die's migration: code 0x03, told apart by the die (R77, log 10). -/
def migHold (die : Nat) : Nat := 0x03 + 256 * die

/-- The stored entries of a physical channel. -/
def channelBase (st phys : Nat) : Nat := (st * 66 + phys) * 2 ^ 24

/-- A sector as the copy writes it: corrected where the code can, else bit for bit. -/
def Sector.copied (m : Sector) : Sector :=
  if m.codeFails then m else { m with upset := sectorResidual m.upset }

/-- The keys of the chunks [lo, hi) of a physical channel. -/
def chunkKeys (st phys lo hi key : Nat) : Bool :=
  decide (channelBase st phys + 64 * lo ≤ key) && decide (key < channelBase st phys + 64 * hi)

/-- The chunks [lo, hi) of a channel are copied onto a spare. -/
def State.copyChunks (s : State) (st old spare lo hi : Nat) : State :=
  let from_ := 64 * channelBase st old
  let to_ := 64 * channelBase st spare
  let secs := s.dram.sectors.filter (fun e => chunkKeys st old lo hi e.1)
  let cells := s.dram.cells.filter (fun e => chunkKeys st old lo hi (e.1 / 64))
  let baseS := s.dram.sectors.filter (fun e => !chunkKeys st spare lo hi e.1)
  let baseC := s.dram.cells.filter (fun e => !chunkKeys st spare lo hi (e.1 / 64))
  { s with dram := { s.dram with
      sectors := secs.foldl (fun t e => Tab.put t (e.1 - channelBase st old + channelBase st spare) e.2.copied) baseS
      cells := cells.foldl (fun t e => Tab.put t (e.1 - from_ + to_) e.2) baseC } }

/-- The uncorrectable sectors of the chunks are reported as they are copied: event 0x41 detail 0x24, and R286. -/
def State.reportCopied (s : State) (st ch old lo hi : Nat) : State :=
  (s.dram.sectors.filter (fun e => chunkKeys st old lo hi e.1 && e.2.codeFails)).foldl (fun t e =>
    let k := e.1 - channelBase st old
    let pa := placeAddress st ch (k / 64) (k % 64)
    let part := t.partOfPage pa
    let t1 := t.raise 0x41 0x24 part (memLoc st old (k / 64) pa) []
    match part with
    | some p => t1.dataError p (t1.vaOf p pa) false
    | none => t1) s

/-- A die copies on up to a chunk: its pointer, and the copy of each chunk as one step (R326 steps 2 and 3, R328). -/
def State.copyTo (s : State) (die hi : Nat) : State :=
  let d := s.memDie die
  (((s.reportCopied d.migStack d.migChannel d.migOld d.copyPtr hi).copyChunks d.migStack d.migOld d.migSpare d.copyPtr
    hi).updMemDie die (fun y => { y with copyPtr := max d.copyPtr hi, copyAt := y.copyAt + 2560 * (hi - d.copyPtr) }))

/-- The chunks whose 4 KiB a copying die has copied by now, at 1.6 GB/s: 2,560 ns each. -/
def State.copyDue (s : State) (die : Nat) : State :=
  let d := s.memDie die
  if d.mig = .copying ∧ d.copyAt + 2560 ≤ s.now then s.copyTo die (min (2 ^ 18) (d.copyPtr + (s.now - d.copyAt) / 2560)) else s

/-- What the copying dies have copied as time passed. -/
def State.copyOn (s : State) : State := (List.range 8).foldl (fun t d => t.copyDue d) s

/-- Step 5: the map entry points to the spare, the Hold is released. -/
def State.switchChannel (s : State) (die : Nat) : State :=
  let d := s.memDie die
  let s1 := (s.updStack d.migStack (fun x => { x with map := Tab.put x.map d.migChannel d.migSpare })).updMemDie die (fun y =>
    { y with mig := .testing, holdsFor := false })
  let s2 := if d.holdsFor then s1.releaseModule (migHold die) 3 else s1
  s2.raise 0x40 0x24 none [(.stack, d.migStack), (.channel, d.migSpare)] []

/-- Step 4: the Hold of cause 0x03; with no partition RUNNING the switch follows at once. -/
def State.awaitHold (s : State) (die : Nat) : State :=
  let runs := s.tabledParts.any (fun p => decide ((s.part p).runState ≠ .held))
  let s1 := (s.updMemDie die (fun d => { d with mig := .awaitingHold, holdsFor := true })).holdModule (migHold die)
  if runs then s1 else s1.switchChannel die

/-- MIGRATION_COPY_COMPLETE (R326 steps 2 to 4). -/
def execMigrationCopyComplete (die : Nat) (s : State) : Out :=
  onUnit (decide (die < 8)) (
    if (s.memDie die).mig = .copying then (s.copyTo die (2 ^ 18)).awaitHold die else s)

/-- MIGRATION_SWITCH (R326 step 5): at the held boundary of every Table. -/
def execMigrationSwitch (die : Nat) (s : State) : Out :=
  onUnit (decide (die < 8)) (
    if (s.memDie die).mig = .awaitingHold && s.moduleHeld (migHold die) then s.switchChannel die else s)

/-- The die is idle again and takes the next request of its queue; one without a free spare is refused (R325). -/
def State.nextMigration : Nat → Nat → State → State
  | 0, _, s => s
  | n + 1, die, s =>
    match (s.memDie die).queue with
    | [] => s
    | (st, ch) :: rest =>
      let s1 := (s.updMemDie die (fun d => { d with queue := rest })).startMigration die st ch
      if (s1.memDie die).mig = .idle then State.nextMigration n die s1 else s1

def State.migrationDone (s : State) (die : Nat) : State :=
  let s1 := s.updMemDie die (fun d =>
    { d with mig := .idle, migStack := 0, migChannel := 0, migSpare := 0, migOld := 0, copyPtr := 0, retried := false })
  s1.nextMigration (s1.memDie die).queue.length die

/-- MIGRATION_OLD_CHANNEL_TEST (R326 step 6). -/
def execMigrationOldChannelTest (die : Nat) (passed : Bool) (s : State) : Out :=
  onUnit (decide (die < 8)) (
    let d := s.memDie die
    if d.mig ≠ .testing then s
    else
      let x := s.stack d.migStack
      let s1 := if passed && !x.returned.contains d.migOld then
          s.updStack d.migStack (fun y => { y with free := insNat d.migOld y.free, returned := y.returned ++ [d.migOld] })
        else
          (s.updStack d.migStack (fun y => { y with retired := y.retired ++ [d.migOld] })).raise 0x40 0x27 none
            [(.stack, d.migStack), (.channel, d.migOld)] []
      s1.migrationDone die)

/-- The instant from which the 100 ms of a held action count: the held boundary of the Table that was held last (R76, R327). -/
def State.heldFrom (s : State) (cause : Nat) : Nat :=
  ((List.range 16).filter (fun p => (s.part p).ownHold.contains cause)).foldl (fun t p => max t (s.part p).heldSince) 0

/-- MIGRATION_SWITCH_TIMEOUT (R327): 100 ms after its Hold took effect the map entry stays, and the Hold is released; the second
time the spare is freed and the request dropped. -/
def execMigrationSwitchTimeout (die : Nat) (s : State) : Out :=
  onUnit (decide (die < 8)) (
    let d := s.memDie die
    if d.mig ≠ .awaitingHold ∨ !s.moduleHeld (migHold die) then s
    else
      let s0 := s.reach (s.heldFrom (migHold die) + 100000000)
      let s1 := ((s0.updMemDie die (fun y => { y with holdsFor := false })).releaseModule (migHold die) 4).raise 0x40 0x26 none
        [(.stack, d.migStack), (.channel, d.migOld)] []
      if d.retried then
        (s1.updStack d.migStack (fun y => { y with free := insNat d.migSpare y.free })).migrationDone die
      else s1.updMemDie die (fun y => { y with mig := .awaitingRetry, retried := true, retryAt := s1.now + 10000000000 }))

/-- MIGRATION_RETRY (R327): step 4 again, once, 10 s later. -/
def execMigrationRetry (die : Nat) (s : State) : Out :=
  onUnit (decide (die < 8)) (
    if (s.memDie die).mig = .awaitingRetry then (s.reach (s.memDie die).retryAt).awaitHold die else s)

/-! ### Training (Table SVC-1 step 7) -/

/-- A channel that fails at start-up: its logical channel moves to the lowest spare that works; a failing spare is none. -/
def Stack.spareChannel (x : Stack) (phys : Nat) : Stack :=
  if x.retired.contains phys then x else
  let y := { x with free := x.free.filter (fun k => decide (k ≠ phys)), retired := x.retired ++ [phys] }
  match (List.range 64).find? (fun ch => decide (x.physical ch = phys)), y.free with
  | some ch, k :: rest => { y with map := Tab.put y.map ch k, free := rest, spared := y.spared + 1 }
  | _, _ => y

/-- MEMORY_TRAINING_COMPLETE (R467): the stacks are trained, failing channels spared at start-up, when the device region is
written with zeros (R311). -/
def execMemoryTrainingComplete (failing : List (Nat × Nat)) (s : State) : Out :=
  .next (if !s.power.memTraining then s
    else
      let s1 := s.updPower (fun x => { x with memTraining := false })
      if s.dram.trained then s1
      else
        let s2 := failing.foldl (fun t e => t.updStack e.1 (fun x =>
          { x with free := x.free.filter (fun k => decide (k ≠ e.2)) })) s1
        let s3 := failing.foldl (fun t e => t.updStack e.1 (fun x => x.spareChannel e.2)) s2
        { s3 with dram := { s3.dram with trained := true, cells := [], sectors := [] } })

end Sys2Proof.Machine
end

