-- ==== Sys2Proof/Machine/Power.lean ====
section
/-!
DEFINITION. Supply, power states and thermal samples (R444 to R465), and what passes with time on an empty queue.
-/

namespace Sys2Proof.Machine

open Sys2Proof

/-! ### The input and the rails (R444 to R447, R454) -/

def State.powered (s : State) : Bool := decide (s.power.state ≠ .off)

/-- A reading is above so many units. -/
def above (reading : Word) (c : Nat) : Bool := (valNat c).lt (dec32 reading.toNat)
/-- A reading is below so many units. -/
def below (reading : Word) (c : Nat) : Bool := (dec32 reading.toNat).lt (valNat c)

/-- INPUT_VALID (R444): the input reaches 44 V; OFF becomes BOOT. -/
def execInputValid (volts : Word) (s : State) : Out :=
  .next (
    let s1 := s.updPower (fun x => { x with inputVoltage := volts })
    if !s.powered && atLeast volts 44 && !above volts 60 then s1.boot else s1)

/-- INPUT_LOW (R444): between 42 V and 44 V the module goes on. -/
def execInputLow (s : State) : Out := .next (if s.powered then s.raise 0x90 0x01 none [] [] else s)

/-- INPUT_LOST (R444): more than 100 µs below 42 V. -/
def execInputLost (s : State) : Out := .next (s.goOff 2)

/-- Bit 1 of SupplyFlags: over-voltage seen. -/
def State.flagSupply (s : State) (b : Nat) : State := s.updPower (fun x => { x with supplyFlags := x.supplyFlags ||| 1 <<< b })

/-- INPUT_OVERVOLTAGE (R444): up to 60 V the module goes on; above, the switch opens, and after more than 100 µs the input
is lost. `lasted` is in ns. -/
def execInputOvervoltage (volts : Word) (lasted : Nat) (s : State) : Out :=
  .next (
    if !s.powered || !above volts 58 then s
    else
      let s1 := (s.updPower (fun x => { x with inputVoltage := volts })).flagSupply 1
      if !above volts 60 then s1.raise 0x90 0x02 none [] []
      else if lasted ≤ 100000 then s1
      else s1.goOff 3)

/-- INPUT_REVERSED (R444): blocked, and latched by the input itself for the next BOOT. -/
def execInputReversed (s : State) : Out := .next ((s.updPower (fun x => { x with reverseLatch := true })).goOff 2)

/-- POWER_LIMIT (R445): above 3,200 W every compute domain is set to 0.68 V. -/
def execPowerLimit (watts : Word) (s : State) : Out :=
  .next (
    let s1 := s.updPower (fun x => { x with inputPower := watts })
    if !s.powered || s.power.limited || !above watts 3200 then s1
    else
      ((List.range 36).foldl (fun t d => t.setDomain d 680) (s1.updPower (fun x => { x with limited := true }))).raise 0x90 0x03
        none [] [])

/-- POWER_LIMIT_END (R445): below 3,100 W trim resumes. -/
def execPowerLimitEnd (watts : Word) (s : State) : Out :=
  .next (
    let s1 := s.updPower (fun x => { x with inputPower := watts })
    if below watts 3100 then s1.updPower (fun x => { x with limited := false }) else s1)

/-- RAIL_SHUTDOWN (R447): the rail goes off by itself; on rails 0 to 21 the module enters SAFE, on AON it goes OFF. -/
def execRailShutdown (rail : Nat) (s : State) : Out :=
  onUnit (decide (rail < 24)) (
    if !s.powered then s
    else
      let s1 := ((s.updPower (fun x => { x with rails := Tab.put x.rails rail 2 })).flagSupply 2).raise 0x90 0x04 none
        [(.rail, rail)] []
      if rail ≤ 21 then s1.enterSafe else if rail = 22 then s1.goOff 2 else s1)

/-- AON_BROWNOUT (R454): the module restarts through BOOT; StatusFlags [2] is set. -/
def execAonBrownout (s : State) : Out := .next (if s.powered then ((s.goOff 1).boot).setFlag 2 else s)

/-! ### Power states (R451 to R457) -/

/-- A PowerCommand of a code. -/
def isPowerCommand (r : Req) (code : Nat) : Bool := reqNames r 0x3000 1 && reqByteIs r code

/-- Memory or link training runs (R451). -/
def State.training (s : State) : Bool :=
  s.power.memTraining || (List.range 96).any (fun l => decide ((s.link l).state = 1))

/-- The self-test begins (R470): kind 1 at start-up, 2 requested. -/
def State.startSelfTest (s : State) (kind : Nat) : State :=
  s.updService (fun v => { v with selfTest := 1, selfTestKind := kind })

/-- The compute dies power up (R452): every Square is cleared; at the first ACTIVE after BOOT the self-test begins. -/
def State.goActive (s : State) : State :=
  let s1 := s.clearSquares.toPower .active
  if s.power.selfTested then s1 else (s1.updPower (fun x => { x with selfTested := true })).startSelfTest 1

/-- A wake source trips (R456, R457): it abandons an entry into SLEEP, or wakes the module into READY with its pads held. Aslet
retrains at full rate (R361, R378). -/
def State.trip (s : State) (cause : Nat) : State :=
  if s.power.sleepEntry then
    (s.updPower (fun x => { x with sleepEntry := false })).updAslet (fun a =>
      { a with sleepAsked := false, state := if a.lowRate then 1 else a.state })
  else if s.power.state = .sleep then
    (((s.updPower (fun x => { x with wakeCause := cause, aonLow := false })).toPower .ready).updAslet (fun a =>
      { a with state := 1 })).raise 0x90 0x08 none [] []
  else s

/-- POWER_ACTIVE (R451): from READY or STANDBY to ACTIVE; in SLEEP it is the wake of cause 4. -/
def execPowerActive (r : Req) (s : State) : Out :=
  .next (if !isPowerCommand r 3 then s
    else s.command r (fun t =>
        match t.power.state with
        | .ready => if t.training then abBusy else if t.power.padHeld ≠ 0 then abState else 0
        | .boot => abState
        | _ => 0)
      (fun t =>
        let u := match t.power.state with
          | .ready => t.goActive
          | .standby => if t.power.sleepEntry then t.trip 4 else t.goActive
          | .sleep => t.trip 4
          | _ => t
        u.reply r 0))

/-- A partition is ARMED, RUNNING, DRAINING or HELD. -/
def State.busyParts (s : State) : Bool :=
  (List.range 16).any (fun p => (s.part p).tabled || decide ((s.part p).runState = .armed))

/-- The compute dies power down. A self-test that runs is cut short and has not run (log 27). -/
def State.goStandby (s : State) : State :=
  let s1 := s.toPower .standby
  if s.service.selfTest = 1 then
    (s1.updService (fun v => { v with selfTest := 0 })).updPower (fun x => { x with selfTested := false })
  else s1

/-- POWER_STANDBY (R451). -/
def execPowerStandby (r : Req) (s : State) : Out :=
  .next (if !isPowerCommand r 4 then s
    else s.command r (fun t =>
        match t.power.state with
        | .ready => if t.training then abBusy else if t.power.padHeld ≠ 0 then abState else 0
        | .active => if t.busyParts then abState else 0
        | .standby => 0
        | _ => abState)
      (fun t => (if t.power.state = .standby then t else t.goStandby).reply r 0))

/-- Steps 4 to 6 of the entry into SLEEP (R453): dies off with their pads held, low-power mode. -/
def State.sleepNow (s : State) : State :=
  (s.updPower (fun x => { x with sleepEntry := false, padHeld := x.padHeld ||| 0x3FF0, aonLow := true })).toPower .sleep

/-- The host-interface Mover is idle. -/
def State.hostIdle (s : State) : Bool := (List.range 32).all (fun ch => !(s.channel .host ch).busy)

/-- Aslet is in low-rate mode, or lane 0 cannot carry it (R361). -/
def Aslet.lowReady (a : Aslet) : Bool := a.lowRate || !a.up || !a.lane0

/-- The next step of an entry into SLEEP (R453, R374): once the host-interface Mover is idle, Aslet is asked for low-rate mode; then,
without it going down with them, the chip links; then the rest. A wake source comes between two steps (R457). -/
def State.sleepStep (s : State) : State :=
  if !s.power.sleepEntry || !s.hostIdle then s
  else if !s.aslet.lowReady then
    if s.aslet.sleepAsked then s else s.updAslet (fun a => { a.send { kind := 7, status := 3 } with sleepAsked := true })
  else if (List.range 96).any (fun l => decide ((s.link l).state ≠ 0)) then
    (s.updAslet (fun a => if a.lowRate then a else { a with state := 0, tunnel := false })).linksDown
  else (s.updAslet (fun a => if a.lowRate then a else { a with state := 0, tunnel := false })).sleepNow

/-- POWER_SLEEP (R453): from STANDBY only. -/
def execPowerSleep (r : Req) (s : State) : Out :=
  .next (if !isPowerCommand r 5 then s
    else s.command r (fun t =>
        match t.power.state with
        | .standby => if t.power.sleepEntry then abBusy else 0
        | .sleep => 0
        | _ => abState)
      (fun t =>
        let u := t.reply r 0
        if t.power.state = .standby then (u.updPower (fun x => { x with sleepEntry := true })).sleepStep else u))

/-- The domains that a power state feeds, as PadRelease numbers them (R455). -/
def domainsOn (st : PowerState) : Nat :=
  match st with
  | .active => 0x3FFF
  | .ready => 0x3FF0
  | .standby => 0x3FF0
  | _ => 0

/-- Links of an I/O die begin their training: X0 links 0 to 47, X1 links 48 to 95 (R21, R455). -/
def State.trainLinks (s : State) (lo n : Nat) : State :=
  (List.range n).foldl (fun t i => t.updLink (lo + i) (fun x => { x with state := 1 })) s

/-- PAD_RELEASE (R455): a bit of a domain that is off refuses the whole write. Released memory-side dies retrain their stacks,
released I/O dies train their links. -/
def execPadRelease (r : Req) (s : State) : Out :=
  .next (if !reqNames r 0x3100 2 then s
    else s.command r (fun t =>
        let v := reqValue r
        if 2 ^ 14 ≤ v then abRange else if clearBits v (domainsOn t.power.state) ≠ 0 then abState else 0)
      (fun t =>
        let rel := reqValue r &&& t.power.padHeld
        let t1 := t.updPower (fun x =>
          { x with padHeld := clearBits x.padHeld rel, memTraining := x.memTraining || decide (rel &&& 0xFF0 ≠ 0) })
        let t2 := if rel.testBit 13 then (t1.trainLinks 0 48).updAslet (fun a => { a with state := 1 }) else t1
        let t3 := if rel.testBit 12 then t2.trainLinks 48 48 else t2
        t3.reply r 0))

/-- A wake source that its mask lets trip (Table PWR-6). -/
def State.tripSource (s : State) (source : Nat) : State :=
  if s.power.wakeSources.testBit source then s.trip (source + 1) else s

/-- WAKE_SOURCE (R456): 0 WAKE_SENSE, 1 Aslet lane 0, 2 the input supply. -/
def execWakeSource (source : Nat) (s : State) : Out := onUnit (decide (source < 3)) (s.tripSource source)

/-- WAKE_BURST (R375): continuous energy on Aslet lane 0. -/
def execWakeBurst (s : State) : Out := .next (s.tripSource 1)

/-! ### Temperature (R458 to R464) -/

/-- STACK_TEMPERATURE_SAMPLE (R318, R458). -/
def execStackTemperatureSample (st : Nat) (reading : Word) (s : State) : Out :=
  onUnit (decide (st < 32)) (
    if s.power.state = .ready ∨ s.power.state = .active ∨ s.power.state = .standby then
      (s.updStack st (fun x => { x with temperature := reading })).judgeZone st reading
    else s)

/-- JUNCTION_TEMPERATURE_SAMPLE (R458): the highest junction reading of a compute die, powered in ACTIVE. -/
def execJunctionTemperatureSample (die : Nat) (reading : Word) (s : State) : Out :=
  onUnit (decide (die < 4)) (
    if s.power.state = .active then
      (s.updThermal (fun x => { x with junction := Tab.put x.junction die reading })).judgeZone (32 + die) reading
    else s)

/-- COOLANT_INLET_HIGH (R464). -/
def execCoolantInletHigh (reading : Word) (s : State) : Out :=
  .next (
    let s1 := s.updThermal (fun x => { x with inlet := reading })
    if s.powered && above reading 40 then
      (s1.updThermal (fun x => { x with coolantFlags := x.coolantFlags ||| 1 })).raise 0x90 0x0A none [] []
    else s1)

/-- COOLANT_FLOW_LOW (R464): the estimate, from the outlet temperature and the input power, is judged where the coolant rises
by 2 K or more. -/
def execCoolantFlowLow (outlet power : Word) (s : State) : Out :=
  .next (
    let s1 := (s.updThermal (fun x => { x with outlet := outlet })).updPower (fun x => { x with inputPower := power })
    let f := dec32 s1.flowEstimate.toNat
    if s.powered && !f.isZero && f.lt ((valNat 7).div (valNat 2)) then
      (s1.updThermal (fun x => { x with coolantFlags := x.coolantFlags ||| 2 })).raise 0x90 0x0B none [] []
    else s1)

/-! ### The pin FAULT_N -/

/-- FAULT_N is low in SAFE and high-impedance in every other state (Table HW-3). -/
def State.faultLow (s : State) : Bool := decide (s.power.state = .safe)

/-! ### Time on an empty queue (log 1) -/

/-- A nanosecond passes: requests that wait for tokens are judged again, channel copies go on, an entry into SLEEP that waits goes
on. -/
def State.tick (s : State) : State := (({ s with now := s.now + 1 } : State).serveWaiting).copyOn.sleepStep

end Sys2Proof.Machine
end

