-- ==== Sys2Proof/Machine/LinkTrain.lean ====
section
/-!
DEFINITION. Training a chip link (R331 to R335), planned retrains (R355), lanes lost and exchanged in service (R353, R354),
cables (R490), the management segment's beacon (R401).
-/

namespace Sys2Proof.Machine

open Sys2Proof

/-! ### Lane assignment (R333) -/

/-- A connector lane that is not one. -/
def noLane : Nat := 0xFF

def Link.planned (x : Link) : Bool := decide (x.state = 1) || x.retrainMap.isSome

/-- The lanes that a training starts from in one direction: at start-up, after a cable and in a planned retrain those of
delivery (R329); in a retrain at once those in use. -/
def baseLanes (l : Nat) (planned : Bool) (cur : List Nat) : List Nat :=
  if planned then (List.range 4).map (fun i => 4 * (l % 8) + i) else cur

/-- Lanes of a base that do not work. -/
def deadLanes (rep : LaneReport) (base : List Nat) : List Nat :=
  base.filter (fun c => decide (c ≠ noLane) && !rep.working.contains c)

/-- Put each dead lane's place on the next spare; a place without one is not used. -/
def fillLanes (dead : List Nat) : List Nat → List Nat → List Nat
  | [], _ => []
  | c :: r, spares =>
    if dead.contains c then
      match spares with
      | [] => noLane :: fillLanes dead r []
      | a :: t => a :: fillLanes dead r t
    else c :: fillLanes dead r spares

/-- The outcome of one direction: its lane map, the group's free spares, the lanes that failed and those that came back. -/
structure LaneOutcome where
  map : List Nat
  spares : List Nat
  dead : List Nat
  back : List Nat
  deriving DecidableEq, Repr

/-- Assign the lanes of one direction. `claims` spares stay for the lower-numbered links that still train. -/
def assignLanes (l : Nat) (planned : Bool) (cur free failed : List Nat) (claims : Nat) (rep : LaneReport) : LaneOutcome :=
  let base := baseLanes l planned cur
  let mine := if planned then cur.filter (fun c => decide (c = 32) || decide (c = 33)) else []
  let all := [32, 33].filter (fun c => free.contains c || mine.contains c)
  let dead := deadLanes rep base
  let map := fillLanes dead base ((all.filter rep.working.contains).drop claims)
  { map := map, spares := all.filter (fun c => !map.contains c), dead := dead
    back := if planned then (base ++ mine).filter (fun c => failed.contains c && rep.working.contains c) else [] }

/-- Lanes of a map that are in use. -/
def liveLanes (m : List Nat) : Nat := (m.filter (fun c => decide (c ≠ noLane))).length

/-- A map cut to the two lowest working lanes (R333). -/
def narrowMap : Nat → List Nat → List Nat
  | _, [] => []
  | 0, _ :: r => noLane :: narrowMap 0 r
  | n + 1, c :: r => if c = noLane then noLane :: narrowMap (n + 1) r else c :: narrowMap n r

/-- Spares that the lower-numbered links of the group in training will need in one direction. -/
def State.spareClaims (s : State) (l : Nat) (rep : LaneReport) (side : Link → List Nat) : Nat :=
  ((List.range (l % 8)).map (fun i =>
    let j := l / 8 * 8 + i
    let x := s.link j
    if x.state = 1 ∨ x.state = 5 then (deadLanes rep (baseLanes j x.planned (side x))).length else 0)).foldl (· + ·) 0

/-- The detail of event 0x50 for a lane that failed (Table LNK-2); the DC test runs at start-up and after a cable only. -/
def laneDetail (dcTest : Bool) (rep : LaneReport) (c : Nat) : Nat :=
  if dcTest && rep.grounded.contains c then 0x04 else if dcTest && rep.shorted.contains c then 0x05 else 0x03

/-- Spares of a direction that a start-up's DC test of every connector lane finds dead, and that no earlier one has found. -/
def deadSpares (g : LinkGroup) (rx dcTest : Bool) (rep : LaneReport) (o : LaneOutcome) : List Nat :=
  if dcTest then o.spares.filter (fun c => !rep.working.contains c && !g.failed.contains (laneKey rx c)) else []

/-- Take the outcome of one direction: the group's spares and failed lanes, the counter of lanes spared, the events. -/
def State.takeLanes (s : State) (l : Nat) (rx dcTest : Bool) (rep : LaneReport) (o : LaneOutcome) : State :=
  let lost := deadSpares (s.group (l / 8)) rx dcTest rep o
  let s1 := s.updGroup (l / 8) (fun g =>
    let f := (g.failed.filter (fun c => !(o.back.map (laneKey rx)).contains c)) ++
      ((o.dead ++ lost).map (laneKey rx)).filter (fun c => !g.failed.contains c)
    let free := o.spares.filter (fun c => !lost.contains c)
    if rx then { g with sparesRx := free, failed := f } else { g with sparesTx := free, failed := f })
  let spared := (o.map.filter (fun c => decide (32 ≤ c) && decide (c ≠ noLane))).length
  let s2 := s1.updLink l (fun x => x.count 3 (min spared o.dead.length))
  let s3 := (o.dead ++ lost).foldl (fun t c => t.linkEvent 0x50 (laneDetail dcTest rep c) l (some c)) s2
  o.back.foldl (fun t c => t.linkEvent 0x50 0x06 l (some c)) s3

def LinkGroup.failedIn (g : LinkGroup) (rx : Bool) : List Nat :=
  (g.failed.filter (fun c => decide (64 ≤ c) == rx)).map (fun c => c % 64)

/-! ### Version, authentication and the link key (R334, R335) -/

/-- The link is refused: event 0x51 (R332), and event 0x70 where an identity is not verified. -/
def State.linkRefused (s : State) (l detail : Nat) : State :=
  let s1 := (s.updLink l (fun x => { x with state := 4, version := 0 })).linkEvent 0x51 detail l none
  if detail = 0x04 then s1.linkEvent 0x70 0x10 l none else s1

/-- The link key of training n: the shared secret with "link" and both nonces. -/
def linkKey (n : Nat) : BitVec 288 :=
  Config.hkdfExpand (Config.hkdfExtract [] (Config.sharedSecret n (Config.peerPoint n)))
    (textBytes "link" ++ padTo 48 (Config.randomBytes n 48) ++ padTo 48 (Config.peerNonce n))

/-- A link management transaction of a subtype. -/
def ctrlTxn (sub : Nat) (inl data : List Byte) : Txn := { kind := 0x11, inl := leBytes 1 sub ++ inl, data := data }

/-- What the signature of training n covers: both HELLO nonces, this end's first, and an ephemeral point (R335; log 115). -/
def trainingText (own peer : List Byte) (point : List Byte) : List Byte := padTo 48 own ++ padTo 48 peer ++ point

/-- What this end sends in steps 4 and 5 of Table LNK-1: ASSIGN and HELLO. -/
def trainingHello (version n : Nat) (rx : List Nat) : List Txn :=
  [ctrlTxn 0x08 [] (rx.flatMap (leBytes 1)),
   ctrlTxn 0x01 (leBytes 1 version ++ leBytes 6 0 ++ padTo 48 (Config.randomBytes n 48)) []]

/-- What it sends in step 6: its link identity certificate, and its ephemeral point with the signature of the link identity key (log 115). -/
def trainingIdentity (n : Nat) : List Txn :=
  let point := padTo pointBytes (Config.publicPoint n)
  let text := trainingText (Config.randomBytes n 48) (Config.peerNonce n) point
  [ctrlTxn 0x02 [] (identityCert 5 Config.linkIdentity),
   ctrlTxn 0x03 (List.replicate 15 0) (point ++ padTo signatureBytes (Config.linkSign (Config.sha384 text)))]

/-- A link that has its lanes begins its training n with a peer: with the one it had the sequence numbers and keys go on, and every
unacknowledged frame is replayed (R357); with another it starts afresh. -/
def Link.meet (x : Link) (n : Nat) (peer : PeerReport) : Link :=
  let same := decide (x.peerSerial = peer.serial) && decide (x.peerLink = peer.link) && slotListed x.rxKeys 0
  let y := { x with peerSerial := peer.serial, peerLink := peer.link, swapRx := none, swapTx := none }
  if same then
    { y with retained := y.retained.map (fun f => { f with sends := f.sends + 1 })
             out := y.out ++ y.retained.map (fun f => y.frameOut f.seq f.flits)
             counters := Tab.upd 0 y.counters 1 (fun k => satAdd k y.retained.length)
             ephemeral := Tab.put y.ephemeral 32 (n + 1) }
  else
    { y with txKeys := [], rxKeys := [], ephemeral := Tab.put [] 32 (n + 1), shares := [], txSeq := 0, rxSeq := 0
             retained := [], heldFrames := [], stream := []
             arrived := y.arrived.filter (fun t => decide (0x10 ≤ t.kind)) }

/-- The link carries traffic under a new link key; the one before it stays for trains that were sealed under it (R357). -/
def Link.connect (x : Link) (key : BitVec 288) (narrow : Bool) (version : Nat) (peer : PeerReport) : Link :=
  { x with state := if narrow then 3 else 2, version := version, roundTrip := peer.roundTrip, peerTime := 0, ownTime := 0
           txKeys := Tab.put x.txKeys 0 { key := key }
           rxKeys := Tab.put (if slotListed x.rxKeys 0 then Tab.put x.rxKeys 32 (Tab.get {} x.rxKeys 0) else x.rxKeys) 0 { key := key } }

/-- Send link management transactions of a training. -/
def State.sendAll (s : State) (l : Nat) (ts : List Txn) : State := ts.foldl (fun u t => u.sendTxn l t) s

/-- Steps 4 to 7 of Table LNK-1 on a link that has its lanes. -/
def State.settleLink (s : State) (l : Nat) (narrow : Bool) (peer : PeerReport) : State :=
  let n := s.fresh
  let own := s.service.maxima.getD 3 0
  let v := min own peer.version
  let s1 := (({ s with fresh := n + 1 } : State).updLink l (fun x => x.meet n peer)).sendAll l (trainingHello own n (s.link l).rxLanes)
  if v = 0 then s1.linkRefused l 0x05
  else
    let s2 := s1.sendAll l (trainingIdentity n)
    if !(peer.chainOk && peer.signatureOk) then s2.linkRefused l 0x04
    else
      let s3 := s2.updLink l (fun x => (x.connect (linkKey n) narrow v peer).drain s.now)
      if (s3.link l).sentOut then s3.linkFall l 0x03 false else s3.takeStream l

/-- A training has ended: a planned one ends its Holds (R355, R473). -/
def State.endTraining (s : State) (l : Nat) : State :=
  (s.updLink l (fun x => { x with retrainHold := false, retrainMap := none })).releaseModule (retrainCause l) 3

/-- LINK_TRAINING (R331): lanes by R333, then version, authentication, key and round trip. -/
def execLinkTraining (l : Nat) (rx tx : LaneReport) (peer : PeerReport) (s : State) : Out :=
  onUnit (decide (l < 96)) (
    let x := s.link l
    if x.state ≠ 1 ∧ x.state ≠ 5 then s
    else
      let g := s.group (l / 8)
      let dc := decide (x.state = 1)
      let ot := assignLanes l x.planned x.txLanes (g.sparesTx ++ x.swapTx.toList.map (fun w => w.spare)) (g.failedIn false)
        (s.spareClaims l tx (fun y => y.txLanes)) tx
      let or_ := assignLanes l x.planned x.rxLanes (g.sparesRx ++ x.swapRx.toList.map (fun w => w.spare)) (g.failedIn true)
        (s.spareClaims l rx (fun y => y.rxLanes)) rx
      let n := min (liveLanes ot.map) (liveLanes or_.map)
      let cut := fun (m : List Nat) => if n = 4 then m else narrowMap 2 m
      let s1 := ((s.takeLanes l false dc tx ot).takeLanes l true dc rx or_).updLink l (fun y =>
        { y with txLanes := cut ot.map, rxLanes := cut or_.map })
      let s2 :=
        if n < 2 then (s1.updLink l (fun y => { y.count 5 1 with state := 0, version := 0 })).linkEvent 0x51 0x02 l none
        else if n < 4 then (s1.updLink l (fun y => y.count 5 1)).linkEvent 0x51 0x01 l none |>.settleLink l true peer
        else s1.settleLink l false peer
      s2.endTraining l)

/-! ### Planned retrains (R355) -/

/-- RETRAIN_REQUEST (R355): a write of 1 requests a Hold with cause 0x04 in every Table with a window on the link; held, the
retrain begins. -/
def execRetrainRequest (r : Req) (s : State) : Out :=
  .next (if r.index / 0x100 ≠ 0x41 ∨ 0x415F < r.index ∨ r.sub ≠ 7 then s
    else
      let l := r.index - 0x4100
      s.command r (fun t => if 1 < reqValue r then abRange else if (t.link l).retrainHold then abBusy else 0)
        (fun t =>
          if reqValue r = 0 then t.reply r 0
          else
            let t1 := t.updLink l (fun x => { x with retrainHold := true })
            (((t.linkParts l).foldl (fun u p => u.requestHold p (retrainCause l)) t1).beginRetrain l).reply r 0))

/-- The latest instant at which a Hold for a link's retrain took effect. -/
def State.retrainHeldSince (s : State) (l : Nat) : Nat :=
  (List.range 16).foldl (fun a p =>
    let x := s.part p
    if x.ownHold.contains (retrainCause l) then max a x.heldSince else a) 0

/-- PLANNED_RETRAIN_TIMEOUT (R355, R76): 100 ms after the Holds took effect the lane map before the retrain is in force again,
and the action is abandoned. -/
def execPlannedRetrainTimeout (l : Nat) (s : State) : Out :=
  onUnit (decide (l < 96)) (
    match (s.link l).retrainMap with
    | none => s
    | some m =>
      let t := s.reach (s.retrainHeldSince l + 100000000)
      let t1 := t.updLink l (fun x =>
        ({ x with state := if m.1 = 5 ∨ m.1 = 1 then 0 else m.1, txLanes := m.2.1, rxLanes := m.2.2, retrainHold := false
                  retrainMap := none }).drain t.now)
      t1.releaseModule (retrainCause l) 4)

/-! ### Lanes in service (R353, R354) -/

/-- LINK_CTRL transactions about lanes: subtype, lane, spare and frame number. -/
def laneTxn (sub lane spare seq : Nat) : Txn :=
  { kind := 0x11, inl := leBytes 1 sub ++ leBytes 1 lane ++ leBytes 1 spare ++ leBytes 1 0 ++ leBytes 2 seq }

/-- The lowest free spare of a list. -/
def lowSpare (l : List Nat) : Option Nat := l.min?

/-- No link of a group exchanges a lane in one direction (R353). -/
def State.noExchange (s : State) (g : Nat) (side : Link → Option LaneSwap) : Bool :=
  (List.range 8).all (fun i => (side (s.link (8 * g + i))).isNone)

/-- Symbols corrected on a connector lane in the last second. -/
def Link.laneErrors (x : Link) (now c : Nat) : Nat :=
  (x.corrected.filter (fun e => decide (e.1 = c) && decide (now < e.2.1 + 1000000000))).foldl (fun n e => n + e.2.2) 0

/-- LANE_SWAP_THRESHOLD (R353): where a lane's corrected symbols have reached SwapThreshold, the receiving end takes a free spare and
sends SWAP_REQ. -/
def execLaneSwapThreshold (l lane : Nat) (s : State) : Out :=
  onUnit (decide (l < 96) && decide (lane < 4)) (
    let c := (s.link l).rxLanes.getD lane noLane
    match lowSpare (s.group (l / 8)).sparesRx with
    | some sp =>
      if (s.link l).up && decide (c ≠ noLane) && decide ((s.link l).swapThreshold ≤ (s.link l).laneErrors s.now c) &&
          s.noExchange (l / 8) (fun x => x.swapRx) then
        ((s.updGroup (l / 8) (fun g => { g with sparesRx := g.sparesRx.erase sp })).updLink l (fun x =>
          { x with swapRx := some { lane := c, spare := sp, atSeq := none } })).sendTxn l (laneTxn 0x05 c sp 0)
      else s
    | none => s)

/-- LANE_SPARE_ADAPTED (R353): SWAP_AT names a frame 64 ahead. -/
def execLaneSpareAdapted (l : Nat) (s : State) : Out :=
  onUnit (decide (l < 96)) (
    let x := s.link l
    match x.swapRx with
    | some w =>
      if w.atSeq.isNone && x.up then
        let n := (x.rxSeq + 64) % 4096
        (s.updLink l (fun y => { y with swapRx := some { w with atSeq := some n } })).sendTxn l (laneTxn 0x06 w.lane w.spare n)
      else s
    | none => s)

/-- The receiving end reads a spare in a lost lane's place. -/
def State.loseLane (t : State) (l c k : Nat) : State :=
  (((t.updGroup (l / 8) (fun g => { g with sparesRx := g.sparesRx.erase k })).updLink l (fun y =>
    { y.count 3 1 with rxLanes := replaceLane y.rxLanes c k })).linkEvent 0x50 0x02 l (some c)).sendTxn l (laneTxn 0x07 c k 0)

/-- LANE_LOSS_OF_LOCK (R354): an exchange of the lane completes at once; else a free spare takes its place and LANE_LOST is
sent; without one the link retrains at once (R355). -/
def execLaneLossOfLock (l lane : Nat) (s : State) : Out :=
  onUnit (decide (l < 96) && decide (lane < 4)) (
    let x := s.link l
    let c := x.rxLanes.getD lane noLane
    if !x.up || decide (c = noLane) then s
    else
      let t := s.laneFails l true c
      match x.swapRx.filter (fun w => decide (w.lane = c)), lowSpare (s.group (l / 8)).sparesRx with
      | some w, _ =>
        ((t.updLink l (fun y => { y.count 4 1 with rxLanes := replaceLane y.rxLanes w.lane w.spare, swapRx := none })).linkEvent
          0x50 0x01 l (some c)).sendTxn l (laneTxn 0x06 w.lane w.spare x.rxSeq)
      | none, some k => t.loseLane l c k
      | none, none => (t.updLink l (fun y => { y with state := 5 })).timeLost l)

/-! ### Cables (R490) and the management segment (R401) -/

/-- The module powers its I/O dies (Table PWR-4). -/
def State.ioOn (s : State) : Bool :=
  decide (s.power.state = .ready) || decide (s.power.state = .active) || decide (s.power.state = .standby)

/-- CABLE_PRESENT (R490): the group trains. -/
def execCablePresent (g : Nat) (s : State) : Out :=
  onUnit (decide (g < 12)) (
    if (s.group g).cable then s
    else
      let t := s.updGroup g (fun x => { x with cable := true })
      if s.ioOn then
        (List.range 8).foldl (fun u i => u.updLink (8 * g + i) (fun x => { x with state := 1 })) t
      else t)

/-- CABLE_REMOVED (R490): the links go DOWN, event 0x51 for each that was up. -/
def execCableRemoved (g : Nat) (s : State) : Out :=
  onUnit (decide (g < 12)) (
    let t := s.updGroup g (fun x => { x with cable := false })
    (List.range 8).foldl (fun u i =>
      let l := 8 * g + i
      if (u.link l).up then u.linkFall l 0x02 false else u.updLink l (fun x => { x with state := 0 })) t)

/-- MANAGEMENT_BEACON_CONFLICT (R401): the coordinator falls silent until the next BOOT. -/
def execManagementBeaconConflict (s : State) : Out :=
  .next (if s.slotId = 0 ∧ !s.coordinatorSilent ∧ s.power.state ≠ .off then
    ({ s with coordinatorSilent := true } : State).raise 0x90 0x40 none [] []
  else s)

end Sys2Proof.Machine
end

