-- ==== Sys2Proof/Machine/LinkIn.lean ====
section
/-!
DEFINITION. What arrives on a chip link: frames (R336 to R339), the transactions of Table LNK-7 at their destination (R344 to
R347), forwarding (R348), link management (R334, R335, R343, R353, R354, R358), windows (R349).
-/

namespace Sys2Proof.Machine

open Sys2Proof

/-! ### Frames -/

/-- The header of a frame (Table LNK-4). -/
def hdrSeq (h : Nat) : Nat := fld h 0 12
def hdrAck (h : Nat) : Nat := fld h 12 12
def hdrNak (h : Nat) : Nat := fld h 24 12
def hdrNakValid (h : Nat) : Bool := bit h 36
def hdrIdle (h : Nat) : Bool := bit h 37
def hdrReserved (h : Nat) : Nat := fld h 38 10
def hdrCrc (h : Nat) : Nat := fld h 48 32

/-- The four codewords decoded, with how many symbols were corrected; none where one does not decode (R337). -/
def decodeFrame (frame : RawFrame) : Option (List (List Nat) × Nat) :=
  if frame.length ≠ 4 then none
  else
    let l := frame.map frameDecode
    if l.all (fun x => x.isSome) then
      some (l.filterMap (fun x => x.map (fun y => y.1)), (l.filterMap (fun x => x.map (fun y => y.2))).foldl (· + ·) 0)
    else none

/-- The symbols corrected in each codeword of a frame, on the connector lane that brought it. -/
def frameErrors (map : List Nat) (frame : RawFrame) : List (Nat × Nat) :=
  let use := usedLanes map
  ((List.range frame.length).zip frame).map (fun z => (use.getD (z.1 % use.length) 0xFF, match frameDecode z.2 with
    | some y => y.2
    | none => 0))

/-- Note the symbols corrected in a frame by lane; what is a second old goes (R353). -/
def Link.noteErrors (x : Link) (now : Nat) (frame : RawFrame) : Link :=
  { x with corrected := x.corrected.filter (fun e => decide (now < e.2.1 + 1000000000)) ++
             ((frameErrors x.rxLanes frame).filter (fun e => decide (e.2 ≠ 0))).map (fun e => (e.1, now, e.2)) }

/-- The 1,290 bytes of a frame from its information symbols (R336). -/
def frameBytes (cws : List (List Nat)) : List Byte := symbolsToBytes (interleaveInfo cws 1032) 1290

/-- The Crc of a frame matches (Table LNK-4): over header bits [47:0] and the flits. -/
def frameCrcOk (b : List Byte) : Bool := decide (hdrCrc (rd b 0 10) = crc32 (b.take 6 ++ b.drop 10))

/-- A link that receives frames. -/
def Link.hears (x : Link) : Bool := x.up || decide (x.state = 1) || decide (x.state = 5)

/-- A good frame: its acknowledgement and request, then its flits in order; an idle frame names the next number to be used. -/
def State.goodFrame (s : State) (l : Nat) (b : List Byte) : State :=
  let h := rd b 0 10
  let s1 := s.takeAck l (hdrAck h)
  let s2 := if hdrNakValid h then s1.resendFrame l (hdrNak h) else s1
  if hdrIdle h then
    if hdrSeq h = (s2.link l).rxSeq then s2 else s2.sendNak l (s2.link l).rxSeq
  else s2.orderFrame l (hdrSeq h) (b.drop 10)

/-- LINK_FRAME_RECEIVED (R339). A bad frame is asked for by the number that is next in order. -/
def execLinkFrameReceived (l : Nat) (frame : RawFrame) (s : State) : Out :=
  onUnit (decide (l < 96)) (
    if !(s.link l).hears then s
    else match decodeFrame frame with
      | none => s.sendNak l (s.link l).rxSeq
      | some d =>
        let s1 := s.updLink l (fun x => (x.count 0 d.2).noteErrors s.now frame)
        let b := frameBytes d.1
        if !frameCrcOk b then (s1.updLink l (fun x => x.count 2 1)).sendNak l (s.link l).rxSeq
        else if hdrReserved (rd b 0 10) ≠ 0 then s1.sendNak l (s.link l).rxSeq
        else s1.goodFrame l b)

/-- LINK_ACK_TIMEOUT (R339): the oldest unacknowledged frame goes again. -/
def execLinkAckTimeout (l : Nat) (s : State) : Out :=
  onUnit (decide (l < 96)) (
    match (s.link l).retained with
    | [] => s
    | f :: _ => if (s.link l).up then s.resendFrame l f.seq else s)

/-! ### Transactions at their destination -/

/-- The Hop entry that a transaction takes next; none at 0xFF. -/
def nextHop (t : Txn) : Option Nat := t.hops[t.hopIndex]?

/-- The partition of a transaction's key slot (R344). -/
def Link.slotPart (x : Link) (slot : Nat) : Option Nat := (Tab.get ({} : KeySlot) x.rxKeys slot).part

/-- Take the oldest transaction of a link off it. -/
def State.popTxn (s : State) (l : Nat) : State := s.updLink l (fun x => { x with arrived := x.arrived.drop 1 })

/-- The oldest transaction of a link, where it is of a kind and has arrived at this seat: with its partition. -/
def State.takeTxn (s : State) (l kind : Nat) : Option (Txn × Nat) :=
  match (s.link l).arrived with
  | [] => none
  | t :: _ =>
    match (s.link l).slotPart t.keySlot with
    | some p =>
      if decide (t.kind = kind) && (nextHop t).isNone && decide (t.destSeat = (s.part p).seat) then some (t, p) else none
    | none => none

/-- Run the effect of an arrived transaction (R344: in the order of arrival). -/
def onTxn (l kind : Nat) (s : State) (f : State → Nat → Txn → State) : Out :=
  onUnit (decide (l < 96)) (match s.takeTxn l kind with
    | some (t, p) => f ((s.popTxn l).active p) p t
    | none => s)

/-- The way back (R342): the Hop list reversed. -/
def replyHops (t : Txn) : List Nat := t.hops.reverse

/-- The seat that a way leads to: that of the Book's route with these hops, else the neighbour. -/
def seatAlong (b : List Byte) (hops : List Nat) : Nat :=
  match (bookRoutes b).find? (fun r => decide (routeHops r = hops)) with
  | some r => rd r 2 2 % 4096
  | none => neighbourSeat b (hops.headD 0)

/-- Answer a request of another seat with its tag. -/
def State.replyTxn (s : State) (l p : Nat) (t : Txn) (kind status : Nat) (data : List Byte) : State :=
  let hops := replyHops t
  s.sendTxn (hops.headD l)
    { kind := kind, keySlot := keySlotOf p, hopIndex := 1, hops := hops, destSeat := seatAlong (s.part p).book hops
      txnTag := t.txnTag, inl := leBytes 1 status, data := data }

/-- A refused access at the destination: event 0x31, Status 0x01; the partition goes on (R344). -/
def State.refuseTxn (s : State) (l p : Nat) (t : Txn) (kind detail va : Nat) : State :=
  (s.raise 0x31 detail (some p) [(.link, l), (.va, va)] []).replyTxn l p t kind 1 []

/-- The byte writes of a run from an address, with the bits kept of its first and its last byte. -/
def runWrites (va : Nat) (data : List Byte) (head tail : Byte) : List ByteWrite :=
  (data.zip (List.range data.length)).map (fun z =>
    { va := va + z.2, byte := z.1
      keep := (if z.2 = 0 then head else 0) ||| (if z.2 + 1 = data.length then tail else 0) })

/-- Writes of a train: those before the failing access are made, then WRITE_ACK (R344). -/
def State.storeTrain (s : State) (l p : Nat) (t : Txn) (ws : List ByteWrite) : State :=
  let y := s.splitWrites p ws
  let s1 := ((s.makeWrites p y.1).chargeAll p none
    (s.chunkTraffic p (y.1.map (fun w => w.va)) true ++ [passTraffic p l t.data.length])).settleLost
  match y.2 with
  | none => s1.replyTxn l p t 0x04 0 []
  | some f => s1.refuseTxn l p t 0x04 f.1 f.2

/-- The Length bytes of a train. -/
def trainData (t : Txn) : List Byte := t.data.take (rd t.inl 0 4)

/-- LINK_WRITE (R344). -/
def execLinkWrite (l : Nat) (s : State) : Out :=
  onTxn l 0x01 s (fun u p t => u.storeTrain l p t (runWrites t.address (trainData t) (byteAt t.inl 4) (byteAt t.inl 5)))

/-- LINK_PARTIAL (R347): at Address + k · SliceBytes. -/
def execLinkPartial (l : Nat) (s : State) : Out :=
  onTxn l 0x05 s (fun u p t =>
    u.storeTrain l p t (runWrites (t.address + rd t.inl 4 2 * rd t.inl 8 8) (trainData t) 0 0))

/-- A train whose Length does not match its other fields is refused with event 0x30 detail 0x5F (R347). -/
def State.badTrain (s : State) (l p : Nat) (t : Txn) : State :=
  (s.raise 0x30 0x5F (some p) [(.link, l)] []).replyTxn l p t 0x04 1 []

/-- GRAD_SIGN (R347): sign words at Address, scales at Address2. -/
def execGradSign (l : Nat) (s : State) : Out :=
  onTxn l 0x06 s (fun u p t =>
    let n := rd t.inl 4 4
    let log := rd t.inl 8 1
    let scales := 4 * cdiv n (2 ^ log)
    if decide (8 ≤ log) && decide (log ≤ 16) && decide (rd t.inl 0 4 = scaleStart n + scales) && decide (rd t.inl 0 4 ≤ t.data.length)
    then u.storeTrain l p t (runWrites t.address (t.data.take (signBytes n)) 0 0 ++
      runWrites (rd t.inl 16 8 % 2 ^ 42) (slice t.data (scaleStart n) scales) 0 0)
    else u.badTrain l p t)

/-- GRAD_TOPK (R347): list entries at Address, blocks at Address2. -/
def execGradTopk (l : Nat) (s : State) : Out :=
  onTxn l 0x07 s (fun u p t =>
    let n := rd t.inl 4 4
    let block := rd t.inl 8 4
    if decide (rd t.inl 0 4 = 4 * n + n * block) && decide (rd t.inl 0 4 ≤ t.data.length) then
      u.storeTrain l p t (runWrites t.address (t.data.take (4 * n)) 0 0 ++
        runWrites (rd t.inl 16 8 % 2 ^ 42) (slice t.data (4 * n) (n * block)) 0 0)
    else u.badTrain l p t)

/-- LINK_READ (R342). A Length that its version does not have is refused. -/
def execLinkRead (l : Nat) (s : State) : Out :=
  onTxn l 0x02 s (fun u p t =>
    let n := rd t.inl 0 4
    if n = 0 ∨ readLimit (u.link l).version < n then u.replyTxn l p t 0x03 1 []
    else
      let vas := (List.range n).map (fun i => t.address + i)
      match u.readFault p vas with
      | some f => u.refuseTxn l p t 0x03 f.1 f.2
      | none =>
        let data := vas.map (u.vaByte p)
        (((u.touchVas p vas).chargeAll p none (u.chunkTraffic p vas false ++ [passTraffic p l n])).settleLost).replyTxn l p t 0x03 0
          data)

/-! ### Answers at the sender -/

/-- The channel of a link Mover that sent a tag. -/
def State.senderOf (s : State) (l tag : Nat) : Option (Nat × Sent) :=
  (List.range 8).findSome? (fun ch =>
    ((s.channel (.link l) ch).sent.find? (fun z => decide (z.tag = tag))).map (fun z => (ch, z)))

/-- A tag is answered. -/
def State.dropTag (s : State) (l ch tag : Nat) : State :=
  s.updChannel (.link l) ch (fun c => { c with sent := c.sent.filter (fun z => decide (z.tag ≠ tag)) })

/-- A refusal is a fault of the sending partition (R344): the chain that still runs aborts with cause 0x03 and the remote
address; of one that has completed event 0x31 detail 0x0A tells. The partition freezes. -/
def State.refusedAtSender (s : State) (l ch p : Nat) (z : Sent) : State :=
  s.refusedRequest (.link l) ch p z.live z.desc z.va

/-- LINK_READ_RESP (R344): the data go to the Mover that asked. -/
def execLinkReadResp (l : Nat) (s : State) : Out :=
  onTxn l 0x03 s (fun u p t =>
    match u.senderOf l t.txnTag with
    | none => u
    | some (ch, z) =>
      let v := u.dropTag l ch t.txnTag
      if rd t.inl 0 1 ≠ 0 then v.refusedAtSender l ch p z
      else if z.live && decide ((v.channel (.link l) ch).phase = .active) then v.readArrived l ch t.data
      else v)

/-- LINK_WRITE_ACK (R344). -/
def execLinkWriteAck (l : Nat) (s : State) : Out :=
  onTxn l 0x04 s (fun u p t =>
    match u.senderOf l t.txnTag with
    | none => u
    | some (ch, z) =>
      let v := u.dropTag l ch t.txnTag
      if rd t.inl 0 1 ≠ 0 then v.refusedAtSender l ch p z else v)

/-! ### Posts, resets, gate and Table messages -/

/-- Square, entry, semaphore and epoch of the Inline bytes. -/
def inlSquare (t : Txn) : Nat := rd t.inl 0 1
def inlEntry (t : Txn) : Nat := rd t.inl 1 1 % 128
def inlSem (t : Txn) : Bool := bit (rd t.inl 1 1) 7
def inlEpoch (t : Txn) : Nat := rd t.inl 3 1 % 16

/-- The effect at a Square of the destination partition; at another it is refused with detail 0x03 (R345). -/
def State.atSquare (s : State) (p : Nat) (t : Txn) (f : State) : State :=
  if s.owner (inlSquare t) = some p then f
  else s.placeFault p 0x03 [(.square, inlSquare t), (.entry, inlEntry t)]

/-- LINK_SEM_POST (R345). -/
def execLinkSemPost (l : Nat) (s : State) : Out :=
  onTxn l 0x08 s (fun u p t =>
    u.atSquare p t (u.arrivePost p (inlSquare t) (inlEntry t) (inlSem t) (rd t.inl 2 1) (inlEpoch t)))

/-- LINK_RESET (R345): step 4 of Table SQP-6, and its acknowledgement to the consumer end's seat. -/
def execLinkReset (l : Nat) (s : State) : Out :=
  onTxn l 0x09 s (fun u p t =>
    let q := inlSquare t
    let e := u.entry q (inlEntry t)
    u.atSquare p t (
      let v := u.arriveReset p q (inlEntry t) (inlEpoch t)
      if e.isProducer then v.sendSeat p e.peerSeat (linkResetTxn 0x0A e.peerSquare e.peerEntry (inlEpoch t)) else v))

/-- LINK_RESET_ACK (R345): step 5 of Table SQP-6. -/
def execLinkResetAck (l : Nat) (s : State) : Out :=
  onTxn l 0x0A s (fun u p t => u.atSquare p t (u.arriveResetAck p (inlSquare t) (inlEntry t)))

/-- GATE_TRANSACTION (R276): the message goes to the gate unit. -/
def execGateTransaction (l : Nat) (s : State) : Out :=
  onTxn l 0x0B s (fun u p t =>
    u.updPart p (fun x => { x with gateIn := x.gateIn ++ [(l, BitVec.ofNat 256 (rd t.inl 0 32))] }))

/-- The payloads of an ORDERED flit. -/
def orderedMsgs (t : Txn) : List TableMsg :=
  (List.range (t.inl.length / 24)).map (fun i => tableMsgOf (slice t.inl (24 * i) 24))

/-- A Table message with no reserved bit set and a kind of Table TTB-5 (R80). -/
def tableMsgOk (m : TableMsg) : Bool := decide (m.rsv = 0) && decide (1 ≤ m.kind) && decide (m.kind ≤ 6)

/-- ORDERED (R346): its messages go to the Tables; a bad one is discarded and counted (R80). -/
def execOrdered (l : Nat) (s : State) : Out :=
  onUnit (decide (l < 96)) (match (s.link l).arrived with
    | [] => s
    | t :: _ =>
      if t.kind ≠ 0x10 then s
      else (orderedMsgs t).foldl (fun u m =>
        if tableMsgOk m then u.updLink l (fun x => { x with tableIn := x.tableIn ++ [m] }) else u.count 2) (s.popTxn l))

/-- What a hop costs whose next link lies on the other I/O die: its flits pass a memory-side die of each (R20, R348; log 108). -/
def crossTraffic (p l h : Nat) (t : Txn) : List (Nat × Traffic) :=
  let n := 128 * (1 + cdiv t.data.length 128)
  if decide (l < 48) == decide (h < 48) then [] else [passTraffic p l n, passTraffic p h n]

/-- ROUTE_FORWARD (R348): to the next hop under this seat's key slot, or discarded and counted where the route ends at a
seat that is not its destination. -/
def execRouteForward (l : Nat) (s : State) : Out :=
  onUnit (decide (l < 96)) (match (s.link l).arrived with
    | [] => s
    | t :: _ =>
      match (s.link l).slotPart t.keySlot with
      | none => s
      | some p =>
        if 0x10 ≤ t.kind then s
        else match nextHop t with
          | some h =>
            let u := s.popTxn l
            if h < 96 then
              ((u.active p).chargeAll p none (crossTraffic p l h t)).sendTxn h { t with keySlot := keySlotOf p, hopIndex := t.hopIndex + 1 }
            else u.count 4
          | none => if t.destSeat = (s.part p).seat then s else (s.popTxn l).count 4)

/-! ### Link management (slot 0) -/

/-- Run the effect of a LINK_CTRL transaction of a subtype. -/
def onCtrl (l sub : Nat) (s : State) (f : State → Txn → State) : Out :=
  onUnit (decide (l < 96)) (match (s.link l).arrived with
    | [] => s
    | t :: _ => if t.kind = 0x11 ∧ rd t.inl 0 1 = sub then f (s.popTxn l) t else s)

/-- HELLO (R334): the lower of the two versions; without a common one the link is refused. -/
def execHello (l : Nat) (s : State) : Out :=
  onCtrl l 0x01 s (fun u t =>
    let v := min (u.service.maxima.getD 3 0) (rd t.inl 1 1)
    if v = 0 then u.linkRefused l 0x05 else u.updLink l (fun x => { x with version := v }))

/-- IDENTITY (R335): the chain must lead to Saranawell's root; it names the peer. -/
def execIdentity (l : Nat) (s : State) : Out :=
  onCtrl l 0x02 s (fun u t =>
    if Config.chainReaches t.data (Config.certificate 1 0) then
      u.updLink l (fun x => { x with peerSerial := (Config.certSubject t.data).1, peerLink := (Config.certSubject t.data).2 })
    else u.linkRefused l 0x04)

/-- The signature of a KEYSHARE verifies under the peer's link identity: one of slot 0 is the peer's part in the last training (R335,
R343; log 115). -/
def shareVerifies (x : Link) (t : Txn) : Bool :=
  let n := Tab.get 0 x.ephemeral 32 - 1
  let point := t.data.take pointBytes
  let text := if rd t.inl 1 1 = 0 then trainingText (Config.peerNonce n) (Config.randomBytes n 48) point
    else keyshareText (rd t.inl 1 1) (rd t.inl 8 8) point
  Config.linkVerify x.peerSerial x.peerLink (Config.sha384 text) (slice t.data pointBytes signatureBytes)

/-- KEYSHARE (R343): the Table key of a partition, under the slot that the peer announces. A failed check is one of R335;
for a Table with no seat here yet it waits for the seat's ARM (log 23). -/
def execKeyshare (l : Nat) (s : State) : Out :=
  onCtrl l 0x03 s (fun u t =>
    let slot := rd t.inl 1 1
    let point := t.data.take pointBytes
    if !shareVerifies (u.link l) t then u.linkRefused l 0x04
    else if slot = 0 ∨ 16 < slot then u
    else match u.partOfTable (rd t.inl 8 8) with
      | none => u.updLink l (fun x => { x with shares := x.shares ++ [(slot, rd t.inl 8 8, point)] })
      | some p =>
        let v := (u.offerKey p l).installKey p l slot point
        (v.updLink l (fun x => x.drain v.now)).takeStream l)

/-- TIME_SEND (R358): the instant of departure and that of the peer's last TIME. -/
def execTimeSend (l : Nat) (s : State) : Out :=
  onUnit (decide (l < 96)) (
    if (s.link l).up then
      (s.updLink l (fun x => { x with ownTime := s.now })).sendTxn l
        { kind := 0x11, inl := leBytes 1 0x04 ++ leBytes 7 0 ++ leBytes 8 s.now ++ leBytes 8 (s.link l).peerTime }
    else s)

/-- TIME (R358): the round trip less both residence times; the module's time source is followed through its delay, and the
links set the epoch of a module that follows REFCLK, once (R63; log 104). -/
def execTime (l : Nat) (s : State) : Out :=
  onCtrl l 0x04 s (fun u t =>
    let x := u.link l
    let departed := rd t.inl 8 8
    let trip := if x.ownTime = 0 ∨ rd t.inl 16 8 = 0 then x.roundTrip
      else (u.now - x.ownTime) - (departed - rd t.inl 16 8)
    let v := u.updLink l (fun y => { y with peerTime := u.now, roundTrip := trip % 2 ^ 32 })
    let w := v.reach (departed + trip % 2 ^ 32 / 2)
    if u.timeSource = l then { w with holdover := false }
    else if u.timeSource = 0xFF ∧ !u.power.epochSet then w.updPower (fun y => { y with epochSet := true })
    else v)

/-- SWAP_REQ (R353): the sending end sends the lane's symbols on the spare as well. -/
def execSwapReq (l : Nat) (s : State) : Out :=
  onCtrl l 0x05 s (fun u t =>
    let w : LaneSwap := { lane := rd t.inl 1 1, spare := rd t.inl 2 1, atSeq := none }
    if (u.link l).txLanes.contains w.lane then
      (u.updGroup (l / 8) (fun g => { g with sparesTx := g.sparesTx.erase w.spare })).updLink l (fun x => { x with swapTx := some w })
    else u)

/-- SWAP_AT (R353): the frame from which the receiver reads the spare. -/
def execSwapAt (l : Nat) (s : State) : Out :=
  onCtrl l 0x06 s (fun u t =>
    match (u.link l).swapTx with
    | some w => u.updLink l (fun x => { x with swapTx := some { w with atSeq := some (rd t.inl 4 2 % 4096) } })
    | none => u)

/-- LANE_LOST (R354): the sending end moves the lane to a free spare at the next frame boundary; an exchange of that lane
completes at once. -/
def execLaneLost (l : Nat) (s : State) : Out :=
  onCtrl l 0x07 s (fun u t =>
    let c := rd t.inl 1 1
    if !(u.link l).txLanes.contains c then u
    else
      let v := u.laneFails l false c
      match (u.link l).swapTx.filter (fun w => decide (w.lane = c)), lowSpare (u.group (l / 8)).sparesTx with
      | some w, _ =>
        (v.updLink l (fun x => { x.count 4 1 with txLanes := replaceLane x.txLanes c w.spare, swapTx := none })).linkEvent 0x50
          0x01 l (some c)
      | none, some k =>
        ((v.updGroup (l / 8) (fun g => { g with sparesTx := g.sparesTx.erase k })).updLink l (fun x =>
          { x.count 3 1 with txLanes := replaceLane x.txLanes c k })).linkEvent 0x50 0x02 l (some c)
      | none, none => v)

/-- ASSIGN (R333, Table LNK-1 step 4): the receiving end's lane map is this end's transmit map. -/
def execAssign (l : Nat) (s : State) : Out :=
  onCtrl l 0x08 s (fun u t =>
    let m := (List.range 4).map (fun i => rd t.data i 1)
    (u.updGroup (l / 8) (fun g => { g with sparesTx := g.sparesTx.filter (fun c => !m.contains c) })).updLink l (fun x =>
      { x with txLanes := m }))

/-! ### Windows -/

/-- TRAIN_WINDOW_OPEN (R349): what waits for its window goes; then the trains of the link Mover's channels. -/
def execTrainWindowOpen (l : Nat) (s : State) : Out :=
  onUnit (decide (l < 96)) (
    let t := s.updLink l (fun x => x.drain s.now)
    (List.range 8).foldl (fun u ch =>
      if u.farSide (.link l) ch ≠ 2 then u.moverBurst (.link l) ch else u) t)

end Sys2Proof.Machine
end

