-- ==== Sys2Proof/Machine/AsletIn.lean ====
section
/-!
DEFINITION. What arrives on Aslet (R360 to R376): training, frames, transactions of Table ASL-4, the window W0, the tunnel,
low-rate mode.
-/

namespace Sys2Proof.Machine

open Sys2Proof

/-! ### Events and failures -/

/-- An event of class 0x51 at Aslet (R360, R361, R363, R376). -/
def State.asletEvent (s : State) (detail : Nat) : State := s.raise 0x51 detail none [(.aslet, 0)] []

/-- Aslet goes to a state that carries nothing, with its event; the tunnel is down. -/
def State.asletFall (s : State) (st detail : Nat) : State :=
  (s.updAslet (fun a => { a with state := st, tunnel := false })).asletEvent detail

/-! ### Training (R360, R361, R376) -/

/-- Lanes lo to lo + n - 1 all work. -/
def lanesWork (rep : LaneReport) (lo n : Nat) : Bool := (List.range n).all (fun i => rep.working.contains (lo + i))

/-- The width that training chooses, and whether it is the upper block of x8. -/
def chooseWidth (rep : LaneReport) : Option (Nat × Bool) :=
  if lanesWork rep 0 16 then some (16, false)
  else if lanesWork rep 0 8 then some (8, false)
  else if lanesWork rep 8 8 then some (8, true)
  else if lanesWork rep 0 4 then some (4, false)
  else none

/-- The credits of a version on every tunnel channel. -/
def grantCredits (version : Nat) : Tab Nat := (List.range 17).map (fun ch => (ch, asletCredits version))

/-- Aslet at a width (step 3). -/
def Aslet.atWidth (a : Aslet) (w : Nat × Bool) (lane0 : Bool) : Aslet :=
  { a with state := 2, width := w.1, upperBlock := w.2, lane0 := lane0, lowRate := false, sleepAsked := false }

/-- Aslet carries traffic at a width and version: every unacknowledged frame is replayed, WIDTH and HELLO go, with the highest version of
the image that runs, credits of a new version are granted, what waited goes out (R357, R363, R372, R376). -/
def Aslet.connect (a : Aslet) (w : Nat × Bool) (lane0 : Bool) (own version : Nat) : Aslet :=
  let b := a.atWidth w lane0
  let ctrl : List AsletTxn := [{ kind := 7, status := 2, length := w.1 }, { kind := 7, status := 1, length := own }]
  let c : Aslet :=
    { b with version := version, tunnel := true, credits := if a.version = version then a.credits else grantCredits version
             retained := a.retained.map (fun f => { f with sends := f.sends + 1 })
             out := a.out ++ a.retained.map (fun f => b.frameOut f.seq f.flits), waiting := ctrl ++ a.waiting }
  c.drain

/-- A frame has reached 16 sends (R363). -/
def Aslet.sentOut (a : Aslet) : Bool := a.retained.any (fun f => decide (16 ≤ f.sends))

/-- The outcome of a training at a width: the versions of both ends, then LinkState and the tunnel (R361, R376). -/
def State.asletSettle (s : State) (w : Nat × Bool) (lane0 : Bool) (peerVersion : Nat) : State :=
  let own := s.service.maxima.getD 2 0
  let v := min own peerVersion
  if v = 0 then
    (s.updAslet (fun a => ((a.atWidth w lane0).emit { kind := 7, status := 2, length := w.1 }).emit
      { kind := 7, status := 1, length := own })).asletFall 4 0x05
  else
    let t := s.updAslet (fun a => a.connect w lane0 own v)
    if t.aslet.sentOut then t.asletFall 0 0x03 else t

/-- ASLET_TRAINING (R361): at BOOT, on leaving SLEEP and when the adapter requests it. Without lane 0 event 0x51 detail 0x07 comes,
whatever the training ends in. -/
def execAsletTraining (lanes : LaneReport) (peerVersion : Nat) (s : State) : Out :=
  .next (if !s.ioOn then s
    else
      let t := match chooseWidth lanes with
        | none => s.asletFall 0 0x02
        | some w => s.asletSettle w (lanes.working.contains 0) peerVersion
      if lanes.working.contains 0 then t else t.asletEvent 0x07)

/-! ### Frames (R362, R363) -/

/-- The information symbols of a frame: sixteen codewords decoded, or in low-rate mode sixteen runs without check symbols
(R374). -/
def asletDecode (lowRate : Bool) (frame : RawFrame) : Option (List (List Nat)) :=
  if frame.length ≠ 16 then none
  else if lowRate then (if frame.all (fun w => decide (w.length = 258)) then some frame else none)
  else
    let l := frame.map frameDecode
    if l.all (fun x => x.isSome) then some (l.filterMap (fun x => x.map (fun y => y.1))) else none

def asletBytes (cws : List (List Nat)) : List Byte := symbolsToBytes (interleaveInfo cws 4128) 5160

/-- A frame's Crc matches and its reserved bits are 0 (Table ASL-2). -/
def asletFrameOk (b : List Byte) : Bool :=
  decide (hdrCrc (rd b 0 10) = crc32 (b.take 6 ++ b.drop 40)) && decide (hdrReserved (rd b 0 10) = 0) && decide (rd b 10 30 = 0)

/-- Aslet receives frames. -/
def Aslet.hears (a : Aslet) : Bool := a.up || decide (a.state = 1) || decide (a.state = 5)

/-- Ask for the next frame in order, in an idle frame. -/
def Aslet.nak (a : Aslet) : Aslet := { a with out := a.out ++ [a.idleOut (some a.rxSeq)] }

/-- Acknowledge what has come in order, in an idle frame. -/
def Aslet.ack (a : Aslet) : Aslet := { a with out := a.out ++ [a.idleOut none] }

/-- Send a kept frame again; one that reaches 16 sends takes Aslet down. -/
def State.asletResend (s : State) (seq : Nat) : State :=
  match s.aslet.retained.find? (fun f => decide (f.seq = seq)) with
  | none => s
  | some f =>
    let t := s.updAslet (fun a =>
      { a with retained := a.retained.map (fun g => if g.seq = seq then { g with sends := g.sends + 1 } else g)
               out := a.out ++ [a.frameOut seq f.flits] })
    if t.aslet.sentOut then t.asletFall 0 0x03 else t

/-- A transaction that has no reserved Kind, subtype or field (R364). -/
def asletTxnOk (flit : List Byte) : Bool :=
  let k := rd flit 0 1
  decide (1 ≤ k) && decide (k ≤ 7) && decide (rd flit 4 1 < 32) && decide (rd flit 5 3 = 0) && decide (rd flit 0x15 235 = 0) &&
    (decide (k ≠ 7) || (decide (1 ≤ rd flit 0x14 1) && decide (rd flit 0x14 1 ≤ 4)))

/-- The transaction of a header flit and its data flits. -/
def asletTxnOf (flit data : List Byte) : AsletTxn :=
  { kind := rd flit 0 1, tag := rd flit 2 2, channel := rd flit 4 1, address := rd flit 8 8, length := rd flit 0x10 4
    status := rd flit 0x14 1, data := data }

/-- Take transactions from the stream of received flits as far as they are whole; one with a reserved code or field is
discarded and counted. -/
def State.asletTake : Nat → State → State
  | 0, s => s
  | n + 1, s =>
    let st := s.aslet.stream
    if st.length < 256 then s
    else if rd st 0 1 = 0 then State.asletTake n (s.updAslet (fun a => { a with stream := st.drop 256 }))
    else
      let len := 256 * (1 + rd st 1 1)
      if st.length < len then s
      else
        let t := s.updAslet (fun a => { a with stream := st.drop len })
        if asletTxnOk (st.take 256) then
          State.asletTake n (t.updAslet (fun a => { a with arrived := a.arrived ++ [asletTxnOf (st.take 256) ((st.take len).drop 256)] }))
        else State.asletTake n (t.count 5)

/-- A frame in order. -/
def State.asletDeliver (s : State) (seq : Nat) (flits : List Byte) : State :=
  let t := s.updAslet (fun a => { a with rxSeq := (seq + 1) % 4096, stream := a.stream ++ flits })
  t.asletTake (t.aslet.stream.length / 256 + 1)

/-- The frames held behind the one that was missing, as far as they follow. -/
def State.asletHeld : Nat → State → State
  | 0, s => s
  | n + 1, s =>
    match s.aslet.heldFrames.find? (fun f => decide (f.1 = s.aslet.rxSeq)) with
    | some f =>
      State.asletHeld n ((s.updAslet (fun a => { a with heldFrames := a.heldFrames.filter (fun g => decide (g.1 ≠ f.1)) })).asletDeliver
        f.1 f.2)
    | none => s

/-- A sequenced frame: delivered, held as one of the 64 that follow a missing one, or a repetition. -/
def State.asletOrder (s : State) (seq : Nat) (flits : List Byte) : State :=
  let ahead := (seq + 4096 - s.aslet.rxSeq) % 4096
  if ahead = 0 then ((s.asletDeliver seq flits).asletHeld 64).updAslet Aslet.ack
  else if ahead ≤ 64 then
    s.updAslet (fun a => (if a.heldFrames.any (fun f => decide (f.1 = seq)) then a
      else { a with heldFrames := a.heldFrames ++ [(seq, flits)] }).nak)
  else s

/-- A good frame. -/
def State.asletGood (s : State) (b : List Byte) : State :=
  let h := rd b 0 10
  let s1 := s.updAslet (fun a => ({ a with retained := a.retained.filter (fun f => !ackCovers (hdrAck h) f.seq) }).drain)
  let s2 := if hdrNakValid h then s1.asletResend (hdrNak h) else s1
  if hdrIdle h then (if hdrSeq h = s2.aslet.rxSeq then s2 else s2.updAslet Aslet.nak) else s2.asletOrder (hdrSeq h) (b.drop 40)

/-- ASLET_FRAME_RECEIVED (R363). -/
def execAsletFrameReceived (frame : RawFrame) (s : State) : Out :=
  .next (if !s.aslet.hears then s
    else match asletDecode s.aslet.lowRate frame with
      | none => s.updAslet Aslet.nak
      | some d => if asletFrameOk (asletBytes d) then s.asletGood (asletBytes d) else s.updAslet Aslet.nak)

/-- ASLET_ACK_TIMEOUT (R363): the oldest unacknowledged frame goes again. -/
def execAsletAckTimeout (s : State) : Out :=
  .next (match s.aslet.retained with
    | [] => s
    | f :: _ => if s.aslet.up then s.asletResend f.seq else s)

/-! ### Transactions -/

/-- Run the effect of the oldest transaction that has arrived, where it is of a kind. -/
def onAslet (kind : Nat) (s : State) (f : State → AsletTxn → State) : Out :=
  .next (match s.aslet.arrived with
    | [] => s
    | t :: r => if t.kind = kind then f (s.updAslet (fun a => { a with arrived := r })) t else s)

/-- ASLET_HOST_WRITE (R364): refused and counted. -/
def execAsletHostWrite (s : State) : Out :=
  onAslet 1 s (fun u t => (u.asletSend { kind := 4, tag := t.tag, status := 1 }).count 5)

/-- The window W0 (Table ASL-5). -/
def windowW0 (s : State) : List Byte :=
  leBytes 4 0x544C5341 ++ leBytes 1 s.aslet.version ++ leBytes 1 (s.service.maxima.getD 2 0) ++ leBytes 1 s.aslet.width ++
    leBytes 1 (if s.aslet.tunnel then 1 else 0) ++ leBytes 8 Config.deviceSerial.toNat ++ leBytes 1 (powerCode s.power.state) ++
    List.replicate 4079 0

/-- ASLET_READ (R365): the host reads W0; beyond it, or past the READ limit of the version, Status 0x01. -/
def execAsletRead (s : State) : Out :=
  onAslet 2 s (fun u t =>
    if t.length = 0 ∨ asletMaxBytes u.aslet.version < t.length ∨ 4096 < t.address + t.length then
      u.asletSend { kind := 3, tag := t.tag, status := 1 }
    else u.asletSend { kind := 3, tag := t.tag, length := t.length, data := slice (windowW0 u) t.address t.length })

/-- The module's request that a tag answers. -/
def Aslet.pending (a : Aslet) (tag : Nat) : Option AsletPend := a.pend.find? (fun e => decide (e.tag = tag))

def State.dropPend (s : State) (tag : Nat) : State :=
  s.updAslet (fun a => { a with pend := a.pend.filter (fun e => decide (e.tag ≠ tag)) })

/-- Put bytes at an offset of a byte string, filled with zeros before it. -/
def putBytes (l : List Byte) (off : Nat) (d : List Byte) : List Byte := padTo off l ++ d ++ l.drop (off + d.length)

/-- A refused request to host memory is a fault of its chain at an offset of the bounce area, like one to another seat (log 24). -/
def State.hostRefused (s : State) (ch va : Nat) : State :=
  s.refusedRequest .host ch (hostPart ch) (s.channel .host ch).busy (s.channel .host ch).desc va

/-- ASLET_READ_RESP (R364): data for a channel of the host-interface Mover; it is judged when it is whole (R369). -/
def execAsletReadResp (s : State) : Out :=
  onAslet 3 s (fun u t =>
    match u.aslet.pending t.tag with
    | none => u
    | some e =>
      let v := u.dropPend t.tag
      if t.status ≠ 0 then v.hostRefused e.channel e.va
      else
        let d := t.data.take t.length
        match e.want with
        | .trailers => v.updChannel .host e.channel (fun c => { c with trailers := putBytes c.trailers e.off d })
        | .record => v.updChannel .host e.channel (fun c => { c with raw := putBytes c.raw e.off d })
        | .recordWrite => v
        | .trailerWrite => v)

/-- A record's trailer goes out once every write of the record is acknowledged (R369). -/
def State.trailerDue (s : State) (ch : Nat) : State :=
  match (s.channel .host ch).trailerOut with
  | none => s
  | some z =>
    if s.aslet.waits ch then s
    else (s.updChannel .host ch (fun c => { c with trailerOut := none })).hostWrite ch .trailerWrite z.1 z.2

/-- ASLET_WRITE_ACK (R364). -/
def execAsletWriteAck (s : State) : Out :=
  onAslet 4 s (fun u t =>
    match u.aslet.pending t.tag with
    | none => u
    | some e =>
      let v := u.dropPend t.tag
      if t.status ≠ 0 then v.hostRefused e.channel e.va else v.trailerDue e.channel)

/-! ### The tunnel (R372) -/

/-- Kinds of frames that a host sends (Table ULY-2). -/
def hostFrameKind (k : Nat) : Bool := decide (k = 1) || decide (k = 3) || (decide (5 ≤ k) && decide (k ≤ 0x0B) && decide (k ≠ 8))

/-- MESSAGE (R372): a Ulyan frame of at most 4,096 bytes waits on its channel. What is no frame that a host sends is
discarded, and its credit goes back. -/
def execMessage (s : State) : Out :=
  onAslet 5 s (fun u t =>
    let m := (t.channel, t.data.take t.length)
    if 16 < t.channel ∨ 4096 < t.length ∨ t.data.length < t.length then u.count 5
    else if 32 ≤ t.length ∧ hostFrameKind (rd t.data 1 1) then u.updAslet (fun a => { a with inbox := a.inbox ++ [m] })
    else u.updAslet (fun a => a.consume t.channel m))

/-- CREDIT (R372). -/
def execCredit (s : State) : Out :=
  onAslet 6 s (fun u t =>
    u.updAslet (fun a => ({ a with credits := Tab.upd 0 a.credits t.channel (fun n => n + t.length) }).drain))

/-- Run the effect of a CTRL transaction of a subtype. -/
def onAsletCtrl (sub : Nat) (s : State) (f : State → AsletTxn → State) (other : State) : Out :=
  .next (match s.aslet.arrived with
    | [] => other
    | t :: r => if t.kind = 7 ∧ t.status = sub then f (s.updAslet (fun a => { a with arrived := r })) t else other)

/-- WIDTH (R361): its Length names one of the three widths. -/
def execWidth (s : State) : Out :=
  onAsletCtrl 2 s (fun u t =>
    if t.length = 16 ∨ t.length = 8 ∨ t.length = 4 then u.updAslet (fun a => { a with width := t.length }) else u.count 5) s

/-- ASLET_HELLO (R376): the lower of the two versions; without a common one Aslet is refused. -/
def execAsletHello (s : State) : Out :=
  onAsletCtrl 1 s (fun u t =>
    let v := min (u.service.maxima.getD 2 0) t.length
    if v = 0 then u.asletFall 4 0x05
    else u.updAslet (fun a => ({ a with version := v, credits := if a.version = v then a.credits else grantCredits v }).drain)) s

/-- SLEEP_REQ (R374): the module asks once its host-interface Mover is idle; one from the adapter has no effect. -/
def execSleepReq (s : State) : Out := onAsletCtrl 3 s (fun u _ => u) s.sleepStep

/-- SLEEP_ACK (R374): low-rate mode; the entry into SLEEP goes on with its next step (R453; log 1). After an entry that was abandoned
Aslet retrains at full rate, and lane 0 carries the tunnel until then (R375, R378). -/
def execSleepAck (s : State) : Out :=
  onAsletCtrl 4 s (fun u _ =>
    u.updAslet (fun a => { a with lowRate := true, sleepAsked := false
                                  state := if u.aslet.sleepAsked && u.power.sleepEntry then a.state else 1 })) s

end Sys2Proof.Machine
end

