-- ==== Sys2Proof/Machine/Place.lean ====
section
/-!
DEFINITION. Placing a Book (R373) and delivering weights (R390 to R392): the requests and their ends. The records themselves go
with MOVER_BURST on channel 2p + 1.
-/

namespace Sys2Proof.Machine

open Sys2Proof

/-- Bytes of a partition's Book area (R504). -/
def bookArea : Nat := 100663296

/-- Channel 2p + 1 starts on a request of Ulyan (R367). -/
def State.startService (s : State) (p : Nat) : State :=
  s.updChannel .host (2 * p + 1) (fun c => { ({} : Channel) with phase := .active, partition := p, status := c.status })

/-- Channel 2p + 1 has nothing more to do. -/
def State.stopService (s : State) (p : Nat) : State :=
  s.updChannel .host (2 * p + 1) (fun c => { c with phase := if c.phase = .active then .idle else c.phase, raw := [], trailers := [] })

/-- PLACE (R373): a write of 1 to Place copies the Book's records into the partition's Book area. -/
def execPlace (r : Req) (s : State) : Out :=
  .next (if !reqNames6 r 0x02 3 then s
    else
      let p := reqPart r
      s.command r (fun t =>
          let x := t.part p
          let key := if r.session = 0 then (t.session 0).isSome else x.bounceKeys.isSome
          if reqValue r ≠ 1 ∨ x.bytes = 0 ∨ bookArea < x.bytes then abRange
          else if x.placing || x.delivering then abBusy
          else if x.runState ≠ .empty ∨ x.bounceLen = 0 ∨ !key then abState
          else 0)
        (fun t => ((t.updPart p (fun x => { x with placing := true, placeBy := r.session, image := [], placeStatus := 0 })).startService
          p).reply r 0))

/-- PLACE_COMPLETE (R373 step 4): the last record is written, or the placement has failed. -/
def execPlaceComplete (p : Nat) (ok : Bool) (s : State) : Out :=
  onUnit (decide (p < 16)) (
    let x := s.part p
    if !x.placing then s
    else if ok then
      if x.image.length < x.bytes then s
      else ((s.stopService p).updPart p (fun y => { y with placing := false, placeStatus := 1, placedBytes := y.bytes })).raise
        Config.placementEvent.1 Config.placementEvent.2 (some p) [] [1]
    else ((s.stopService p).updPart p (fun y => { y with placing := false, placeStatus := 2, placedBytes := 0, image := [] })).raise
      Config.placementEvent.1 Config.placementEvent.2 (some p) [] [2])

/-! ### Weight keys and delivery -/

/-- A request on an object of 7030 + p. -/
def reqKeys (r : Req) (sub : Nat) : Bool := decide (r.index / 0x10 = 0x703) && decide (r.sub = sub)
def reqKeysPart (r : Req) : Nat := r.index % 0x10

/-- The reserved bytes of a blob (Table SEC-5). -/
def blobReservedOk (b : List Byte) : Bool :=
  decide (rd b 0x18 1 < 16) && decide (rd b 0x19 7 = 0) && decide (rd b 0x34 12 = 0) && decide (rd b 0x60 32 = 0)

/-- The weight key that a blob carries under a session's wrap key, where it verifies (R391). -/
def openBlob (x : Session) (p : Nat) (b : List Byte) : Option (BitVec 256) :=
  let key := Config.hkdfExpand x.prk (textBytes "wrap")
  let seq := rd b 0x10 8
  let plain := gcmApply key seq 0 (slice b 0x40 32)
  let fresh := match x.wrapSeq with
    | some n => decide (n < seq)
    | none => true
  if fresh && decide (rd b 0x18 1 = p) && decide (rd b 0 16 = (Config.gcmTag key seq (slice b 0x10 48) plain).toNat) then
    some (BitVec.ofNat 256 (leNat plain))
  else none

/-- WRAPPED_KEY (R391, Table SEC-6 step 3): the weight key is unwrapped and the partition is Sealed; a blob that does not verify
is refused with event 0x70 detail 0x50. -/
def execWrappedKey (r : Req) (s : State) : Out :=
  .next (if !reqKeys r 0x10 then s
    else
      let p := reqKeysPart r
      s.commandWith r (fun w t => if !blobReservedOk w.payload then abRange else if (t.part p).delivering then abBusy else 0)
        (fun w t =>
          match (t.session r.session).bind (fun x => openBlob x p w.payload) with
          | none => (t.raise 0x70 0x50 (some p) [(.session, r.session)] []).reply r abNoSession
          | some k =>
            ((t.updSession r.session (fun x => { x with wrapSeq := some (rd w.payload 0x10 8) })).updPart p (fun x =>
              { x with weightKey := some k, weightImageId := rd w.payload 0x20 8, weightImageBytes := rd w.payload 0x28 8
                       weightSalt := rd w.payload 0x30 4, sealed := true })).reply r 0))

/-- DELIVER (R392): a write of 1 starts the delivery of the weight image. -/
def execDeliver (r : Req) (s : State) : Out :=
  .next (if !reqKeys r 0x12 then s
    else
      let p := reqKeysPart r
      s.command r (fun t =>
          let x := t.part p
          if reqValue r ≠ 1 then abRange
          else if x.delivering || x.placing then abBusy
          else if !(decide (x.runState = .loaded) || decide (x.runState = .stopped)) ∨ x.weightKey.isNone ∨ x.weightTarget.length ≠ 24 ∨
              rd x.weightTarget 0x10 8 ≠ x.weightImageId ∨ x.bounceLen = 0 then abState
          else 0)
        (fun t => ((t.updPart p (fun x => { x with delivering := true, weightSeq := 0, deliverStatus := 0 })).startService p).reply r 0))

/-- DELIVERY_COMPLETE (R392 step 6): the last record is written, or the delivery has failed; the weight key is destroyed. -/
def execDeliveryComplete (p : Nat) (ok : Bool) (s : State) : Out :=
  onUnit (decide (p < 16)) (
    let x := s.part p
    if !x.delivering then s
    else
      let end_ := fun (st : Nat) => (s.stopService p).updPart p (fun y =>
        { y with delivering := false, weightKey := none, deliverStatus := st })
      if ok then
        if 4096 * x.weightSeq < x.weightImageBytes then s else (end_ 1).raise 0x70 0x52 (some p) [] []
      else if (s.channel .host (2 * p + 1)).phase = .active then (end_ 2).raise 0x70 0x51 (some p) [] []
      else end_ 2)

end Sys2Proof.Machine
end

