-- ==== Sys2Proof/Machine/Sessions.lean ====
section
/-!
DEFINITION. The security processor's own commands: handshakes (R384 to R386), attestation (R387), key rotation (R396, R397),
the entropy source (R380).
-/

namespace Sys2Proof.Machine

open Sys2Proof

/-! ### Handshakes -/

/-- Fields of ClientHello (Table SEC-3). -/
def helloRole (b : List Byte) : Nat := rd b 0 1
def helloPart (b : List Byte) : Nat := rd b 1 1
def helloVersion (b : List Byte) : Nat := rd b 2 1
def helloNonce (b : List Byte) : List Byte := slice b 0x10 48
def helloPoint (b : List Byte) : List Byte := slice b 0x40 96

/-- The session number of a role: 0 Operator, 1 Service, 2 + p Tenant. -/
def helloSession (b : List Byte) : Nat := if helloRole b = 1 then 0 else if helloRole b = 3 then 1 else 2 + helloPart b

/-- A role is accepted on a carrier (R372, Table SEC-2). -/
def roleOn (b : List Byte) (c : Carrier) : Bool :=
  match c with
  | .mgmt _ => decide (helloRole b ≠ 2)
  | .tunnel ch => if helloRole b = 2 then decide (ch = 1 + helloPart b) else decide (ch = 0)

def helloRangeOk (b : List Byte) : Bool :=
  decide (1 ≤ helloRole b) && decide (helloRole b ≤ 3) && decide (helloPart b < 16) && decide (rd b 3 13 = 0)

/-- Put a handshake on its carrier. -/
def State.putHandshake (s : State) (c : Carrier) (h : Option Handshake) : State :=
  s.updSec (fun v => { v with handshakes := v.handshakes.filter (fun e => decide (e.1 ≠ c)) ++ h.toList.map (fun x => (c, x)) })

/-- The ServerHello of random number n, signed by the alias key (Table SEC-3 step 2). -/
def State.serverHello (s : State) (n : Nat) (hello : List Byte) : List Byte :=
  let head := padTo 48 (Config.randomBytes n 48) ++ padTo 96 (Config.publicPoint n)
  padTo 256 (head ++ padTo 96 (s.aliasSign (Config.sha384 (hello ++ head))))

/-- CLIENT_HELLO (R384): the security processor answers with a signed ServerHello. -/
def execClientHello (r : Req) (s : State) : Out :=
  .next (if !reqNames r 0x7020 1 then s
    else s.commandWith r (fun w t =>
        if !roleOn w.payload r.carrier then abAccess
        else if helloVersion w.payload = 0 then abForm
        else if !helloRangeOk w.payload then abRange
        else if t.sec.entropyFailed then abState
        else 0)
      (fun w t =>
        let n := t.fresh
        let h : Handshake := { clientHello := w.payload, serverHello := t.serverHello n w.payload
                               secret := BitVec.ofNat 384 (leNat (Config.sharedSecret n (helloPoint w.payload))), startedAt := t.now }
        (({ t with fresh := n + 1 } : State).putHandshake r.carrier (some h)).reply r 0))

/-- The anchor of a ClientHello's role (Table SEC-2). -/
def State.anchorOf (s : State) (b : List Byte) : List Byte :=
  if helloRole b = 1 then s.sec.operatorAnchor
  else if helloRole b = 2 then (s.part (helloPart b)).tenantAnchor
  else Config.serviceAnchor.toList

/-- The parts of a ClientFinish (Table SEC-3 step 3): the certificate chain of n bytes, then the signature (log 116). -/
def finishChain (b : List Byte) (n : Nat) : List Byte := b.take n
def finishSignature (b : List Byte) (n : Nat) : List Byte := b.drop n

/-- The chain is good for the role's anchor: with an empty OperatorAnchor any chain is, on the management port only; an empty
TenantAnchor is reached by none (R383). -/
def State.chainGood (s : State) (b : List Byte) (c : Carrier) (chain : List Byte) : Bool :=
  if helloRole b = 1 ∧ s.sec.operatorAnchor = [] then (match c with
    | .mgmt _ => true
    | .tunnel _ => false)
  else if helloRole b = 2 ∧ (s.part (helloPart b)).tenantAnchor = [] then false
  else Config.chainReaches chain (s.anchorOf b)

/-- The host's signature over ClientHello, ServerHello and its chain of n bytes (Table SEC-3): m bytes, to the object's end. -/
def Handshake.signed (h : Handshake) (finish : List Byte) (n m : Nat) : Bool :=
  decide (finish.length = n + m) &&
    Config.ecdsaVerify (finishChain finish n) (Config.sha384 (h.clientHello ++ h.serverHello ++ finishChain finish n))
      (finishSignature finish n)

/-- A Tenant's bounce keys: in force at once, or from the next Turn boundary while the partition runs (R386). -/
def Partition.takeBounce (x : Partition) (prk : BitVec 384) : Partition :=
  if x.runState = .running ∨ x.runState = .draining then { x with nextBounceKeys := some prk }
  else { x with bounceKeys := some prk, nextBounceKeys := none, bounceIn := 0, bounceOut := 0 }

/-- Open the session of a completed handshake (R385, R386): it replaces one of the same role. -/
def State.openSession (s : State) (r : Req) (h : Handshake) (finish : List Byte) : State :=
  let b := h.clientHello
  let n := helloSession b
  let prk := Config.hkdfExtract (helloNonce b ++ h.serverHello.take 48) (leBytes 48 h.secret.toNat)
  let x : Session := { carrier := r.carrier, version := min (s.service.maxima.getD 0 0) (helloVersion b), prk := prk
                       binding := Config.sha384 (b ++ h.serverHello ++ finish) }
  let s1 := if (s.session n).isSome then (s.endSession n).raise 0x70 0x32 (sessPart n) [(.session, n)] [] else s
  let s2 := s1.putSession n x
  if 2 ≤ n then s2.updPart (n - 2) (fun y => y.takeBounce prk) else s2

/-- CLIENT_FINISH (R384 step 4): chain and signature are verified; the session opens, or the request is refused with event 0x70.
The handshake objects are cleared. The operands say how long the chain and the signature in the value are (log 116). -/
def execClientFinish (r : Req) (chainBytes signatureBytes : Nat) (s : State) : Out :=
  .next (if !reqNames r 0x7020 3 then s
    else s.commandWith r (fun _ t => if (t.handshake r.carrier).isNone then abState else 0)
      (fun w t =>
        match t.handshake r.carrier with
        | none => t
        | some h =>
          let n := helloSession h.clientHello
          let u := t.putHandshake r.carrier none
          if !t.chainGood h.clientHello r.carrier (finishChain w.payload chainBytes) then
            (u.raise 0x70 0x30 (sessPart n) [(.session, n)] []).reply r abNoSession
          else if !h.signed w.payload chainBytes signatureBytes then (u.raise 0x70 0x31 (sessPart n) [(.session, n)] []).reply r abNoSession
          else (u.reply r 0).openSession r h w.payload))

/-- HANDSHAKE_TIMEOUT (R384): after 10 s without progress the handshake objects are cleared. -/
def execHandshakeTimeout (c : Carrier) (s : State) : Out :=
  .next (match s.handshake c with
    | none => s
    | some h => (s.reach (h.startedAt + 10000000000)).putHandshake c none)

/-! ### Attestation (R387) -/

/-- The domains that are not powered or are held, as ResetDomains numbers them (Table SEC-4). -/
def State.resetDomains (s : State) : Nat :=
  match s.power.state with
  | .active => s.power.padHeld
  | .ready => s.power.padHeld ||| 0xF
  | .standby => s.power.padHeld ||| 0xF
  | _ => 0x3FFF

/-- StateFlags of a report for a partition. -/
def State.stateFlags (s : State) (x : Partition) : Nat :=
  maskOf ((if s.service.stagedMeasurement ≠ 0 then [0] else []) ++ (if s.resetDomains ≠ 0 then [1] else []) ++
    (if s.power.state = .safe then [2] else []) ++ (if x.contained then [3] else []) ++ (if x.prevKey.isSome then [4] else []) ++
    (if s.statusFlags.testBit 0 then [5] else []) ++ (if (s.session 1).isSome then [6] else []) ++ (if x.sealed then [7] else []))

/-- Bytes 0x000 to 0x19F of a report (Table SEC-4); of a module-only one the partition fields are 0. -/
def State.reportBody (s : State) (nonce : List Byte) (scope : Nat) (binding : BitVec 384) : List Byte :=
  let x := if scope.testBit 4 then ({} : Partition) else s.part (scope % 16)
  leBytes 4 0x54535441 ++ leBytes 2 1 ++ leBytes 2 512 ++ leBytes 1 scope ++
    leBytes 1 (runCode x.runState) ++
    leBytes 2 (s.stateFlags x) ++ leBytes 4 s.resetDomains ++ padTo 48 nonce ++ leBytes 8 Config.deviceSerial.toNat ++
    leBytes 1 0xB1 ++ leBytes 1 s.service.active ++ leBytes 2 0 ++ leBytes 4 s.sec.generation ++
    digestBytes s.service.bootMeasurement ++ digestBytes s.service.fwMeasurement ++ digestBytes s.service.stagedMeasurement ++
    digestBytes (if x.runState = .empty then 0 else x.bookMeasurement) ++
    digestBytes (if scope.testBit 4 then 0 else Config.sha384 (x.entryBytes ++ x.tenantAnchor)) ++ digestBytes binding ++
    leBytes 8 (bookTableId x.book) ++ leBytes 2 (bookSeat x.book) ++ leBytes 2 (bookSeats x.book) ++ leBytes 4 x.keyGeneration ++
    List.replicate 32 0

/-- A report: its body and the alias key's signature. -/
def State.report (s : State) (nonce : List Byte) (scope : Nat) (binding : BitVec 384) : List Byte :=
  let b := s.reportBody nonce scope binding
  b ++ padTo 96 (s.aliasSign (Config.sha384 b))

/-- REPORT_REQUEST (R387): busy from the start of an activation until the new alias key exists (R389). -/
def execReportRequest (r : Req) (s : State) : Out :=
  .next (if !reqNames r 0x7010 1 then s
    else s.commandWith r (fun w t =>
        let scope := rd w.payload 0x30 1
        if 2 ≤ r.session ∧ scope ≠ r.session - 2 then abAccess
        else if 32 ≤ scope ∨ rd w.payload 0x31 15 ≠ 0 then abRange
        else if t.service.activation = 1 then abBusy
        else 0)
      (fun w t =>
        (t.updSession r.session (fun x =>
          { x with report := t.report (w.payload.take 48) (rd w.payload 0x30 1) x.binding })).reply r 0))

/-! ### Key rotation (R396, R397) -/

/-- Table SEC-7 step 1: the next generation is current, the present one previous. -/
def State.startRotation (s : State) (p : Nat) : State :=
  ((s.updPart p (fun x =>
    { x with prevKey := x.curKey, curKey := some s.sec.nextKey, keyGeneration := (x.keyGeneration + 1) % 2 ^ 32, sweepState := 0
             sweepRemaining := 0, unrekeyed := 0
             pagesDone := if x.preparedKey.isSome then x.pagesDone else [] })).updSec (fun c => { c with nextKey := c.nextKey + 1 })).raise 0x70 0x40 (some p) [] []

/-- Why a rotation cannot start: busy while a previous generation exists; without keys, or without a working entropy source,
there is none. -/
def State.rotationCode (s : State) (p : Nat) : Nat :=
  if (s.part p).prevKey.isSome then abBusy
  else if (s.part p).curKey.isNone ∨ s.sec.entropyFailed then abState
  else 0

/-- ROTATE_REQUEST (R396): a write of 1 to RotateRequest, or the expiry of RotateInterval. -/
def execRotateRequest (r : Option Req) (p : Nat) (s : State) : Out :=
  match r with
  | none =>
    onUnit (decide (p < 16))
      (if (s.part p).rotateInterval ≠ 0 ∧ s.rotationCode p = 0 then s.startRotation p else s)
  | some q =>
    .next (if !reqKeys q 2 then s
      else s.command q (fun t => if reqValue q ≠ 1 then abRange else t.rotationCode (reqKeysPart q))
        (fun t => (t.startRotation (reqKeysPart q)).reply q 0))

/-- ROTATION_DIES_CONFIRMED (R396 step 3): the sweep starts. -/
def execRotationDiesConfirmed (p : Nat) (s : State) : Out :=
  onUnit (decide (p < 16)) (
    let x := s.part p
    if x.prevKey.isSome ∧ x.sweepState ≠ 1 then
      s.updPart p (fun y => { y with sweepState := 1, sweepRemaining := (stackPages y.pageMap).length })
    else s)

/-- A sector of the partition's pages carries the previous generation by its KeyGen. -/
def State.carriesPrev (s : State) (p pa : Nat) (m : Sector) : Bool :=
  (stackPages (s.part p).pageMap).contains (pa / 65536) && decide (m.keyGen = decide ((s.part p).keyGeneration % 2 = 0))

/-- The sectors that the sweep finds unreadable: those listed that fail by themselves, and those the command names; with
whether the check code fails. -/
def State.sweepFails (s : State) (p : Nat) (unreadable : List (Nat × Bool)) : List (Nat × Bool) :=
  let own := s.dram.sectors.filterMap (fun e =>
    match s.keyAddress e.1 with
    | some pa => if s.carriesPrev p pa e.2 && decide (2 ≤ s.outcome p pa) && decide (s.sectorKey pa = e.1) then some (pa, s.codeFails pa) else none
    | none => none)
  let named := unreadable.filter (fun u =>
    decide (u.1 % 64 = 0) && s.carriesPrev p u.1 (s.sectorMeta u.1) && !own.any (fun e => decide (e.1 = u.1)))
  own ++ named

/-- The sweep rewrites, under the current generation, every sector of the partition that carries the previous one and is not
among the unreadable. -/
def State.rekey (s : State) (p : Nat) (fails : List (Nat × Bool)) : State :=
  let x := s.part p
  let new := s.freshMeta p
  let kept := fails.map (fun u => (s.sectorKey u.1, s.sectorMeta u.1))
  let pages := s.dram.pages.map (fun (e : Nat × PageKey) =>
    if e.2.owner = p ∧ some e.2.key = x.prevKey then (e.1, ({ owner := p, key := new.key, keyGen := new.keyGen } : PageKey)) else e)
  let t : State := { s with dram := { s.dram with pages := pages } }
  let swept := s.dram.sectors.filterMap (fun e =>
    match s.keyAddress e.1 with
    | some pa =>
      if s.carriesPrev p pa e.2 && !fails.any (fun u => decide (u.1 = pa)) then
        (if t.pageMeta pa = new then none else some (e.1, new))
      else some e
    | none => some e)
  { t with dram := { t.dram with sectors := kept.foldl (fun l k => Tab.put l k.1 k.2) swept } }

/-- An unreadable sector of the sweep: counted on its channel, reported, and an uncorrectable one starts the channel's repair (R321,
R324, R397). -/
def State.sweepFailed (s : State) (p : Nat) (u : Nat × Bool) : State :=
  (((s.failedCopy u.1 u.2).raise (if u.2 then 0x41 else 0x42) (if u.2 then 0x26 else 0x23) (some p)
    (memLoc (paStack u.1) (s.physOf u.1) (paRow u.1) u.1) []).dataError p (s.vaOf p u.1) false)

/-- A chunk holds a sector of the previous generation. -/
def State.chunkSwept (s : State) (p pa : Nat) : Bool :=
  (List.range 64).any (fun i => s.carriesPrev p (pa + 64 * i) (s.sectorMeta (pa + 64 * i)))

/-- The maintenance charges of the sweep: 66 tokens to read each chunk of the partition's pages, and 66 to rewrite one that holds a
sector of the previous generation (R397). -/
def State.chargeSweep (s : State) (p : Nat) : State :=
  ((((stackPages (s.part p).pageMap).mergeSort (fun a b => decide (a ≤ b))).flatMap (fun k =>
    (List.range 16).map (fun i => k * 65536 + 4096 * i)))).foldl (fun t pa =>
      let u := t.chargeStack 17 pa 64 0
      if s.chunkSwept p pa then u.chargeStack 17 pa 64 0 else u) s

/-- ROTATION_SWEEP_DONE (R396 step 5, R397): unreadable sectors are counted and reported, the previous generation is zeroised. -/
def execRotationSweepDone (p : Nat) (unreadable : List (Nat × Bool)) (s : State) : Out :=
  onUnit (decide (p < 16)) (
    let x := s.part p
    if x.sweepState ≠ 1 ∨ x.prevKey.isNone then s
    else
      let fails := s.sweepFails p unreadable
      let s1 := fails.foldl (fun t u => t.sweepFailed p u) ((s.chargeSweep p).rekey p fails)
      (s1.updPart p (fun y =>
        { y with prevKey := none, sweepRemaining := 0, unrekeyed := fails.length % 2 ^ 32
                 sweepState := if fails.isEmpty then 0 else 2 })).raise 0x70 (if fails.isEmpty then 0x41 else 0x42) (some p) [] [])

/-- ENTROPY_FAILURE (R380): event 0x70 detail 0x01, and SAFE. -/
def execEntropyFailure (s : State) : Out :=
  .next (if s.power.state = .off then s
    else ((s.updSec (fun c => { c with entropyFailed := true })).raise 0x70 0x01 none [] []).enterSafe)

end Sys2Proof.Machine
end

