-- ==== Sys2Proof/Machine/Service.lean ====
section
/-!
DEFINITION. Start-up and live service (chapter 19): verified firmware, the self-test, staging and activation, Square
migration, the array test and field repair (R193 to R195).
-/

namespace Sys2Proof.Machine

open Sys2Proof

/-! ### Start-up (R467, R468) -/

def State.putImage (s : State) (n : Nat) (x : Image) : State := s.updService (fun v => { v with images := Tab.put v.images n x })
def State.markImage (s : State) (n k : Nat) : State := s.putImage n { s.image n with state := k }

/-- READY (Table SVC-1 steps 2 to 4) from the image of slot n: the measurements, the alias key, training in parallel; the
event that reports a brown-out or a supply loss (R444, R454). -/
def State.ready (s : State) (n : Nat) : State :=
  let x := s.image n
  let old := s.image (1 - n)
  let s1 := (s.markImage n 2).updService (fun v =>
    { v with active := n, bootMeasurement := Config.stageMeasurement x.measurement, fwMeasurement := x.measurement
             stagedMeasurement := if old.state = 3 then old.measurement else 0, maxima := x.maxima })
  let s2 := ((s1.updSec (fun c => { c with aliasGeneration := c.aliasGeneration + 1 })).updPower (fun p =>
    { p with memTraining := true })).toPower .ready
  let s3 := (s2.trainLinks 0 96).updAslet (fun a => { a with state := 1 })
  if s.power.resetCause = 1 then s3.raise 0x90 0x05 none [] []
  else if 2 ≤ s.power.resetCause then s3.raise 0x90 0x06 none [] []
  else s3

/-- FIRMWARE_VERIFIED (R467, R468): the active image, else the other one, else SAFE. -/
def execFirmwareVerified (passA passB : Bool) (s : State) : Out :=
  .next (
    if s.power.state ≠ .boot then s
    else
      let n := s.service.active
      let pass := fun (k : Nat) => if k = 0 then passA else passB
      if pass n then s.ready n
      else
        let s1 := s.markImage n 4
        if pass (1 - n) then s1.ready (1 - n) else (s1.markImage (1 - n) 4).enterSafe)

/-! ### The self-test (R470, R471) -/

/-- SELF_TEST_REQUEST (R442, R470). -/
def execSelfTestRequest (r : Req) (s : State) : Out :=
  .next (if !reqNames r 0x8200 2 then s
    else s.command r (fun t =>
        if reqValue r ≠ 1 then abRange
        else if t.service.selfTest = 1 then abBusy
        else if t.busyParts ∨ t.power.state ≠ .active then abState
        else 0)
      (fun t => (t.startSelfTest 2).reply r 0))

/-- The failure bits that a physical Square shows in a result (Table SVC-2). -/
def failBits (failures : List (Nat × Nat)) (q : Nat) : Nat := (Tab.get 0 failures q) % 64

/-- What the self-test leaves of a physical Square's array test (R193): the rows and columns of an array that fails are not in the
command and stay free. -/
def State.noteTested (s : State) (q bits : Nat) : State :=
  if bits.testBit 0 then
    let f := Config.arrayFound s.fresh
    ({ s with fresh := s.fresh + 1 } : State).updPhys q (fun x => { x with testPassed := false, testRows := f.1, testCols := f.2 })
  else s.updPhys q (fun x => { x with testPassed := decide (bits = 0), testRows := [], testCols := [] })

/-- A Square's reserve (R16). -/
def reserveOf (q : Nat) : Nat := 144 + sqDie q

/-- The physical Square that carries a logical one. -/
def State.physicalOf (s : State) (q : Nat) : Nat := (s.sq q).carrier.getD q

/-- The logical position is redirected to the reserve (R16, Table SVC-5 step 4). -/
def State.redirect (s : State) (q r : Nat) : State :=
  ((s.updSq q (fun x => { x with carrier := some r })).updPhys r (fun x => { x with carries := some q })).updPhys q (fun x =>
    { x with repairState := 1 })

/-- A reserve that carries no name and passed its last test (R478). -/
def State.reserveFree (s : State) (r : Nat) : Bool := (s.physSq r).carries.isNone && (s.physSq r).testPassed

/-- A logical Square that failed the self-test: onto its die's reserve at once, else unrepairable (R470). -/
def State.placeFailed (s : State) (q : Nat) : State :=
  if (s.sq q).carrier.isNone && s.reserveFree (reserveOf q) && decide ((s.physSq q).repairState ≠ 2) then s.redirect q (reserveOf q)
  else s.updPhys q (fun x => { x with repairState := 2 })

/-- What the test overwrote is cleared (R470, R34); the program store holds no program until the next ARM. -/
def State.clearTested (s : State) (q : Nat) : State := (s.clearSquare q).updSq q (fun x => { x with recs := [], segs := [] })

/-- Table SVC-2. -/
def State.selfTestBytes (s : State) (failures : List (Nat × Nat)) : List Byte :=
  let n := ((List.range 148).filter (fun q => decide (failBits failures q ≠ 0))).length
  padTo 4096 (padTo 256 (leBytes 8 s.now ++ leBytes 1 s.service.selfTestKind ++ leBytes 1 (if n = 0 then 2 else 3) ++ leBytes 2 0 ++
      leBytes 4 n ++ (List.range 148).flatMap (fun q => leBytes 1 (failBits failures q))) ++
    (List.range 32).flatMap (fun st => leBytes 1 (s.stack st).spared) ++
    (List.range 12).flatMap (fun g => leBytes 1 (s.group g).failed.length))

/-- SELF_TEST_END (R470, R471). -/
def execSelfTestEnd (failures : List (Nat × Nat)) (s : State) : Out :=
  .next (
    if s.service.selfTest ≠ 1 then s
    else
      let bits := failBits failures
      let s1 := (List.range 148).foldl (fun t q => t.noteTested q (bits q)) s
      let s2 := ((List.range 144).filter (fun q => decide (bits (s.physicalOf q) ≠ 0))).foldl (fun t q => t.placeFailed q) s1
      let s3 := (List.range 144).foldl (fun t q => t.clearTested q) s2
      s3.updService (fun v =>
        { v with selfTest := if (List.range 148).all (fun q => decide (bits q = 0)) then 2 else 3
                 selfTestResult := s.selfTestBytes failures }))

/-! ### Firmware (R474 to R477) -/

/-- The highest version of each interface of R10 that is in use on the module, in the order of 1020. -/
def State.versionsInUse (s : State) : List Nat :=
  let top := fun (l : List Nat) => l.foldl max 0
  let ps := (List.range 16).map (fun p => s.part p)
  [top (s.sec.sessions.map (fun e => e.2.version)), s.service.maxima.getD 1 2, if s.aslet.up then s.aslet.version else 0,
   top (s.links.map (fun (e : Nat × Link) => if e.2.up then e.2.version else 0)),
   top ((ps.filter (fun x => decide (x.joined ≠ []))).map (fun x => x.tableProtocol)),
   top ((ps.filter (fun x => decide (x.runState ≠ .empty))).map (fun x => bookVersion x.book))]

/-- An image's maxima reach every version in use (R474). -/
def State.imageFits (s : State) (maxima : List Nat) : Bool :=
  ((s.versionsInUse).zip (List.range 6)).all (fun e => decide (e.1 ≤ maxima.getD e.2 0))

/-- STAGE_IMAGE (R474): the write of the image ends; the slot that is not active holds it, verified or refused. -/
def execStageImage (r : Req) (signatureOk : Bool) (maxima : List Nat) (s : State) : Out :=
  .next (if !reqNames r 0x1F52 1 then s
    else s.commandWith r (fun _ t => if t.service.activation = 1 then abBusy else 0)
      (fun w t =>
        let ok := signatureOk && t.imageFits maxima
        let m := Config.sha384 w.payload
        let u := (t.putImage (1 - t.service.active)
          { state := if ok then 3 else 4, measurement := m, version := Config.imageVersion w.payload, maxima := maxima }).updService
            (fun v => { v with stageStatus := if ok then 2 else 3, stagedMeasurement := if ok then m else 0 })
        u.reply r 0))

/-- ACTIVATE (R475): the Hold of cause 0x05. -/
def execActivate (r : Req) (s : State) : Out :=
  .next (if !reqNames r 0x1F53 0 then s
    else s.command r (fun t =>
        if reqValue r ≠ 1 then abRange
        else if t.service.activation = 1 then abBusy
        else if (t.image (1 - t.service.active)).state ≠ 3 then abState
        else 0)
      (fun t => ((t.updService (fun v => { v with activation := 1, activatedAt := t.now })).holdModule 0x05).reply r 0))

/-- The instant from which an activation counts: every Table held, or the write itself where none was to be held. -/
def State.activationFrom (s : State) : Nat :=
  ((List.range 16).filter (fun p => (s.part p).ownHold.contains 0x05)).foldl (fun m p => max m (s.part p).heldSince)
    s.service.activatedAt

/-- An activation ends without effect: the old image goes on (R476). -/
def State.abandonActivation (s : State) : State := (s.updService (fun v => { v with activation := 3 })).releaseModule 0x05 4

/-- The new image runs (Table SVC-4 steps 3 and 4). -/
def State.switchImage (s : State) : State :=
  let n := 1 - s.service.active
  let x := s.image n
  let s1 := ((s.markImage s.service.active 1).markImage n 2).updService (fun v =>
    { v with active := n, fwMeasurement := x.measurement, stagedMeasurement := 0, stageStatus := 0, activation := 2
             maxima := x.maxima })
  (s1.updSec (fun c => { c with aliasGeneration := c.aliasGeneration + 1 })).releaseModule 0x05 3

/-- ACTIVATION_HELD (R475): every Table is held; 14 ms later the new image runs, where it verifies again. -/
def execActivationHeld (verified : Bool) (s : State) : Out :=
  .next (
    if s.service.activation ≠ 1 ∨ !s.moduleHeld 0x05 ∨ s.activationFrom + 20000000 < s.now then s
    else
      let s1 := s.reach (s.activationFrom + 14000000)
      if verified then s1.switchImage
      else ((s1.markImage (1 - s.service.active) 4).updService (fun v => { v with stagedMeasurement := 0 })).abandonActivation)

/-- ACTIVATION_TIMEOUT (R476): 20 ms after the Hold took effect. -/
def execActivationTimeout (s : State) : Out :=
  .next (
    if s.service.activation ≠ 1 ∨ !s.moduleHeld 0x05 then s
    else (s.reach (s.activationFrom + 20000000)).abandonActivation)

/-! ### Square migration (R478 to R480) -/

/-- The cause of a Square migration's Hold: code 0x02, told apart by the die (log 10). -/
def squareHold (die : Nat) : Nat := 0x02 + 256 * die

def State.migration (s : State) (die : Nat) : Option SquareMig := (s.service.migs.find? (fun e => decide (e.1 = die))).map (·.2)
def State.putMigration (s : State) (die : Nat) (m : Option SquareMig) : State :=
  s.updService (fun v =>
    { v with migs := v.migs.filter (fun e => decide (e.1 ≠ die)) ++ m.toList.map (fun x => (die, x)) })

/-- The last two events 0x41 of a Square lie within 24 h (R478). -/
def twiceInDay (l : List Nat) : Bool :=
  match l.reverse with
  | b :: a :: _ => decide (b ≤ a + 86400000000000)
  | _ => false

/-- What moves a Square to its reserve: an overrun whose late work has ended, or a second event 0x41 (R478). -/
def Square.wantsReserve (x : Square) : Bool := x.overran || twiceInDay x.hwTimes

/-- SQUARE_MIGRATION_TRIGGER (Table SVC-5 step 1): the reserve is powered, cleared and tested. A second trigger on the die
waits (R487); without a free reserve the Square stays in service. -/
def execSquareMigrationTrigger (q : Nat) (passed : Bool) (s : State) : Out :=
  onUnit (decide (q < 144)) (
    if s.power.state ≠ .active ∨ !(s.sq q).wantsReserve ∨ (s.migration (sqDie q)).isSome then s
    else
      let s1 := s.updSq q (fun x => { x with overran := false, hwTimes := x.hwTimes.drop (x.hwTimes.length - 1) })
      let r := reserveOf q
      if !s.reserveFree r then s1
      else
        let s2 := s1.noteTested r (if passed then 0 else 1)
        if passed then s2.putMigration (sqDie q) (some { square := q, target := some r, holding := false }) else s2)

/-- A frozen or overrunning partition defers a migration until its work ends or it enters FAULTED (R479). -/
def State.defersMigration (s : State) : Bool :=
  (List.range 16).any (fun p => (s.part p).tabled && ((s.part p).frozen || decide ((s.part p).late ≠ [])))

/-- SQUARE_MIGRATION_TEST_PASSED (Table SVC-5 step 2). -/
def execSquareMigrationTestPassed (die : Nat) (s : State) : Out :=
  onUnit (decide (die < 4)) (
    match s.migration die with
    | none => s
    | some m =>
      if m.holding ∨ s.defersMigration ∨ s.power.state ≠ .active then s
      else (s.putMigration die (some { m with holding := true })).holdModule (squareHold die))

/-- A value of the Square's stores that its code cannot correct. -/
def Square.badValue (x : Square) : Bool :=
  (x.lsErr ++ x.accErr).any (fun e => decide (e.2 = 2)) || !x.lutErr.isEmpty || !x.maskErr.isEmpty

/-- The Square's state is on the target, corrected by its code, and the position redirected (Table SVC-5 steps 3 and 4); back onto
its own Square, the reserve is free again (R480). -/
def State.moveSquare (s : State) (m : SquareMig) : State :=
  let s1 := s.updSq m.square (fun x => { x with lsErr := [], accErr := [], tempErr := [], feedErr := [], drainErr := [] })
  match m.target with
  | some r => s1.redirect m.square r
  | none =>
    ((s1.updPhys (s.physicalOf m.square) (fun x => { x with carries := none })).updSq m.square (fun x =>
      { x with carrier := none })).updPhys m.square (fun x => { x with repairState := 0 })

/-- The Hold of a migration has lasted 100 ms at a seat (R76). -/
def State.holdLong (s : State) (cause : Nat) : Bool :=
  (List.range 16).any (fun p => (s.part p).ownHold.contains cause && decide ((s.part p).heldSince + 100000000 < s.now))

/-- SQUARE_MIGRATION_COPY (Table SVC-5 steps 3 to 5): at the held boundary of every Table; an uncorrectable value, or more than
100 ms, abandons it (R76, R479). -/
def execSquareMigrationCopy (die : Nat) (uncorrectable : Bool) (s : State) : Out :=
  onUnit (decide (die < 4)) (
    match s.migration die with
    | none => s
    | some m =>
      if !m.holding ∨ !s.moduleHeld (squareHold die) ∨ s.power.state ≠ .active then s
      else
        let s1 := s.putMigration die none
        if uncorrectable || (s.sq m.square).badValue || s.holdLong (squareHold die) then s1.releaseModule (squareHold die) 4
        else (s1.moveSquare m).releaseModule (squareHold die) 3)

/-! ### The array test and field repair (R193 to R195, R443, R480) -/

/-- A request to 90nn of a sub. -/
def reqSquare (r : Req) (sub : Nat) : Bool :=
  decide (0x9000 ≤ r.index) && decide (r.index ≤ 0x9093) && decide (r.sub = sub)

/-- The physical Square that an object describes belongs to a partition (R443, R480): a Square in its place, or a reserve through
the Square that it carries. -/
def State.physOwned (s : State) (q : Nat) : Bool :=
  if q < 144 then (s.owner q).isSome && (s.sq q).carrier.isNone
  else match (s.physSq q).carries with
    | some n => (s.owner n).isSome
    | none => false

/-- Why an array request is refused. -/
def State.arrayCode (s : State) (r : Req) : Nat :=
  if reqValue r ≠ 1 then abRange
  else if s.service.selfTest = 1 then abBusy
  else if s.physOwned (r.index - 0x9000) ∨ s.power.state ≠ .active then abState
  else 0

/-- The result of an array test. -/
def State.noteArray (s : State) (q : Nat) (rows cols : List Nat) : State :=
  s.updPhys q (fun x => { x with testRows := rows, testCols := cols, testPassed := rows.isEmpty && cols.isEmpty })

/-- ARRAY_TEST_REQUEST (R193). -/
def execArrayTestRequest (r : Req) (rows cols : List Nat) (s : State) : Out :=
  .next (if !reqSquare r 0x0F then s
    else s.command r (fun t => t.arrayCode r) (fun t => (t.noteArray (r.index - 0x9000) rows cols).reply r 0))

/-- Fuse fields from `i` on, two of them: those unused take the failing lines in turn (R194). -/
def State.burn (s : State) (q i : Nat) (lines : List Nat) : State :=
  let open_ := [i, i + 1].filter (fun k => decide (s.fuse q k = 0xFF))
  (open_.zip lines).foldl (fun t e =>
    t.updPhys q (fun x => { x with fuses := Tab.put x.fuses e.1 e.2, fieldSet := x.fieldSet ||| 1 <<< e.1 })) s

/-- The failing lines that no fuse disables yet. -/
def State.unfused (s : State) (q i : Nat) (lines : List Nat) : List Nat :=
  lines.filter (fun k => decide (s.fuse q i ≠ k) && decide (s.fuse q (i + 1) ≠ k))

/-- Unused fuse fields among two. -/
def State.openFuses (s : State) (q i : Nat) : Nat := ([i, i + 1].filter (fun k => decide (s.fuse q k = 0xFF))).length

/-- The last array test is beyond repair (R195): a third row or column, or a cell in a row and a column already disabled. -/
def State.beyondRepair (s : State) (q : Nat) : Bool :=
  let x := s.physSq q
  let rows := s.unfused q 0 x.testRows
  let cols := s.unfused q 2 x.testCols
  decide (s.openFuses q 0 < rows.length) || decide (s.openFuses q 2 < cols.length) ||
    (decide (rows.length < x.testRows.length) && decide (cols.length < x.testCols.length))

/-- The array's repair: the fuses, then the retest. A vacated Square that passes is to be moved back (R480). -/
def State.repair (s : State) (q : Nat) (rows cols : List Nat) : State :=
  let x := s.physSq q
  if s.beyondRepair q then s.updPhys q (fun y => { y with repairState := 2 })
  else
    let s1 := ((s.burn q 0 (s.unfused q 0 x.testRows)).burn q 2 (s.unfused q 2 x.testCols)).noteArray q rows cols
    if rows ≠ [] ∨ cols ≠ [] then s1.updPhys q (fun y => { y with repairState := 2 })
    else if q < 144 ∧ (s.sq q).carrier.isSome ∧ x.repairState = 1 ∧ (s.migration (sqDie q)).isNone then
      s1.putMigration (sqDie q) (some { square := q, target := none, holding := false })
    else s1

/-- ARRAY_REPAIR_REQUEST (R194, R195); `rows` and `cols` are what the retest finds. -/
def execArrayRepairRequest (r : Req) (rows cols : List Nat) (s : State) : Out :=
  .next (if !reqSquare r 0x10 then s
    else s.command r (fun t => t.arrayCode r) (fun t => (t.repair (r.index - 0x9000) rows cols).reply r 0))

end Sys2Proof.Machine
end

