-- ==== Sys2Proof/Machine/Dispatch.lean ====
section
/-!
DEFINITION. exec: one arm for each command.
-/

namespace Sys2Proof.Machine

def exec (i : Instr) (s : State) : Host.Outcome State Fault Refusal :=
  match i with
  | .semWait q pl => Sys2Proof.Machine.execSemWait q pl s
  | .semPost q pl => Sys2Proof.Machine.execSemPost q pl s
  | .slotWait q pl => Sys2Proof.Machine.execSlotWait q pl s
  | .fence q pl => Sys2Proof.Machine.execFence q pl s
  | .playerStart q pl => Sys2Proof.Machine.execPlayerStart q pl s
  | .turnEnd q pl => Sys2Proof.Machine.execTurnEnd q pl s
  | .linkCancel q pl => Sys2Proof.Machine.execLinkCancel q pl s
  | .loop q pl => Sys2Proof.Machine.execLoop q pl s
  | .setIndex q pl => Sys2Proof.Machine.execSetIndex q pl s
  | .segmentEndWithoutTurnEnd q pl => Sys2Proof.Machine.execSegmentEndWithoutTurnEnd q pl s
  | .operationComplete q op => Sys2Proof.Machine.execOperationComplete q op s
  | .scoreboardSlotAccess q op => Sys2Proof.Machine.execScoreboardSlotAccess q op s
  | .matmul q pl => Sys2Proof.Machine.execMatmul q pl s
  | .matmulDrain q op => Sys2Proof.Machine.execMatmulDrain q op s
  | .packingChange q => Sys2Proof.Machine.execPackingChange q s
  | .arrayConfig q pl => Sys2Proof.Machine.execArrayConfig q pl s
  | .accLoad q pl => Sys2Proof.Machine.execAccLoad q pl s
  | .accStore q pl => Sys2Proof.Machine.execAccStore q pl s
  | .accCombine q pl => Sys2Proof.Machine.execAccCombine q pl s
  | .vectorQueueStart q => Sys2Proof.Machine.execVectorQueueStart q s
  | .vsetLength q pl => Sys2Proof.Machine.execVsetLength q pl s
  | .vrun q pl => Sys2Proof.Machine.execVrun q pl s
  | .maskOp q pl => Sys2Proof.Machine.execMaskOp q pl s
  | .vreduce q pl => Sys2Proof.Machine.execVreduce q pl s
  | .vscan q pl => Sys2Proof.Machine.execVscan q pl s
  | .lutLoad q pl => Sys2Proof.Machine.execLutLoad q pl s
  | .lutSwap q pl => Sys2Proof.Machine.execLutSwap q pl s
  | .vblock q pl => Sys2Proof.Machine.execVblock q pl s
  | .smax q pl => Sys2Proof.Machine.execSmax q pl s
  | .rowStats q pl => Sys2Proof.Machine.execRowStats q pl s
  | .moverStart q pl => Sys2Proof.Machine.execMoverStart q pl s
  | .moverAbort q pl => Sys2Proof.Machine.execMoverAbort q pl s
  | .moverCancel q pl => Sys2Proof.Machine.execMoverCancel q pl s
  | .descriptorCurrent m ch => Sys2Proof.Machine.execDescriptorCurrent m ch s
  | .pacingMet m ch => Sys2Proof.Machine.execPacingMet m ch s
  | .moverBurst m ch => Sys2Proof.Machine.execMoverBurst m ch s
  | .descriptorComplete m ch => Sys2Proof.Machine.execDescriptorComplete m ch s
  | .moverAbortEnd m ch => Sys2Proof.Machine.execMoverAbortEnd m ch s
  | .moverCancelEnd m ch => Sys2Proof.Machine.execMoverCancelEnd m ch s
  | .semaphorePostMessage msg => Sys2Proof.Machine.execSemaphorePostMessage msg s
  | .linkCancelChannelsReported q entry => Sys2Proof.Machine.execLinkCancelChannelsReported q entry s
  | .linkResetMessage msg => Sys2Proof.Machine.execLinkResetMessage msg s
  | .linkResetAcknowledged msg => Sys2Proof.Machine.execLinkResetAcknowledged msg s
  | .stalemateTimeout p => Sys2Proof.Machine.execStalemateTimeout p s
  | .turnBoundary p => Sys2Proof.Machine.execTurnBoundary p s
  | .transferRepeat m ch => Sys2Proof.Machine.execTransferRepeat m ch s
  | .lateWorkEnd p => Sys2Proof.Machine.execLateWorkEnd p s
  | .overrunTimeout p => Sys2Proof.Machine.execOverrunTimeout p s
  | .joinReceived l => Sys2Proof.Machine.execJoinReceived l s
  | .startReceived l => Sys2Proof.Machine.execStartReceived l s
  | .tableStartInstant p => Sys2Proof.Machine.execTableStartInstant p s
  | .holdReceived l => Sys2Proof.Machine.execHoldReceived l s
  | .releaseReceived l => Sys2Proof.Machine.execReleaseReceived l s
  | .tableResume p => Sys2Proof.Machine.execTableResume p s
  | .turnMarkReceived l => Sys2Proof.Machine.execTurnMarkReceived l s
  | .lengthReceived l => Sys2Proof.Machine.execLengthReceived l s
  | .timeSourceLost => Sys2Proof.Machine.execTimeSourceLost s
  | .load r => Sys2Proof.Machine.execLoad r s
  | .arm r => Sys2Proof.Machine.execArm r s
  | .run r => Sys2Proof.Machine.execRun r s
  | .hold r => Sys2Proof.Machine.execHold r s
  | .release r => Sys2Proof.Machine.execRelease r s
  | .stop r => Sys2Proof.Machine.execStop r s
  | .unload r => Sys2Proof.Machine.execUnload r s
  | .gateVote p => Sys2Proof.Machine.execGateVote p s
  | .gateVoteReceived p => Sys2Proof.Machine.execGateVoteReceived p s
  | .gateDecisionReceived p => Sys2Proof.Machine.execGateDecisionReceived p s
  | .gateStuckWrite r => Sys2Proof.Machine.execGateStuckWrite r s
  | .stepCounterWrite r => Sys2Proof.Machine.execStepCounterWrite r s
  | .restoreNeededWrite r => Sys2Proof.Machine.execRestoreNeededWrite r s
  | .memoryRead owner pa upset => Sys2Proof.Machine.execMemoryRead owner pa upset s
  | .memoryWrite owner pa bytes upset => Sys2Proof.Machine.execMemoryWrite owner pa bytes upset s
  | .regulatorAdmit die t => Sys2Proof.Machine.execRegulatorAdmit die t s
  | .refresh st ch => Sys2Proof.Machine.execRefresh st ch s
  | .stackTemperatureSample st reading => Sys2Proof.Machine.execStackTemperatureSample st reading s
  | .patrolScrub st ch sector upset => Sys2Proof.Machine.execPatrolScrub st ch sector upset s
  | .pageInitialisation p page => Sys2Proof.Machine.execPageInitialisation p page s
  | .migrateRequest r => Sys2Proof.Machine.execMigrateRequest r s
  | .migrationSpareTrained die => Sys2Proof.Machine.execMigrationSpareTrained die s
  | .migrationCopyComplete die => Sys2Proof.Machine.execMigrationCopyComplete die s
  | .migrationSwitch die => Sys2Proof.Machine.execMigrationSwitch die s
  | .migrationOldChannelTest die passed => Sys2Proof.Machine.execMigrationOldChannelTest die passed s
  | .migrationSwitchTimeout die => Sys2Proof.Machine.execMigrationSwitchTimeout die s
  | .migrationRetry die => Sys2Proof.Machine.execMigrationRetry die s
  | .linkTraining l rx tx peer => Sys2Proof.Machine.execLinkTraining l rx tx peer s
  | .linkFrameReceived l frame => Sys2Proof.Machine.execLinkFrameReceived l frame s
  | .linkAckTimeout l => Sys2Proof.Machine.execLinkAckTimeout l s
  | .linkWrite l => Sys2Proof.Machine.execLinkWrite l s
  | .linkRead l => Sys2Proof.Machine.execLinkRead l s
  | .linkReadResp l => Sys2Proof.Machine.execLinkReadResp l s
  | .linkWriteAck l => Sys2Proof.Machine.execLinkWriteAck l s
  | .linkPartial l => Sys2Proof.Machine.execLinkPartial l s
  | .gradSign l => Sys2Proof.Machine.execGradSign l s
  | .gradTopk l => Sys2Proof.Machine.execGradTopk l s
  | .linkSemPost l => Sys2Proof.Machine.execLinkSemPost l s
  | .linkReset l => Sys2Proof.Machine.execLinkReset l s
  | .linkResetAck l => Sys2Proof.Machine.execLinkResetAck l s
  | .gateTransaction l => Sys2Proof.Machine.execGateTransaction l s
  | .ordered l => Sys2Proof.Machine.execOrdered l s
  | .routeForward l => Sys2Proof.Machine.execRouteForward l s
  | .hello l => Sys2Proof.Machine.execHello l s
  | .identity l => Sys2Proof.Machine.execIdentity l s
  | .keyshare l => Sys2Proof.Machine.execKeyshare l s
  | .time l => Sys2Proof.Machine.execTime l s
  | .timeSend l => Sys2Proof.Machine.execTimeSend l s
  | .swapReq l => Sys2Proof.Machine.execSwapReq l s
  | .swapAt l => Sys2Proof.Machine.execSwapAt l s
  | .laneLost l => Sys2Proof.Machine.execLaneLost l s
  | .assign l => Sys2Proof.Machine.execAssign l s
  | .laneSwapThreshold l lane => Sys2Proof.Machine.execLaneSwapThreshold l lane s
  | .laneSpareAdapted l => Sys2Proof.Machine.execLaneSpareAdapted l s
  | .laneLossOfLock l lane => Sys2Proof.Machine.execLaneLossOfLock l lane s
  | .retrainRequest r => Sys2Proof.Machine.execRetrainRequest r s
  | .trainWindowOpen l => Sys2Proof.Machine.execTrainWindowOpen l s
  | .cablePresent g => Sys2Proof.Machine.execCablePresent g s
  | .cableRemoved g => Sys2Proof.Machine.execCableRemoved g s
  | .managementBeaconConflict => Sys2Proof.Machine.execManagementBeaconConflict s
  | .asletTraining lanes peerVersion => Sys2Proof.Machine.execAsletTraining lanes peerVersion s
  | .asletFrameReceived frame => Sys2Proof.Machine.execAsletFrameReceived frame s
  | .asletAckTimeout => Sys2Proof.Machine.execAsletAckTimeout s
  | .asletHostWrite => Sys2Proof.Machine.execAsletHostWrite s
  | .asletRead => Sys2Proof.Machine.execAsletRead s
  | .asletReadResp => Sys2Proof.Machine.execAsletReadResp s
  | .asletWriteAck => Sys2Proof.Machine.execAsletWriteAck s
  | .message => Sys2Proof.Machine.execMessage s
  | .credit => Sys2Proof.Machine.execCredit s
  | .width => Sys2Proof.Machine.execWidth s
  | .asletHello => Sys2Proof.Machine.execAsletHello s
  | .sleepReq => Sys2Proof.Machine.execSleepReq s
  | .sleepAck => Sys2Proof.Machine.execSleepAck s
  | .wakeBurst => Sys2Proof.Machine.execWakeBurst s
  | .place r => Sys2Proof.Machine.execPlace r s
  | .placeComplete p ok => Sys2Proof.Machine.execPlaceComplete p ok s
  | .clientHello r => Sys2Proof.Machine.execClientHello r s
  | .clientFinish r chainBytes signatureBytes => Sys2Proof.Machine.execClientFinish r chainBytes signatureBytes s
  | .handshakeTimeout c => Sys2Proof.Machine.execHandshakeTimeout c s
  | .reportRequest r => Sys2Proof.Machine.execReportRequest r s
  | .wrappedKey r => Sys2Proof.Machine.execWrappedKey r s
  | .deliver r => Sys2Proof.Machine.execDeliver r s
  | .deliveryComplete p ok => Sys2Proof.Machine.execDeliveryComplete p ok s
  | .rotateRequest r p => Sys2Proof.Machine.execRotateRequest r p s
  | .rotationDiesConfirmed p => Sys2Proof.Machine.execRotationDiesConfirmed p s
  | .rotationSweepDone p unreadable => Sys2Proof.Machine.execRotationSweepDone p unreadable s
  | .entropyFailure => Sys2Proof.Machine.execEntropyFailure s
  | .readReq r => Sys2Proof.Machine.execReadReq r s
  | .writeReq r => Sys2Proof.Machine.execWriteReq r s
  | .segStart r => Sys2Proof.Machine.execSegStart r s
  | .segData r => Sys2Proof.Machine.execSegData r s
  | .segAck r => Sys2Proof.Machine.execSegAck r s
  | .segCancel r => Sys2Proof.Machine.execSegCancel r s
  | .segmentResendTimeout sess => Sys2Proof.Machine.execSegmentResendTimeout sess s
  | .segmentTransferAbandon sess => Sys2Proof.Machine.execSegmentTransferAbandon sess s
  | .eventAck r => Sys2Proof.Machine.execEventAck r s
  | .eventResend sess => Sys2Proof.Machine.execEventResend sess s
  | .close r => Sys2Proof.Machine.execClose r s
  | .check r => Sys2Proof.Machine.execCheck r s
  | .checkDiscard r => Sys2Proof.Machine.execCheckDiscard r s
  | .commit r => Sys2Proof.Machine.execCommit r s
  | .commitApply sess => Sys2Proof.Machine.execCommitApply sess s
  | .flagClear r => Sys2Proof.Machine.execFlagClear r s
  | .counterClear r => Sys2Proof.Machine.execCounterClear r s
  | .powerActive r => Sys2Proof.Machine.execPowerActive r s
  | .powerStandby r => Sys2Proof.Machine.execPowerStandby r s
  | .powerSleep r => Sys2Proof.Machine.execPowerSleep r s
  | .padRelease r => Sys2Proof.Machine.execPadRelease r s
  | .wakeSource source => Sys2Proof.Machine.execWakeSource source s
  | .inputValid volts => Sys2Proof.Machine.execInputValid volts s
  | .inputLow => Sys2Proof.Machine.execInputLow s
  | .inputLost => Sys2Proof.Machine.execInputLost s
  | .inputOvervoltage volts lasted => Sys2Proof.Machine.execInputOvervoltage volts lasted s
  | .inputReversed => Sys2Proof.Machine.execInputReversed s
  | .powerLimit watts => Sys2Proof.Machine.execPowerLimit watts s
  | .powerLimitEnd watts => Sys2Proof.Machine.execPowerLimitEnd watts s
  | .railShutdown rail => Sys2Proof.Machine.execRailShutdown rail s
  | .aonBrownout => Sys2Proof.Machine.execAonBrownout s
  | .junctionTemperatureSample die reading => Sys2Proof.Machine.execJunctionTemperatureSample die reading s
  | .coolantInletHigh reading => Sys2Proof.Machine.execCoolantInletHigh reading s
  | .coolantFlowLow outlet power => Sys2Proof.Machine.execCoolantFlowLow outlet power s
  | .firmwareVerified passA passB => Sys2Proof.Machine.execFirmwareVerified passA passB s
  | .selfTestRequest r => Sys2Proof.Machine.execSelfTestRequest r s
  | .selfTestEnd failures => Sys2Proof.Machine.execSelfTestEnd failures s
  | .stageImage r signatureOk maxima => Sys2Proof.Machine.execStageImage r signatureOk maxima s
  | .activate r => Sys2Proof.Machine.execActivate r s
  | .activationHeld verified => Sys2Proof.Machine.execActivationHeld verified s
  | .activationTimeout => Sys2Proof.Machine.execActivationTimeout s
  | .squareMigrationTrigger q passed => Sys2Proof.Machine.execSquareMigrationTrigger q passed s
  | .squareMigrationTestPassed die => Sys2Proof.Machine.execSquareMigrationTestPassed die s
  | .squareMigrationCopy die uncorrectable => Sys2Proof.Machine.execSquareMigrationCopy die uncorrectable s
  | .arrayTestRequest r rows cols => Sys2Proof.Machine.execArrayTestRequest r rows cols s
  | .arrayRepairRequest r rows cols => Sys2Proof.Machine.execArrayRepairRequest r rows cols s
  | .undefinedOpcode q pl => Sys2Proof.Machine.execUndefinedOpcode q pl s
  | .memoryTrainingComplete failing => Sys2Proof.Machine.execMemoryTrainingComplete failing s
  | .timeSourceRestored => Sys2Proof.Machine.execTimeSourceRestored s
  | .plannedRetrainTimeout l => Sys2Proof.Machine.execPlannedRetrainTimeout l s

end Sys2Proof.Machine
end

