-- ==== Sys2Proof/Safety.lean ====
section
/-!
DEFINITION. What every step keeps, in the terms the claims use.
-/

namespace Sys2Proof.Machine

open Sys2Proof

/-- A Square's stores are in their canonical form. -/
def Square.storesOk (x : Square) : Prop :=
  Mem.wf 0 x.ls = true ∧ Mem.wf 0 x.acc = true ∧ Mem.wf 0 x.lut = true

/-- The invariant of the module: the event history holds at most its 1,024 records (R412), and every store (the stack memory,
each Local Store, Accumulator Memory and lookup table) is in the canonical form. -/
def Inv (s : State) : Prop :=
  s.events.length ≤ 1024 ∧ Mem.wf 0 s.dram.cells = true ∧ ∀ q, (s.sq q).storesOk

/-- From one state to a later one: the queue stands, the module time is never turned back, the invariant is kept. -/
def Goes (s t : State) : Prop := t.pending = s.pending ∧ s.now ≤ t.now ∧ (Inv s → Inv t)

/-! ### Events and responses -/

/-- The history with one record more: the last 1,024 (R412). -/
def withEvent (l : List Event) (e : Event) : List Event := (l ++ [e]).drop ((l ++ [e]).length - 1024)

/-- What an event or a response leaves as it is. -/
def SameCore (s t : State) : Prop :=
  t.now = s.now ∧ t.fresh = s.fresh ∧ t.pending = s.pending ∧ t.squares = s.squares ∧ t.phys = s.phys ∧
  t.parts = s.parts ∧ t.fabric = s.fabric ∧ t.links = s.links ∧ t.groups = s.groups ∧ t.dram = s.dram ∧
  t.power = s.power ∧ t.thermal = s.thermal ∧ t.service = s.service ∧ t.timeSource = s.timeSource ∧
  t.holdover = s.holdover ∧ t.defaulted = s.defaulted ∧ t.lostObjects = s.lostObjects ∧
  t.slotPins = s.slotPins ∧ t.slotId = s.slotId ∧ t.coordinatorSilent = s.coordinatorSilent ∧
  t.earlyJoins = s.earlyJoins

/-! ### What a command of one kind of unit leaves as it is -/

/-- The Squares, their physical places and the Board fabric. -/
def SameSquares (s t : State) : Prop := t.squares = s.squares ∧ t.phys = s.phys ∧ t.fabric = s.fabric

/-- The chip links and their groups. -/
def SameLinks (s t : State) : Prop := t.links = s.links ∧ t.groups = s.groups

/-- Power, temperature, service and the time source. -/
def SameBoard (s t : State) : Prop :=
  t.power = s.power ∧ t.thermal = s.thermal ∧ t.service = s.service ∧ t.timeSource = s.timeSource ∧ t.holdover = s.holdover

/-- Every Mover channel but one. -/
def OtherChannels (s t : State) (m : MoverId) (ch : Nat) : Prop :=
  ∀ n k, (n, k) ≠ (m, ch) → t.channel n k = s.channel n k

/-- Every partition but one. -/
def OtherParts (s t : State) (p : Nat) : Prop := ∀ k, k ≠ p → t.part k = s.part k

/-- Every link but one. -/
def OtherLinks (s t : State) (l : Nat) : Prop := ∀ k, k ≠ l → t.link k = s.link k

/-! ### Commands of a Player (R89) -/

/-- Player pl of Square q may issue its next record r, of an opcode, in this state: it is a Square and a Player of the module, the
Player is started and its partition issues, the header is well-formed, no wait of the record faults, and the record is ready
(R89, R92, R107). -/
def IssuesNow (s : State) (q pl : Nat) (r : Rec) (opcode : Nat) : Prop :=
  q < 144 ∧ pl < 16 ∧ s.candidate q pl = some r ∧ recOpcode r = opcode ∧ recHeaderOk r = true ∧ s.waitFault q pl r = none ∧
    ((s.takeWaits q pl r).sq q).ready pl r = true

/-- The state in which everything that a record waits for has been taken (R89). -/
def State.taken (s : State) (q pl : Nat) (r : Rec) : State := (s.takeWaits q pl r).takeNeeds q pl r

/-- What a record takes from a semaphore at issue (R89). -/
def needAt (r : Rec) (e : Nat) (sem : Bool) : Nat :=
  (((recNeeds r).filter (fun n => decide (n.1 = e) && decide (n.2.1 = sem))).map (fun n => n.2.2)).sum

/-- From state s to state u, record r of Player pl of Square q is issued and holds a place (R91, R200): the operation stands last among
those in flight with what it took, its slots are claimed, and the Player goes on past the record and its operand records. -/
def Issued (s u : State) (q pl : Nat) (r : Rec) (kind : OpKind) (phase : OpPhase) (operands : List Rec) (index : Nat)
    (slots : List Nat) : Prop :=
  let id := (s.sq q).nextOp
  (u.sq q).nextOp = id + 1 ∧ (u.sq q).claims = (s.sq q).claims ++ slots.map (fun k => (k, id)) ∧
    u.player q pl = ((s.taken q pl r).player q pl).advance (1 + operands.length) ∧
    ∃ o : Op, (u.sq q).inflight = (s.sq q).inflight ++ [o] ∧ o.id = id ∧ o.player = pl ∧ o.record = (s.player q pl).pc ∧
      o.kind = kind ∧ o.phase = phase ∧ o.bits = r ∧ o.operands = operands ∧ o.index = index ∧ o.vl = (s.player q pl).vl ∧
      o.slots = slots ∧ o.held = false ∧ o.faulted = false

/-- The operand records that follow a VRUN (R221). -/
def vrunOperands (s : State) (q pl : Nat) (r : Rec) : List Rec :=
  (List.range (cdiv (vrOpCount r) 4)).map (fun i => ((s.sq q).record ((s.player q pl).pc + 1 + i)).getD 0)

/-! ### Write commands (R405, R409) -/

/-- The frame of a write command is received in state s, which leaves t, and its form is good (orders 1 to 4 of Table ULY-3). -/
def Received (s : State) (r : Req) (t : State) : Prop :=
  s.writing r = none ∧ s.admitFrame r kWrite = (t, true) ∧ t.judgeForm r true r.payload.length = 0

end Sys2Proof.Machine
end

