-- ==== Sys2Proof/Certificates/Slice0/Obligations.lean ====
section
/-!
DEFINITION. The statements for the provers.
-/

open Sys2Proof Sys2Proof.Machine

/-- A step runs the command at the front of the queue on the state with the queue's rest. -/
def Obligations.StepRunsFront : Prop :=
  ∀ (s : State) (c : Instr) (rest : List Instr),
    step { s with pending := c :: rest } = exec c { s with pending := rest }

/-- After reset the module is OFF and holds nothing: no event, no command, no partition, no session, every counter and flag 0, every
Square unowned and clear. -/
def Obligations.ResetIsOff : Prop :=
  State.reset.power.state = .off ∧ State.reset.pending = [] ∧ State.reset.events = [] ∧ State.reset.statusFlags = 0 ∧
    State.reset.sec.sessions = [] ∧ State.reset.dram.cells = [] ∧ (∀ k, Tab.get 0 State.reset.counters k = 0) ∧
    (∀ p, (State.reset.part p).runState = .empty ∧ (State.reset.part p).squares = 0) ∧
    (∀ q, State.reset.owner q = none ∧ (State.reset.sq q).ls = [] ∧ (State.reset.sq q).acc = []) ∧
    (∀ l, (State.reset.link l).state = 0) ∧ State.reset.aslet.state = 0

/-- The invariant holds after reset. -/
def Obligations.ResetKeepsInvariant : Prop := Inv State.reset

/-- Every step keeps the invariant: at most 1,024 events in the history (R412), every store in canonical form. -/
def Obligations.StepKeepsInvariant : Prop := ∀ s t : State, Inv s → step s = .next t → Inv t

/-- No step turns the module time back, and a step takes exactly the front command off the queue; on an empty queue a nanosecond passes
(the model's choice, log 1). -/
def Obligations.StepKeepsTime : Prop :=
  (∀ s t : State, step s = .next t → s.now ≤ t.now ∧ t.pending = s.pending.tail) ∧
  ∀ s : State, s.pending = [] → ∃ t : State, step s = .next t ∧ t.now = s.now + 1

/-- A command that names no unit of the module stops by name; a Player's, a Square's, a partition's, a link's command of a unit that
exists always answers a next state. -/
def Obligations.UnitsDecide : Prop :=
  ∀ (s : State) (q pl op p l : Nat),
    ((q < 144 ∧ pl < 16) →
      (∃ t : State, exec (.semWait q pl) s = .next t) ∧ (∃ t : State, exec (.vrun q pl) s = .next t) ∧ (∃ t : State, exec (.matmul q pl) s = .next t) ∧
      (∃ t : State, exec (.moverStart q pl) s = .next t) ∧ (∃ t : State, exec (.undefinedOpcode q pl) s = .next t)) ∧
    (¬(q < 144 ∧ pl < 16) →
      exec (.semWait q pl) s = .fault .noSuchUnit ∧ exec (.vrun q pl) s = .fault .noSuchUnit ∧
      exec (.matmul q pl) s = .fault .noSuchUnit ∧ exec (.moverStart q pl) s = .fault .noSuchUnit ∧
      exec (.undefinedOpcode q pl) s = .fault .noSuchUnit) ∧
    (q < 144 → (∃ t : State, exec (.operationComplete q op) s = .next t) ∧ ∃ t : State, exec (.vectorQueueStart q) s = .next t) ∧
    (144 ≤ q → exec (.operationComplete q op) s = .fault .noSuchUnit ∧ exec (.vectorQueueStart q) s = .fault .noSuchUnit) ∧
    (p < 16 → (∃ t : State, exec (.turnBoundary p) s = .next t) ∧ ∃ t : State, exec (.gateVote p) s = .next t) ∧
    (16 ≤ p → exec (.turnBoundary p) s = .fault .noSuchUnit ∧ exec (.gateVote p) s = .fault .noSuchUnit) ∧
    (l < 96 → (∃ t : State, exec (.linkWrite l) s = .next t) ∧ ∃ t : State, exec (.joinReceived l) s = .next t) ∧
    (96 ≤ l → exec (.linkWrite l) s = .fault .noSuchUnit ∧ exec (.joinReceived l) s = .fault .noSuchUnit)

/-! ### Players (chapter 04) -/

/-- What issue takes: from each semaphore of the Square exactly what the record needs of it, from each wait slot of its mask 1; every
other Square, the partitions and stack memory stand. -/
def Obligations.IssueTakesNeeds : Prop :=
  ∀ (s : State) (q pl : Nat) (r : Rec),
    (∀ e sem, ((s.taken q pl r).entry q e).sem sem = (s.entry q e).sem sem - needAt r e sem) ∧
    (∀ i, Tab.get 0 ((s.taken q pl r).player q pl).slots i =
      Tab.get 0 (s.player q pl).slots i - if (bitsOf (recSlotMask r) 16).contains i then 1 else 0) ∧
    (∀ k, k ≠ q → (s.taken q pl r).sq k = s.sq k) ∧
    (∀ k, k ≠ pl → (s.taken q pl r).player q k = s.player q k) ∧
    ((s.taken q pl r).player q pl).pc = (s.player q pl).pc ∧
    (s.taken q pl r).parts = s.parts ∧ (s.taken q pl r).dram = s.dram ∧ (s.taken q pl r).events = s.events

/-- SEM_WAIT, SLOT_WAIT and FENCE execute at issue: what they wait for is taken, the Player goes on to the next record, and their POST
and SLOT are made. -/
def Obligations.WaitsComplete : Prop :=
  ∀ (s : State) (q pl : Nat) (r : Rec),
    let done := ((s.taken q pl r).advance q pl 1).postAndSlot q pl r (s.player q pl).pc
    (IssuesNow s q pl r 0x60 → 1 ≤ semCount r → semCount r ≤ 64 → recBodyOk r (bytesAt 8 2) = true →
      exec (.semWait q pl) s = .next done) ∧
    (IssuesNow s q pl r 0x62 → recSlotMask r ≠ 0 → recBodyOk r (bytesAt 8 2) = true →
      exec (.slotWait q pl) s = .next done) ∧
    (IssuesNow s q pl r 0x63 → recBodyOk r 0 = true → exec (.fence q pl) s = .next done)

/-- SEM_POST adds n at issue to a semaphore that its own entry holds, and sends a message where the entry's other end holds it, by the
Board fabric on its seat, by the Book's route to another; then the next record, and its POST and SLOT. -/
def Obligations.SemPostCompletes : Prop :=
  ∀ (s : State) (q pl : Nat) (r : Rec),
    IssuesNow s q pl r 0x61 → semPostCheck q pl (s.takeWaits q pl r) r = none →
      ∃ u : State, exec (.semPost q pl) s = .next ((u.advance q pl 1).postAndSlot q pl r (s.player q pl).pc) ∧
        let x := (s.taken q pl r).entry q (semEntry r)
        (x.owns (semSem r) = true →
          (u.entry q (semEntry r)).sem (semSem r) = x.sem (semSem r) + semCount r ∧ u.fabric = s.fabric ∧
          ∀ e, e ≠ semEntry r → u.entry q e = (s.taken q pl r).entry q e) ∧
        (x.owns (semSem r) = false → x.peerSeat = (s.part (s.partOf q)).seat →
          u = { s.taken q pl r with
            fabric := s.fabric ++ [.post (s.partOf q) x.peerSquare x.peerEntry (semSem r) (semCount r) x.epoch q] }) ∧
        (x.owns (semSem r) = false → x.peerSeat ≠ (s.part (s.partOf q)).seat →
          u = (s.taken q pl r).sendSeat (s.partOf q) x.peerSeat
            (semPostTxn x.peerSquare x.peerEntry (semSem r) (semCount r) x.epoch))

/-- PLAYER_START, LOOP and SET_INDEX: the Player that starts is at its record with its index registers at 0; a LOOP's register is 0 and
its body stands as the innermost loop; SET_INDEX writes its register. Past the last record of the innermost body the Player
goes back to its first with the register at the next pass; after the last pass, or outside a body, it goes on. -/
def Obligations.PlayerControlCompletes : Prop :=
  ∀ (s : State) (q pl : Nat) (r : Rec),
    let pc := (s.player q pl).pc
    (IssuesNow s q pl r 0x64 → playerStartCheck q (s.takeWaits q pl r) r = none →
      ∃ u : State, exec (.playerStart q pl) s = .next ((u.advance q pl 1).postAndSlot q pl r pc) ∧
        let n := recBits r 64 4
        (u.player q n).running = true ∧ (u.player q n).pc = recBytes r 12 4 ∧ (∀ i, Tab.get 0 (u.player q n).index i = 0) ∧
        (u.player q n).vl = ((s.taken q pl r).player q n).vl ∧ ∀ k, k ≠ n → u.player q k = (s.taken q pl r).player q k) ∧
    (IssuesNow s q pl r 0x78 → loopCheck q pl (s.takeWaits q pl r) r = none →
      ∃ u : State, exec (.loop q pl) s = .next ((u.advance q pl 1).postAndSlot q pl r pc) ∧
        Tab.get 0 (u.player q pl).index (recBits r 64 2) = 0 ∧
        (u.player q pl).loops = ⟨recBits r 64 2, pc + 1, pc + recBytes r 16 4, recBytes r 12 4, 0⟩ :: (s.player q pl).loops) ∧
    (IssuesNow s q pl r 0x79 → recBodyOk r (bitsAt 64 2 ||| bytesAt 12 4) = true →
      ∃ u : State, exec (.setIndex q pl) s = .next ((u.advance q pl 1).postAndSlot q pl r pc) ∧
        Tab.get 0 (u.player q pl).index (recBits r 64 2) = recBytes r 12 4 ∧
        ∀ i, i ≠ recBits r 64 2 → Tab.get 0 (u.player q pl).index i = Tab.get 0 (s.player q pl).index i) ∧
    ∀ (P : Player) (n : Nat) (f : LoopFrame) (rest : List LoopFrame),
      (P.loops = [] → (P.advance n).pc = P.pc + n ∧ (P.advance n).index = P.index) ∧
      (P.loops = f :: rest → P.pc + n = f.last + 1 → f.pass + 1 < f.count →
        (P.advance n).pc = f.first ∧ Tab.get 0 (P.advance n).index f.reg = f.pass + 1 ∧
        (P.advance n).loops = { f with pass := f.pass + 1 } :: rest) ∧
      (P.loops = [f] → P.pc + n = f.last + 1 → f.count ≤ f.pass + 1 →
        (P.advance n).pc = f.last + 1 ∧ (P.advance n).loops = [] ∧ (P.advance n).index = P.index) ∧
      (P.loops = f :: rest → P.pc + n ≠ f.last + 1 → (P.advance n).pc = P.pc + n ∧ (P.advance n).loops = P.loops)

/-- TURN_END completes for every Player that may issue it: the Player goes on, its POST and SLOT are made, and it parks outside every loop;
where every other Player is parked, the Square has ended the Turn at this instant, else the Turn goes on. LINK_CANCEL completes at issue for
a consumer end or a local entry (steps 1 and 2 of Table SQP-6): the epoch of its entry goes on by one, modulo 16, the semaphores stand, every
channel of ProducerChannels that can still stop is cancelled, and the operation holds a place with them; nothing else changes. -/
def Obligations.TurnEndAndCancel : Prop :=
  ∀ (s : State) (q pl : Nat) (r : Rec),
    (IssuesNow s q pl r 0x65 → recBodyOk r 0 = true →
      let u := ((s.taken q pl r).advance q pl 1).postAndSlot q pl r (s.player q pl).pc
      ∃ t : State, exec (.turnEnd q pl) s = .next t ∧
        (t.player q pl) = { u.player q pl with running := false, loops := [] } ∧
        (∀ k, k ≠ pl → t.player q k = u.player q k) ∧ (∀ k, k ≠ q → t.sq k = u.sq k) ∧
        ((∀ k, k < 16 → k ≠ pl → (u.player q k).running = false) → (t.sq q).endedAt = some u.now) ∧
        ((∃ k, k < 16 ∧ k ≠ pl ∧ (u.player q k).running = true) → (t.sq q).endedAt = (u.sq q).endedAt) ∧
        t.now = u.now ∧ t.parts = u.parts ∧ t.dram = u.dram ∧ t.events = u.events ∧ t.fabric = u.fabric ∧ SameLinks u t ∧ SameBoard u t) ∧
    (IssuesNow s q pl r 0x66 → recBodyOk r (bitsAt 64 7) = true → (s.entry q (semEntry r)).depth ≠ 0 →
      (s.entry q (semEntry r)).isLocal = true ∨ (s.entry q (semEntry r)).consumer = true →
      let u := s.taken q pl r
      let e := semEntry r
      let chs := s.cancelTargets q (s.entry q e).producerChannels
      ∃ t : State, exec (.linkCancel q pl) s = .next t ∧ Issued s t q pl r (.linkCancel e chs) .waiting [] 0 [] ∧
        t.entry q e = { u.entry q e with epoch := ((s.entry q e).epoch + 1) % 16 } ∧ (∀ k, k ≠ e → t.entry q k = u.entry q k) ∧
        (∀ ch, t.channel (.square q) ch = if ch ∈ chs then { s.channel (.square q) ch with phase := .cancelling 0x07 }
          else s.channel (.square q) ch) ∧
        (∀ k, k ≠ q → t.sq k = s.sq k) ∧ (t.sq q).acc = (s.sq q).acc ∧ (t.sq q).ls = (s.sq q).ls ∧ t.parts = s.parts ∧ t.dram = s.dram ∧
        t.events = s.events ∧ t.fabric = s.fabric ∧ SameLinks s t ∧ SameBoard s t)

/-- An undefined opcode and a segment that ends without TURN_END are operation faults: the Player stops at its record, event 0x30 with
detail 0x01 or 0x09 names it, and the partition freezes. -/
def Obligations.BadRecordsFault : Prop :=
  ∀ (s : State) (q pl : Nat),
    q < 144 → pl < 16 → (s.part (s.partOf q)).frozen = false →
    let pc := (s.player q pl).pc
    let place : List (LocKind × Nat) := [(.square, q), (.player, pl), (.record, pc)]
    (∀ r, s.candidate q pl = some r → definedOpcodes.contains (recOpcode r) = false →
      ∃ t : State, exec (.undefinedOpcode q pl) s = .next t ∧ (t.player q pl).stopped = true ∧ (t.player q pl).pc = pc ∧
        (t.part (s.partOf q)).frozen = true ∧ t.events = withEvent s.events ⟨s.now, 0x30, 0x01, some (s.partOf q), place, []⟩) ∧
    (s.issuing q pl = true → s.nextRecord q pl = none →
      ∃ t : State, exec (.segmentEndWithoutTurnEnd q pl) s = .next t ∧ (t.player q pl).stopped = true ∧ (t.player q pl).pc = pc ∧
        (t.part (s.partOf q)).frozen = true ∧ t.events = withEvent s.events ⟨s.now, 0x30, 0x09, some (s.partOf q), place, []⟩)

/-! ### The matrix array (chapter 07) -/

/-- MATMUL and ARRAY_CONFIG hold a place from issue. A MATMUL claims its slot, and its stream begins where the array lets it. R186: an
ARRAY_CONFIG takes effect once no matrix operation issued before it is in flight, and then completes; no MATMUL issued after one streams
before that, and the sums of a stream are the same in either mode. -/
def Obligations.ArrayIssue : Prop :=
  ∀ (s : State) (q pl : Nat) (r : Rec),
    let id := (s.sq q).nextOp
    (IssuesNow s q pl r 0x10 → matmulCheck q pl (s.takeWaits q pl r) r = none →
      ∃ u : State, exec (.matmul q pl) s = .next (u.tryStream q id) ∧
        Issued s u q pl r .matmul .waiting [] (if mmShiftEnable r then s.indexReg q pl (mmIndexReg r) else 0) [mmSlot r] ∧
        u.dram = s.dram ∧ (u.sq q).acc = (s.sq q).acc ∧ (u.sq q).ls = (s.sq q).ls) ∧
    (IssuesNow s q pl r 0x11 → recBodyOk r (bitsAt 64 1) = true →
      ∃ u : State, exec (.arrayConfig q pl) s = .next (u.tryConfig q id) ∧ Issued s u q pl r .arrayConfig .waiting [] 0 [] ∧
        ((s.sq q).inflight = [] → ((u.tryConfig q id).sq q).chainMode = recBit r 64 ∧
          ((u.tryConfig q id).sq q).inflight.map (fun o => (o.id, o.phase)) = [(id, .done)])) ∧
    (∀ o : Op, (s.sq q).op o.id = some o → o.isConfig = true → o.phase = .waiting →
      ((s.sq q).matrixBefore o ≠ [] → s.tryConfig q o.id = s) ∧
      ((s.sq q).matrixBefore o = [] → ((s.tryConfig q o.id).sq q).chainMode = recBit o.bits 64 ∧
        ((s.tryConfig q o.id).sq q).op o.id = some { o with phase := .done } ∧ ∀ k, k ≠ q → (s.tryConfig q o.id).sq k = s.sq k)) ∧
    (∀ o e : Op, (s.sq q).op o.id = some o → o.isMatmul = true → e ∈ (s.sq q).matrixBefore o → e.isConfig = true →
      (s.sq q).streamReady o = false ∧ s.tryStream q o.id = s) ∧
    (∀ (b : Bool) (x : MmTensors), (s.updSq q (fun y => { y with chainMode := b })).mmStream q r x = s.mmStream q r x)

/-- A stream that may begin gives the sums of its cells by the order of the cell and leaves the slot; the drain writes each sum, as its
column's drain path delivers it, to its slot element and no other element, Local Store or memory. -/
def Obligations.StreamAndDrain : Prop :=
  ∀ (s : State) (q : Nat) (o : Op),
    (∀ sums flags, s.mmStream q o.bits (s.mmTensors (s.partOf q) o.bits o.index) = .ok (sums, flags) →
      ((s.runStream q o).sq q).acc = (s.sq q).acc ∧ ((s.runStream q o).sq q).ls = (s.sq q).ls ∧
      ((s.runStream q o).sq q).inflight =
        (s.sq q).inflight.map (fun y => if y.id = o.id then
          { y with phase := .working, held := false, sums := sums, flags := flags } else y)) ∧
    (mmDrain o.bits = 0 → fp8Tensor ((s.mmTensors (s.partOf q) o.bits o.index).a.fmt % 32) = false → (o.sums.map (·.1)).Nodup →
      (∀ e w, (e, w) ∈ drainedSums (s.sq q).drainErr o.sums → ((s.runDrain q o).sq q).accRead e = w.toNat) ∧
      (∀ e, e ∉ o.sums.map (·.1) → ((s.runDrain q o).sq q).accRead e = (s.sq q).accRead e) ∧
      ((s.runDrain q o).sq q).ls = (s.sq q).ls ∧ (s.runDrain q o).dram = s.dram ∧ ∀ k, k ≠ q → (s.runDrain q o).sq k = s.sq k)

/-- MATMUL_DRAIN: with the earlier drains of its region and column band done and its slot free, the operation drains and the array goes on; with an
earlier claim on the slot, it is held and the conflict is counted. PACKING_CHANGE: the first waiting MATMUL sets the packing.
SCOREBOARD_SLOT_ACCESS: with every earlier claim on its slots released, an operation that was held preloads and streams, drains, or starts at
the head of the vector queue. -/
def Obligations.DrainsAndPacking : Prop :=
  ∀ (s : State) (q op k : Nat) (o : Op),
    q < 144 →
    ((s.sq q).op op = some o → o.isMatmul = true → o.phase = .working → o.held = false → (s.sq q).drainTurn o = true →
      ((s.sq q).slotsFree o = true → exec (.matmulDrain q op) s = .next ((s.runDrain q o).arrayProgress q)) ∧
      ((s.sq q).slotsFree o = false → ∃ t : State, exec (.matmulDrain q op) s = .next t ∧
        (t.sq q).slotConflicts = satAdd (s.sq q).slotConflicts 1 ∧ (t.sq q).acc = (s.sq q).acc ∧
        (t.sq q).op op = some { o with held := true })) ∧
    ((s.sq q).packingWanted = some k → ∃ u : State, exec (.packingChange q) s = .next (u.arrayProgress q) ∧
      (u.sq q).packing = k ∧ (u.sq q).acc = (s.sq q).acc ∧ (u.sq q).inflight = (s.sq q).inflight ∧
      ∀ j, j ≠ q → u.sq j = s.sq j) ∧
    ((s.sq q).op op = some o → o.held = true →
        ((s.sq q).slotsFree o = false → exec (.scoreboardSlotAccess q op) s = .next s) ∧
      ((s.sq q).slotsFree o = true →
        (o.isMatmul = true → o.phase = .waiting → exec (.scoreboardSlotAccess q op) s = .next (s.runStream q o)) ∧
        (o.isMatmul = true → o.phase ≠ .waiting →
          exec (.scoreboardSlotAccess q op) s = .next ((s.runDrain q o).arrayProgress q)) ∧
        (o.isMatmul = false → (s.sq q).vqueue.head? = some op → ∃ u : State,
          exec (.scoreboardSlotAccess q op) s = .next (u.vectorProgress q) ∧ (u.sq q).vqueue = (s.sq q).vqueue ∧
          (u.sq q).op op = some { o with held := false } ∧ (u.sq q).acc = (s.sq q).acc)))

/-- OPERATION_COMPLETE: an operation whose writes have been accepted leaves flight and releases its claims; where no run-time fault
stopped it, its flags enter its Player's sticky word, then its POST and SLOT are made. -/
def Obligations.OperationCompletes : Prop :=
  ∀ (s : State) (q op : Nat) (o : Op),
    q < 144 → (s.sq q).op op = some o → o.phase = .done →
      ∃ u : State, exec (.operationComplete q op) s = .next (((if o.faulted then u
          else u.postAndSlot q o.player o.bits o.record).arrayProgress q).vectorProgress q) ∧
        (u.sq q).inflight = (s.sq q).inflight.filter (fun e => decide (e.id ≠ o.id)) ∧
        (u.sq q).claims = (s.sq q).claims.filter (fun c => decide (c.2 ≠ o.id)) ∧
        (u.player q o.player).sticky =
          (s.player q o.player).sticky ||| (if o.faulted then 0 else BitVec.ofNat 32 o.flags) ∧
        (u.sq q).acc = (s.sq q).acc ∧ (u.sq q).ls = (s.sq q).ls ∧ u.dram = s.dram ∧ ∀ k, k ≠ q → u.sq k = s.sq k

/-! ### The vector and accumulator operations (chapters 08 to 10) -/

/-- Every vector and accumulator operation whose checks pass is issued into its Square's vector queue with its claims, and the queue
starts what may start. -/
def Obligations.VectorIssue : Prop :=
  ∀ (s : State) (q pl : Nat) (r : Rec),
    let w := s.takeWaits q pl r
    let id := (s.sq q).nextOp
    let queued := fun (c : Instr) (operands : List Rec) (index : Nat) (slots : List Nat) =>
      ∃ u : State, exec c s = .next (u.vectorProgress q) ∧ Issued s u q pl r .vector .waiting operands index slots ∧
        (u.sq q).vqueue = (s.sq q).vqueue ++ [id] ∧ (u.sq q).acc = (s.sq q).acc ∧ (u.sq q).ls = (s.sq q).ls ∧ u.dram = s.dram
    (IssuesNow s q pl r 0x21 → vrunCheck q pl w r = none →
      queued (.vrun q pl) (vrunOperands s q pl r) (s.indexReg q pl (vrIndexReg r))
        (slotRefs ((vrUsed r).map (fun i => (vrSlot r i, vrRef r i))))) ∧
    (IssuesNow s q pl r 0x22 → maskOpCheck q pl w r = none → queued (.maskOp q pl) [] 0 []) ∧
    (IssuesNow s q pl r 0x23 → lutLoadCheck q w r = none → queued (.lutLoad q pl) [] 0 []) ∧
    (IssuesNow s q pl r 0x24 → recBodyOk r (bitsAt 80 4) = true → queued (.lutSwap q pl) [] 0 []) ∧
    (IssuesNow s q pl r 0x25 → vblockCheck q w r = none → queued (.vblock q pl) [] 0 []) ∧
    (IssuesNow s q pl r 0x30 → vreduceCheck q pl w r = none →
      queued (.vreduce q pl) [] (s.indexReg q pl (rdIndexReg r)) (slotRefs [(rdInSlot r, rdIn r), (rdOutSlot r, rdOut r)])) ∧
    (IssuesNow s q pl r 0x31 → vscanCheck q pl w r = none →
      queued (.vscan q pl) [] (s.indexReg q pl (scIndexReg r))
        (slotRefs [(scSlot r 0, scIn0 r), (scSlot r 1 && decide (scFunc r = 3), scIn1 r), (scSlot r 2, scOut r)])) ∧
    (IssuesNow s q pl r 0x40 → smaxCheck q pl w r = none →
      queued (.smax q pl) [] (s.indexReg q pl (smIndexReg r))
        (slotRefs [(smInSlot r, smIn r), (smOutSlot r && decide (smPhase r ≠ 1), smOut r)])) ∧
    (IssuesNow s q pl r 0x41 → rowStatsCheck q pl w r = none →
      queued (.rowStats q pl) [] (s.indexReg q pl (rsIndexReg r)) (slotRefs [(rsInSlot r, rsIn r)])) ∧
    (IssuesNow s q pl r 0x70 → accLoadCheck q pl w r = none →
      queued (.accLoad q pl) [] (s.indexReg q pl (accIndexReg r)) [accSlot r]) ∧
    (IssuesNow s q pl r 0x71 → accStoreCheck q pl w r = none →
      queued (.accStore q pl) [] (s.indexReg q pl (accIndexReg r)) [accSlot r]) ∧
    (IssuesNow s q pl r 0x72 → accCombineCheck q pl w r = none →
      queued (.accCombine q pl) [] (s.indexReg q pl (accIndexReg r)) [accSlot r])

/-- VECTOR_QUEUE_START: the lanes are free; an operation alone in the queue whose interlocks and slots are free runs, and one whose slot
is claimed is held and counted. A running operation is out of the queue, in the lanes, done, with its flags; a LUT_SWAP that need not wait
switches the banks of its quads. -/
def Obligations.QueueHeadStarts : Prop :=
  ∀ (s : State) (q : Nat) (o : Op),
    let free := s.updSq q (fun x => { x with vbusy := none })
    q < 144 →
    ((s.sq q).vqueue = [] → exec (.vectorQueueStart q) s = .next free) ∧
    ((s.sq q).vqueue = [o.id] → (s.sq q).op o.id = some o → (s.sq q).vstopped = false → o.held = false →
      (s.sq q).interlocksOpen o = true → recOpcode o.bits ≠ 0x24 →
      ((s.sq q).slotsFree o = true → exec (.vectorQueueStart q) s = .next (free.runVector q o)) ∧
      ((s.sq q).slotsFree o = false → exec (.vectorQueueStart q) s = .next (free.holdOp q o.id))) ∧
    ((vectorRun s q o).fault = none →
      ((s.runVector q o).sq q).vqueue = ((vectorRun s q o).state.sq q).vqueue.filter (fun i => decide (i ≠ o.id)) ∧
      ((s.runVector q o).sq q).vbusy = some o.id ∧ ((s.runVector q o).sq q).acc = ((vectorRun s q o).state.sq q).acc ∧
      ∀ e ∈ ((s.runVector q o).sq q).inflight, e.id = o.id → e.phase = .done ∧ e.flags = (vectorRun s q o).flags ∧ e.faulted = false) ∧
    ((s.sq q).swapReady o = true →
      ((s.runSwap q o).sq q).lutActive = (s.sq q).lutActive ^^^ (llQuads o.bits % 16) ∧
      ((s.runSwap q o).sq q).lut = (s.sq q).lut ∧
      ((s.runSwap q o).sq q).vqueue = (s.sq q).vqueue.filter (fun i => decide (i ≠ o.id)))

/-- VSET_LENGTH: VL is MaxLength, or with Enable what is left of Total past the index register's strips, at most MaxLength; then the next
record, and POST and SLOT. -/
def Obligations.VsetLengthCompletes : Prop :=
  ∀ (s : State) (q pl : Nat) (r : Rec),
    IssuesNow s q pl r 0x20 → vsetLengthCheck (s.takeWaits q pl r) r = none →
      ∃ u : State, exec (.vsetLength q pl) s = .next ((u.advance q pl 1).postAndSlot q pl r (s.player q pl).pc) ∧
        let m := recBytes r 8 4
        (recBit r 128 = false → (u.player q pl).vl = m) ∧
        (recBit r 128 = true → (u.player q pl).vl = min m (recBytes r 12 4 - s.indexReg q pl (recBits r 129 2) * m)) ∧
        (∀ k, k ≠ pl → u.player q k = (s.taken q pl r).player q k) ∧ (u.sq q).acc = (s.sq q).acc

/-- ACC_LOAD of a constant writes it to every element of the region and to no other; MASK_OP actions 0 and 1 clear a mask register or
set its first min(Arg, VL) positions. Nothing else of the Square changes. ACC_STORE with Clear leaves zeros in its region when no run-time
fault stops it; ACC_COMBINE of one element adds its partials in order: without Include the first alone, a NaN as the canonical NaN. -/
def Obligations.AccumulatorAndMasks : Prop :=
  ∀ (s : State) (q : Nat) (o : Op),
    (accMode o.bits = 0 → accRegionBad o.bits = false →
      (accLoadRun s q o).fault = none ∧ (accLoadRun s q o).flags = 0 ∧
      (∀ n, n < accCount o.bits → ((accLoadRun s q o).state.sq q).accRead (accElem o.bits n) = accConstant o.bits) ∧
      (∀ e, (∀ n, n < accCount o.bits → e ≠ accElem o.bits n) →
        ((accLoadRun s q o).state.sq q).accRead e = (s.sq q).accRead e) ∧
      ((accLoadRun s q o).state.sq q).ls = (s.sq q).ls ∧ (accLoadRun s q o).state.dram = s.dram) ∧
    (moAction o.bits = 0 → (maskOpRun s q o).fault = none ∧
      ((maskOpRun s q o).state.player q o.player).mask (moMask o.bits) = 0) ∧
    (moAction o.bits = 1 → (maskOpRun s q o).fault = none ∧
      (∀ i, i < 65536 → (((maskOpRun s q o).state.player q o.player).mask (moMask o.bits)).getLsbD i =
        decide (i < min (moArg o.bits) o.vl)) ∧
      ((maskOpRun s q o).state.sq q).acc = (s.sq q).acc ∧ ((maskOpRun s q o).state.sq q).ls = (s.sq q).ls ∧
      ∀ k, k ≠ q → (maskOpRun s q o).state.sq k = s.sq k) ∧
    ((accStoreRun s q o).fault = none → accClear o.bits = true → accRegionBad o.bits = false →
      ∀ n, n < accCount o.bits → ((accStoreRun s q o).state.sq q).accRead (accElem o.bits n) = 0) ∧
    (accClear o.bits = false → ((accStoreRun s q o).state.sq q).acc = (s.sq q).acc) ∧
    (∀ a, a < 2 ^ 32 → (combineTerms [a]).1 = if isNan32 a then nan32 else a) ∧
    (∀ a b, isNan32 (add32 a b) = false → (combineTerms [a, b]).1 = add32 a b) ∧
    (∀ xs ys, xs ≠ [] → (combineTerms (xs ++ ys)).1 = (combineTerms ((combineTerms xs).1 :: ys)).1) ∧
    (∀ (p : Nat) (t : Tensor) (n : Nat) (parts : List Nat),
      (List.range (t.size 2)).mapM (fun k => s.localElem q p 0x3B (accDesc o.bits) (t.at (n + k * accCount o.bits)) 32) = .ok parts →
      s.accCombineValue q p o.bits t n =
        .ok (combineTerms ((if recBit o.bits 80 then [(s.sq q).accRead (accElem o.bits n)] else []) ++ parts)))

/-! ### Movers (chapter 06) -/

/-- MOVER_START accepts a chain on a free channel; MOVER_ABORT and MOVER_CANCEL begin the abort (cause 0x01) or the cancellation (cause
0x06) of the channels of their mask that still can stop, and wait for the busy ones. -/
def Obligations.MoverOperations : Prop :=
  ∀ (s : State) (q pl : Nat) (r : Rec),
    let ends := fun (t : State) (to_ : ChPhase) => ∀ ch,
      let c := s.channel (.square q) ch
      (t.channel (.square q) ch).phase = (if ch ∈ s.busyIn q (recBytes r 8 2) ∧ s.stoppable c = true then to_ else c.phase) ∧
        (t.channel (.square q) ch).done = c.done ∧ (t.channel (.square q) ch).status = c.status
    let phase : OpPhase := if (s.busyIn q (recBytes r 8 2)).isEmpty then .done else .waiting
    (IssuesNow s q pl r 0x50 → moverStartCheck q (s.takeWaits q pl r) r = none →
      ∃ t : State, exec (.moverStart q pl) s = .next t ∧ Issued s t q pl r .moverStart .done [] 0 [] ∧
        let c := t.channel (.square q) (msChannel r)
        let i : Int := if msShiftEnable r then (s.indexReg q pl (msIndexReg r) : Int) else 0
        c.phase = .fetched ∧ c.partition = s.partOf q ∧ c.desc = msFirst r ∧ c.srcShift = i * recInt r 16 ∧
        c.dstShift = i * recInt r 20 ∧ c.done = 0 ∧ c.completions = (s.channel (.square q) (msChannel r)).completions ∧
        (∀ ch, ch ≠ msChannel r → t.channel (.square q) ch = s.channel (.square q) ch) ∧ t.dram = s.dram ∧ t.events = s.events ∧
        (t.sq q).acc = (s.sq q).acc ∧ (t.sq q).ls = (s.sq q).ls ∧ ∀ k, k ≠ q → t.sq k = s.sq k) ∧
    (IssuesNow s q pl r 0x51 → recBodyOk r (bytesAt 8 2) = true →
      ∃ t : State, exec (.moverAbort q pl) s = .next t ∧ ends t (.aborting 0x01) ∧
        Issued s t q pl r (.moverAbort (s.busyIn q (recBytes r 8 2))) phase [] 0 [] ∧ t.dram = s.dram ∧ t.events = s.events) ∧
    (IssuesNow s q pl r 0x52 → recBodyOk r (bytesAt 8 2) = true →
      ∃ t : State, exec (.moverCancel q pl) s = .next t ∧ ends t (.cancelling 0x06) ∧
        Issued s t q pl r (.moverCancel (s.busyIn q (recBytes r 8 2))) phase [] 0 [] ∧ t.dram = s.dram ∧ t.events = s.events)

/-- DESCRIPTOR_CURRENT with every check passed, and PACING_MET: the descriptor's transfer begins, or waits for its pacing; one without
elements has been transferred. Nothing else changes but, at a Turn-timer offset, the time, and, of a channel that begins to wait, when its
partition was last active (R118). -/
def Obligations.DescriptorsBegin : Prop :=
  ∀ (s : State) (m : MoverId) (ch : Nat),
    let c := s.channel m ch
    let d := s.mdesc c
    let x := s.part c.partition
    let begun : ChPhase := if (s.channelOp m ch).count = 0 then .written else .active
    let only := fun (t : State) => OtherChannels s t m ch ∧ t.dram = s.dram ∧ t.events = s.events ∧ t.sec = s.sec ∧
      SameBoard s t ∧ t.groups = s.groups ∧ t.fabric = s.fabric ∧ (t.channel m ch).desc = c.desc ∧ (t.channel m ch).done = c.done
    moverHas m ch = true →
    (c.phase = .fetched → firstDescFault (s.mdUses c.partition d c.srcShift c.dstShift) = none → s.versionShort m ch = false →
      s.currentFault m ch = 0 → ∃ t : State, exec (.descriptorCurrent m ch) s = .next t ∧ only t ∧ t.now = s.now ∧
        ((t.channel m ch).phase = if s.paced m ch then begun else .pacing) ∧
        t.parts = if s.paced m ch then s.parts else (s.active c.partition).parts) ∧
    (c.phase = .pacing → mdPaceKind d = 1 → ∃ t : State, exec (.pacingMet m ch) s = .next t ∧ only t ∧ t.parts = s.parts ∧
      t.now = max s.now (x.turnStart x.turn + mdPaceArg d) ∧ (t.channel m ch).phase = begun) ∧
    (c.phase = .pacing → mdPaceKind d ≠ 1 → s.paced m ch = true → ∃ t : State, exec (.pacingMet m ch) s = .next t ∧ only t ∧ t.parts = s.parts ∧
      t.now = s.now ∧ (t.channel m ch).phase = begun)

/-- The end of a descriptor, of an abort and of a cancellation: the completion is counted, and the next descriptor is fetched or the
status record is written with its residue; a report carries the channel's last status record. -/
def Obligations.DescriptorsEnd : Prop :=
  ∀ (s : State) (m : MoverId) (ch : Nat),
    let c := s.channel m ch
    let d := s.mdesc c
    let left := s.mdTotal c.partition d - (c.done - c.unsent)
    let told := fun (t : State) (detail : Nat) (st : MoverStatus) =>
      t.events = withEvent s.events ⟨s.now, 0x30, detail, some c.partition, moverLoc m ch c.desc, (st.bytes false).map (·.toNat)⟩
    let ended := fun (t : State) (state cause residue : Nat) =>
      let e := t.channel m ch
      e.phase = .idle ∧ e.status.state = state ∧ e.status.cause = cause ∧ e.status.descriptor = c.desc ∧ e.status.channel = ch ∧
        e.status.partition = c.partition ∧ e.status.residue = residue ∧ e.status.endTime = s.now
    moverHas m ch = true →
    (c.phase = .written → (mdBarrier d = true → s.answered m ch = true) →
      ∃ t : State, exec (.descriptorComplete m ch) s = .next t ∧ (t.channel m ch).completions = c.completions + 1 ∧
        (mdSlotEnable d = false → mdPostEnable d = false →
          (mdNext d = mdEnd → ended t 1 0 0) ∧
          (mdNext d ≠ mdEnd → (t.channel m ch).phase = .fetched ∧ (t.channel m ch).desc = mdNext d ∧ (t.channel m ch).done = 0) ∧
          (mdReport d = true → told t 0x2F c.status) ∧ (mdReport d = false → t.events = s.events) ∧ t.dram = s.dram)) ∧
    (∀ cause, c.phase = .aborting cause → s.answered m ch = true →
      ∃ t : State, exec (.moverAbortEnd m ch) s = .next t ∧ ended t 2 cause left ∧ t.dram = s.dram ∧
        (mdSlotEnable d = false → told t 0x28 (t.channel m ch).status)) ∧
    (∀ cause, c.phase = .cancelling cause → s.answered m ch = true →
      ∃ t : State, exec (.moverCancelEnd m ch) s = .next t ∧ ended t 3 cause left ∧ t.dram = s.dram ∧ told t 0x29 (t.channel m ch).status)

/-- MOVER_BURST completes on every channel of the module. A channel that is not active, or that waits for a token, stands; a service channel
places or delivers its next record; any other passes over entries without moves, faults at one that cannot be walked, or, with its tokens
charged, makes the burst of its placement. A burst between local places makes the next run of moves and moves the walk on by their number;
a copy whose last element is written has been transferred.
TRANSFER_REPEAT completes on every channel: without a repeat to end or to start it stands; acknowledged, the repeat's posts are made
once; then the transfer ends with its last repeat, or waits until its semaphores allow the next, takes 1 from each and starts the chain; a
semaphore that the transfer's entry does not own, or that another waits on, ends the transfer and freezes the partition. -/
def Obligations.BurstsAndRepeats : Prop :=
  (∀ (s : State) (m : MoverId) (ch : Nat),
      let c := s.channel m ch
      let runs := c.phase = .active ∧ s.tokenWaits m ch = false
      moverHas m ch = true →
      (c.phase ≠ .active ∨ s.tokenWaits m ch = true → exec (.moverBurst m ch) s = .next s) ∧
      (runs → m = .host → ch % 2 = 1 → exec (.moverBurst m ch) s = .next (s.serviceBurst (hostPart ch))) ∧
      (runs → m ≠ .host ∨ ch % 2 = 0 → let y := s.advanceWalk m ch 0 c.codes
        (∀ f, y.2 = some f → exec (.moverBurst m ch) s = .next (y.1.moverFault m ch f 0x03)) ∧
        (y.2 = none → (y.1.channel m ch).phase ≠ .active → exec (.moverBurst m ch) s = .next y.1) ∧
        (y.2 = none → (y.1.channel m ch).phase = .active → (y.1.restMoves m ch).isEmpty = true →
          exec (.moverBurst m ch) s = .next (y.1.stopFault m ch)) ∧
        (y.2 = none → (y.1.channel m ch).phase = .active → (y.1.restMoves m ch).isEmpty = false →
          let z := if (y.1.channel m ch).paid then y.1
            else y.1.chargeAll (y.1.channel m ch).partition (some (m, ch)) (y.1.burstCharges m ch)
          (z.tokenWaits m ch = true → exec (.moverBurst m ch) s = .next (z.updChannel m ch (fun k => { k with paid := true }))) ∧
          (z.tokenWaits m ch = false → exec (.moverBurst m ch) s = .next (match m, z.farSide m ch with
            | .host, 2 => z.hostInBurst ch
            | .host, _ => z.hostOutBurst ch
            | .link l, 2 => z.readBurst l ch
            | .link l, _ => z.trainBurst l ch
            | .square _, _ => z.localBurst m ch)))) ∧
      (let ms := s.nextMoves m ch
       let x := s.runMoves c.partition (s.channelOp m ch) (fun i _ => (s.burstCodes m ch ms).getD i 0) ms
       x.2.1 = none → mdKind (x.1.mdesc (x.1.channel m ch)) = 0 →
         let t := s.localBurst m ch
         let e := t.channel m ch
         e.done = (x.1.channel m ch).done + x.2.2 ∧ (e.phase = if e.done = (x.1.channelOp m ch).count then .written
           else (x.1.channel m ch).phase) ∧ OtherChannels x.1 t m ch ∧ t.dram = x.1.dram ∧ t.parts = (x.1.active (x.1.channel m ch).partition).parts ∧
         t.events = x.1.events ∧ ∀ q, (t.sq q).ls = (x.1.sq q).ls)) ∧
  (∀ (s : State) (m : MoverId) (ch : Nat),
      let c := s.channel m ch
      let r := s.transferOf c
      let q := rd r 0x10 1
      let ws := transferSems r false
      let owned := ∀ w ∈ ws, (s.entry q w.1).owns w.2 = true
      let mine := ∀ w ∈ ws, ∀ x, (s.entry q w.1).waiter w.2 = some x → x = .mover m ch
      moverHas m ch = true →
      (c.transfer = none ∨ c.busy = true → exec (.transferRepeat m ch) s = .next s) ∧
      (c.transfer.isSome = true → c.busy = false →
        (c.posted = false → s.acknowledged m ch = false → exec (.transferRepeat m ch) s = .next s) ∧
        (c.posted = false → s.acknowledged m ch = true → exec (.transferRepeat m ch) s =
          .next (((transferSems r true).foldl (fun t w => t.post q w.1 w.2 1)
            (s.updChannel m ch (fun y => { y with posted := true }))).nextRepeat m ch)) ∧
        (c.posted = true → rd r 0x14 2 ≤ c.repeatNo →
          exec (.transferRepeat m ch) s = .next (s.updChannel m ch (fun y => { y with transfer := none }))) ∧
        (c.posted = true → c.repeatNo < rd r 0x14 2 →
          (s.mayIssue c.partition = false → exec (.transferRepeat m ch) s = .next s) ∧
          (s.mayIssue c.partition = true → owned → mine →
            ((∀ w ∈ ws, 1 ≤ (s.entry q w.1).sem w.2) → ∃ t : State, exec (.transferRepeat m ch) s = .next t ∧
              (t.channel m ch).phase = .fetched ∧ (t.channel m ch).desc = rd r 8 4 ∧ (t.channel m ch).repeatNo = c.repeatNo ∧
              (t.channel m ch).posted = true ∧ (t.channel m ch).transfer = c.transfer ∧ (t.channel m ch).partition = c.partition ∧
              OtherChannels s t m ch ∧ (∀ w ∈ ws, (t.entry q w.1).sem w.2 = (s.entry q w.1).sem w.2 - 1) ∧
              (∀ e sem, (e, sem) ∉ ws → (t.entry q e).sem sem = (s.entry q e).sem sem) ∧ t.parts = s.parts ∧ t.dram = s.dram ∧
              t.events = s.events) ∧
            ((∃ w ∈ ws, (s.entry q w.1).sem w.2 = 0) → ∃ t : State, exec (.transferRepeat m ch) s = .next t ∧
              (∀ n k, t.channel n k = s.channel n k) ∧ (∀ e sem, (t.entry q e).sem sem = (s.entry q e).sem sem) ∧
              (∀ w ∈ ws, (t.entry q w.1).waiter w.2 = some (.mover m ch)) ∧ t.parts = s.parts ∧ t.dram = s.dram ∧ t.events = s.events)) ∧
          (∀ detail, s.mayIssue c.partition = true → (¬owned ∧ detail = 0x03) ∨ (owned ∧ ¬mine ∧ detail = 0x05) →
            ∃ t : State, exec (.transferRepeat m ch) s = .next t ∧ (t.channel m ch).transfer = none ∧
              (t.part c.partition).frozen = true ∧ t.dram = s.dram ∧ ∃ w ∈ ws,
                t.events = withEvent s.events ⟨s.now, 0x30, detail, some c.partition, [(.square, q), (.entry, w.1)], []⟩))))

/-! ### The Board fabric (chapter 05) -/

/-- A post, a reset and its acknowledgement, each once it is the next of its route (R26), reach the Square of their partition; one that
reaches another is discarded and counted. -/
def Obligations.FabricMessages : Prop :=
  ∀ (s : State) (src q e n epoch fromQ fromE : Nat) (sem : Bool),
    let x := s.entry q e
    let post := FabricMsg.post src q e sem n epoch fromQ
    let reset := FabricMsg.reset src q e epoch fromQ fromE
    let ack := FabricMsg.resetAck src q e epoch fromQ
    let only := fun (t : State) => (∀ k, k ≠ e → t.entry q k = s.entry q k) ∧ (∀ k, k ≠ q → t.sq k = s.sq k) ∧ OtherParts s t src ∧
      t.dram = s.dram ∧ t.events = s.events ∧ SameLinks s t ∧ SameBoard s t
    q < 144 → e < 128 →
    (s.arrives post = true → s.owner q = some src → x.owns sem = true →
      (x.epoch = epoch → x.sem sem + n ≤ x.depth → ∃ t : State, exec (.semaphorePostMessage post) s = .next t ∧
        t.fabric = s.fabric.erase post ∧ (t.entry q e).sem sem = x.sem sem + n ∧ only t) ∧
      (x.epoch ≠ epoch → ∃ t : State, exec (.semaphorePostMessage post) s = .next t ∧ t.fabric = s.fabric.erase post ∧
        (t.part src).stalePosts = satAdd (s.part src).stalePosts 1 ∧ t.squares = s.squares ∧ only t)) ∧
    (s.arrives post = true → s.owner q ≠ some src → ∃ t : State, exec (.semaphorePostMessage post) s = .next t ∧
      t.fabric = s.fabric.erase post ∧ t.squares = s.squares ∧ t.parts = s.parts ∧
      t.events = withEvent s.events ⟨s.now, 0x31, 0x06, some src, [(.square, q)], []⟩ ∧
      Tab.get 0 t.counters 1 = satAdd (Tab.get 0 s.counters 1) 1) ∧
    (s.arrives reset = true → s.owner q = some src → x.isProducer = true →
      ∃ t : State, exec (.linkResetMessage reset) s = .next t ∧ t.fabric = s.fabric.erase reset ++ [.resetAck src fromQ fromE epoch q] ∧
        (t.entry q e).epoch = epoch % 16 ∧ (t.entry q e).empty = x.depth ∧ (t.entry q e).full = x.full ∧ only t) ∧
    (s.arrives ack = true → s.owner q = some src → x.isConsumer = true → ∀ o, (s.sq q).cancelOp e .working = some o →
      ∃ t : State, exec (.linkResetAcknowledged ack) s = .next t ∧ t.fabric = s.fabric.erase ack ∧ only t ∧
        (t.sq q).inflight = (s.sq q).inflight.map (fun y => if y.id = o.id then { y with phase := .done } else y)) ∧
    (∀ o, (s.sq q).cancelOp e .waiting = some o → (∀ ch ∈ o.kind.channels, s.isCancelling q ch = false) →
      ∃ t : State, exec (.linkCancelChannelsReported q e) s = .next t ∧ (t.entry q e).full = 0 ∧
        (x.isLocal = true → (t.entry q e).empty = x.depth ∧ t.fabric = s.fabric ∧ only t) ∧
        (x.isLocal = false → x.peerSeat = (s.part (s.partOf q)).seat →
          t.fabric = s.fabric ++ [.reset (s.partOf q) x.peerSquare x.peerEntry x.epoch q e] ∧ only t))

/-! ### Turns and Tables (chapter 03) -/

/-- TURN_BOUNDARY, TABLE_START_INSTANT and TABLE_RESUME: the Turn begins at its instant, or the Hold that targets it takes effect; Turn 0
has the start instant as epoch, and no seat whose Table has not formed begins it (R62); the resume instant is the new epoch and the held
Turn goes on. -/
def Obligations.TurnsBegin : Prop :=
  ∀ (s : State) (p : Nat),
    let x := s.part p
    p < 16 →
    (x.runState = .running ∨ x.runState = .draining →
      ∃ t : State, exec (.turnBoundary p) s = .next t ∧ t.now = max s.now (x.turnStart (x.turn + 1)) ∧
        (∀ k, x.holdTarget = some k → k ≤ x.turn + 1 → (t.part p).runState = .held ∧ (t.part p).heldAt = some (x.turn + 1) ∧
          (t.part p).heldSince = t.now ∧ (t.part p).holdTarget = none ∧ (t.part p).turn = x.turn) ∧
        ((∀ k, x.holdTarget = some k → x.turn + 1 < k) → (t.part p).turn = x.turn + 1 ∧ (t.part p).heldAt = none)) ∧
    (∀ st, x.start = some st → x.runState = .armed → x.formed = true → x.holdTarget = none →
      ∃ t : State, exec (.tableStartInstant p) s = .next t ∧ (t.part p).epoch = wholeUs (st.1 + x.bound) ∧ (t.part p).turn = 0 ∧
        (t.part p).epochTurn = 0 ∧ (t.part p).start = none ∧ (t.part p).runs = [] ∧
        t.now = max s.now (wholeUs (st.1 + x.bound))) ∧
    (x.formed = false → exec (.tableStartInstant p) s = .next s) ∧
    (∀ h r, x.heldAt = some h → x.resumeAt = some r → x.runState = .held → x.holdTarget = none →
      ∃ t : State, exec (.tableResume p) s = .next t ∧ (t.part p).epoch = r ∧ (t.part p).epochTurn = h ∧ (t.part p).turn = h ∧
        (t.part p).heldAt = none ∧ (t.part p).resumeAt = none ∧ t.now = max s.now r ∧ (t.part p).turnLengthSet = 0 ∧
        (t.part p).turnLength = if x.turnLengthSet = 0 then x.turnLength else x.turnLengthSet - 1)

/-- LATE_WORK_END: the segments that waited run in order; with none left every late Square is marked and the seat's Hold ends.
OVERRUN_TIMEOUT: 100 ms after the Hold took effect the partition is FAULTED, with event 0x10 detail 0x04. TIME_SOURCE_LOST and
TIME_SOURCE_RESTORED. STALEMATE_TIMEOUT: a running partition in which every started Player waits and nothing works freezes. -/
def Obligations.LateWorkAndTime : Prop :=
  ∀ (s : State) (p : Nat),
    let x := s.part p
    (p < 16 → x.late ≠ [] → s.workEnded p = true →
      (∀ n r, x.deferred = n :: r →
        exec (.lateWorkEnd p) s = .next ((s.updPart p (fun y => { y with deferred := r })).runTurn p n)) ∧
      (x.deferred = [] → ∃ t : State, exec (.lateWorkEnd p) s = .next t ∧ (t.part p).late = [] ∧ t.now = s.now ∧
        (∀ q, q ∈ x.late → q < 144 → (t.sq q).overran = true) ∧ (∀ q, q ∉ x.late → t.sq q = s.sq q) ∧
        (t.part p).ownHold = x.ownHold.filter (fun c => decide (c ≠ 7)) ∧ OtherParts s t p ∧ t.dram = s.dram)) ∧
    (p < 16 → x.late ≠ [] → x.runState = .held → s.workEnded p = false →
      ∃ t : State, exec (.overrunTimeout p) s = .next t ∧ (t.part p).runState = .faulted ∧ (t.part p).late = [] ∧
        t.now = max s.now (x.heldSince + 100000000) ∧ OtherParts s t p ∧ t.dram.cells = s.dram.cells ∧ SameBoard s t ∧
        t.events = withEvent s.events ⟨t.now, 0x10, 0x04, some p, [(.seat, x.seat)], []⟩) ∧
    (∃ t : State, exec .timeSourceLost s = .next t ∧ t.holdover = true ∧ t.parts = s.parts ∧ t.links = s.links ∧ t.squares = s.squares ∧
      t.dram = s.dram ∧ (s.holdover = true → t = s) ∧
      (s.holdover = false → t.events = withEvent s.events ⟨s.now, 0x10, 0x03, none, [], []⟩)) ∧
    exec .timeSourceRestored s = .next { s with holdover := false } ∧
    (p < 16 → x.runState = .running → x.frozen = false → s.stalemate p = true →
      ∃ t : State, exec (.stalemateTimeout p) s = .next t ∧ (t.part p).frozen = true ∧ (t.part p).runState = .running ∧
        t.now = max s.now (x.lastActivity + 1000 * x.stalemateTimeout) ∧
        t.events = withEvent s.events ⟨t.now, 0x20, Config.openDetail 0x20, some p, [], []⟩ ∧ OtherParts s t p ∧ t.dram = s.dram)

/-- Table messages at the seat of their Table that it does not know yet are taken from the link and judged: Join, Start, Hold, Release,
Length. One that it knows, and one of a Table with no seat here but a Join, has no further effect; a Join that the seat knows is still held
to the check of the link that brings it. Of the copies of a Turn mark the first of a link counts: with the right number in its window it ends
the link's alignment fault, and the seat's Hold once no link fails; a wrong number, or the third in turn outside the window, requests a Hold
with cause 0x08. -/
def Obligations.TableMessages : Prop :=
  ∀ (s t : State) (l p : Nat) (m : TableMsg),
    let x := t.part p
    let keeps := fun (u : State) => OtherParts s u p ∧ u.squares = s.squares ∧ u.dram = s.dram ∧ SameBoard s u ∧ u.now = s.now
    l < 96 →
    (s.takeTable l 4 = some (t, m) →
      (t.partOfTable m.tableId = none → ∃ u : State, exec (.joinReceived l) s = .next u ∧ u.earlyJoins = s.earlyJoins ++ [(l, m)] ∧
        u.parts = s.parts) ∧
      (t.partOfTable m.tableId = some p → x.knowsOn l m = true → exec (.joinReceived l) s = .next t) ∧
      (t.partOfTable m.tableId = some p → x.knowsOn l m = false → (x.knows m && !x.noEcho m) = true → ∃ u : State,
        exec (.joinReceived l) s = .next u ∧ keeps u ∧ (u.part p).joined = x.joined ∧
        (m.seat = x.seat ∨ t.joinOk p l m = true → (u.part p).joinFault = x.joinFault ∧ u.events = s.events) ∧
        (m.seat ≠ x.seat → t.joinOk p l m = false → (u.part p).joinFault = m.seat ∧
          u.events = withEvent s.events ⟨s.now, 0x11, 0x0F, some p, [(.seat, m.seat)], []⟩)) ∧
      (t.partOfTable m.tableId = some p → x.knowsOn l m = false → (x.knows m && !x.noEcho m) = false → ∃ u : State, exec (.joinReceived l) s = .next u ∧
        keeps u ∧
        (t.joinOk p l m = true → (u.part p).tableProtocol = min x.tableProtocol (fld m.arg 0 8) ∧
          (u.part p).joined = x.joined ++ [{ seat := m.seat, protocol := fld m.arg 0 8, root := bit m.arg 16 }]) ∧
        (t.joinOk p l m = false → (u.part p).joined = x.joined ∧ (u.part p).joinFault = m.seat ∧
          u.events = withEvent s.events ⟨s.now, 0x11, 0x0F, some p, [(.seat, m.seat)], []⟩))) ∧
    (s.takeTable l 5 = some (t, m) → t.partOfTable m.tableId = some p →
      (x.knows m = true → exec (.startReceived l) s = .next t) ∧
      (x.knows m = false → ∃ u : State, exec (.startReceived l) s = .next u ∧ keeps u ∧
        (x.start = none → (u.part p).start = some (m.stamp, m.seat)) ∧
        (∀ b, x.start = some b →
          (u.part p).start = some (if m.stamp < b.1 ∨ (m.stamp = b.1 ∧ m.seat < b.2) then (m.stamp, m.seat) else b)))) ∧
    (s.takeTable l 1 = some (t, m) → t.partOfTable m.tableId = some p →
      (x.knows m = true → exec (.holdReceived l) s = .next t) ∧
      (x.knows m = false → ∃ u : State, exec (.holdReceived l) s = .next u ∧ keeps u ∧ (u.part p).holds m.seat = true ∧
        (∀ k, x.holds k = true → (u.part p).holds k = true) ∧
        (x.heldAt = none → x.runState = .running → (u.part p).runState = .draining ∧ (u.part p).resumeAt = none ∧
          (x.holdTarget = none → (u.part p).holdTarget = some (wideTurn x.turn m.arg))))) ∧
    (s.takeTable l 2 = some (t, m) → t.partOfTable m.tableId = some p →
      (x.knows m = true → exec (.releaseReceived l) s = .next t) ∧
      (x.knows m = false → ∃ u : State, exec (.releaseReceived l) s = .next u ∧ keeps u ∧
        (u.part p).holders = x.holders.filter (fun k => decide (k ≠ m.seat)) ∧
        (u.part p).lastRelease = max x.lastRelease m.stamp ∧
        ((u.part p).holders = [] → ∀ h, x.heldAt = some h →
          (x.resumeAt = none ∨ x.holdTarget = none → (u.part p).resumeAt = some (wholeUs (max x.lastRelease m.stamp + x.bound))) ∧
          (∀ b k, x.resumeAt = some b → x.holdTarget = some k → (u.part p).resumeAt = some b ∧ (u.part p).holdTarget =
            if wholeUs (max x.lastRelease m.stamp + x.bound) ≤ b + (k - h) * x.lengthNs then none else some k)))) ∧
    (s.takeTable l 6 = some (t, m) → t.partOfTable m.tableId = some p →
      (x.tableProtocol < 2 → exec (.lengthReceived l) s = .next (t.count 2)) ∧
      (2 ≤ x.tableProtocol → x.knows m = true → exec (.lengthReceived l) s = .next t) ∧
      (2 ≤ x.tableProtocol → x.knows m = false → ∃ u : State, exec (.lengthReceived l) s = .next u ∧ keeps u ∧
        Tab.get 0 (u.part p).lengths m.seat = fld m.arg 0 16)) ∧
    (s.takeTable l 3 = some (t, m) → t.partOfTable m.tableId = some p →
      (x.knowsOn l m = true ∨ (x.runState ≠ .running ∧ x.runState ≠ .draining) → exec (.turnMarkReceived l) s = .next t) ∧
      (x.knowsOn l m = false → x.runState = .running ∨ x.runState = .draining → let late := Tab.get 0 x.lateMarks l
      let good := ({ x with lateMarks := Tab.put x.lateMarks l 0 } : Partition).aligned
      ∃ u : State, exec (.turnMarkReceived l) s = .next u ∧ keeps u ∧ (u.part p).turn = x.turn ∧ (u.part p).knowsOn l m = true ∧
        (m.arg = x.turn % 2 ^ 32 → t.markInTime p l = true → Tab.get 0 (u.part p).lateMarks l = 0 ∧
          (good = true → 8 ∉ (u.part p).ownHold) ∧ (good = false → (u.part p).ownHold = x.ownHold ∧ u.events = s.events)) ∧
        (m.arg = x.turn % 2 ^ 32 → t.markInTime p l = false → Tab.get 0 (u.part p).lateMarks l = late + 1 ∧
          (2 ≤ late → 8 ∈ (u.part p).ownHold) ∧ (late < 2 → (u.part p).ownHold = x.ownHold ∧ u.events = s.events)) ∧
        (m.arg ≠ x.turn % 2 ^ 32 → Tab.get 0 (u.part p).lateMarks l = 3 ∧ 8 ∈ (u.part p).ownHold)))

/-! ### Run commands (R421) and the step (chapter 11) -/

/-- The run commands in the states that take them: what each leaves of the partition, and its answer. -/
def Obligations.RunCommands : Prop :=
  ∀ (s t : State) (r : Req),
    let p := reqPart r
    let x := t.part p
    let keeps := fun (u : State) => OtherParts t u p ∧ u.dram = t.dram ∧ u.power = t.power ∧ u.service = t.service ∧ u.now = t.now
    let parked := fun (u : State) => ∀ q n, t.owner q = some p → q < 144 → (u.player q n).running = false ∧ (u.sq q).inflight = []
    Received s r t →
    (isRunCommand r 1 = true → x.placing = false → (x.runState = .empty ∨ x.runState = .stopped ∨ x.runState = .faulted) →
      x.placedBytes ≠ 0 → let f := loadFaultOf (t.service.maxima.getD 5 2) x.image x.squares
      ∃ u : State, exec (.load r) s = .next (u.reply r (if f = 0 then 0 else abRange)) ∧ keeps u ∧ parked u ∧
        (u.part p).loadFault = f ∧ (u.part p).bookMeasurement = Config.sha384 x.image ∧ (u.part p).image = x.image ∧
        (f ≠ 0 → (u.part p).runState = .empty ∧ (u.part p).book = []) ∧
        (f = 0 → (u.part p).runState = .loaded ∧ (u.part p).book = x.image ∧ (u.part p).tableId = bookTableId x.image ∧
          (u.part p).seat = bookSeat x.image ∧ (u.part p).stepCounter = 0 ∧ (u.part p).batchCounter = 0)) ∧
    (isRunCommand r 2 = true → t.service.selfTest ≠ 1 → x.runState = .loaded → t.power.state = .active → x.delivering = false → x.bounceReady x.book = true →
      t.armFault p = none →
      ∃ u : State, exec (.arm r) s = .next (u.reply r 0) ∧ u = t.arm p ∧ u.dram = t.dram ∧ (u.part p).runState = .armed ∧
        (u.part p).frozen = false ∧ (u.part p).turn = 0 ∧ (u.part p).errorLatch = false ∧ (u.part p).book = x.book) ∧
    (isRunCommand r 3 = true → x.mayRun = true → x.delivering = false → ∃ u : State, exec (.run r) s = .next u ∧ keeps u ∧ (u.part p).runs = x.runs ++ [r] ∧
      u.responses = t.responses ∧ (u.part p).runState = .armed ∧ (x.start = none → (u.part p).start = some (t.now, x.seat))) ∧
    (isRunCommand r 4 = true → x.tabled = true → 6 ∉ x.ownHold → ∃ u : State, exec (.hold r) s = .next (u.reply r 0) ∧ keeps u ∧
      (u.part p).ownHold = x.ownHold ++ [6] ∧ (u.part p).holds x.seat = true ∧
      (x.runState = .running → x.heldAt = none → (u.part p).runState = .draining)) ∧
    (isRunCommand r 5 = true → (x.runState = .draining ∨ x.runState = .held) → 6 ∈ x.ownHold →
      ∃ u : State, exec (.release r) s = .next (u.reply r 0) ∧ keeps u ∧
        (u.part p).ownHold = x.ownHold.filter (fun c => decide (c ≠ 6)) ∧
        ((u.part p).ownHold = [] → (u.part p).holds x.seat = false)) ∧
    (isRunCommand r 6 = true → (x.runState = .armed ∨ x.runState = .held) → ∃ u : State, exec (.stop r) s = .next (u.reply r 0) ∧
      keeps u ∧ parked u ∧ (u.part p).runState = .stopped ∧ (u.part p).holders = [] ∧ (u.part p).pageMap = x.pageMap ∧
      (u.part p).book = x.book) ∧
    (isRunCommand r 7 = true → (x.runState = .loaded ∨ x.runState = .stopped ∨ x.runState = .faulted) →
      ∃ u : State, exec (.unload r) s = .next (u.reply r 0) ∧ keeps u ∧ parked u ∧ (u.part p).runState = .empty ∧
        (u.part p).book = [] ∧ (u.part p).image = [] ∧ (u.part p).placedBytes = 0 ∧ (u.part p).pageMap = x.pageMap)

/-- The boundary that begins a step (R271): +0 in the gate word of every Square of SquareMask and nowhere else, the error latch clear, no
Player started. An uncorrectable error in a Square's store, or in a sector that the partition reads or writes a part of, sets the latch until the vote is
formed, and no such error sets it after that. -/
def Obligations.StepBegins : Prop :=
  ∀ (s : State) (p n gi : Nat) (g : List Byte),
    let x := s.part p
    let t := s.planEnter p n g gi
    (x.planIndex n = 0 → x.gateStuck = false →
      (∀ q, q ∈ bookSquares x.book → ∀ i, i < 4 → (t.sq q).lsByte (gateWord g + i) = 0) ∧
      (∀ q a, q ∉ bookSquares x.book ∨ a < gateWord g ∨ gateWord g + 4 ≤ a → (t.sq q).lsByte a = (s.sq q).lsByte a) ∧
      (∀ q k, t.player q k = s.player q k) ∧ (t.part p).errorLatch = false ∧ (t.part p).vote = none ∧ (t.part p).inStep = true ∧
      (t.part p).restoreNeeded = x.restoreNeeded ∧ (t.part p).stepCounter = x.stepCounter ∧ OtherParts s t p ∧ t.dram = s.dram ∧
      t.events = s.events) ∧
    (x.vote = none → (∀ q, s.owner q = some p → ((s.storeError q 2).part p).errorLatch = true) ∧
      (∀ pa, p < 16 → 2 ≤ s.outcome p pa → ((s.readEffects p pa (some p) true).part p).errorLatch = true) ∧
      ∀ pa ws, p < 16 → 2 ≤ s.outcome p (pa / 64 * 64) → (∃ i, i < 64 ∧ ∀ w ∈ ws, w.1 ≠ i) →
        ((s.writeBytes p pa (some p) ws).part p).errorLatch = true) ∧
    (x.vote ≠ none → (∀ q, s.owner q = some p → ((s.storeError q 2).part p).errorLatch = x.errorLatch) ∧
      ∀ pa, p < 16 → 2 ≤ s.outcome p pa → ((s.readEffects p pa (some p) true).part p).errorLatch = x.errorLatch)

/-- The writes of the step objects: the counters in LOADED, STOPPED and HELD; GateStuck and RestoreNeeded take 0 while HELD. In every other
state the write is refused with 0x0505_0001 and has no effect. -/
def Obligations.StepWrites : Prop :=
  ∀ (s t : State) (r : Req),
    let p := reqPart r
    let x := t.part p
    let keeps := fun (u : State) => OtherParts t u p ∧ SameCore { t with parts := u.parts } u
    Received s r t →
    (x.runState = .loaded ∨ x.runState = .stopped ∨ x.runState = .held →
      (reqNames6 r 0x20 1 = true → ∃ u : State, exec (.stepCounterWrite r) s = .next (u.reply r 0) ∧ keeps u ∧
        u.part p = { x with stepCounter := reqValue r }) ∧
      (reqNames6 r 0x20 2 = true → ∃ u : State, exec (.stepCounterWrite r) s = .next (u.reply r 0) ∧ keeps u ∧
        (u.part p).batchCounter = reqValue r ∧ (u.part p).stepCounter = x.stepCounter ∧
        u = (t.updPart p (fun y => { y with batchCounter := reqValue r })).applyAdvances p)) ∧
    (reqNames6 r 0x20 5 = true → reqValue r = 0 → x.runState = .held →
      ∃ u : State, exec (.gateStuckWrite r) s = .next (u.reply r 0) ∧ keeps u ∧ u.part p = { x with gateStuck := false }) ∧
    (reqNames6 r 0x20 6 = true → reqValue r = 0 → x.runState = .held →
      ∃ u : State, exec (.restoreNeededWrite r) s = .next (u.reply r 0) ∧ keeps u ∧ u.part p = { x with restoreNeeded := false }) ∧
    (¬(x.runState = .loaded ∨ x.runState = .stopped ∨ x.runState = .held) → reqNames6 r 0x20 1 = true ∨ reqNames6 r 0x20 2 = true →
      exec (.stepCounterWrite r) s = .next (t.reply r 0x05050001)) ∧
    (x.runState ≠ .held → reqValue r = 0 →
      (reqNames6 r 0x20 5 = true → exec (.gateStuckWrite r) s = .next (t.reply r 0x05050001)) ∧
      (reqNames6 r 0x20 6 = true → exec (.restoreNeededWrite r) s = .next (t.reply r 0x05050001)))

/-- GATE_VOTE, GATE_VOTE_RECEIVED, GATE_DECISION_RECEIVED: the seat's vote is formed from its gate words and latches, a child's vote is
counted, the parent's decision is recorded; a message with a reserved field set is discarded and counted. -/
def Obligations.GateMessages : Prop :=
  ∀ (s t : State) (p l : Nat) (g : List Byte) (m : GateMsg),
    let x := s.part p
    p < 16 →
    (gateRecord x.book = some g → x.gateTurn = true → x.vote = none → x.tabled = true →
      ∃ u : State, exec (.gateVote p) s = .next u ∧ (u.part p).vote = some (s.ownVote p g) ∧ OtherParts s u p ∧ u.squares = s.squares ∧
        u.now = max s.now (x.turnStart (x.workTurn.getD 0) + gateOffset g) ∧ u.dram = s.dram ∧
        (gateParent g = x.seat → gateChildren g = [] → x.voteSent = false → x.childVotes = [] →
          (u.part p).decision = some (gateMsgOf (s.ownVote p g) 2) ∧ (u.part p).lastGate = gateMsgOf (s.ownVote p g) 2)) ∧
    (s.takeGate p 1 = some (t, l, m) →
      (gateMsgOk m = false → exec (.gateVoteReceived p) s = .next (t.count 3)) ∧
      (gateMsgOk m = true → gateRecord (t.part p).book = some g → x.childVotes.length < (gateChildren g).length →
        ∃ u : State, exec (.gateVoteReceived p) s = .next u ∧ (u.part p).childVotes = x.childVotes ++ [(l, gateVoteOf m)] ∧
          (u.part p).vote = x.vote ∧ OtherParts s u p ∧ u.squares = s.squares ∧ u.dram = s.dram)) ∧
    (s.takeGate p 2 = some (t, l, m) →
      (gateMsgOk m = false → exec (.gateDecisionReceived p) s = .next (t.count 3)) ∧
      (gateMsgOk m = true → gateRecord (t.part p).book = some g → gateParent g ≠ x.seat → (t.part p).gateTurn = true →
        x.decision = none → ∃ u : State, exec (.gateDecisionReceived p) s = .next u ∧ (u.part p).decision = some m ∧
          (u.part p).lastGate = m ∧ (u.part p).stepCounter = x.stepCounter ∧ OtherParts s u p ∧ u.squares = s.squares))

/-- The gate: an opening counts the step and the batch and clears the closures in a row; a closure counts neither but itself, and the
batch only where it abandons it. -/
def Obligations.GateDecides : Prop :=
  ∀ (s : State) (p : Nat) (g : List Byte) (m : GateMsg),
    let x := s.part p
    let y := (s.applyGate p g).part p
    let v := gateVoteOf m
    x.decision = some m → y.decision = none ∧ y.stepOpen = v.opens ∧ OtherParts s (s.applyGate p g) p ∧
      (v.opens = true → y.stepCounter = (x.stepCounter + 1) % 2 ^ 64 ∧ y.batchCounter = (x.batchCounter + 1) % 2 ^ 64 ∧
        y.consecutiveClosures = 0 ∧ y.closedSteps = x.closedSteps ∧ y.gateStuck = x.gateStuck) ∧
      (v.opens = false → y.stepCounter = x.stepCounter ∧ y.consecutiveClosures = min (x.consecutiveClosures + 1) 65535 ∧
        y.closedSteps = satAdd x.closedSteps 1 ∧
        (gateMaxClosures g ≤ min (x.consecutiveClosures + 1) 65535 → y.gateStuck = true) ∧
        (v.hwFault = true ∨ v.stepMin ≠ v.stepMax ∨ gateClosedAction g ≠ 0 → y.batchCounter = x.batchCounter) ∧
        (v.nonFinite = true → v.hwFault = false → v.stepMin = v.stepMax → gateClosedAction g = 0 →
          y.batchCounter = (x.batchCounter + 1) % 2 ^ 64 ∧ y.abandonedSteps = satAdd x.abandonedSteps 1))

/-- Votes combine in any order, and the combined vote opens the gate exactly where every vote is without a fault and all step counters
agree. -/
def Obligations.VotesCombine : Prop :=
  ∀ a b c : GateVote, a.combine b = b.combine a ∧ (a.combine b).combine c = a.combine (b.combine c) ∧
    (a.stepMin ≤ a.stepMax → b.stepMin ≤ b.stepMax →
      ((a.combine b).opens = true ↔ a.opens = true ∧ b.opens = true ∧ a.stepMin = b.stepMin))

/-- A gate message carries every field of a vote or decision, at every value of their widths, and no bit beside them. -/
def Obligations.GateMessageCarries : Prop :=
  ∀ (v : GateVote) (kind : Nat),
    v.stepMin < 2 ^ 64 → v.stepMax < 2 ^ 64 → v.seatMin < 4096 → v.seatMax < 4096 → v.seatBad < 4096 → kind = 1 ∨ kind = 2 →
      gateVoteOf (gateMsgOf v kind) = v ∧ gateKind (gateMsgOf v kind) = kind ∧ gateMsgOk (gateMsgOf v kind) = true

/-! ### Stack memory (chapter 12) -/

/-- MEMORY_READ delivers the 64 bytes of the sector; a clean outcome changes nothing else, an uncorrectable sector or a Tag mismatch of a
partition sets its error latch until its vote is formed. A stack without power or training serves nothing. -/
def Obligations.MemoryReads : Prop :=
  ∀ (s : State) (owner pa : Nat) (upset : BitVec 580),
    let t := s.upsetSector pa upset
    let o := t.outcome owner (pa / 64 * 64)
    owner ≤ 16 → pa < 2 ^ 41 → s.lostObjects = [] →
    (s.stackOn (paStack pa) = false → exec (.memoryRead owner pa upset) s = .next s) ∧
    (s.stackOn (paStack pa) = true → ∃ u : State, exec (.memoryRead owner pa upset) s = .next u ∧
      u.dram.delivered = t.deliveredBytes owner pa ∧
      (o = 0 → u.dram.cells = s.dram.cells ∧ u.dram.sectors = t.dram.sectors ∧ u.events = s.events ∧ u.parts = s.parts ∧
        u.squares = s.squares ∧ u.dram.stackTab = s.dram.stackTab) ∧
      (owner < 16 → 2 ≤ o → u.dram.cells = s.dram.cells ∧ u.squares = s.squares ∧
        ((s.part owner).vote = none → (u.part owner).errorLatch = true) ∧
        ((s.part owner).vote ≠ none → (u.part owner).errorLatch = (s.part owner).errorLatch)))

/-- MEMORY_WRITE of a partition: a whole sector, or a part of one whose data verify, holds the bytes afterwards under the partition's key, and a
read of them gives them; every other sector stands. A part of a sector that does not verify is not written. -/
def Obligations.MemoryWrites : Prop :=
  ∀ (s : State) (owner pa : Nat) (bytes : List Byte) (upset : BitVec 580),
    let o := (s.upsetSector pa upset).outcome owner (pa / 64 * 64)
    owner < 16 → pa < 2 ^ 41 → pa % 64 + bytes.length ≤ 64 → s.stackOn (paStack pa) = true →
    (bytes.length = 64 ∨ o = 0 → ∃ u : State, exec (.memoryWrite owner pa bytes upset) s = .next u ∧
      (∀ i, i < bytes.length → Mem.read 0 u.dram.cells (s.sectorKey pa * 64 + (pa % 64 + i)) = byteAt bytes i) ∧
      u.sectorMeta pa = s.freshMeta owner ∧
      ((s.part owner).curKey.isSome = true → ∀ i, i < bytes.length → u.readByte owner (pa + i) = byteAt bytes i) ∧
      (s.mirrorPhys pa = none → ∀ a, s.sectorKey a ≠ s.sectorKey pa → u.sectorBytes a = s.sectorBytes a) ∧
      u.events = s.events ∧ u.parts = s.parts ∧ u.squares = s.squares) ∧
    (bytes.length < 64 → 2 ≤ o → ∃ u : State, exec (.memoryWrite owner pa bytes upset) s = .next u ∧
      u.dram.cells = s.dram.cells ∧ ((s.part owner).vote = none → (u.part owner).errorLatch = true))

/-- REGULATOR_ADMIT (a request reaches its die's regulators; alone there it goes by the reserved path, else by the surplus path unless its
zone is Hot, else it waits), REFRESH, PAGE_INITIALISATION (zeros, and the page is done), PATROL_SCRUB of a clean sector (it costs maintenance
tokens and changes nothing else; a stack without power is not scrubbed), MEMORY_TRAINING_COMPLETE. -/
def Obligations.MemoryUpkeep : Prop :=
  ∀ s : State,
    (∀ (die : Nat) (r : TokenReq), let d := (s.refill die).memDie die
      let u := s.charge die r
      let k := 1000 * reqTokens r
      die < 8 → r.who < 18 → trafficOnDie r.traffic die = true →
      exec (.regulatorAdmit die r) s = .next u ∧ u.dram.cells = s.dram.cells ∧ u.squares = s.squares ∧ u.parts = s.parts ∧
      (∀ k, k ≠ die → u.memDie k = s.memDie k) ∧
      ((s.memDie die).waiting = [] →
        (d.reserved r = true → (u.memDie die).waiting = [] ∧ (u.memDie die).pool = d.pool ∧
          Tab.get 0 (u.memDie die).g r.who = Tab.get 0 d.g r.who - k ∧ Tab.get 0 (u.memDie die).c r.who = Tab.get 0 d.c r.who - k) ∧
        (d.reserved r = false → (s.refill die).surplus d r = true → (u.memDie die).waiting = [] ∧ (u.memDie die).g = d.g ∧
          (u.memDie die).pool = d.pool - k) ∧
        (d.reserved r = false → (s.refill die).surplus d r = false → (u.memDie die).waiting = [(r, s.now)] ∧ (u.memDie die).g = d.g) ∧
        (d.reserved r = false → s.hotFor r.traffic = true → (u.memDie die).waiting = [(r, s.now)] ∧ (u.memDie die).pool = d.pool))) ∧
    (∀ st ch, st < 32 → ch < 66 → ∃ u : State, exec (.refresh st ch) s = .next u ∧
      u.now = max s.now (Tab.get 1 (s.stack st).refreshedAt ch - 1 + if 1 ≤ s.zoneLevel st then 1950 else 3900) ∧
      Tab.get 1 (u.stack st).refreshedAt ch = u.now + 1 ∧ u.dram.cells = s.dram.cells ∧ u.dram.sectors = s.dram.sectors ∧
      (∀ k, k ≠ st → u.stack k = s.stack k) ∧ u.events = s.events) ∧
    (∀ p page, p < 16 → page < 2 ^ 25 → page ∈ (s.part p).pagesToInit → ∃ u : State, exec (.pageInitialisation p page) s = .next u ∧
      (∀ i b, i < 1024 → b < 64 → Mem.read 0 u.dram.cells (s.sectorKey (page * 65536 + 64 * i) * 64 + b) = 0) ∧
      (u.part p).pagesToInit = (s.part p).pagesToInit.filter (fun k => decide (k ≠ page)) ∧
      (u.part p).pagesDone = (s.part p).pagesDone ++ [page] ∧ OtherParts s u p ∧ u.events = s.events) ∧
    (∀ st ch sector, st < 32 → ch < 64 → sector < 2 ^ 24 → let pa := placeAddress st ch (sector / 64) (sector % 64)
      (s.stackOn st = false → exec (.patrolScrub st ch sector 0) s = .next s) ∧
      (s.stackOn st = true → sectorDecode (s.sectorMeta pa).upset = .clean → s.codeFails pa = false →
        exec (.patrolScrub st ch sector 0) s = .next (s.chargeStack 17 pa 1 0))) ∧
    (∀ failing, s.power.memTraining = true → ∃ u : State, exec (.memoryTrainingComplete failing) s = .next u ∧
      u.power = { s.power with memTraining := false } ∧ u.dram.trained = true ∧ u.squares = s.squares ∧ u.parts = s.parts ∧
      (s.dram.trained = true → u.dram = s.dram) ∧ (s.dram.trained = false → u.dram.cells = [] ∧ u.dram.sectors = []))

/-- Channel migration, Table MEM-10: from the request through the copy, the held boundary and the test of the old channel, with the
timeout and the retry. -/
def Obligations.ChannelMigration : Prop :=
  ∀ (s : State) (die : Nat),
    let d := s.memDie die
    let now := fun (u : State) => u.memDie die
    die < 8 →
    (∀ t r spare rest, Received s r t → reqNames r 0x5300 3 = true →
      let v := reqValue r
      let st := v % 32
      let ch := fld v 5 6
      fld v 11 5 = 0 → st / 4 = die → t.migrationPending die st ch = false →
      (t.stack st).retired.contains ((t.stack st).physical ch) = false → (t.memDie die).mig = .idle →
      (t.stack st).free = spare :: rest → ∃ u : State, exec (.migrateRequest r) s = .next (u.reply r 0) ∧
        (now u).mig = .training ∧ (now u).migStack = st ∧ (now u).migChannel = ch ∧ (now u).migSpare = spare ∧
        (now u).migOld = (t.stack st).physical ch ∧ (u.stack st).free = rest ∧ u.dram.cells = t.dram.cells) ∧
    (d.mig = .training → ∃ u : State, exec (.migrationSpareTrained die) s = .next u ∧
      now u = { d with mig := .copying, copyPtr := 0, copyAt := s.now } ∧ u.dram.cells = s.dram.cells) ∧
    (d.mig = .copying → ∃ u : State, exec (.migrationCopyComplete die) s = .next u ∧
      (s.tabledParts ≠ [] → (∃ p ∈ s.tabledParts, (s.part p).runState ≠ .held) → (now u).mig = .awaitingHold ∧ (now u).holdsFor = true) ∧
      (s.tabledParts = [] → (now u).mig = .testing ∧ (u.stack d.migStack).physical d.migChannel = d.migSpare)) ∧
    (d.mig = .awaitingHold → s.moduleHeld (migHold die) = true → ∃ u : State, exec (.migrationSwitch die) s = .next u ∧
      (now u).mig = .testing ∧ (now u).holdsFor = false ∧ (u.stack d.migStack).physical d.migChannel = d.migSpare ∧
      u.dram.cells = s.dram.cells ∧ u.dram.sectors = s.dram.sectors) ∧
    (∀ passed, d.mig = .testing → d.queue = [] → ∃ u : State, exec (.migrationOldChannelTest die passed) s = .next u ∧
      (now u).mig = .idle ∧ u.dram.cells = s.dram.cells ∧
      (passed = true → d.migOld ∉ (s.stack d.migStack).returned → d.migOld ∈ (u.stack d.migStack).free) ∧
      (passed = false → d.migOld ∈ (u.stack d.migStack).retired ∧ (u.stack d.migStack).free = (s.stack d.migStack).free)) ∧
    (d.mig = .awaitingHold → s.moduleHeld (migHold die) = false → exec (.migrationSwitchTimeout die) s = .next s) ∧
    (d.mig = .awaitingHold → s.moduleHeld (migHold die) = true → ∃ u : State, exec (.migrationSwitchTimeout die) s = .next u ∧
      u.now = max s.now (s.heldFrom (migHold die) + 100000000) ∧
      (∀ st, (u.stack st).map = (s.stack st).map) ∧ u.dram.cells = s.dram.cells ∧
      (d.retried = false → (now u).mig = .awaitingRetry ∧ (now u).retried = true ∧ (now u).holdsFor = false) ∧
      (d.retried = true → d.queue = [] → (now u).mig = .idle ∧ d.migSpare ∈ (u.stack d.migStack).free)) ∧
    (d.mig = .awaitingRetry → ∃ u : State, exec (.migrationRetry die) s = .next u ∧
      (s.tabledParts ≠ [] → (∃ p ∈ s.tabledParts, (s.part p).runState ≠ .held) → (now u).mig = .awaitingHold ∧ (now u).retried = d.retried) ∧
      (s.tabledParts = [] → (now u).mig = .testing))

/-! ### Chip links (chapter 13) -/

/-- The trains of Table LNK-7 at their destination, each the oldest transaction of its link (else its command stands). Of WRITE, PARTIAL and the
GRAD trains the writes are made and charged and WRITE_ACK answers Status 0; a refused access answers Status 1 with event 0x31, and of the writes
only those before it are made. A READ is answered with its bytes, or with Status 1: at a Length that its version lacks, and at a refused
access with event 0x31. A GRAD train whose Length does not match is refused with event 0x30 detail 0x5F and writes nothing. -/
def Obligations.LinkTrains : Prop :=
  ∀ (s : State) (l p : Nat) (t : Txn),
    let u := (s.popTxn l).active p
    let n := rd t.inl 4 4
    let a2 := rd t.inl 16 8 % 2 ^ 42
    l < 96 →
    (s.takeTxn l 1 = none → exec (.linkWrite l) s = .next s) ∧ (s.takeTxn l 5 = none → exec (.linkPartial l) s = .next s) ∧
    (s.takeTxn l 6 = none → exec (.gradSign l) s = .next s) ∧ (s.takeTxn l 7 = none → exec (.gradTopk l) s = .next s) ∧
    (s.takeTxn l 2 = none → exec (.linkRead l) s = .next s) ∧
    (s.takeTxn l 1 = some (t, p) →
      exec (.linkWrite l) s = .next (u.storeTrain l p t (runWrites t.address (trainData t) (byteAt t.inl 4) (byteAt t.inl 5)))) ∧
    (s.takeTxn l 5 = some (t, p) →
      exec (.linkPartial l) s = .next (u.storeTrain l p t (runWrites (t.address + rd t.inl 4 2 * rd t.inl 8 8) (trainData t) 0 0))) ∧
    (s.takeTxn l 6 = some (t, p) → let scales := 4 * cdiv n (2 ^ rd t.inl 8 1)
      let good := 8 ≤ rd t.inl 8 1 ∧ rd t.inl 8 1 ≤ 16 ∧ rd t.inl 0 4 = scaleStart n + scales ∧ rd t.inl 0 4 ≤ t.data.length
      (good → exec (.gradSign l) s = .next (u.storeTrain l p t (runWrites t.address (t.data.take (signBytes n)) 0 0 ++
        runWrites a2 (slice t.data (scaleStart n) scales) 0 0))) ∧
      (¬good → ∃ v : State, exec (.gradSign l) s = .next (v.replyTxn l p t 4 1 []) ∧ v.dram = s.dram ∧ v.squares = s.squares ∧
        v.events = withEvent s.events ⟨s.now, 0x30, 0x5F, some p, [(.link, l)], []⟩)) ∧
    (s.takeTxn l 7 = some (t, p) → let good := rd t.inl 0 4 = 4 * n + n * rd t.inl 8 4 ∧ rd t.inl 0 4 ≤ t.data.length
      (good → exec (.gradTopk l) s = .next (u.storeTrain l p t (runWrites t.address (t.data.take (4 * n)) 0 0 ++
        runWrites a2 (slice t.data (4 * n) (n * rd t.inl 8 4)) 0 0))) ∧
      (¬good → ∃ v : State, exec (.gradTopk l) s = .next (v.replyTxn l p t 4 1 []) ∧ v.dram = s.dram ∧ v.squares = s.squares ∧
        v.events = withEvent s.events ⟨s.now, 0x30, 0x5F, some p, [(.link, l)], []⟩)) ∧
    (∀ ws, let y := u.splitWrites p ws
      let w := ((u.makeWrites p y.1).chargeAll p none (u.chunkTraffic p (y.1.map (fun b => b.va)) true ++
        [passTraffic p l t.data.length])).settleLost
      (y.2 = none → y.1 = ws ∧ u.storeTrain l p t ws = w.replyTxn l p t 4 0 []) ∧
      (∀ f, y.2 = some f → (∃ k, y.1.Sublist (ws.take k) ∧ (ws.drop k).head?.map (fun b => b.va) = some f.2) ∧
        ∃ v : State, u.storeTrain l p t ws = v.replyTxn l p t 4 1 [] ∧ v.dram = w.dram ∧ v.squares = w.squares ∧ v.parts = w.parts ∧
          v.events = withEvent w.events ⟨w.now, 0x31, f.1, some p, [(.link, l), (.va, f.2)], []⟩)) ∧
    (s.takeTxn l 2 = some (t, p) → let k := rd t.inl 0 4
      let vas := (List.range k).map (fun i => t.address + i)
      (k = 0 ∨ readLimit (s.link l).version < k → exec (.linkRead l) s = .next (u.replyTxn l p t 3 1 [])) ∧
      (1 ≤ k → k ≤ readLimit (s.link l).version → u.readFault p vas = none → ∃ v : State,
        exec (.linkRead l) s = .next (v.replyTxn l p t 3 0 (vas.map (u.vaByte p))) ∧
        v = ((u.touchVas p vas).chargeAll p none (u.chunkTraffic p vas false ++ [passTraffic p l k])).settleLost) ∧
      (∀ f, 1 ≤ k → k ≤ readLimit (s.link l).version → u.readFault p vas = some f → ∃ v : State,
        exec (.linkRead l) s = .next (v.replyTxn l p t 3 1 []) ∧ v.dram = s.dram ∧ v.squares = s.squares ∧
        v.events = withEvent s.events ⟨s.now, 0x31, f.1, some p, [(.link, l), (.va, f.2)], []⟩))

/-- The answers at the sender: the data of a READ go to the chain that still runs, and an acknowledged tag is dropped. A refusal freezes the
partition: a chain that still runs, or whose last descriptor waits under Barrier 1, aborts with cause 0x03 and the remote address; of one that
has completed event 0x31 detail 0x0A tells. An answer to no tag, and a command whose transaction is not the oldest, change nothing. -/
def Obligations.LinkAnswers : Prop :=
  ∀ (s : State) (l p ch kind : Nat) (t : Txn) (z : Sent),
    let c := if kind = 3 then Instr.linkReadResp l else .linkWriteAck l
    let u := (s.popTxn l).active p
    let v := u.dropTag l ch t.txnTag
    let d := v.channel (.link l) ch
    let last := d.phase = .written ∧ v.chainEnds d.partition d.desc = true
    let waits := last ∧ mdBarrier (v.mdesc d) = true
    (l < 96 → (s.takeTxn l 3 = none → exec (.linkReadResp l) s = .next s) ∧ (s.takeTxn l 4 = none → exec (.linkWriteAck l) s = .next s)) ∧
    (l < 96 → kind = 3 ∨ kind = 4 → s.takeTxn l kind = some (t, p) →
    (u.senderOf l t.txnTag = none → exec c s = .next u) ∧
    (u.senderOf l t.txnTag = some (ch, z) →
      ((v.channel (.link l) ch).sent = ((s.channel (.link l) ch).sent.filter (fun y => decide (y.tag ≠ t.txnTag))) ∧
        v.dram = s.dram ∧ v.squares = s.squares ∧ OtherLinks s v l ∧ OtherParts s v p) ∧
      (rd t.inl 0 1 = 0 → kind = 4 → exec c s = .next v) ∧
      (rd t.inl 0 1 = 0 → kind = 3 → z.live = true → (v.channel (.link l) ch).phase = .active →
        exec c s = .next (v.readArrived l ch t.data)) ∧
      (rd t.inl 0 1 = 0 → kind = 3 → z.live = false ∨ (v.channel (.link l) ch).phase ≠ .active → exec c s = .next v) ∧
      (rd t.inl 0 1 ≠ 0 → ∃ w : State, exec c s = .next w ∧ (w.part p).frozen = true ∧ w.dram = s.dram ∧ (∀ q, (w.sq q).ls = (s.sq q).ls) ∧
        (z.live = true → v.stoppable d = true ∨ waits → (w.channel (.link l) ch).phase = .aborting 3 ∧
          (w.channel (.link l) ch).faultAddress = z.va ∧ w.events = s.events) ∧
        (z.live = true → v.stoppable d = false → ¬last → w.events = s.events) ∧
        (z.live = false ∨ (last ∧ ¬waits) → w.events = withEvent s.events
          ⟨s.now, 0x31, 0x0A, some p, [(.moverLink, l), (.channel, ch), (.descriptor, z.desc), (.va, z.va)], []⟩))))

/-- Posts, resets, gate messages and Table messages that arrive, and what is routed on: each takes the oldest transaction of its link and has
its effect at its Square, gate unit, Table or next hop. -/
def Obligations.LinkMessages : Prop :=
  ∀ (s : State) (l p : Nat) (t : Txn),
    let q := inlSquare t
    let e := inlEntry t
    let x := s.entry q e
    let only := fun (v : State) => OtherParts s v p ∧ v.dram = s.dram ∧ SameBoard s v
    l < 96 →
    (s.takeTxn l 8 = some (t, p) → s.owner q = some p → x.owns (inlSem t) = true →
      (x.epoch = inlEpoch t → x.sem (inlSem t) + rd t.inl 2 1 ≤ x.depth → ∃ v : State, exec (.linkSemPost l) s = .next v ∧ only v ∧
        (v.entry q e).sem (inlSem t) = x.sem (inlSem t) + rd t.inl 2 1 ∧ v.events = s.events ∧ ∀ k, k ≠ q → v.sq k = s.sq k) ∧
      (x.epoch ≠ inlEpoch t → ∃ v : State, exec (.linkSemPost l) s = .next v ∧ only v ∧ v.squares = s.squares ∧
        (v.part p).stalePosts = satAdd (s.part p).stalePosts 1)) ∧
    (s.takeTxn l 8 = some (t, p) → s.owner q ≠ some p → ∃ v : State, exec (.linkSemPost l) s = .next v ∧ (v.part p).frozen = true ∧
      v.events = withEvent s.events ⟨s.now, 0x30, 0x03, some p, [(.square, q), (.entry, e)], []⟩) ∧
    (s.takeTxn l 9 = some (t, p) → s.owner q = some p → x.isProducer = true → ∃ v : State,
      exec (.linkReset l) s = .next (v.sendSeat p x.peerSeat (linkResetTxn 0x0A x.peerSquare x.peerEntry (inlEpoch t))) ∧ only v ∧
      (v.entry q e).epoch = inlEpoch t ∧ (v.entry q e).empty = x.depth ∧ (v.entry q e).full = x.full) ∧
    (s.takeTxn l 0x0A = some (t, p) → s.owner q = some p → x.isConsumer = true → ∀ o, (s.sq q).cancelOp e .working = some o →
      ∃ v : State, exec (.linkResetAck l) s = .next v ∧ only v ∧
        (v.sq q).inflight = (s.sq q).inflight.map (fun y => if y.id = o.id then { y with phase := .done } else y)) ∧
    (s.takeTxn l 0x0B = some (t, p) → ∃ v : State, exec (.gateTransaction l) s = .next v ∧ only v ∧ v.squares = s.squares ∧
      (v.part p).gateIn = (s.part p).gateIn ++ [(l, BitVec.ofNat 256 (rd t.inl 0 32))] ∧ (v.link l).arrived = (s.link l).arrived.drop 1) ∧
    (∀ rest, (s.link l).arrived = t :: rest → t.kind = 0x10 → (∀ m ∈ orderedMsgs t, tableMsgOk m = true) →
      ∃ v : State, exec (.ordered l) s = .next v ∧ v.link l = { s.link l with
        arrived := rest, tableIn := (s.link l).tableIn ++ orderedMsgs t } ∧ OtherLinks s v l ∧ v.parts = s.parts ∧ v.dram = s.dram) ∧
    (∀ rest, (s.link l).arrived = t :: rest → (s.link l).slotPart t.keySlot = some p → t.kind < 0x10 →
      (∀ h, nextHop t = some h → h < 96 → exec (.routeForward l) s =
        .next ((((s.popTxn l).active p).chargeAll p none (crossTraffic p l h t)).sendTxn h
          { t with keySlot := keySlotOf p, hopIndex := t.hopIndex + 1 })) ∧
      (∀ h, nextHop t = some h → 96 ≤ h → exec (.routeForward l) s = .next ((s.popTxn l).count 4)) ∧
      (nextHop t = none → t.destSeat ≠ (s.part p).seat → exec (.routeForward l) s = .next ((s.popTxn l).count 4)))

/-- Link management: HELLO, IDENTITY, KEYSHARE, TIME, TIME_SEND, SWAP_REQ, SWAP_AT, LANE_LOST, ASSIGN. -/
def Obligations.LinkControl : Prop :=
  ∀ (s : State) (l : Nat) (t : Txn) (rest : List Txn),
    let x := s.link l
    let ctrl := fun (sub : Nat) => l < 96 ∧ x.arrived = t :: rest ∧ t.kind = 0x11 ∧ rd t.inl 0 1 = sub
    let only := fun (u : State) => OtherLinks s u l ∧ u.parts = s.parts ∧ u.squares = s.squares ∧ u.dram = s.dram
    let lane := rd t.inl 1 1
    let refused := fun (u : State) => only u ∧ (u.link l).state = 4 ∧ (u.link l).version = 0
    (ctrl 1 → let v := min (s.service.maxima.getD 3 0) (rd t.inl 1 1)
      ∃ u : State, exec (.hello l) s = .next u ∧ (v = 0 → refused u ∧ u.events = withEvent s.events ⟨s.now, 0x51, 0x05, none, [(.link, l)], []⟩) ∧
        (v ≠ 0 → only u ∧ u.link l = { x with arrived := rest, version := v })) ∧
    (ctrl 2 → ∃ u : State, exec (.identity l) s = .next u ∧
      (Config.chainReaches t.data (Config.certificate 1 0) = true → only u ∧ u.link l = { x with
        arrived := rest, peerSerial := (Config.certSubject t.data).1, peerLink := (Config.certSubject t.data).2 }) ∧
      (Config.chainReaches t.data (Config.certificate 1 0) = false → refused u)) ∧
    (ctrl 3 → ∃ u : State, exec (.keyshare l) s = .next u ∧ (shareVerifies x t = false → refused u) ∧
      (shareVerifies x t = true → 1 ≤ lane → lane ≤ 16 →
        (s.partOfTable (rd t.inl 8 8) = none → only u ∧ (u.link l).shares = x.shares ++ [(lane, rd t.inl 8 8, t.data.take pointBytes)]) ∧
        (∀ p, s.partOfTable (rd t.inl 8 8) = some p → (Tab.get {} (u.link l).rxKeys lane).part = some p ∧
          (Tab.get {} (u.link l).txKeys (keySlotOf p)).part = some p ∧ u.parts = s.parts ∧ u.dram = s.dram)) ∧
      (shareVerifies x t = true → lane = 0 ∨ 16 < lane → only u ∧ u.link l = { x with arrived := rest })) ∧
    (ctrl 4 → x.ownTime ≠ 0 → rd t.inl 16 8 ≠ 0 → ∃ u : State, exec (.time l) s = .next u ∧ only u ∧ (u.link l).peerTime = s.now ∧
      (u.link l).roundTrip = ((s.now - x.ownTime) - (rd t.inl 8 8 - rd t.inl 16 8)) % 2 ^ 32 ∧
      (s.timeSource = l → u.holdover = false ∧ u.now = max s.now (rd t.inl 8 8 + (u.link l).roundTrip / 2)) ∧
      (s.timeSource = 0xFF → s.power.epochSet = false → u.power.epochSet = true ∧ u.holdover = s.holdover ∧
        u.now = max s.now (rd t.inl 8 8 + (u.link l).roundTrip / 2)) ∧
      (s.timeSource ≠ l → s.timeSource ≠ 0xFF ∨ s.power.epochSet = true → u.holdover = s.holdover ∧ u.now = s.now ∧ u.power = s.power)) ∧
    (l < 96 → (x.up = false → exec (.timeSend l) s = .next s) ∧ (x.up = true → ∃ u : State, exec (.timeSend l) s = .next u ∧ only u ∧
      (u.link l).ownTime = s.now ∧ (u.link l).peerTime = x.peerTime ∧ u.now = s.now)) ∧
    (ctrl 5 → x.txLanes.contains lane = true → ∃ u : State, exec (.swapReq l) s = .next u ∧ only u ∧
      (u.link l).swapTx = some { lane := lane, spare := rd t.inl 2 1, atSeq := none } ∧ (u.link l).txLanes = x.txLanes) ∧
    (ctrl 6 → ∀ w, x.swapTx = some w → ∃ u : State, exec (.swapAt l) s = .next u ∧ only u ∧
      (u.link l).swapTx = some { w with atSeq := some (rd t.inl 4 2 % 4096) }) ∧
    (ctrl 7 → x.txLanes.contains lane = true → x.swapTx = none → ∀ k, lowSpare (s.group (l / 8)).sparesTx = some k →
      ∃ u : State, exec (.laneLost l) s = .next u ∧ only u ∧ (u.link l).txLanes = replaceLane x.txLanes lane k ∧
        (u.group (l / 8)).sparesTx = (s.group (l / 8)).sparesTx.erase k ∧
        u.events = withEvent s.events ⟨s.now, 0x50, 0x02, none, [(.link, l), (.lane, lane)], []⟩) ∧
    (ctrl 8 → ∃ u : State, exec (.assign l) s = .next u ∧ only u ∧
      (u.link l).txLanes = (List.range 4).map (fun i => rd t.data i 1) ∧ (u.link l).rxLanes = x.rxLanes)

/-- Lanes in service, planned retrains and windows: an exchange is asked for and its frame named 64 ahead, a lost lane goes to a free
spare or the link retrains, a retrain waits for its Tables and is given up after 100 ms; when a window opens, what waits goes and the active
channel that sends makes its next train. -/
def Obligations.LinkLanes : Prop :=
  ∀ (s : State) (l lane : Nat),
    let x := s.link l
    let c := x.rxLanes.getD lane noLane
    let g := s.group (l / 8)
    let only := fun (u : State) => OtherLinks s u l ∧ u.parts = s.parts ∧ u.squares = s.squares ∧ u.dram = s.dram ∧
      ∀ k, k ≠ l / 8 → u.group k = s.group k
    (l < 96 → lane < 4 → x.laneErrors s.now c < x.swapThreshold ∨ lowSpare g.sparesRx = none →
      exec (.laneSwapThreshold l lane) s = .next s) ∧
    (l < 96 → lane < 4 → x.up = true → c ≠ noLane → x.swapThreshold ≤ x.laneErrors s.now c →
      s.noExchange (l / 8) (fun y => y.swapRx) = true → ∀ k, lowSpare g.sparesRx = some k → ∃ u : State, exec (.laneSwapThreshold l lane) s = .next u ∧ only u ∧ (u.link l).swapRx = some { lane := c, spare := k, atSeq := none } ∧
        (u.link l).rxLanes = x.rxLanes ∧ (u.group (l / 8)).sparesRx = g.sparesRx.erase k) ∧
    (l < 96 → x.up = true → ∀ w, x.swapRx = some w → w.atSeq = none → ∃ u : State, exec (.laneSpareAdapted l) s = .next u ∧ only u ∧
      (u.link l).swapRx = some { w with atSeq := some ((x.rxSeq + 64) % 4096) }) ∧
    (l < 96 → lane < 4 → x.up = true → c ≠ noLane → x.swapRx = none → ∃ u : State, exec (.laneLossOfLock l lane) s = .next u ∧
      (∀ k, lowSpare g.sparesRx = some k → only u ∧ (u.link l).rxLanes = replaceLane x.rxLanes c k ∧
        (u.group (l / 8)).sparesRx = g.sparesRx.erase k ∧ (u.link l).state = x.state ∧
        u.events = withEvent s.events ⟨s.now, 0x50, 0x02, none, [(.link, l), (.lane, c)], []⟩) ∧
      (lowSpare g.sparesRx = none → only u ∧ (u.link l).state = 5)) ∧
    (∀ t r, Received s r t → r.index = 0x4100 + l → l < 96 → r.sub = 7 → reqValue r = 1 → (t.link l).retrainHold = false →
      ∃ u : State, exec (.retrainRequest r) s = .next (u.reply r 0) ∧ (u.link l).retrainHold = true ∧ u.squares = t.squares ∧
        (t.linkParts l = [] → (∀ p, p < 16 → retrainCause l ∉ (t.part p).ownHold) → (t.link l).retrainMap = none →
          (u.link l).state = 5 ∧ (u.link l).retrainMap = some ((t.link l).state, (t.link l).txLanes, (t.link l).rxLanes))) ∧
    (l < 96 → ∀ m, x.retrainMap = some m → ∃ u : State, exec (.plannedRetrainTimeout l) s = .next u ∧
      (u.link l).retrainHold = false ∧ (u.link l).retrainMap = none ∧ (u.link l).txLanes = m.2.1 ∧ (u.link l).rxLanes = m.2.2 ∧
      u.now = max s.now (s.retrainHeldSince l + 100000000) ∧ u.squares = s.squares ∧ u.dram = s.dram) ∧
    (l < 96 → x.retrainMap = none → exec (.plannedRetrainTimeout l) s = .next s) ∧
    (l < 96 → let d := s.updLink l (fun y => y.drain s.now)
      ((∀ ch, ch < 8 → (s.channel (.link l) ch).phase ≠ .active) → exec (.trainWindowOpen l) s = .next d) ∧
      (∀ ch, ch < 8 → (∀ k, k < 8 → k ≠ ch → (s.channel (.link l) k).phase ≠ .active ∨ s.farSide (.link l) k = 2) →
        (s.farSide (.link l) ch = 2 → exec (.trainWindowOpen l) s = .next d) ∧
        (s.farSide (.link l) ch ≠ 2 → (∀ k, k < 8 → k ≠ ch → (s.channel (.link l) k).phase ≠ .active) →
          exec (.trainWindowOpen l) s = .next (d.moverBurst (.link l) ch))))

/-- LINK_TRAINING, LINK_FRAME_RECEIVED, LINK_ACK_TIMEOUT, the cables of a group and the management beacon. With every lane of its delivery
working a link takes those lanes, and with a common version and a peer that proves its identity it is up at the full width. A bad frame is
asked for by the next number in order; a good one in order is taken. The oldest unacknowledged frame goes again, and its 16th send takes the
link down. -/
def Obligations.LinkFrames : Prop :=
  ∀ (s : State) (l g : Nat),
    let x := s.link l
    (∀ rx tx peer, let base := (List.range 4).map (fun i => 4 * (l % 8) + i)
      let v := min (s.service.maxima.getD 3 0) peer.version
      l < 96 → x.state = 1 → x.stream = [] → x.retained = [] → (∀ c ∈ base, rx.working.contains c = true ∧ tx.working.contains c = true) →
      ∃ u : State, exec (.linkTraining l rx tx peer) s = .next u ∧ (u.link l).rxLanes = base ∧ (u.link l).txLanes = base ∧
        (v ≠ 0 → peer.chainOk = true → peer.signatureOk = true → (u.link l).state = 2 ∧ (u.link l).version = v ∧
          (u.link l).roundTrip = peer.roundTrip ∧ (u.link l).peerSerial = peer.serial ∧ slotListed (u.link l).txKeys 0 = true) ∧
        (v = 0 ∨ peer.chainOk = false ∨ peer.signatureOk = false → (u.link l).state = 4 ∧ (u.link l).version = 0)) ∧
    (∀ frame, l < 96 → x.hears = true →
      (decodeFrame frame = none →
        exec (.linkFrameReceived l frame) s = .next (s.updLink l (fun y => { y with out := y.out ++ [y.idleOut (some y.rxSeq)] }))) ∧
      (∀ d, decodeFrame frame = some d → frameCrcOk (frameBytes d.1) = false ∨ hdrReserved (rd (frameBytes d.1) 0 10) ≠ 0 →
        ∃ u : State, exec (.linkFrameReceived l frame) s = .next u ∧ (u.link l).rxSeq = x.rxSeq ∧ (u.link l).stream = x.stream ∧
          (u.link l).out = x.out ++ [x.idleOut (some x.rxSeq)] ∧ (u.link l).arrived = x.arrived ∧ u.parts = s.parts ∧
          u.squares = s.squares ∧ u.dram = s.dram ∧ u.events = s.events ∧ OtherLinks s u l) ∧
      (∀ d, decodeFrame frame = some d → let b := frameBytes d.1
        let h := rd b 0 10
        frameCrcOk b = true → hdrReserved h = 0 → ∃ u : State, exec (.linkFrameReceived l frame) s = .next u ∧
          (hdrIdle h = true → (u.link l).rxSeq = x.rxSeq) ∧
          (hdrIdle h = false → hdrSeq h = x.rxSeq → x.heldFrames = [] → (u.link l).rxSeq = (x.rxSeq + 1) % 4096) ∧
          u.parts = s.parts ∧ u.squares = s.squares ∧ u.dram = s.dram ∧ OtherLinks s u l)) ∧
    (∀ frame, l < 96 → x.hears = false → exec (.linkFrameReceived l frame) s = .next s) ∧
    (∀ f rest, l < 96 → x.retained = f :: rest → x.up = true →
      ∃ u : State, exec (.linkAckTimeout l) s = .next u ∧ (u.link l).out = x.out ++ [x.frameOut f.seq f.flits] ∧
        (u.link l).retained = x.retained.map (fun g => if g.seq = f.seq then { g with sends := g.sends + 1 } else g) ∧
        OtherLinks s u l ∧ u.parts = s.parts ∧ u.squares = s.squares ∧ u.dram = s.dram ∧
        ((∀ g ∈ (u.link l).retained, g.sends < 16) → (u.link l).state = x.state ∧ u.events = s.events) ∧
        ((∃ g ∈ (u.link l).retained, 16 ≤ g.sends) → (u.link l).state = 0 ∧
          (s.timeSource ≠ l → u.events = withEvent s.events ⟨s.now, 0x51, 0x03, none, [(.link, l)], []⟩))) ∧
    (l < 96 → x.retained = [] ∨ x.up = false → exec (.linkAckTimeout l) s = .next s) ∧
    (g < 12 → (s.group g).cable = false → ∃ u : State, exec (.cablePresent g) s = .next u ∧ (u.group g).cable = true ∧
      (∀ k, k / 8 ≠ g → u.link k = s.link k) ∧ (s.ioOn = false → u.links = s.links) ∧
      (s.ioOn = true → ∀ k, k / 8 = g → u.link k = { s.link k with state := 1 })) ∧
    (g < 12 → ∃ u : State, exec (.cableRemoved g) s = .next u ∧ (u.group g).cable = false ∧ u.parts = s.parts ∧
      (∀ k, k / 8 = g → (u.link k).state = 0) ∧ ∀ k, k / 8 ≠ g → u.link k = s.link k) ∧
    (s.slotId = 0 → s.coordinatorSilent = false → s.power.state ≠ .off → ∃ u : State,
      exec .managementBeaconConflict s = .next u ∧ u.coordinatorSilent = true ∧ u.power = s.power ∧ u.parts = s.parts ∧
      u.events = withEvent s.events ⟨s.now, 0x90, 0x40, none, [], []⟩)

/-! ### Aslet (chapter 14) -/

/-- ASLET_TRAINING, ASLET_FRAME_RECEIVED, ASLET_ACK_TIMEOUT, WIDTH, ASLET_HELLO, SLEEP_REQ and SLEEP_ACK complete. Training chooses the width
and settles the version, or ends with event 0x51, and without lane 0 raises detail 0x07; a powered-down host die does not train. A bad frame is
asked for, a good one in order is taken; the oldest unacknowledged frame goes again, its 16th send taking Aslet down. WIDTH names the width,
HELLO settles the version. An entry into SLEEP asks once for low-rate mode, then takes the chip links down, then sleeps; SLEEP_ACK brings
low-rate mode, after an abandoned entry until Aslet has retrained. -/
def Obligations.AsletLink : Prop :=
  ∀ (s : State) (t : AsletTxn) (rest : List AsletTxn),
    let a := s.aslet
    let only := fun (u : State) => SameSquares s u ∧ SameLinks s u ∧ u.parts = s.parts ∧ u.dram = s.dram
    let ctrl := fun (sub : Nat) => a.arrived = t :: rest ∧ t.kind = 7 ∧ t.status = sub
    (∀ lanes peer, let v := min (s.service.maxima.getD 2 0) peer
      s.ioOn = true → ∃ u : State, exec (.asletTraining lanes peer) s = .next u ∧ only u ∧
        (lanes.working.contains 0 = false → ∃ es, u.events = withEvent es ⟨s.now, 0x51, 0x07, none, [(.aslet, 0)], []⟩) ∧
        (chooseWidth lanes = none → u.aslet.state = 0 ∧ u.aslet.tunnel = false) ∧
        (chooseWidth lanes = none → lanes.working.contains 0 = true →
          u.events = withEvent s.events ⟨s.now, 0x51, 0x02, none, [(.aslet, 0)], []⟩) ∧
        (∀ w, chooseWidth lanes = some w → v = 0 → u.aslet.state = 4 ∧ u.aslet.tunnel = false) ∧
        (∀ w, chooseWidth lanes = some w → v = 0 → lanes.working.contains 0 = true →
          u.events = withEvent s.events ⟨s.now, 0x51, 0x05, none, [(.aslet, 0)], []⟩) ∧
        (∀ w, chooseWidth lanes = some w → v ≠ 0 → u.aslet.width = w.1 ∧ u.aslet.version = v ∧
          u.aslet.lowRate = false ∧ u.aslet.lane0 = lanes.working.contains 0 ∧
          ((∀ f ∈ a.retained, f.sends + 1 < 16) → u.aslet.state = 2 ∧ u.aslet.tunnel = true ∧
            (lanes.working.contains 0 = true → u.events = s.events)) ∧
          ((∃ f ∈ a.retained, 16 ≤ f.sends + 1) → u.aslet.state = 0 ∧ u.aslet.tunnel = false))) ∧
    (∀ lanes peer, s.ioOn = false → exec (.asletTraining lanes peer) s = .next s) ∧
    (∀ frame, a.hears = true →
      (asletDecode a.lowRate frame = none → exec (.asletFrameReceived frame) s =
        .next (s.updAslet (fun x => { x with out := x.out ++ [x.idleOut (some x.rxSeq)] }))) ∧
      (∀ d, asletDecode a.lowRate frame = some d → asletFrameOk (asletBytes d) = false → exec (.asletFrameReceived frame) s =
        .next (s.updAslet (fun x => { x with out := x.out ++ [x.idleOut (some x.rxSeq)] }))) ∧
      (∀ d, asletDecode a.lowRate frame = some d → let b := asletBytes d
        let h := rd b 0 10
        asletFrameOk b = true → ∃ u : State, exec (.asletFrameReceived frame) s = .next u ∧ only u ∧
          (hdrIdle h = true → u.aslet.rxSeq = a.rxSeq) ∧
          (hdrIdle h = false → hdrSeq h = a.rxSeq → a.heldFrames = [] → u.aslet.rxSeq = (a.rxSeq + 1) % 4096))) ∧
    (∀ frame, a.hears = false → exec (.asletFrameReceived frame) s = .next s) ∧
    (∀ f more, a.retained = f :: more → a.up = true →
      ∃ u : State, exec .asletAckTimeout s = .next u ∧ only u ∧ u.aslet.out = a.out ++ [a.frameOut f.seq f.flits] ∧
        u.aslet.retained = a.retained.map (fun g => if g.seq = f.seq then { g with sends := g.sends + 1 } else g) ∧
        ((∀ g ∈ u.aslet.retained, g.sends < 16) → u.aslet.state = a.state ∧ u.aslet.tunnel = a.tunnel ∧ u.events = s.events) ∧
        ((∃ g ∈ u.aslet.retained, 16 ≤ g.sends) → u.aslet.state = 0 ∧ u.aslet.tunnel = false ∧
          u.events = withEvent s.events ⟨s.now, 0x51, 0x03, none, [(.aslet, 0)], []⟩)) ∧
    (a.retained = [] ∨ a.up = false → exec .asletAckTimeout s = .next s) ∧
    (ctrl 2 → (t.length = 16 ∨ t.length = 8 ∨ t.length = 4) → ∃ u : State, exec .width s = .next u ∧ only u ∧
      u.aslet = { a with arrived := rest, width := t.length }) ∧
    (ctrl 1 → let v := min (s.service.maxima.getD 2 0) t.length
      ∃ u : State, exec .asletHello s = .next u ∧ only u ∧ (v = 0 → u.aslet.state = 4 ∧ u.aslet.tunnel = false) ∧
        (v ≠ 0 → u.aslet.version = v ∧ u.aslet.state = a.state ∧ u.aslet.arrived = rest)) ∧
    (ctrl 2 → t.length ≠ 16 → t.length ≠ 8 → t.length ≠ 4 → ∃ u : State, exec .width s = .next u ∧ only u ∧
      u.aslet = { a with arrived := rest } ∧ Tab.get 0 u.counters 5 = satAdd (Tab.get 0 s.counters 5) 1) ∧
    (ctrl 3 → ∃ u : State, exec .sleepReq s = .next u ∧ only u ∧ u.aslet = { a with arrived := rest } ∧ u.power = s.power) ∧
    (a.arrived = [] → s.power.sleepEntry = false ∨ s.hostIdle = false → exec .sleepReq s = .next s) ∧
    (a.arrived = [] → s.power.sleepEntry = true → s.hostIdle = true → ∃ u : State, exec .sleepReq s = .next u ∧
      (a.up = true → a.lane0 = true → a.lowRate = false →
        only u ∧ u.aslet.sleepAsked = true ∧ u.power = s.power ∧ (a.sleepAsked = true → u = s)) ∧
      (a.up = false ∨ a.lane0 = false ∨ a.lowRate = true →
        (a.lowRate = true → u.aslet.state = a.state) ∧ (a.lowRate = false → u.aslet.state = 0 ∧ u.aslet.tunnel = false) ∧
        ((∃ l, l < 96 ∧ (s.link l).state ≠ 0) → u.power = s.power ∧ SameSquares s u ∧ u.parts = s.parts ∧ u.dram = s.dram ∧
          ∀ l, l < 96 → (u.link l).state = 0) ∧
        ((∀ l, l < 96 → (s.link l).state = 0) → u.power.state = .sleep ∧ u.power.sleepEntry = false ∧ u.power.aonLow = true))) ∧
    (ctrl 4 → ∃ u : State, exec .sleepAck s = .next u ∧ only u ∧ u.aslet.lowRate = true ∧ u.aslet.sleepAsked = false ∧
      u.power = s.power ∧ u.aslet.arrived = rest ∧
      (a.sleepAsked = true → s.power.sleepEntry = true → u.aslet.state = a.state) ∧
      (a.sleepAsked = false ∨ s.power.sleepEntry = false → u.aslet.state = 1))

/-- The transactions of Table ASL-4: the host's WRITE is refused and counted, its READ of the window W0 answered; the answers to the module's
own requests reach their channel; messages and credits of the tunnel. -/
def Obligations.AsletTransactions : Prop :=
  ∀ (s : State) (t : AsletTxn) (rest : List AsletTxn),
    let a := s.aslet
    let u := s.updAslet (fun x => { x with arrived := rest })
    let v := u.dropPend t.tag
    let got := fun (kind : Nat) => a.arrived = t :: rest ∧ t.kind = kind
    let m := (t.channel, t.data.take t.length)
    (got 1 → exec .asletHostWrite s = .next ((u.asletSend { kind := 4, tag := t.tag, status := 1 }).count 5)) ∧
    (got 2 → (t.length = 0 ∨ asletMaxBytes a.version < t.length ∨ 4096 < t.address + t.length →
        exec .asletRead s = .next (u.asletSend { kind := 3, tag := t.tag, status := 1 })) ∧
      (1 ≤ t.length → t.length ≤ asletMaxBytes a.version → t.address + t.length ≤ 4096 → exec .asletRead s =
        .next (u.asletSend { kind := 3, tag := t.tag, length := t.length, data := slice (windowW0 s) t.address t.length }))) ∧
    (got 3 → (a.pending t.tag = none → exec .asletReadResp s = .next u) ∧
      (∀ e, a.pending t.tag = some e → ∃ w : State, exec .asletReadResp s = .next w ∧ w.dram = s.dram ∧
        (∀ y ∈ w.aslet.pend, y.tag ≠ t.tag) ∧
        (t.status = 0 → e.want = .trailers → (w.channel .host e.channel).trailers =
          putBytes (s.channel .host e.channel).trailers e.off (t.data.take t.length) ∧ OtherChannels s w .host e.channel) ∧
        (t.status = 0 → e.want = .record → (w.channel .host e.channel).raw =
          putBytes (s.channel .host e.channel).raw e.off (t.data.take t.length) ∧ OtherChannels s w .host e.channel) ∧
        (t.status = 0 → e.want = .recordWrite ∨ e.want = .trailerWrite → w = v) ∧
        (t.status ≠ 0 → (w.part (hostPart e.channel)).frozen = true ∧ (s.stoppable (s.channel .host e.channel) = true →
          (w.channel .host e.channel).phase = .aborting 3 ∧ (w.channel .host e.channel).faultAddress = e.va)))) ∧
    (got 4 → (a.pending t.tag = none → exec .asletWriteAck s = .next u) ∧
      (∀ e, a.pending t.tag = some e → (t.status ≠ 0 → exec .asletWriteAck s = .next (v.hostRefused e.channel e.va)) ∧
        (t.status = 0 → (s.channel .host e.channel).trailerOut = none ∨ v.aslet.waits e.channel = true →
          exec .asletWriteAck s = .next v) ∧
        (∀ z, t.status = 0 → (s.channel .host e.channel).trailerOut = some z → v.aslet.waits e.channel = false →
          ∃ w : State, exec .asletWriteAck s = .next w ∧ (w.channel .host e.channel).trailerOut = none ∧ w.parts = s.parts ∧
            w.aslet.waits e.channel = !z.2.isEmpty))) ∧
    (got 5 → (t.channel ≤ 16 → 32 ≤ t.length → t.length ≤ 4096 → t.length ≤ t.data.length → hostFrameKind (rd t.data 1 1) = true →
        exec .message s = .next (u.updAslet (fun x => { x with inbox := x.inbox ++ [m] }))) ∧
      (t.channel ≤ 16 → t.length ≤ 4096 → t.length ≤ t.data.length → t.length < 32 ∨ hostFrameKind (rd t.data 1 1) = false →
        exec .message s = .next (u.updAslet (fun x => x.consume t.channel m))) ∧
      (16 < t.channel ∨ 4096 < t.length ∨ t.data.length < t.length → exec .message s = .next (u.count 5))) ∧
    (got 6 → exec .credit s = .next (u.updAslet (fun x =>
      ({ x with credits := Tab.upd 0 x.credits t.channel (fun n => n + t.length) }).drain)))

/-! ### Security (chapter 15) -/

/-- PLACE, PLACE_COMPLETE, WRAPPED_KEY, DELIVER, DELIVERY_COMPLETE: what starts and ends a placement and a delivery. -/
def Obligations.PlacementAndDelivery : Prop :=
  ∀ (s : State) (p : Nat),
    let x := s.part p
    let told := fun (u : State) (cls detail arg : Nat) =>
      u.events = withEvent s.events ⟨s.now, cls, detail, some p, [], if arg = 0 then [] else [arg]⟩
    (∀ t r, Received s r t → reqNames6 r 0x02 3 = true → reqPart r = p → reqValue r = 1 → let y := t.part p
      1 ≤ y.bytes → y.bytes ≤ bookArea → y.placing = false → y.delivering = false → y.runState = .empty → y.bounceLen ≠ 0 →
      (if r.session = 0 then (t.session 0).isSome = true else y.bounceKeys.isSome = true) →
        ∃ u : State, exec (.place r) s = .next (u.reply r 0) ∧ (u.part p).placing = true ∧ (u.part p).image = [] ∧
          (u.part p).placeBy = r.session ∧ (u.channel .host (2 * p + 1)).phase = .active ∧ (u.channel .host (2 * p + 1)).partition = p ∧
          OtherParts t u p ∧ OtherChannels t u .host (2 * p + 1) ∧ u.dram = t.dram) ∧
    (p < 16 → x.placing = true →
      (x.bytes ≤ x.image.length → ∃ u : State, exec (.placeComplete p true) s = .next u ∧ (u.part p).placing = false ∧
        (u.part p).placeStatus = 1 ∧ (u.part p).placedBytes = x.bytes ∧ (u.part p).image = x.image ∧ OtherParts s u p ∧ u.dram = s.dram ∧
        told u Config.placementEvent.1 Config.placementEvent.2 1) ∧
      (∃ u : State, exec (.placeComplete p false) s = .next u ∧ (u.part p).placing = false ∧ (u.part p).placeStatus = 2 ∧
        (u.part p).placedBytes = 0 ∧ (u.part p).image = [] ∧ OtherParts s u p ∧ u.dram = s.dram ∧
        told u Config.placementEvent.1 Config.placementEvent.2 2)) ∧
    (∀ t r, Received s r t → reqKeys r 0x10 = true → reqKeysPart r = p → blobReservedOk r.payload = true → (t.part p).delivering = false →
      (∀ k, (t.session r.session).bind (fun z => openBlob z p r.payload) = some k → ∃ u : State,
        exec (.wrappedKey r) s = .next (u.reply r 0) ∧ (u.part p).weightKey = some k ∧ (u.part p).sealed = true ∧
        (u.part p).weightImageId = rd r.payload 0x20 8 ∧ (u.part p).weightImageBytes = rd r.payload 0x28 8 ∧ OtherParts t u p) ∧
      ((t.session r.session).bind (fun z => openBlob z p r.payload) = none → ∃ u : State,
        exec (.wrappedKey r) s = .next (u.reply r abNoSession) ∧ u.parts = t.parts ∧
        u.events = withEvent t.events ⟨t.now, 0x70, 0x50, some p, [(.session, r.session)], []⟩)) ∧
    (∀ t r, Received s r t → reqKeys r 0x12 = true → reqKeysPart r = p → reqValue r = 1 → let y := t.part p
      y.delivering = false → y.placing = false → (y.runState = .loaded ∨ y.runState = .stopped) → y.weightKey.isSome = true →
      y.weightTarget.length = 24 → rd y.weightTarget 0x10 8 = y.weightImageId → y.bounceLen ≠ 0 → ∃ u : State,
        exec (.deliver r) s = .next (u.reply r 0) ∧ (u.part p).delivering = true ∧ (u.part p).weightSeq = 0 ∧
        (u.channel .host (2 * p + 1)).phase = .active ∧ OtherParts t u p ∧ OtherChannels t u .host (2 * p + 1) ∧ u.dram = t.dram) ∧
    (p < 16 → x.delivering = true →
      (x.weightImageBytes ≤ 4096 * x.weightSeq → ∃ u : State, exec (.deliveryComplete p true) s = .next u ∧
        (u.part p).delivering = false ∧ (u.part p).weightKey = none ∧ (u.part p).deliverStatus = 1 ∧ OtherParts s u p ∧ told u 0x70 0x52 0) ∧
      (∃ u : State, exec (.deliveryComplete p false) s = .next u ∧ (u.part p).delivering = false ∧ (u.part p).weightKey = none ∧
        (u.part p).deliverStatus = 2 ∧ OtherParts s u p ∧
        ((s.channel .host (2 * p + 1)).phase = .active → told u 0x70 0x51 0)))

/-- The handshake of Table SEC-3, the report and the entropy source. -/
def Obligations.SessionsOpen : Prop :=
  ∀ (s t : State) (r : Req),
    let hello := r.payload
    (Received s r t → reqNames r 0x7020 1 = true → roleOn hello r.carrier = true → helloVersion hello ≠ 0 → helloRangeOk hello = true →
      t.sec.entropyFailed = false → ∃ u : State, exec (.clientHello r) s = .next (u.reply r 0) ∧ u.fresh = t.fresh + 1 ∧
        u.parts = t.parts ∧ u.sec.sessions = t.sec.sessions ∧ ∃ h, u.handshake r.carrier = some h ∧ h.clientHello = hello ∧
        h.serverHello = t.serverHello t.fresh hello ∧ h.startedAt = t.now) ∧
    (Received s r t → reqNames r 0x7020 3 = true → ∀ h cb sb, t.handshake r.carrier = some h →
      let n := helloSession h.clientHello
      let chain := t.chainGood h.clientHello r.carrier (finishChain r.payload cb)
      let sig := h.signed r.payload cb sb
      ∃ u : State, exec (.clientFinish r cb sb) s = .next u ∧ u.handshake r.carrier = none ∧ u.dram = t.dram ∧
        (chain = true → sig = true → ∃ x, u.session n = some x ∧ x.carrier = r.carrier ∧
          x.version = min (t.service.maxima.getD 0 0) (helloVersion h.clientHello) ∧ x.shadow = [] ∧ x.rxSeq = 0 ∧ x.txSeq = 0 ∧
          x.prk = Config.hkdfExtract (helloNonce h.clientHello ++ h.serverHello.take 48) (leBytes 48 h.secret.toNat) ∧
          x.binding = Config.sha384 (h.clientHello ++ h.serverHello ++ r.payload)) ∧
        (chain = false → u.parts = t.parts ∧
          u.events = withEvent t.events ⟨t.now, 0x70, 0x30, sessPart n, [(.session, n)], []⟩) ∧
        (chain = true → sig = false → u.parts = t.parts ∧
          u.events = withEvent t.events ⟨t.now, 0x70, 0x31, sessPart n, [(.session, n)], []⟩)) ∧
    (∀ c h, s.handshake c = some h → ∃ u : State, exec (.handshakeTimeout c) s = .next u ∧ u.handshake c = none ∧
      u.now = max s.now (h.startedAt + 10000000000) ∧ u.parts = s.parts ∧ u.sec.sessions = s.sec.sessions) ∧
    (Received s r t → reqNames r 0x7010 1 = true → ∀ x, t.session r.session = some x → let scope := rd r.payload 0x30 1
      (r.session < 2 ∨ scope = r.session - 2) → scope < 32 → rd r.payload 0x31 15 = 0 → t.service.activation ≠ 1 →
        ∃ u : State, exec (.reportRequest r) s = .next (u.reply r 0) ∧ u.session r.session = some { x with
          report := t.report (r.payload.take 48) scope x.binding } ∧ u.parts = t.parts ∧ u.dram = t.dram) ∧
    (s.power.state ≠ .off → ∃ u : State, exec .entropyFailure s = .next u ∧ u.sec.entropyFailed = true ∧ u.power.state = .safe ∧
      u.parts = s.parts ∧ u.squares = s.squares ∧ u.dram = s.dram)

/-- Table SEC-7: the rotation makes the next key current and the present one previous, the sweep starts once the dies confirm, and ends with the
previous generation zeroised. -/
def Obligations.KeyRotation : Prop :=
  ∀ (s : State) (p : Nat),
    let x := s.part p
    let begun := fun (t u : State) => (u.part p).curKey = some t.sec.nextKey ∧ (u.part p).prevKey = (t.part p).curKey ∧
      (u.part p).keyGeneration = ((t.part p).keyGeneration + 1) % 2 ^ 32 ∧ (u.part p).sweepState = 0 ∧
      u.sec.nextKey = t.sec.nextKey + 1 ∧ OtherParts t u p ∧ u.dram = t.dram ∧
      u.events = withEvent t.events ⟨t.now, 0x70, 0x40, some p, [], []⟩
    (p < 16 → x.rotateInterval ≠ 0 → s.rotationCode p = 0 → ∃ u : State, exec (.rotateRequest none p) s = .next u ∧ begun s u) ∧
    (∀ t r, Received s r t → reqKeys r 2 = true → reqKeysPart r = p → reqValue r = 1 → t.rotationCode p = 0 →
      ∃ u : State, exec (.rotateRequest (some r) p) s = .next (u.reply r 0) ∧ begun t u) ∧
    (p < 16 → x.prevKey.isSome = true → x.sweepState ≠ 1 → ∃ u : State, exec (.rotationDiesConfirmed p) s = .next u ∧
      u.part p = { x with sweepState := 1, sweepRemaining := (stackPages x.pageMap).length } ∧ OtherParts s u p ∧ u.dram = s.dram) ∧
    (∀ l, p < 16 → x.sweepState = 1 → x.prevKey.isSome = true → ∃ u : State, exec (.rotationSweepDone p l) s = .next u ∧
      (u.part p).prevKey = none ∧ (u.part p).curKey = x.curKey ∧ (u.part p).sweepRemaining = 0 ∧
      (u.part p).sweepState = (if (s.sweepFails p l).isEmpty then 0 else 2) ∧
      (u.part p).unrekeyed = (s.sweepFails p l).length % 2 ^ 32 ∧ OtherParts s u p ∧ u.dram.cells = s.dram.cells)

/-! ### Ulyan (chapter 16) -/

/-- READ_REQ, WRITE_REQ and COUNTER_CLEAR whose frames are received: a read is answered with the whole object, a staged write goes into the
session's shadow, zeros clear a counter. -/
def Obligations.ObjectRequests : Prop :=
  ∀ (s t : State) (r : Req),
    let v := reqValue r
    (s.admitFrame r kRead = (t, true) → let o := t.readObject (reqWho r) r.carrier r.index r.sub
      let f := t.judgeForm r false r.payload.length
      (f ≠ 0 → exec (.readReq r) s = .next (t.answer r 0x02 f [])) ∧
      (f = 0 → o.length + (if r.sealed then 48 else 32) ≤ frameLimit r.carrier → exec (.readReq r) s = .next (t.answer r 0x02 0 o)) ∧
      (f = 0 → frameLimit r.carrier < o.length + (if r.sealed then 48 else 32) → exec (.readReq r) s = .next (t.answer r 0x02 abForm []))) ∧
    (Received s r t → hasRow r = false → t.plainCheck r = 0 → t.transferBusy r = false → ∃ u : State,
      exec (.writeReq r) s = .next (u.reply r 0) ∧ u.dram = t.dram ∧ SameSquares t u ∧ SameLinks t u ∧
      (∀ x, isStaged r = true → t.session r.session = some x → u.parts = t.parts ∧
        u.session r.session = some { x with shadow := stagePair ((r.index, r.sub), r.payload) x.shadow }) ∧
      (isStaged r = false → u.sec = t.sec ∧ OtherParts t u (if r.index / 0x1000 = 6 then reqPart r else r.index % 16)) ∧
      (reqNames6 r 2 1 = true → isStaged r = false → (u.part (reqPart r)).srcOffset = v) ∧
      (reqNames6 r 2 2 = true → isStaged r = false → (u.part (reqPart r)).bytes = v)) ∧
    (Received s r t → isCounter r.index r.sub = true → (∀ b ∈ r.payload, b = 0) → ∃ u : State,
      exec (.counterClear r) s = .next (u.reply r 0) ∧ u.statusFlags = t.statusFlags ∧ u.power = t.power ∧
      (r.index = 0x8000 → Tab.get 0 u.counters r.sub = 0 ∧ ∀ k, k ≠ r.sub → Tab.get 0 u.counters k = Tab.get 0 t.counters k) ∧
      (r.index = 0x1001 → u.flagEvents = []) ∧ (r.index = 0x3200 → u.thermal.changes = 0) ∧
      (∀ l, r.index = 0x4100 + l → l < 96 → (u.link l).counters = [] ∧ OtherLinks t u l) ∧
      (∀ p, p < 16 → r.index = 0x6030 + 0x100 * p → OtherParts t u p ∧ (r.sub = 1 → u.part p = { t.part p with closedSteps := 0 }) ∧
        (r.sub = 3 → u.part p = { t.part p with frozenWrites := 0 })))

/-- FLAG_CLEAR (R422), for every status flag of the module: a written 1 clears its flag, a written 0 and a 1 to a flag that is 0 change
nothing, and a set that comes after the clear leaves the flag 1 and counts its event. -/
def Obligations.FlagsClear : Prop :=
  ∀ (s t : State) (r : Req),
    let v := reqValue r
    (Received s r t → isFlags r.index r.sub = true → v < 2 ^ flagBits r.index → ∃ u : State, exec (.flagClear r) s = .next (u.reply r 0) ∧
      u.parts = t.parts ∧ u.squares = t.squares ∧ u.dram = t.dram ∧ u.flagEvents = t.flagEvents ∧
      (r.index = 0x1001 → u.power = t.power ∧ u.thermal = t.thermal ∧
        ∀ i, u.statusFlags.testBit i = (t.statusFlags.testBit i && !v.testBit i)) ∧
      (r.index = 0x3010 → u.statusFlags = t.statusFlags ∧
        ∀ i, u.power.supplyFlags.testBit i = (t.power.supplyFlags.testBit i && !v.testBit i)) ∧
      (r.index = 0x3210 → u.statusFlags = t.statusFlags ∧
        ∀ i, u.thermal.coolantFlags.testBit i = (t.thermal.coolantFlags.testBit i && !v.testBit i))) ∧
    (∀ (u : State) (i : Nat), (u.setFlag i).statusFlags.testBit i = true ∧
      Tab.get 0 (u.setFlag i).flagEvents i = satAdd (Tab.get 0 u.flagEvents i) 1 ∧
      ∀ j, j ≠ i → (u.setFlag i).statusFlags.testBit j = u.statusFlags.testBit j ∧
        Tab.get 0 (u.setFlag i).flagEvents j = Tab.get 0 u.flagEvents j)

/-- Segmented transfers: a start opens one, each segment in order is kept and counted, acknowledgements and a cancel end it, the oldest segment is
sent again after 100 ms and the transfer abandoned after 2 s. -/
def Obligations.SegmentedTransfers : Prop :=
  ∀ (s t : State) (r : Req) (z : SegTransfer) (n : Nat),
    let k := transferKey r
    let keeps := fun (u : State) => u.parts = s.parts ∧ u.squares = s.squares ∧ u.dram = s.dram
    (s.admitFrame r kSegStart = (t, true) → t.segCheck r = 0 → ∃ (u : State) (y : SegTransfer),
      exec (.segStart r) s = .next u ∧ keeps u ∧ u.transfer k = some y ∧ y.write = segWrites r ∧ y.total = segTotal r ∧
      y.segBytes = segSize r ∧ (segWrites r = true → y.data = [] ∧ y.next = 0) ∧
      (segWrites r = false → y.data = t.readObject (reqWho r) r.carrier r.index r.sub ∧ y.next = min 16 y.count)) ∧
    (s.writing r = some z → s.admitFrame r kSegData = (t, true) → r.rsv = 0 → r.length = r.payload.length →
      (s.lastSegment r = none → r.code = z.next → z.sizeOk r.payload.length = true → ∃ u : State, exec (.segData r) s = .next u ∧
        keeps u ∧ u.transfer k = some { z with data := z.data ++ r.payload, next := z.next + 1, lastFrame := t.now }) ∧
      (∀ v, s.lastSegment r = some v → hasRow (wholeWrite r v) = false → ∃ u : State, exec (.segData r) s = .next u ∧
        u.transfer k = none ∧ u.squares = s.squares ∧ u.dram = s.dram)) ∧
    (s.admitFrame r kSegAck = (t, true) → r.rsv = 0 → r.payload = [] → t.inTransfer r = some z → z.write = false → r.code < z.next →
      ∃ u : State, exec (.segAck r) s = .next u ∧ keeps u ∧ (z.count ≤ max z.acked (r.code + 1) → u.transfer k = none) ∧
        (max z.acked (r.code + 1) < z.count → ∃ y, u.transfer k = some y ∧ y.acked = max z.acked (r.code + 1) ∧ y.data = z.data)) ∧
    (s.admitFrame r kSegCancel = (t, true) → r.rsv = 0 → r.payload = [] → t.inTransfer r = some z →
      ∃ u : State, exec (.segCancel r) s = .next u ∧ keeps u ∧ u.transfer k = none) ∧
    (s.transfer n = some z → z.write = false → z.acked < z.next → ∃ u : State, exec (.segmentResendTimeout n) s = .next u ∧ keeps u ∧
      u.now = max s.now (z.lastSent + 100000000) ∧ u.transfer n = some { z with lastSent := u.now }) ∧
    (s.transfer n = some z → ∃ u : State, exec (.segmentTransferAbandon n) s = .next u ∧ keeps u ∧ u.transfer n = none ∧
      u.now = max s.now (z.lastFrame + 2000000000))

/-- EVENT_ACK, EVENT_RESEND and CLOSE: the acknowledged records leave the session's queue, the oldest go again, the session ends. -/
def Obligations.EventFrames : Prop :=
  ∀ (s t : State) (r : Req) (x : Session),
    let keeps := fun (u : State) => u.parts = s.parts ∧ u.squares = s.squares ∧ u.dram = s.dram
    (s.admitFrame r kEventAck = (t, true) → r.rsv = 0 → r.payload.length = 4 → r.sealed = true → t.session r.session = some x →
      ∃ u : State, exec (.eventAck r) s = .next u ∧ keeps u ∧
        u.session r.session = some { x with unacked := x.unacked.filter (fun e => decide (leNat r.payload < e.1)) }) ∧
    (∀ n, s.session n = some x → (x.unacked = [] → exec (.eventResend n) s = .next s) ∧
      (x.unacked ≠ [] → 0 < eventBatch x → ∃ u : State, exec (.eventResend n) s = .next u ∧ keeps u ∧
        u.session n = some { x with txSeq := x.txSeq + 1 } ∧ u.responses.length = s.responses.length + 1)) ∧
    (s.admitFrame r kClose = (t, true) → r.rsv = 0 → r.payload = [] → r.sealed = true → ∃ u : State, exec (.close r) s = .next u ∧
      keeps u ∧ u.session r.session = none ∧
      u.events = withEvent s.events ⟨s.now, 0x70, 0x33, sessPart r.session, [(.session, r.session)], []⟩)

/-- CHECK, CHECK_DISCARD, COMMIT and COMMIT_APPLY: the shadow is checked and its result kept; it is emptied; a commit is refused with its
conflict, is busy while pages that it adds are initialised, is applied at once where no partition of it runs, or is left to a boundary of the
running one; the pending commit is applied once. -/
def Obligations.CheckAndCommit : Prop :=
  ∀ (s t : State) (r : Req) (x : Session),
    let c := t.checkSet x.shadow
    Received s r t → t.session r.session = some x → x.committing = none →
    (reqNames r 0x2F00 1 = true → reqByteIs r 1 = true → ∃ u : State, exec (.check r) s = .next (u.reply r c.code) ∧
      u.session r.session = some { x with check := c } ∧ u.dram = t.dram ∧ u.squares = t.squares ∧ (c.code ≠ 0 → u.parts = t.parts)) ∧
    (reqNames r 0x2F00 1 = true → reqByteIs r 2 = true → ∃ u : State, exec (.checkDiscard r) s = .next (u.reply r 0) ∧
      u.session r.session = some { x with shadow := [] } ∧ u.dram = t.dram ∧ u.squares = t.squares ∧ u.parts = t.parts) ∧
    (reqNames r 0x2F00 3 = true → reqByteIs r 1 = true →
      (c.code ≠ 0 → ∃ u : State, exec (.commit r) s = .next (u.reply r c.code) ∧ u.parts = t.parts ∧ u.dram = t.dram ∧
        u.session r.session = some { x with check := c }) ∧
      (let t1 := t.updSession r.session (fun y => { y with check := c })
       (c.code = 0 → t1.initDone x.shadow = false → exec (.commit r) s = .next ((t1.beginInit x.shadow).reply r abBusy)) ∧
       (c.code = 0 → t1.initDone x.shadow = true →
        (t1.runningIn x.shadow = none → exec (.commit r) s =
          .next (((t1.applySet x.shadow).updSession r.session (fun y => { y with shadow := [] })).reply r 0)) ∧
        (∀ p, t1.runningIn x.shadow = some p → ∃ u : State, exec (.commit r) s = .next u ∧ u.parts = t.parts ∧ u.dram = t.dram ∧
          u.session r.session = some { x with check := c, committing := some r } ∧
          u.sec.commits = t.sec.commits ++ [{ session := r.session, part := some p, set := x.shadow, request := r
                                              at_ := (t.part p).turnStart ((t.part p).firstTurnFrom (t.now + 20000)) }])))) ∧
    (∀ n d, s.sec.commits.find? (fun y => decide (y.session = n)) = some d → ∃ u : State, exec (.commitApply n) s = .next u ∧
      d ∉ u.sec.commits ∧ (∀ e ∈ s.sec.commits, e ≠ d → e ∈ u.sec.commits) ∧
      u.now = if d.part.any (fun p => decide ((s.part p).runState = .running) || decide ((s.part p).runState = .draining)) then
        max s.now d.at_ else s.now)

/-! ### Power and temperature (chapters 17 and 18) -/

/-- POWER_ACTIVE, POWER_STANDBY and POWER_SLEEP in the states that take them, PAD_RELEASE, WAKE_SOURCE and WAKE_BURST. POWER_SLEEP begins an
entry into SLEEP and takes its first step; a wake source that is enabled, or POWER_ACTIVE, abandons an entry or wakes the module into READY
with its pads held. -/
def Obligations.PowerCommands : Prop :=
  ∀ (s t : State) (r : Req) (source : Nat),
    let st := t.power.state
    (Received s r t → isPowerCommand r 3 = true → t.power.sleepEntry = false →
      (st = .standby ∨ (st = .ready ∧ t.training = false ∧ t.power.padHeld = 0) → ∃ u : State,
        exec (.powerActive r) s = .next (u.reply r 0) ∧ u.power.state = .active ∧ u.parts = t.parts ∧ u.dram = t.dram ∧
        (∀ q, q < 144 → (u.sq q).ls = [] ∧ (u.sq q).acc = [] ∧ (u.sq q).lut = [] ∧ (u.sq q).owner = (t.sq q).owner) ∧
        (t.power.selfTested = false → u.service.selfTest = 1 ∧ u.service.selfTestKind = 1)) ∧
      (st = .active → exec (.powerActive r) s = .next (t.reply r 0)) ∧
      (st = .sleep → ∃ u : State, exec (.powerActive r) s = .next (u.reply r 0) ∧ u.power.state = .ready ∧ u.power.wakeCause = 4 ∧
        u.squares = t.squares ∧ u.parts = t.parts ∧ u.dram = t.dram)) ∧
    (Received s r t → isPowerCommand r 3 = true → st = .standby → t.power.sleepEntry = true → ∃ u : State,
      exec (.powerActive r) s = .next (u.reply r 0) ∧ u.power = { t.power with sleepEntry := false } ∧ u.aslet.sleepAsked = false ∧
      u.parts = t.parts ∧ u.squares = t.squares ∧ u.dram = t.dram) ∧
    (Received s r t → isPowerCommand r 4 = true → st = .standby → exec (.powerStandby r) s = .next (t.reply r 0)) ∧
    (Received s r t → isPowerCommand r 4 = true →
      (st = .active ∧ t.busyParts = false) ∨ (st = .ready ∧ t.training = false ∧ t.power.padHeld = 0) → ∃ u : State,
        exec (.powerStandby r) s = .next (u.reply r 0) ∧ u.power.state = .standby ∧ u.squares = t.squares ∧ u.parts = t.parts ∧
        u.dram = t.dram) ∧
    (Received s r t → isPowerCommand r 5 = true → st = .standby → t.power.sleepEntry = false → ∃ u : State,
      exec (.powerSleep r) s = .next u ∧ u.squares = t.squares ∧ u.parts = t.parts ∧ u.dram = t.dram ∧
      (t.hostIdle = false → u.power = { t.power with sleepEntry := true }) ∧
      (t.hostIdle = true → t.aslet.up = true → t.aslet.lane0 = true → t.aslet.lowRate = false →
        u.power = { t.power with sleepEntry := true } ∧ u.aslet.sleepAsked = true) ∧
      (t.hostIdle = true → t.aslet.up = false ∨ t.aslet.lane0 = false ∨ t.aslet.lowRate = true →
        ((∃ l, l < 96 ∧ (t.link l).state ≠ 0) → u.power = { t.power with sleepEntry := true } ∧ ∀ l, l < 96 → (u.link l).state = 0) ∧
        ((∀ l, l < 96 → (t.link l).state = 0) → u.power.state = .sleep ∧ u.power.sleepEntry = false))) ∧
    (Received s r t → isPowerCommand r 5 = true → st = .sleep → exec (.powerSleep r) s = .next (t.reply r 0)) ∧
    (Received s r t → reqNames r 0x3100 2 = true → reqValue r < 2 ^ 14 → clearBits (reqValue r) (domainsOn st) = 0 → ∃ u : State,
      exec (.padRelease r) s = .next (u.reply r 0) ∧ u.power.state = st ∧ u.squares = t.squares ∧ u.parts = t.parts ∧ u.dram = t.dram ∧
      ∀ i, u.power.padHeld.testBit i = (t.power.padHeld.testBit i && !(reqValue r).testBit i)) ∧
    (source < 3 →
      (s.power.wakeSources.testBit source = false → exec (.wakeSource source) s = .next s) ∧
      (s.power.wakeSources.testBit source = true → s.power.sleepEntry = true → ∃ u : State, exec (.wakeSource source) s = .next u ∧
        u.power = { s.power with sleepEntry := false } ∧ u.aslet.sleepAsked = false ∧ u.parts = s.parts ∧ u.squares = s.squares) ∧
      (s.power.wakeSources.testBit source = true → s.power.sleepEntry = false → s.power.state = .sleep → ∃ u : State,
        exec (.wakeSource source) s = .next u ∧ u.power.state = .ready ∧ u.power.wakeCause = source + 1 ∧
        u.power.padHeld = s.power.padHeld ∧ u.parts = s.parts ∧ u.squares = s.squares ∧ u.dram = s.dram) ∧
      (s.power.sleepEntry = false → s.power.state ≠ .sleep → exec (.wakeSource source) s = .next s)) ∧
    exec .wakeBurst s = exec (.wakeSource 1) s ∧ ∃ u : State, exec .wakeBurst s = .next u

/-- The input supply, the power limit, a rail that shuts down and a brown-out of the always-on domain. -/
def Obligations.SupplyEvents : Prop :=
  ∀ s : State,
    let told := fun (u : State) (detail : Nat) (loc : List (LocKind × Nat)) =>
      u.events = withEvent s.events ⟨s.now, 0x90, detail, none, loc, []⟩
    let off := s.power.state = .off
    let lost := fun (u : State) (cause : Nat) => u.power.state = .off ∧ u.power.pendingCause = cause ∧ u.sec.sessions = [] ∧
      u.dram.cells = [] ∧ u.parts = [] ∧ u.squares = []
    let keeps := fun (u : State) => u.parts = s.parts ∧ u.squares = s.squares ∧ u.dram = s.dram
    (∀ v, ∃ u : State, exec (.inputValid v) s = .next u ∧ keeps u ∧ u.power.inputVoltage = v ∧
      (off → atLeast v 44 = true → above v 60 = false → u.power.state = .boot ∧ u.slotId = s.slotPins % 8 ∧
        u.coordinatorSilent = false ∧ u.power.reverseLatch = false ∧ told u 7 []) ∧
      (¬off → u.power = { s.power with inputVoltage := v } ∧ u.events = s.events)) ∧
    (¬off → ∃ u : State, exec .inputLow s = .next u ∧ keeps u ∧ u.power = s.power ∧ told u 1 []) ∧
    (¬off → ∃ u : State, exec .inputLost s = .next u ∧ lost u 2 ∧ u.statusFlags = s.statusFlags) ∧
    (∀ v lasted, ¬off → above v 58 = true → ∃ u : State, exec (.inputOvervoltage v lasted) s = .next u ∧
      (above v 60 = false → keeps u ∧ u.power.state = s.power.state ∧ u.power.supplyFlags.testBit 1 = true ∧ told u 2 []) ∧
      (above v 60 = true → lasted ≤ 100000 → keeps u ∧ u.power.state = s.power.state ∧ u.power.supplyFlags.testBit 1 = true) ∧
      (above v 60 = true → 100000 < lasted → lost u 3)) ∧
    (∃ u : State, exec .inputReversed s = .next u ∧ u.power.state = .off ∧ u.power.reverseLatch = true) ∧
    (∀ w, ¬off → s.power.limited = false → above w 3200 = true → ∃ u : State, exec (.powerLimit w) s = .next u ∧ keeps u ∧
      u.power.limited = true ∧ u.power.inputPower = w ∧ (∀ d, d < 36 → u.domainMv d = 680) ∧ told u 3 []) ∧
    (∀ w, ∃ u : State, exec (.powerLimitEnd w) s = .next u ∧ keeps u ∧ u.events = s.events ∧
      u.power = { s.power with inputPower := w, limited := if below w 3100 then false else s.power.limited }) ∧
    (∀ rail, rail < 24 → ¬off → ∃ u : State, exec (.railShutdown rail) s = .next u ∧
      (rail ≤ 21 → keeps u ∧ u.power.state = .safe ∧ Tab.get 0 u.power.rails rail = 2 ∧ u.power.supplyFlags.testBit 2 = true) ∧
      (rail = 22 → lost u 2) ∧
      (rail = 23 → keeps u ∧ u.power.state = s.power.state ∧ Tab.get 0 u.power.rails rail = 2 ∧ told u 4 [(.rail, rail)])) ∧
    (¬off → ∃ u : State, exec .aonBrownout s = .next u ∧ u.power.state = .boot ∧ u.statusFlags = s.statusFlags ||| 4 ∧ u.parts = [] ∧
      u.squares = [] ∧ u.sec.sessions = [] ∧ u.power.resetCause = if s.power.reverseLatch then 3 else 1)

/-- The temperature samples move the level of their zone, or the module into SAFE at the limit; the coolant's inlet and flow. -/
def Obligations.TemperatureSamples : Prop :=
  ∀ (s : State) (reading power : Word),
    let judged := fun (u : State) (z : Nat) =>
      (atLeast reading ((zoneThresholds z).getD 3 0) = true → u.power.state = .safe ∧ u.zoneLevel z = s.zoneLevel z) ∧
      (atLeast reading ((zoneThresholds z).getD 3 0) = false → u.zoneLevel z = newLevel z (s.zoneLevel z) reading ∧
        u.power.state = s.power.state ∧ (newLevel z (s.zoneLevel z) reading = s.zoneLevel z → u.events = s.events ∧ u.parts = s.parts)) ∧
      (∀ k, k ≠ z → u.zoneLevel k = s.zoneLevel k) ∧ u.squares = s.squares ∧ u.dram.cells = s.dram.cells
    let told := fun (u : State) (detail : Nat) => u.events = withEvent s.events ⟨s.now, 0x90, detail, none, [], []⟩
    let keeps := fun (u : State) => u.parts = s.parts ∧ u.squares = s.squares ∧ u.dram = s.dram
    (∀ st, st < 32 → s.power.state = .ready ∨ s.power.state = .active ∨ s.power.state = .standby → ∃ u : State,
      exec (.stackTemperatureSample st reading) s = .next u ∧ (u.stack st).temperature = reading ∧ judged u st) ∧
    (∀ die, die < 4 → s.power.state = .active → ∃ u : State, exec (.junctionTemperatureSample die reading) s = .next u ∧
      Tab.get 0 u.thermal.junction die = reading ∧ judged u (32 + die)) ∧
    (s.power.state ≠ .off → ∃ u : State, exec (.coolantInletHigh reading) s = .next u ∧ keeps u ∧ u.thermal.inlet = reading ∧
      (above reading 40 = true → u.thermal.coolantFlags = s.thermal.coolantFlags ||| 1 ∧ told u 0x0A) ∧
      (above reading 40 = false → u.thermal.coolantFlags = s.thermal.coolantFlags ∧ u.events = s.events)) ∧
    (s.power.state ≠ .off → ∃ u : State, exec (.coolantFlowLow reading power) s = .next u ∧ keeps u ∧ u.thermal.outlet = reading ∧
      u.power = { s.power with inputPower := power } ∧
      let f := dec32 (((s.updThermal (fun x => { x with outlet := reading })).updPower (fun x => { x with inputPower := power })).flowEstimate).toNat
      (f.isZero = false → f.lt ((valNat 7).div (valNat 2)) = true → u.thermal.coolantFlags = s.thermal.coolantFlags ||| 2 ∧ told u 0x0B) ∧
      (f.isZero = true ∨ f.lt ((valNat 7).div (valNat 2)) = false → u.thermal.coolantFlags = s.thermal.coolantFlags ∧ u.events = s.events))

/-! ### Start-up and live service (chapter 19) -/

/-- FIRMWARE_VERIFIED and the self-test: the active image, else the other one, else SAFE; a test that ends clears every Square and keeps
what it found. -/
def Obligations.StartUpAndTests : Prop :=
  ∀ (s t : State) (r : Req),
    let n := s.service.active
    let q := r.index - 0x9000
    (∀ a b, s.power.state = .boot → n ≤ 1 → let pass := if n = 0 then a else b
      let other := if n = 0 then b else a
      ∃ u : State, exec (.firmwareVerified a b) s = .next u ∧ u.parts = s.parts ∧ u.squares = s.squares ∧
        (pass = true → u.power.state = .ready ∧ u.service.active = n ∧ u.power.memTraining = true ∧
          u.service.fwMeasurement = (s.image n).measurement ∧ u.sec.aliasGeneration = s.sec.aliasGeneration + 1) ∧
        (pass = false → other = true → u.power.state = .ready ∧ u.service.active = 1 - n ∧ (u.image n).state = 4) ∧
        (pass = false → other = false → u.power.state = .safe ∧ (u.image n).state = 4 ∧ (u.image (1 - n)).state = 4)) ∧
    (Received s r t → reqNames r 0x8200 2 = true → reqValue r = 1 → t.service.selfTest ≠ 1 → t.busyParts = false → t.power.state = .active →
      ∃ u : State, exec (.selfTestRequest r) s = .next (u.reply r 0) ∧ SameCore { t with service := u.service } u ∧
        u.service = { t.service with selfTest := 1, selfTestKind := 2 }) ∧
    (∀ l, s.service.selfTest = 1 → ∃ u : State, exec (.selfTestEnd l) s = .next u ∧
      u.service.selfTestResult = s.selfTestBytes l ∧ u.parts = s.parts ∧ u.power = s.power ∧
      u.service.selfTest = (if (List.range 148).all (fun k => decide (failBits l k = 0)) then 2 else 3) ∧
      (∀ k, k < 144 → (u.sq k).ls = [] ∧ (u.sq k).acc = [] ∧ (u.sq k).recs = [] ∧ (u.sq k).owner = (s.sq k).owner)) ∧
    (Received s r t → reqSquare r 0x0F = true → t.arrayCode r = 0 → ∀ rows cols, ∃ u : State,
      exec (.arrayTestRequest r rows cols) s = .next (u.reply r 0) ∧ (u.physSq q).testRows = rows ∧ (u.physSq q).testCols = cols ∧
      (u.physSq q).testPassed = (rows.isEmpty && cols.isEmpty) ∧ (u.physSq q).fuses = (t.physSq q).fuses ∧
      (∀ k, k ≠ q → u.physSq k = t.physSq k) ∧ u.squares = t.squares ∧ u.parts = t.parts) ∧
    (Received s r t → reqSquare r 0x10 = true → t.arrayCode r = 0 → ∀ rows cols, ∃ u : State,
      exec (.arrayRepairRequest r rows cols) s = .next (u.reply r 0) ∧ u.squares = t.squares ∧ u.parts = t.parts ∧
      (∀ k, k ≠ q → u.physSq k = t.physSq k) ∧
      (t.beyondRepair q = true → (u.physSq q).repairState = 2 ∧ (u.physSq q).fuses = (t.physSq q).fuses) ∧
      (t.beyondRepair q = false → (u.physSq q).testRows = rows ∧ (u.physSq q).testCols = cols ∧
        (rows ≠ [] ∨ cols ≠ [] → (u.physSq q).repairState = 2)))

/-- The commands of firmware activation (Table SVC-4) and Square migration (Table SVC-5) complete. STAGE_IMAGE keeps the image in the slot that
is not active, as staged only where it verifies and its maxima reach every version in use; ACTIVATE begins an activation with the Hold of cause
5 in every Table; ACTIVATION_HELD runs the new image 14 ms after the Holds took effect, or marks one that does not verify; ACTIVATION_TIMEOUT
gives up 20 ms after them; the Holds end either way. SQUARE_MIGRATION_TRIGGER takes a free reserve that passes its test; TEST_PASSED requests
the Holds; COPY moves the Square to the reserve with its stores, or gives up at an uncorrectable value or after 100 ms. -/
def Obligations.LiveService : Prop :=
  ∀ (s t : State) (r : Req) (q die : Nat),
    let other := 1 - t.service.active
    (Received s r t → reqNames r 0x1F52 1 = true → t.service.activation ≠ 1 → ∀ ok maxima, ∃ u : State,
      exec (.stageImage r ok maxima) s = .next (u.reply r 0) ∧ u.parts = t.parts ∧ u.squares = t.squares ∧
      (u.image other).measurement = Config.sha384 r.payload ∧ u.service.active = t.service.active ∧
      (u.image other).state = (if ok && t.imageFits maxima then 3 else 4) ∧
      u.service.stageStatus = (if ok && t.imageFits maxima then 2 else 3)) ∧
    (Received s r t → reqNames r 0x1F53 0 = true → reqValue r = 1 → t.service.activation ≠ 1 → (t.image other).state = 3 → ∃ u : State,
      exec (.activate r) s = .next (u.reply r 0) ∧ u.service.activation = 1 ∧ u.service.activatedAt = t.now ∧
      u.squares = t.squares ∧ ∀ p, p < 16 → (t.part p).tabled = true → 5 ∈ (u.part p).ownHold) ∧
    (∀ verified, s.service.activation = 1 → s.moduleHeld 5 = true → s.now ≤ s.activationFrom + 20000000 → ∃ u : State,
      exec (.activationHeld verified) s = .next u ∧ u.now = max s.now (s.activationFrom + 14000000) ∧ u.squares = s.squares ∧
      (∀ p, p < 16 → 5 ∉ (u.part p).ownHold) ∧
      (verified = true → u.service.activation = 2 ∧ u.service.active = 1 - s.service.active ∧
        u.service.fwMeasurement = (s.image (1 - s.service.active)).measurement ∧ u.sec.aliasGeneration = s.sec.aliasGeneration + 1) ∧
      (verified = false → u.service.activation = 3 ∧ u.service.active = s.service.active)) ∧
    (s.service.activation = 1 → s.moduleHeld 5 = true → ∃ u : State, exec .activationTimeout s = .next u ∧ u.service.activation = 3 ∧
      u.service.active = s.service.active ∧ u.now = max s.now (s.activationFrom + 20000000) ∧ (∀ k, u.image k = s.image k) ∧
      u.service.maxima = s.service.maxima ∧ u.service.fwMeasurement = s.service.fwMeasurement ∧ u.squares = s.squares ∧
      ∀ p, p < 16 → 5 ∉ (u.part p).ownHold) ∧
    (∀ passed, q < 144 → s.power.state = .active → (s.sq q).wantsReserve = true → s.migration (sqDie q) = none →
      ∃ u : State, exec (.squareMigrationTrigger q passed) s = .next u ∧ (u.sq q).overran = false ∧ u.parts = s.parts ∧
        (∀ k, k ≠ q → u.sq k = s.sq k) ∧
        (s.reserveFree (reserveOf q) = true → passed = true →
          u.migration (sqDie q) = some { square := q, target := some (reserveOf q), holding := false }) ∧
        (s.reserveFree (reserveOf q) = false ∨ passed = false → u.migration (sqDie q) = none)) ∧
    (∀ m, die < 4 → s.migration die = some m → m.holding = false → s.defersMigration = false → s.power.state = .active →
      ∃ u : State, exec (.squareMigrationTestPassed die) s = .next u ∧ u.migration die = some { m with holding := true } ∧
        u.squares = s.squares ∧ ∀ p, p < 16 → (s.part p).tabled = true → squareHold die ∈ (u.part p).ownHold) ∧
    (∀ m bad, die < 4 → s.migration die = some m → m.holding = true → s.moduleHeld (squareHold die) = true → s.power.state = .active →
      ∃ u : State, exec (.squareMigrationCopy die bad) s = .next u ∧ u.migration die = none ∧
        (∀ p, p < 16 → squareHold die ∉ (u.part p).ownHold) ∧
        (bad = true ∨ (s.sq m.square).badValue = true ∨ s.holdLong (squareHold die) = true → u.squares = s.squares ∧ u.phys = s.phys) ∧
        (bad = false → (s.sq m.square).badValue = false → s.holdLong (squareHold die) = false →
          (u.sq m.square).carrier = m.target ∧ (u.sq m.square).ls = (s.sq m.square).ls ∧ (u.sq m.square).acc = (s.sq m.square).acc ∧
          ∀ k, m.target = some k → k ≠ m.square → (u.physSq k).carries = some m.square))
end

