-- ==== Sys2Proof/Laws/Content.lean ====
section
/-!
SUPPORT. What stands in memory: an intact byte decrypts to what was stored, a translation entry reads back what was recorded, a
logical line stands on a physical line that no fuse disables.
-/

namespace Sys2Proof.Machine

open Sys2Proof

/-! ### Bytes of a number -/

theorem leNat_lt (l : List Byte) : leNat l < 256 ^ l.length := by
  induction l with
  | nil => simp [leNat]
  | cons b r ih =>
    have hb := b.isLt
    rw [leNat, List.length_cons, pow_succ]
    omega

theorem leNat_byte (l : List Byte) (i : Nat) : leNat l / 256 ^ i % 256 = (byteAt l i).toNat := by
  induction l generalizing i with
  | nil => simp [leNat, byteAt]
  | cons b r ih =>
    have hb : b.toNat < 256 := b.isLt
    cases i with
    | zero => simp only [leNat, byteAt, pow_zero, Nat.div_one, List.drop_zero, List.headD_cons]; omega
    | succ i =>
      have : leNat (b :: r) / 256 ^ (i + 1) = leNat r / 256 ^ i := by
        rw [pow_succ', ← Nat.div_div_eq_div_mul, leNat]
        congr 1
        omega
      rw [this, ih i]
      simp [byteAt]

/-- A byte of a slice is the byte of the whole. -/
theorem byteAt_slice (l : List Byte) (off n i : Nat) (h : i < n) : byteAt (slice l off n) i = byteAt l (off + i) := by
  simp only [byteAt, slice, List.headD_eq_head?_getD, List.head?_drop, List.getElem?_take, h, if_true, List.getElem?_drop]

theorem State.byteAt_sectorBytes (s : State) (pa i : Nat) (h : i < 64) :
    byteAt (s.sectorBytes pa) i = s.plainByte (pa / 64 * 64 + i) := by
  simp [byteAt, State.sectorBytes, List.headD_eq_head?_getD, List.head?_drop, h]

/-! ### Reads -/

/-- An intact byte is what the reader's decryption of the stored bits gives (R304, R310, R393). -/
theorem State.stackByte_eq_decrypted (s : State) (who pa : Nat) : s.stackByte who pa = s.decrypted who pa := by
  unfold State.stackByte
  split
  next h =>
    unfold State.byteIntact State.sealedFor at h
    simp only [Bool.and_eq_true, decide_eq_true_eq] at h
    obtain ⟨⟨⟨ho, hk⟩, hg⟩, he⟩ := h
    have hb : s.readBlock pa (pa % 64 / 16) = s.sealedBlock pa (pa % 64 / 16) := by
      unfold State.readBlock
      rw [he]
      simp
    unfold State.decrypted
    dsimp only
    rw [hb, hk, hg]
    unfold State.sealedBlock
    dsimp only
    rw [ho, Equiv.symm_apply_apply, BitVec.toNat_ofNat]
    have hl := leNat_lt (slice (s.sectorBytes pa) (16 * (pa % 64 / 16)) 16)
    have hn : (slice (s.sectorBytes pa) (16 * (pa % 64 / 16)) 16).length ≤ 16 := by simp [slice]
    have hm : leNat (slice (s.sectorBytes pa) (16 * (pa % 64 / 16)) 16) < 2 ^ 128 :=
      lt_of_lt_of_le hl (le_trans (Nat.pow_le_pow_right (by norm_num) hn) (by norm_num))
    rw [Nat.mod_eq_of_lt hm]
    apply BitVec.eq_of_toNat_eq
    rw [BitVec.toNat_ofNat, show (2 : Nat) ^ 8 = 256 from rfl, leNat_byte, byteAt_slice _ _ _ _ (by omega),
      State.byteAt_sectorBytes _ _ _ (by omega)]
    congr 2
    omega
  next => rfl

/-! ### Translation entries -/

theorem bit_eq (n i : Nat) : bit n i = decide (n / 2 ^ i % 2 = 1) := Nat.testBit_eq_decide_div_mod_eq

theorem fld_eq (n lo len : Nat) : fld n lo len = n / 2 ^ lo % 2 ^ len := by rw [fld, Nat.shiftRight_eq_div_pow]

/-- Decoding an entry's word gives the entry back, for every page and Square the fields hold (R133). -/
theorem pageEntry_word (e : PageEntry) (hp : e.page < if e.isLocal then 256 else 2 ^ 25)
    (hs : e.square < if e.isLocal then 256 else 1) : pageEntry e.word = some e := by
  obtain ⟨r, w, k, p, q⟩ := e
  cases k
  · have hq : q = 0 := by simpa using hs
    subst hq
    replace hp : p < 2 ^ 25 := hp
    have hw : (⟨r, w, false, p, 0⟩ : PageEntry).word = 1 + (if r then 2 else 0) + (if w then 4 else 0) + p * 2 ^ 16 := by
      unfold PageEntry.word
      rw [if_neg (by simp : ¬ (false = true)), Nat.mod_eq_of_lt hp]
    have h0 : bit (⟨r, w, false, p, 0⟩ : PageEntry).word 0 = true := by rw [hw, bit_eq, decide_eq_true_eq]; split <;> split <;> omega
    have h1 : bit (⟨r, w, false, p, 0⟩ : PageEntry).word 1 = r := by
      rw [hw, bit_eq]; cases r <;> cases w <;> simp <;> omega
    have h2 : bit (⟨r, w, false, p, 0⟩ : PageEntry).word 2 = w := by
      rw [hw, bit_eq]; cases r <;> cases w <;> simp <;> omega
    have h3 : bit (⟨r, w, false, p, 0⟩ : PageEntry).word 3 = false := by
      rw [hw, bit_eq, decide_eq_false_iff_not]; split <;> split <;> omega
    have h4 : bit (⟨r, w, false, p, 0⟩ : PageEntry).word 4 = false := by
      rw [hw, bit_eq, decide_eq_false_iff_not]; split <;> split <;> omega
    have h5 : fld (⟨r, w, false, p, 0⟩ : PageEntry).word 5 11 = 0 := by rw [hw, fld_eq]; split <;> split <;> omega
    have h6 : fld (⟨r, w, false, p, 0⟩ : PageEntry).word 41 23 = 0 := by rw [hw, fld_eq]; split <;> split <;> omega
    have h7 : fld (⟨r, w, false, p, 0⟩ : PageEntry).word 16 25 = p := by rw [hw, fld_eq]; split <;> split <;> omega
    simp [pageEntry, h0, h1, h2, h3, h4, h5, h6, h7]
  · replace hp : p < 256 := hp
    replace hs : q < 256 := hs
    have hw : (⟨r, w, true, p, q⟩ : PageEntry).word =
        1 + (if r then 2 else 0) + (if w then 4 else 0) + (8 + p * 2 ^ 16 + q * 2 ^ 24) := by
      simp [PageEntry.word, Nat.mod_eq_of_lt hp, Nat.mod_eq_of_lt hs]
    have h0 : bit (⟨r, w, true, p, q⟩ : PageEntry).word 0 = true := by rw [hw, bit_eq, decide_eq_true_eq]; split <;> split <;> omega
    have h1 : bit (⟨r, w, true, p, q⟩ : PageEntry).word 1 = r := by
      rw [hw, bit_eq]; cases r <;> cases w <;> simp <;> omega
    have h2 : bit (⟨r, w, true, p, q⟩ : PageEntry).word 2 = w := by
      rw [hw, bit_eq]; cases r <;> cases w <;> simp <;> omega
    have h3 : bit (⟨r, w, true, p, q⟩ : PageEntry).word 3 = true := by
      rw [hw, bit_eq, decide_eq_true_eq]; split <;> split <;> omega
    have h4 : bit (⟨r, w, true, p, q⟩ : PageEntry).word 4 = false := by
      rw [hw, bit_eq, decide_eq_false_iff_not]; split <;> split <;> omega
    have h5 : fld (⟨r, w, true, p, q⟩ : PageEntry).word 5 11 = 0 := by rw [hw, fld_eq]; split <;> split <;> omega
    have h6 : fld (⟨r, w, true, p, q⟩ : PageEntry).word 41 23 = 0 := by rw [hw, fld_eq]; split <;> split <;> omega
    have h7 : fld (⟨r, w, true, p, q⟩ : PageEntry).word 16 8 = p := by rw [hw, fld_eq]; split <;> split <;> omega
    have h8 : fld (⟨r, w, true, p, q⟩ : PageEntry).word 24 8 = q := by rw [hw, fld_eq]; split <;> split <;> omega
    have h9 : fld (⟨r, w, true, p, q⟩ : PageEntry).word 32 9 = 0 := by rw [hw, fld_eq]; split <;> split <;> omega
    simp [pageEntry, h0, h1, h2, h3, h4, h5, h6, h7, h8, h9]

/-! ### Rows and columns of an array -/

/-- A logical line stands on a physical line that no fuse field disables (R191). -/
theorem State.physLine_on (s : State) (q i n k : Nat) (h : s.physLine q i n = some k) :
    k < 130 ∧ k ≠ s.fuse q i ∧ k ≠ s.fuse q (i + 1) := by
  have hm := List.mem_of_getElem? h
  simp only [List.mem_filter, List.mem_range, Bool.and_eq_true, decide_eq_true_eq] at hm
  exact ⟨hm.1, Ne.symm hm.2.1, Ne.symm hm.2.2⟩

end Sys2Proof.Machine
end

