-- ==== Sys2Proof/Laws/Mem.lean ====
section
/-!
SUPPORT. Sparse tables and canonical memories: what a read gives after a write, and that every operation keeps the
canonical form.
-/

namespace Sys2Proof.Machine

open Sys2Proof

/-! ### Tables -/

@[simp] theorem Tab.get_nil {α : Type} (d : α) (n : Nat) : Tab.get d [] n = d := rfl

theorem Tab.get_put {α : Type} (d : α) (t : Tab α) (n m : Nat) (x : α) :
    Tab.get d (Tab.put t n x) m = if n = m then x else Tab.get d t m := by
  induction t with
  | nil => by_cases h : n = m <;> simp [Tab.put, Tab.get, h]
  | cons e r ih =>
    obtain ⟨k, v⟩ := e
    unfold Tab.put
    by_cases h1 : k = n
    · subst h1; by_cases h : k = m <;> simp [Tab.get, h]
    · by_cases h2 : n < k
      · rw [if_neg h1, if_pos h2]; by_cases h : n = m <;> simp [Tab.get, h]
      · simp only [h1, h2, if_false, Tab.get, ih]
        by_cases h : k = m
        · subst h; simp [Ne.symm h1]
        · simp [h]

@[simp] theorem Tab.get_put_same {α : Type} (d : α) (t : Tab α) (n : Nat) (x : α) : Tab.get d (Tab.put t n x) n = x := by
  simp [Tab.get_put]

theorem Tab.get_upd {α : Type} (d : α) (t : Tab α) (n m : Nat) (f : α → α) :
    Tab.get d (Tab.upd d t n f) m = if n = m then f (Tab.get d t n) else Tab.get d t m := by
  simp [Tab.upd, Tab.get_put]

@[simp] theorem Tab.get_upd_same {α : Type} (d : α) (t : Tab α) (n : Nat) (f : α → α) :
    Tab.get d (Tab.upd d t n f) n = f (Tab.get d t n) := by simp [Tab.get_upd]

theorem Tab.get_upd_ne {α : Type} (d : α) (t : Tab α) {n m : Nat} (h : n ≠ m) (f : α → α) :
    Tab.get d (Tab.upd d t n f) m = Tab.get d t m := by simp [Tab.get_upd, h]

/-! ### Canonical memories -/

theorem Mem.rising_mono {α : Type} {m : List (Nat × α)} {lo hi : Nat} (h : lo ≤ hi) (w : Mem.rising hi m = true) :
    Mem.rising lo m = true := by
  cases m with
  | nil => rfl
  | cons e r =>
    simp only [Mem.rising, Bool.and_eq_true, decide_eq_true_eq] at w ⊢
    exact ⟨by omega, w.2⟩

theorem Mem.rising_put {α : Type} (m : List (Nat × α)) (lo a : Nat) (v : α) (h : lo ≤ a) (w : Mem.rising lo m = true) :
    Mem.rising lo (Tab.put m a v) = true := by
  induction m generalizing lo with
  | nil => simp [Tab.put, Mem.rising, h]
  | cons e r ih =>
    simp only [Mem.rising, Bool.and_eq_true, decide_eq_true_eq] at w
    unfold Tab.put
    split
    · next hk => subst hk; simp [Mem.rising, h, w.2]
    · split
      · next hk => simp [Mem.rising, h, w.2]; omega
      · simp only [Mem.rising, Bool.and_eq_true, decide_eq_true_eq]; exact ⟨w.1, ih _ (by omega) w.2⟩

theorem Mem.rising_erase {α : Type} (m : List (Nat × α)) (lo a : Nat) (w : Mem.rising lo m = true) :
    Mem.rising lo (Mem.erase m a) = true := by
  induction m generalizing lo with
  | nil => rfl
  | cons e r ih =>
    simp only [Mem.rising, Bool.and_eq_true, decide_eq_true_eq] at w
    unfold Mem.erase
    split
    · exact Mem.rising_mono (by omega) (ih _ w.2)
    · simp only [Mem.rising, Bool.and_eq_true, decide_eq_true_eq]; exact ⟨w.1, ih _ w.2⟩

theorem Mem.mem_put {α : Type} (m : List (Nat × α)) (a : Nat) (v : α) (c : Nat × α) (h : c ∈ Tab.put m a v) :
    c = (a, v) ∨ c ∈ m := by
  induction m with
  | nil => simpa [Tab.put] using h
  | cons e r ih =>
    unfold Tab.put at h
    split at h
    · rcases List.mem_cons.1 h with h | h
      · exact .inl h
      · exact .inr (List.mem_cons_of_mem _ h)
    · split at h
      · rcases List.mem_cons.1 h with h | h
        · exact .inl h
        · exact .inr h
      · rcases List.mem_cons.1 h with h | h
        · exact .inr (by simp [h])
        · rcases ih h with h | h
          · exact .inl h
          · exact .inr (List.mem_cons_of_mem _ h)

theorem Mem.mem_erase {α : Type} (m : List (Nat × α)) (a : Nat) (c : Nat × α) (h : c ∈ Mem.erase m a) : c ∈ m := by
  induction m with
  | nil => exact h
  | cons e r ih =>
    unfold Mem.erase at h
    split at h
    · exact List.mem_cons_of_mem _ (ih h)
    · rcases List.mem_cons.1 h with h | h
      · simp [h]
      · exact List.mem_cons_of_mem _ (ih h)

section
variable {α : Type} [DecidableEq α] {d : α} {m : List (Nat × α)}

theorem Mem.wf_nil : Mem.wf d ([] : List (Nat × α)) = true := rfl

/-- A put of a value other than the default keeps the canonical form. -/
theorem Mem.wf_put {a : Nat} {v : α} (hv : v ≠ d) (w : Mem.wf d m = true) : Mem.wf d (Tab.put m a v) = true := by
  simp only [Mem.wf, Bool.and_eq_true, List.all_eq_true, decide_eq_true_eq] at w ⊢
  refine ⟨Mem.rising_put m 0 a v (Nat.zero_le a) w.1, fun c hc => ?_⟩
  rcases Mem.mem_put m a v c hc with h | h
  · simpa [h] using hv
  · exact w.2 c h

theorem Mem.wf_erase (a : Nat) (w : Mem.wf d m = true) : Mem.wf d (Mem.erase m a) = true := by
  simp only [Mem.wf, Bool.and_eq_true, List.all_eq_true, decide_eq_true_eq] at w ⊢
  exact ⟨Mem.rising_erase m 0 a w.1, fun c hc => w.2 c (Mem.mem_erase m a c hc)⟩

/-- Every write keeps the canonical form. -/
theorem Mem.wf_write (a : Nat) (v : α) (w : Mem.wf d m = true) : Mem.wf d (Mem.write d m a v) = true := by
  unfold Mem.write
  split
  · exact Mem.wf_erase a w
  · next h => exact Mem.wf_put h w

theorem Mem.wf_writeAll (a : Nat) (l : List α) (w : Mem.wf d m = true) : Mem.wf d (Mem.writeAll d m a l) = true := by
  induction l generalizing m a with
  | nil => exact w
  | cons v r ih => exact ih (a + 1) (Mem.wf_write a v w)

theorem Mem.rising_filter {β : Type} (f : Nat × β → Bool) (l : List (Nat × β)) (lo : Nat) (w : Mem.rising lo l = true) :
    Mem.rising lo (l.filter f) = true := by
  induction l generalizing lo with
  | nil => rfl
  | cons e r ih =>
    simp only [Mem.rising, Bool.and_eq_true, decide_eq_true_eq] at w
    rw [List.filter_cons]
    split
    · simp only [Mem.rising, Bool.and_eq_true, decide_eq_true_eq]; exact ⟨w.1, ih _ w.2⟩
    · exact Mem.rising_mono (by omega) (ih _ w.2)

/-- A part of a canonical memory is canonical. -/
theorem Mem.wf_filter (f : Nat × α → Bool) (w : Mem.wf d m = true) : Mem.wf d (m.filter f) = true := by
  simp only [Mem.wf, Bool.and_eq_true, List.all_eq_true, decide_eq_true_eq] at w ⊢
  exact ⟨Mem.rising_filter f m 0 w.1, fun c hc => w.2 c (List.mem_of_mem_filter hc)⟩

/-- Puts of values other than the default, one after another. -/
theorem Mem.wf_puts {β : Type} (key : β → Nat) (val : β → α) (l : List β) (hv : ∀ e ∈ l, val e ≠ d) (w : Mem.wf d m = true) :
    Mem.wf d (l.foldl (fun t e => Tab.put t (key e) (val e)) m) = true := by
  induction l generalizing m with
  | nil => exact w
  | cons e r ih =>
    exact ih (fun x hx => hv x (List.mem_cons_of_mem _ hx)) (Mem.wf_put (hv e (List.mem_cons_self ..)) w)

theorem Mem.wf_values (w : Mem.wf d m = true) : ∀ e ∈ m, e.2 ≠ d := by
  simp only [Mem.wf, Bool.and_eq_true, List.all_eq_true, decide_eq_true_eq] at w
  exact w.2

end

theorem Mem.read_erase {α : Type} (d : α) (m : List (Nat × α)) (a b : Nat) :
    Mem.read d (Mem.erase m a) b = if a = b then d else Mem.read d m b := by
  induction m with
  | nil => simp [Mem.erase, Mem.read]
  | cons e r ih =>
    obtain ⟨k, v⟩ := e
    simp only [Mem.read] at ih ⊢
    unfold Mem.erase
    by_cases hk : k = a
    · simp only [hk, if_true, ih, Tab.get]; by_cases hb : a = b <;> simp [hb]
    · simp only [hk, if_false, Tab.get, ih]
      by_cases hb : k = b
      · subst hb; simp [Ne.symm hk]
      · simp [hb]

/-- A read after a write gives the value written there, and what was there everywhere else. -/
theorem Mem.read_write {α : Type} [DecidableEq α] (d : α) (m : List (Nat × α)) (a b : Nat) (v : α) :
    Mem.read d (Mem.write d m a v) b = if a = b then v else Mem.read d m b := by
  unfold Mem.write
  split
  · next h => rw [Mem.read_erase, h]
  · exact Tab.get_put d m a b v

/-- A run of writes: the values written, and every other place as before. -/
theorem Mem.read_writeAll {α : Type} [DecidableEq α] (d : α) (m : List (Nat × α)) (a b : Nat) (l : List α) :
    Mem.read d (Mem.writeAll d m a l) b =
      if a ≤ b ∧ b < a + l.length then l.getD (b - a) d else Mem.read d m b := by
  induction l generalizing m a with
  | nil => simp [Mem.writeAll]
  | cons v r ih =>
    rw [Mem.writeAll, ih, Mem.read_write]
    by_cases h1 : a + 1 ≤ b ∧ b < a + 1 + r.length
    · have h2 : a ≤ b ∧ b < a + (v :: r).length := by simp only [List.length_cons]; omega
      rw [if_pos h1, if_pos h2]
      obtain ⟨k, rfl⟩ : ∃ k, b = a + 1 + k := ⟨b - (a + 1), by omega⟩
      rw [show a + 1 + k - a = k + 1 by omega, show a + 1 + k - (a + 1) = k by omega]
      simp
    · rw [if_neg h1]
      by_cases hb : a = b
      · subst hb; simp
      · rw [if_neg hb, if_neg]; simp only [List.length_cons]; omega

end Sys2Proof.Machine
end

