-- ==== Sys2Proof/Laws/Goes.lean ====
section
/-!
SUPPORT. What every shared operation keeps: the queue, the order of time, the invariant (Goes). One lemma per operation; this
file holds the relation itself and the updates of State.
-/

namespace Sys2Proof.Machine

open Sys2Proof

variable {s0 s t : State}

theorem Goes.refl (s : State) : Goes s s := ⟨rfl, le_rfl, id⟩

theorem Goes.trans (h : Goes s0 s) (k : Goes s t) : Goes s0 t :=
  ⟨k.1.trans h.1, h.2.1.trans k.2.1, fun i => k.2.2 (h.2.2 i)⟩

/-- An update of fields that the invariant does not speak of. -/
theorem Goes.mk {f1 f2 f3 f4 f5 f6 f7 d f8 f9 f10 f11 f12 f13 f14 f15 f16 f17 f18 f19 f20 f21 f22 f23 f24}
    (h : Goes s0 s) (hd : Dram.cells d = s.dram.cells) :
    Goes s0 (State.mk s.now f1 s.pending s.squares f2 f3 f4 f5 f6 f7 d f8 f9 f10 f11 f12 f13 s.events f14
      f15 f16 f17 f18 f19 f20 f21 f22 f23 f24) :=
  h.trans ⟨rfl, le_rfl, fun i => ⟨i.1, by rw [hd]; exact i.2.1, i.2.2⟩⟩

/-- A list of changes, each of which goes. -/
theorem Goes.foldl {α : Type} {f : State → α → State} (l : List α) (hf : ∀ t x, Goes s0 t → Goes s0 (f t x)) (h : Goes s0 s) :
    Goes s0 (l.foldl f s) := by
  induction l generalizing s with
  | nil => exact h
  | cons x r ih => exact ih (hf s x h)

theorem State.updSq_goes (q : Nat) (f : Square → Square) (hf : ∀ x, x.storesOk → (f x).storesOk) (h : Goes s0 s) :
    Goes s0 (s.updSq q f) := by
  refine h.trans ⟨rfl, le_rfl, fun i => ⟨i.1, i.2.1, fun k => ?_⟩⟩
  show (Tab.get {} (Tab.upd {} s.squares q f) k).storesOk
  rw [Tab.get_upd]
  split
  · exact hf _ (i.2.2 q)
  · exact i.2.2 k

theorem State.updPart_goes (p : Nat) (f : Partition → Partition) (h : Goes s0 s) : Goes s0 (s.updPart p f) := h.mk rfl
theorem State.updLink_goes (l : Nat) (f : Link → Link) (h : Goes s0 s) : Goes s0 (s.updLink l f) := h.mk rfl
theorem State.updGroup_goes (g : Nat) (f : LinkGroup → LinkGroup) (h : Goes s0 s) : Goes s0 (s.updGroup g f) := h.mk rfl
theorem State.updPhys_goes (q : Nat) (f : Phys → Phys) (h : Goes s0 s) : Goes s0 (s.updPhys q f) := h.mk rfl
theorem State.updStack_goes (n : Nat) (f : Stack → Stack) (h : Goes s0 s) : Goes s0 (s.updStack n f) := h.mk rfl
theorem State.updMemDie_goes (d : Nat) (f : MemDie → MemDie) (h : Goes s0 s) : Goes s0 (s.updMemDie d f) := h.mk rfl
theorem State.updAslet_goes (f : Aslet → Aslet) (h : Goes s0 s) : Goes s0 (s.updAslet f) := h.mk rfl
theorem State.updPower_goes (f : Power → Power) (h : Goes s0 s) : Goes s0 (s.updPower f) := h.mk rfl
theorem State.updThermal_goes (f : Thermal → Thermal) (h : Goes s0 s) : Goes s0 (s.updThermal f) := h.mk rfl
theorem State.updService_goes (f : Service → Service) (h : Goes s0 s) : Goes s0 (s.updService f) := h.mk rfl
theorem State.updSec_goes (f : Security → Security) (h : Goes s0 s) : Goes s0 (s.updSec f) := h.mk rfl

/-- Time goes on, never back. -/
theorem State.reach_goes (n : Nat) (h : Goes s0 s) : Goes s0 (s.reach n) :=
  h.trans ⟨rfl, le_max_left .., fun i => ⟨i.1, i.2.1, i.2.2⟩⟩

/-! ### The stores of a Square -/

theorem Square.foldl_ok {α : Type} {f : Square → α → Square} {x : Square} (l : List α)
    (hf : ∀ y z, y.storesOk → (f y z).storesOk) (hx : x.storesOk) : (l.foldl f x).storesOk := by
  induction l generalizing x with
  | nil => exact hx
  | cons z r ih => exact ih (hf x z hx)

theorem Square.lsPut_ok {x : Square} (a : Nat) (b : Byte) (hx : x.storesOk) :
    ({ x with ls := Mem.write 0 x.ls a b } : Square).storesOk := ⟨Mem.wf_write _ _ hx.1, hx.2⟩

theorem Square.lutPut_ok {x : Square} (a : Nat) (l : List Byte) (hx : x.storesOk) :
    ({ x with lut := Mem.writeAll 0 x.lut a l } : Square).storesOk := ⟨hx.1, hx.2.1, Mem.wf_writeAll _ _ hx.2.2⟩

end Sys2Proof.Machine
end

