-- ==== Sys2Proof/Laws/GoesOps.lean ====
section
/-!
SUPPORT. What every shared operation keeps (Goes): memory, links, Holds, freezing.
-/

namespace Sys2Proof.Machine

open Sys2Proof

/-! ### Ops -/

theorem Square.updPlayer_ok {x : Square} (n : Nat) (f : Player → Player) (hg : x.storesOk) :
    (Square.updPlayer x n f).storesOk := by
  unfold Square.updPlayer
  try dsimp only
  repeat' (first | with_reducible exact hg | with_reducible assumption | exact hg | (intro _))

theorem Square.updEntry_ok {x : Square} (e : Nat) (f : Entry → Entry) (hg : x.storesOk) :
    (Square.updEntry x e f).storesOk := by
  unfold Square.updEntry
  try dsimp only
  repeat' (first | with_reducible exact hg | with_reducible assumption | exact hg | (intro _))

theorem State.updPlayer_goes {s0 s : State} (q : Nat) (n : Nat) (f : Player → Player) (hg : Goes s0 s) :
    Goes s0 (State.updPlayer s q n f) := by
  unfold State.updPlayer
  try dsimp only
  repeat' first
    | with_reducible exact hg | with_reducible assumption | with_reducible apply State.updSq_goes
    | with_reducible apply Square.updPlayer_ok | (intro x hx; exact hx) | (intro _)

theorem State.updEntry_goes {s0 s : State} (q : Nat) (e : Nat) (f : Entry → Entry) (hg : Goes s0 s) :
    Goes s0 (State.updEntry s q e f) := by
  unfold State.updEntry
  try dsimp only
  repeat' first
    | with_reducible exact hg | with_reducible assumption | with_reducible apply State.updSq_goes
    | with_reducible apply Square.updEntry_ok | (intro x hx; exact hx) | (intro _)

theorem State.putSession_goes {s0 s : State} (n : Nat) (x : Session) (hg : Goes s0 s) :
    Goes s0 (State.putSession s n x) := by
  unfold State.putSession
  try dsimp only
  repeat' first
    | with_reducible exact hg | with_reducible assumption | with_reducible apply State.updSec_goes | (intro _)
    | with_reducible refine Goes.mk ?_ rfl

theorem State.updSession_goes {s0 s : State} (n : Nat) (f : Session → Session) (hg : Goes s0 s) :
    Goes s0 (State.updSession s n f) := by
  unfold State.updSession
  try dsimp only
  repeat' first
    | with_reducible exact hg | with_reducible assumption | with_reducible apply State.putSession_goes | split | (intro _)

theorem State.count_goes {s0 s : State} (sub : Nat) (hg : Goes s0 s) :
    Goes s0 (State.count s sub) := by
  unfold State.count
  try dsimp only
  repeat' (first | with_reducible exact hg | with_reducible assumption | (intro _) | with_reducible refine Goes.mk ?_ rfl)

theorem State.updChannel_goes {s0 s : State} (m : MoverId) (ch : Nat) (f : Channel → Channel) (hg : Goes s0 s) :
    Goes s0 (State.updChannel s m ch f) := by
  unfold State.updChannel
  try dsimp only
  repeat' first
    | with_reducible exact hg | with_reducible assumption | with_reducible apply State.updSq_goes
    | with_reducible apply State.updLink_goes | with_reducible apply State.updAslet_goes | (intro x hx; exact hx) | split
    | (intro _) | with_reducible refine Goes.mk ?_ rfl

theorem State.draw_goes {s0 s : State} (hg : Goes s0 s) :
    Goes s0 (State.draw s).2 := by
  unfold State.draw
  try dsimp only
  repeat' (first | with_reducible exact hg | with_reducible assumption | (intro _) | with_reducible refine Goes.mk ?_ rfl)

theorem State.setFlag_goes {s0 s : State} (b : Nat) (hg : Goes s0 s) :
    Goes s0 (State.setFlag s b) := by
  unfold State.setFlag
  try dsimp only
  repeat' (first | with_reducible exact hg | with_reducible assumption | (intro _) | with_reducible refine Goes.mk ?_ rfl)

theorem State.putFrame_goes {s0 s : State} (f : Response) (x : Option Session) (hg : Goes s0 s) :
    Goes s0 (State.putFrame s f x) := by
  unfold State.putFrame
  try dsimp only
  repeat' first
    | with_reducible exact hg | with_reducible assumption | with_reducible apply State.updAslet_goes | split | (intro _)
    | with_reducible refine Goes.mk ?_ rfl

theorem State.sendFrame_goes {s0 s : State} (sess : Option Nat) (f : Response) (hg : Goes s0 s) :
    Goes s0 (State.sendFrame s sess f) := by
  unfold State.sendFrame
  try dsimp only
  repeat' first
    | with_reducible exact hg | with_reducible assumption | with_reducible apply State.putFrame_goes
    | with_reducible apply State.updSession_goes | split | (intro _) | with_reducible refine Goes.mk ?_ rfl

theorem State.sendEvent_goes {s0 s : State} (sess : Nat) (number : Nat) (c : Carrier) (e : Event) (hg : Goes s0 s) :
    Goes s0 (State.sendEvent s sess number c e) := by
  unfold State.sendEvent
  try dsimp only
  repeat' (first | with_reducible exact hg | with_reducible assumption | with_reducible apply State.sendFrame_goes)

theorem State.deliver_goes {s0 s : State} (e : Event) (sess : Nat) (hg : Goes s0 s) :
    Goes s0 (State.deliver s e sess) := by
  unfold State.deliver
  try dsimp only
  repeat' first
    | with_reducible exact hg | with_reducible assumption | with_reducible apply State.count_goes
    | with_reducible apply State.setFlag_goes | with_reducible apply State.sendEvent_goes
    | with_reducible apply State.updSession_goes | split | (intro _) | with_reducible refine Goes.mk ?_ rfl

/-- The last 1,024 of a list. -/
theorem last_length {α : Type} (l : List α) : (l.drop (l.length - 1024)).length ≤ 1024 := by
  rw [List.length_drop]
  rcases Nat.le_total l.length 1024 with h | h
  · exact le_trans (Nat.sub_le _ _) h
  · exact (Nat.sub_sub_self h).le

theorem Goes.events {s0 s : State} (l : List Event) (n : Nat) (hl : l.length ≤ 1024) (hg : Goes s0 s) :
    Goes s0 { s with events := l, eventsRaised := n } := hg.trans ⟨rfl, le_rfl, fun i => ⟨hl, i.2.1, i.2.2⟩⟩

theorem State.raise_goes {s0 s : State} (cls detail : Nat) (part : Option Nat) (loc : List (LocKind × Nat)) (arg : List Nat)
    (hg : Goes s0 s) : Goes s0 (s.raise cls detail part loc arg) := by
  unfold State.raise
  dsimp only
  generalize hl : s.events ++ _ = l
  refine Goes.foldl _ (fun t x ht => ?_) (Goes.events _ _ (last_length l) hg)
  split
  · exact State.deliver_goes _ _ ht
  · exact ht

/-! ### Sectors -/

theorem State.freshDevice_goes {s0 s : State} (area : Nat → Bool) (hg : Goes s0 s) : Goes s0 (s.freshDevice area) :=
  hg.trans ⟨rfl, le_rfl, fun i => ⟨i.1, Mem.wf_filter _ i.2.1, i.2.2⟩⟩

theorem State.setPageMap_goes {s0 s : State} (p : Nat) (m : List PageRun) (hg : Goes s0 s) :
    Goes s0 (State.setPageMap s p m) := by
  unfold State.setPageMap
  try dsimp only
  repeat' first
    | with_reducible exact hg | with_reducible assumption | with_reducible apply State.freshDevice_goes
    | with_reducible apply State.updPart_goes | split | (intro _) | with_reducible refine Goes.mk ?_ rfl

/-! ### Freeze -/

theorem State.abortChannel_goes {s0 s : State} (m : MoverId) (ch : Nat) (cause : Nat) (hg : Goes s0 s) :
    Goes s0 (State.abortChannel s m ch cause) := by
  unfold State.abortChannel
  try dsimp only
  repeat' first
    | with_reducible exact hg | with_reducible assumption | with_reducible apply State.updChannel_goes | split | (intro _)
    | with_reducible refine Goes.mk ?_ rfl

theorem State.cancelChannel_goes {s0 s : State} (m : MoverId) (ch : Nat) (cause : Nat) (hg : Goes s0 s) :
    Goes s0 (State.cancelChannel s m ch cause) := by
  unfold State.cancelChannel
  try dsimp only
  repeat' first
    | with_reducible exact hg | with_reducible assumption | with_reducible apply State.updChannel_goes | split | (intro _)
    | with_reducible refine Goes.mk ?_ rfl

theorem State.freezeBut_goes {s0 s : State} (p : Nat) (cause : Nat) (spare : Option (MoverId × Nat)) (hg : Goes s0 s)
    :
    Goes s0 (State.freezeBut s p cause spare) := by
  unfold State.freezeBut
  try dsimp only
  repeat' first
    | with_reducible exact hg | with_reducible assumption | with_reducible apply State.abortChannel_goes
    | with_reducible apply State.updPart_goes | with_reducible apply Square.foldl_ok
    | with_reducible refine Goes.foldl _ ?_ ?_ | with_reducible refine Square.foldl_ok _ ?_ ?_ | split | (intro _)
    | with_reducible refine Goes.mk ?_ rfl

theorem State.freeze_goes {s0 s : State} (p : Nat) (cause : Nat) (hg : Goes s0 s) :
    Goes s0 (State.freeze s p cause) := by
  unfold State.freeze
  try dsimp only
  repeat' (first | with_reducible exact hg | with_reducible assumption | with_reducible apply State.freezeBut_goes)

theorem State.opFault_goes {s0 s : State} (q : Nat) (pl : Nat) (detail : Nat) (loc : List (LocKind × Nat)) (hg : Goes
    s0 s) :
    Goes s0 (State.opFault s q pl detail loc) := by
  unfold State.opFault
  try dsimp only
  repeat' first
    | with_reducible exact hg | with_reducible assumption | with_reducible apply State.raise_goes
    | with_reducible apply State.freezeBut_goes | with_reducible apply State.updPlayer_goes
    | with_reducible apply Square.updPlayer_ok | (intro _) | with_reducible refine Goes.mk ?_ rfl

theorem State.placeFault_goes {s0 s : State} (p : Nat) (detail : Nat) (loc : List (LocKind × Nat)) (hg : Goes s0 s) :
    Goes s0 (State.placeFault s p detail loc) := by
  unfold State.placeFault
  try dsimp only
  repeat' first
    | with_reducible exact hg | with_reducible assumption | with_reducible apply State.raise_goes
    | with_reducible apply State.freeze_goes

theorem State.transFault_goes {s0 s : State} (p : Nat) (detail : Nat) (va : Nat) (pool : Nat) (loc : List (LocKind ×
    Nat)) (hg : Goes s0 s) :
    Goes s0 (State.transFault s p detail va pool loc) := by
  unfold State.transFault
  try dsimp only
  repeat' first
    | with_reducible exact hg | with_reducible assumption | with_reducible apply State.raise_goes
    | with_reducible apply State.freeze_goes

theorem State.addSlot_goes {s0 s : State} (q : Nat) (pl : Nat) (slot : Nat) (source : List (LocKind × Nat)) (hg : Goes
    s0 s) :
    Goes s0 (State.addSlot s q pl slot source) := by
  unfold State.addSlot
  try dsimp only
  repeat' first
    | with_reducible exact hg | with_reducible assumption | with_reducible apply State.opFault_goes
    | with_reducible apply State.updPlayer_goes | with_reducible apply Square.updPlayer_ok | split | (intro _)
    | with_reducible refine Goes.mk ?_ rfl

theorem State.endChannel_goes {s0 s : State} (m : MoverId) (ch : Nat) (state : Nat) (cause : Nat) (hg : Goes s0 s) :
    Goes s0 (State.endChannel s m ch state cause) := by
  unfold State.endChannel
  try dsimp only
  repeat' first
    | with_reducible exact hg | with_reducible assumption | with_reducible apply State.updChannel_goes | split | (intro _)
    | with_reducible refine Goes.mk ?_ rfl

theorem State.dropTokens_goes {s0 s : State} (p : Nat) (hg : Goes s0 s) :
    Goes s0 (State.dropTokens s p) := by
  unfold State.dropTokens
  try dsimp only
  repeat' first
    | with_reducible exact hg | with_reducible assumption | with_reducible apply State.updMemDie_goes
    | with_reducible apply Square.foldl_ok | with_reducible refine Goes.foldl _ ?_ ?_
    | with_reducible refine Square.foldl_ok _ ?_ ?_ | (intro _) | with_reducible refine Goes.mk ?_ rfl

theorem State.enterFaulted_goes {s0 s : State} (p : Nat) (hg : Goes s0 s) :
    Goes s0 (State.enterFaulted s p) := by
  unfold State.enterFaulted
  try dsimp only
  repeat' first
    | with_reducible exact hg | with_reducible assumption | with_reducible apply State.endChannel_goes
    | with_reducible apply State.dropTokens_goes | with_reducible apply State.updPart_goes
    | with_reducible apply Square.foldl_ok | with_reducible refine Goes.foldl _ ?_ ?_
    | with_reducible refine Square.foldl_ok _ ?_ ?_ | (intro _) | with_reducible refine Goes.mk ?_ rfl

theorem State.dataError_goes {s0 s : State} (p : Nat) (va : Option Nat) (latch : Bool) (hg : Goes s0 s) :
    Goes s0 (State.dataError s p va latch) := by
  unfold State.dataError
  try dsimp only
  repeat' first
    | with_reducible exact hg | with_reducible assumption | with_reducible apply State.updPart_goes | split | (intro _)
    | with_reducible refine Goes.mk ?_ rfl

/-! ### LinkSend -/

theorem State.sendTxn_goes {s0 s : State} (l : Nat) (t : Txn) (hg : Goes s0 s) :
    Goes s0 (State.sendTxn s l t) := by
  unfold State.sendTxn
  try dsimp only
  repeat' (first | with_reducible exact hg | with_reducible assumption | with_reducible apply State.updLink_goes | (intro _))

theorem State.sendRoute_goes {s0 s : State} (p : Nat) (route : List Byte) (t : Txn) (hg : Goes s0 s) :
    Goes s0 (State.sendRoute s p route t) := by
  unfold State.sendRoute
  try dsimp only
  repeat' first
    | with_reducible exact hg | with_reducible assumption | with_reducible apply State.sendTxn_goes | split | (intro _)
    | with_reducible refine Goes.mk ?_ rfl

theorem State.sendSeat_goes {s0 s : State} (p : Nat) (seat : Nat) (t : Txn) (hg : Goes s0 s) :
    Goes s0 (State.sendSeat s p seat t) := by
  unfold State.sendSeat
  try dsimp only
  repeat' first
    | with_reducible exact hg | with_reducible assumption | with_reducible apply State.sendRoute_goes | split | (intro _)

theorem State.sendOrdered_goes {s0 s : State} (p : Nat) (l : Nat) (m : TableMsg) (hg : Goes s0 s) :
    Goes s0 (State.sendOrdered s p l m) := by
  unfold State.sendOrdered
  try dsimp only
  repeat' (first | with_reducible exact hg | with_reducible assumption | with_reducible apply State.sendTxn_goes | split)

theorem State.flood_goes {s0 s : State} (p : Nat) (m : TableMsg) (except : Option Nat) (hg : Goes s0 s) :
    Goes s0 (State.flood s p m except) := by
  unfold State.flood
  try dsimp only
  repeat' first
    | with_reducible exact hg | with_reducible assumption | with_reducible apply State.sendOrdered_goes
    | with_reducible apply Square.foldl_ok | with_reducible refine Goes.foldl _ ?_ ?_
    | with_reducible refine Square.foldl_ok _ ?_ ?_ | split | (intro _) | with_reducible refine Goes.mk ?_ rfl

theorem State.remember_goes {s0 s : State} (p : Nat) (m : TableMsg) (hg : Goes s0 s) :
    Goes s0 (State.remember s p m) := by
  unfold State.remember
  try dsimp only
  repeat' first
    | with_reducible exact hg | with_reducible assumption | with_reducible apply State.updPart_goes | (intro _)
    | with_reducible refine Goes.mk ?_ rfl

theorem State.rememberOn_goes {s0 s : State} (p : Nat) (l : Nat) (m : TableMsg) (hg : Goes s0 s) :
    Goes s0 (State.rememberOn s p l m) := by
  unfold State.rememberOn
  try dsimp only
  repeat' first
    | with_reducible exact hg | with_reducible assumption | with_reducible apply State.updPart_goes | (intro _)
    | with_reducible refine Goes.mk ?_ rfl

theorem State.offerKey_goes {s0 s : State} (p : Nat) (l : Nat) (hg : Goes s0 s) :
    Goes s0 (State.offerKey s p l) := by
  unfold State.offerKey
  try dsimp only
  repeat' first
    | with_reducible exact hg | with_reducible assumption | with_reducible apply State.sendTxn_goes
    | with_reducible apply State.updLink_goes | split | (intro _) | with_reducible refine Goes.mk ?_ rfl

theorem State.installKey_goes {s0 s : State} (p : Nat) (l : Nat) (slot : Nat) (point : List Byte) (hg : Goes s0 s) :
    Goes s0 (State.installKey s p l slot point) := by
  unfold State.installKey
  try dsimp only
  repeat' first
    | with_reducible exact hg | with_reducible assumption | with_reducible apply State.updLink_goes | (intro _)
    | with_reducible refine Goes.mk ?_ rfl

theorem State.dropTableKeys_goes {s0 s : State} (p : Nat) (hg : Goes s0 s) :
    Goes s0 (State.dropTableKeys s p) := by
  unfold State.dropTableKeys
  try dsimp only
  repeat' (first | with_reducible exact hg | with_reducible assumption | (intro _) | with_reducible refine Goes.mk ?_ rfl)

/-! ### LinkRecv -/

theorem State.linkEvent_goes {s0 s : State} (cls : Nat) (detail : Nat) (l : Nat) (lane : Option Nat) (hg : Goes s0 s)
    :
    Goes s0 (State.linkEvent s cls detail l lane) := by
  unfold State.linkEvent
  try dsimp only
  repeat' first
    | with_reducible exact hg | with_reducible assumption | with_reducible apply State.raise_goes | split | (intro _)

theorem State.timeLost_goes {s0 s : State} (l : Nat) (hg : Goes s0 s) :
    Goes s0 (State.timeLost s l) := by
  unfold State.timeLost
  try dsimp only
  repeat' first
    | with_reducible exact hg | with_reducible assumption | with_reducible apply State.raise_goes | split | (intro _)
    | with_reducible refine Goes.mk ?_ rfl

theorem State.linkFall_goes {s0 s : State} (l : Nat) (detail : Nat) (again : Bool) (hg : Goes s0 s) :
    Goes s0 (State.linkFall s l detail again) := by
  unfold State.linkFall
  try dsimp only
  repeat' first
    | with_reducible exact hg | with_reducible assumption | with_reducible apply State.count_goes
    | with_reducible apply State.linkEvent_goes | with_reducible apply State.timeLost_goes
    | with_reducible apply State.updLink_goes | split | (intro _)

theorem State.laneFails_goes {s0 s : State} (l : Nat) (rx : Bool) (c : Nat) (hg : Goes s0 s) :
    Goes s0 (State.laneFails s l rx c) := by
  unfold State.laneFails
  try dsimp only
  repeat' first
    | with_reducible exact hg | with_reducible assumption | with_reducible apply State.updGroup_goes | split | (intro _)
    | with_reducible refine Goes.mk ?_ rfl

theorem State.takeAck_goes {s0 s : State} (l : Nat) (ack : Nat) (hg : Goes s0 s) :
    Goes s0 (State.takeAck s l ack) := by
  unfold State.takeAck
  try dsimp only
  repeat' first
    | with_reducible exact hg | with_reducible assumption | with_reducible apply State.count_goes
    | with_reducible apply State.linkEvent_goes | with_reducible apply State.laneFails_goes
    | with_reducible apply State.updLink_goes | split | (intro _) | with_reducible refine Goes.mk ?_ rfl

theorem State.resendFrame_goes {s0 s : State} (l : Nat) (seq : Nat) (hg : Goes s0 s) :
    Goes s0 (State.resendFrame s l seq) := by
  unfold State.resendFrame
  try dsimp only
  repeat' first
    | with_reducible exact hg | with_reducible assumption | with_reducible apply State.count_goes
    | with_reducible apply State.linkFall_goes | with_reducible apply State.updLink_goes | split | (intro _)
    | with_reducible refine Goes.mk ?_ rfl

theorem State.sendNak_goes {s0 s : State} (l : Nat) (seq : Nat) (hg : Goes s0 s) :
    Goes s0 (State.sendNak s l seq) := by
  unfold State.sendNak
  try dsimp only
  repeat' first
    | with_reducible exact hg | with_reducible assumption | with_reducible apply State.updLink_goes | (intro _)
    | with_reducible refine Goes.mk ?_ rfl

theorem State.sendAck_goes {s0 s : State} (l : Nat) (hg : Goes s0 s) :
    Goes s0 (State.sendAck s l) := by
  unfold State.sendAck
  try dsimp only
  repeat' first
    | with_reducible exact hg | with_reducible assumption | with_reducible apply State.updLink_goes | (intro _)
    | with_reducible refine Goes.mk ?_ rfl

/-- An outcome that, where it is a next state, goes. -/
def OutGoes (s0 : State) (o : Out) : Prop := ∀ t, o = .next t → Goes s0 t

theorem OutGoes.next {s0 u : State} (h : Goes s0 u) : OutGoes s0 (.next u) := fun t ht => by cases ht; exact h

theorem OutGoes.onUnit {s0 u : State} (b : Bool) (h : Goes s0 u) : OutGoes s0 (onUnit b u) := by
  unfold Machine.onUnit
  split
  · exact OutGoes.next h
  · intro t ht; cases ht

theorem State.takeTrains_goes {s0 s : State} (n l : Nat) (hg : Goes s0 s) : Goes s0 (State.takeTrains n s l) := by
  induction n generalizing s with
 | zero => exact hg
 | succ n ih =>
    unfold State.takeTrains
    dsimp only
    split
    · exact hg
    split
    · exact ih (State.updLink_goes _ _ hg)
    split
    · exact hg
    split
    · exact hg
    · exact ih (State.updLink_goes _ _ hg)
    · exact State.linkEvent_goes _ _ _ _ (State.linkFall_goes _ _ _ (State.updLink_goes _ _ (State.updLink_goes _ _ hg)))
    · exact ih (State.updLink_goes _ _ (State.updLink_goes _ _ hg))

theorem State.takeStream_goes {s0 s : State} (l : Nat) (hg : Goes s0 s) : Goes s0 (s.takeStream l) :=
  State.takeTrains_goes _ l hg

theorem State.deliverFrame_goes {s0 s : State} (l : Nat) (seq : Nat) (flits : List Byte) (hg : Goes s0 s) :
    Goes s0 (State.deliverFrame s l seq flits) := by
  unfold State.deliverFrame
  try dsimp only
  repeat' first
    | with_reducible exact hg | with_reducible assumption | with_reducible apply State.count_goes
    | with_reducible apply State.linkEvent_goes | with_reducible apply State.laneFails_goes
    | with_reducible apply State.takeStream_goes | with_reducible apply State.updLink_goes | split | (intro _)
    | with_reducible refine Goes.mk ?_ rfl

theorem State.deliverHeld_goes {s0 s : State} (n l : Nat) (hg : Goes s0 s) : Goes s0 (State.deliverHeld n s l) := by
  induction n generalizing s with
 | zero => exact hg
 | succ n ih =>
    unfold State.deliverHeld
    dsimp only
    split
    · exact ih (State.deliverFrame_goes _ _ _ (State.updLink_goes _ _ hg))
    · exact hg

theorem State.orderFrame_goes {s0 s : State} (l seq : Nat) (flits : List Byte) (hg : Goes s0 s) :
    Goes s0 (s.orderFrame l seq flits) := by
  unfold State.orderFrame
  dsimp only
  split
  · exact State.deliverHeld_goes _ _ (State.deliverFrame_goes _ _ _ hg)
  split
  · exact State.sendNak_goes _ _ (State.updLink_goes _ _ hg)
  · exact hg

/-! ### Hold -/

theorem State.holdEvent_goes {s0 s : State} (p : Nat) (cause : Nat) (outcome : Nat) (seat : Nat) (hg : Goes s0 s) :
    Goes s0 (State.holdEvent s p cause outcome seat) := by
  unfold State.holdEvent
  try dsimp only
  repeat' (first | with_reducible exact hg | with_reducible assumption | with_reducible apply State.raise_goes)

theorem State.takeHold_goes {s0 s : State} (p : Nat) (seat : Nat) (cause : Nat) (target : Nat) (hg : Goes s0 s) :
    Goes s0 (State.takeHold s p seat cause target) := by
  unfold State.takeHold
  try dsimp only
  repeat' first
    | with_reducible exact hg | with_reducible assumption | with_reducible apply State.holdEvent_goes
    | with_reducible apply State.updPart_goes | split | (intro _)

theorem State.requestHold_goes {s0 s : State} (p : Nat) (cause : Nat) (hg : Goes s0 s) :
    Goes s0 (State.requestHold s p cause) := by
  unfold State.requestHold
  try dsimp only
  repeat' first
    | with_reducible exact hg | with_reducible assumption | with_reducible apply State.flood_goes
    | with_reducible apply State.remember_goes | with_reducible apply State.takeHold_goes
    | with_reducible apply State.updPart_goes | split | (intro _) | with_reducible refine Goes.mk ?_ rfl

theorem State.releaseHold_goes {s0 s : State} (p : Nat) (cause : Nat) (outcome : Nat) (hg : Goes s0 s) :
    Goes s0 (State.releaseHold s p cause outcome) := by
  unfold State.releaseHold
  try dsimp only
  repeat' first
    | with_reducible exact hg | with_reducible assumption | with_reducible apply State.flood_goes
    | with_reducible apply State.remember_goes | with_reducible apply State.holdEvent_goes
    | with_reducible apply State.updPart_goes | split | (intro _) | with_reducible refine Goes.mk ?_ rfl

theorem State.holdModule_goes {s0 s : State} (cause : Nat) (hg : Goes s0 s) :
    Goes s0 (State.holdModule s cause) := by
  unfold State.holdModule
  try dsimp only
  repeat' first
    | with_reducible exact hg | with_reducible assumption | with_reducible apply State.requestHold_goes
    | with_reducible apply Square.foldl_ok | with_reducible refine Goes.foldl _ ?_ ?_
    | with_reducible refine Square.foldl_ok _ ?_ ?_ | (intro _)

theorem State.releaseModule_goes {s0 s : State} (cause : Nat) (outcome : Nat) (hg : Goes s0 s) :
    Goes s0 (State.releaseModule s cause outcome) := by
  unfold State.releaseModule
  try dsimp only
  repeat' first
    | with_reducible exact hg | with_reducible assumption | with_reducible apply State.releaseHold_goes
    | with_reducible apply Square.foldl_ok | with_reducible refine Goes.foldl _ ?_ ?_
    | with_reducible refine Square.foldl_ok _ ?_ ?_ | (intro _)

theorem State.beginRetrain_goes {s0 s : State} (l : Nat) (hg : Goes s0 s) :
    Goes s0 (State.beginRetrain s l) := by
  unfold State.beginRetrain
  try dsimp only
  repeat' first
    | with_reducible exact hg | with_reducible assumption | with_reducible apply State.timeLost_goes
    | with_reducible apply State.updLink_goes | split | (intro _) | with_reducible refine Goes.mk ?_ rfl

theorem State.beginRetrains_goes {s0 s : State} (hg : Goes s0 s) :
    Goes s0 (State.beginRetrains s) := by
  unfold State.beginRetrains
  try dsimp only
  repeat' first
    | with_reducible exact hg | with_reducible assumption | with_reducible apply State.beginRetrain_goes
    | with_reducible apply Square.foldl_ok | with_reducible refine Goes.foldl _ ?_ ?_
    | with_reducible refine Square.foldl_ok _ ?_ ?_ | (intro _)

/-! ### Zones -/

theorem State.setDomain_goes {s0 s : State} (d : Nat) (mv : Nat) (hg : Goes s0 s) :
    Goes s0 (State.setDomain s d mv) := by
  unfold State.setDomain
  try dsimp only
  repeat' first
    | with_reducible exact hg | with_reducible assumption | with_reducible apply State.updPower_goes | (intro _)
    | with_reducible refine Goes.mk ?_ rfl

theorem State.trimDomain_goes {s0 s : State} (d : Nat) (hg : Goes s0 s) :
    Goes s0 (State.trimDomain s d) := by
  unfold State.trimDomain
  try dsimp only
  repeat' first
    | with_reducible exact hg | with_reducible assumption | with_reducible apply State.setDomain_goes
    | with_reducible apply State.updPower_goes | split | (intro _) | with_reducible refine Goes.mk ?_ rfl

theorem State.trim_goes {s0 s : State} (p : Nat) (hg : Goes s0 s) :
    Goes s0 (State.trim s p) := by
  unfold State.trim
  try dsimp only
  repeat' first
    | with_reducible exact hg | with_reducible assumption | with_reducible apply State.trimDomain_goes
    | with_reducible apply Square.foldl_ok | with_reducible refine Goes.foldl _ ?_ ?_
    | with_reducible refine Square.foldl_ok _ ?_ ?_ | (intro _)

/-! ### Regulator -/

theorem State.fill_goes {s0 s : State} (die : Nat) (dt : Nat) (hg : Goes s0 s) :
    Goes s0 (State.fill s die dt) := by
  unfold State.fill
  try dsimp only
  repeat' first
    | with_reducible exact hg | with_reducible assumption | with_reducible apply State.updMemDie_goes
    | with_reducible apply Square.foldl_ok | with_reducible refine Goes.foldl _ ?_ ?_
    | with_reducible refine Square.foldl_ok _ ?_ ?_ | (intro _) | with_reducible refine Goes.mk ?_ rfl

theorem State.admitReq_goes {s0 s : State} (die : Nat) (r : TokenReq × Nat) (path : Bool) (hg : Goes s0 s) :
    Goes s0 (State.admitReq s die r path) := by
  unfold State.admitReq
  try dsimp only
  repeat' first
    | with_reducible exact hg | with_reducible assumption | with_reducible apply State.updMemDie_goes | split | (intro _)
    | with_reducible refine Goes.mk ?_ rfl

theorem State.serveFrom_goes {s0 s : State} (n die : Nat) (hg : Goes s0 s) : Goes s0 (State.serveFrom n die s) := by
  induction n generalizing s with
 | zero => exact hg
 | succ n ih =>
    unfold State.serveFrom
    split
    · exact ih (State.admitReq_goes _ _ _ hg)
    · exact hg

theorem State.serve_goes {s0 s : State} (die : Nat) (hg : Goes s0 s) : Goes s0 (s.serve die) := State.serveFrom_goes _ _ hg

theorem State.passFrom_goes {s0 s : State} (n die : Nat) (hg : Goes s0 s) : Goes s0 (State.passFrom n die s) := by
  induction n generalizing s with
  | zero => exact hg
  | succ n ih =>
    unfold State.passFrom
    repeat' first
      | with_reducible exact hg | with_reducible assumption | with_reducible apply ih | with_reducible apply State.serve_goes
      | with_reducible apply State.fill_goes | split

theorem State.refill_goes {s0 s : State} (die : Nat) (hg : Goes s0 s) :
    Goes s0 (State.refill s die) := by
  unfold State.refill
  try dsimp only
  repeat' (first | with_reducible exact hg | with_reducible assumption | with_reducible apply State.passFrom_goes)

theorem State.refillAll_goes {s0 s : State} (hg : Goes s0 s) :
    Goes s0 (State.refillAll s) := by
  unfold State.refillAll
  try dsimp only
  repeat' first
    | with_reducible exact hg | with_reducible assumption | with_reducible apply State.refill_goes
    | with_reducible apply Square.foldl_ok | with_reducible refine Goes.foldl _ ?_ ?_
    | with_reducible refine Square.foldl_ok _ ?_ ?_ | (intro _)

theorem State.serveAll_goes {s0 s : State} (hg : Goes s0 s) :
    Goes s0 (State.serveAll s) := by
  unfold State.serveAll
  try dsimp only
  repeat' first
    | with_reducible exact hg | with_reducible assumption | with_reducible apply State.serve_goes
    | with_reducible apply Square.foldl_ok | with_reducible refine Goes.foldl _ ?_ ?_
    | with_reducible refine Square.foldl_ok _ ?_ ?_ | (intro _)

theorem State.serveWaiting_goes {s0 s : State} (hg : Goes s0 s) :
    Goes s0 (State.serveWaiting s) := by
  unfold State.serveWaiting
  try dsimp only
  repeat' first
    | with_reducible exact hg | with_reducible assumption | with_reducible apply State.serve_goes
    | with_reducible apply State.refill_goes | with_reducible apply Square.foldl_ok
    | with_reducible refine Goes.foldl _ ?_ ?_ | with_reducible refine Square.foldl_ok _ ?_ ?_ | split | (intro _)

theorem State.charge_goes {s0 s : State} (die : Nat) (r : TokenReq) (hg : Goes s0 s) :
    Goes s0 (State.charge s die r) := by
  unfold State.charge
  try dsimp only
  repeat' first
    | with_reducible exact hg | with_reducible assumption | with_reducible apply State.serve_goes
    | with_reducible apply State.refill_goes | with_reducible apply State.updMemDie_goes | (intro _)
    | with_reducible refine Goes.mk ?_ rfl

theorem State.chargeStack_goes {s0 s : State} (who : Nat) (pa : Nat) (sectors : Nat) (partly : Nat) (hg : Goes s0 s) :
    Goes s0 (State.chargeStack s who pa sectors partly) := by
  unfold State.chargeStack
  try dsimp only
  repeat' (first | with_reducible exact hg | with_reducible assumption | with_reducible apply State.charge_goes)

/-! ### Dram -/

theorem State.storeSector_goes {s0 s : State} (pa key : Nat) (m : Sector) (bytes : List Byte) (hg : Goes s0 s) :
    Goes s0 (s.storeSector pa key m bytes) :=
  hg.trans ⟨rfl, le_rfl, fun i => ⟨i.1, Mem.wf_writeAll _ _ i.2.1, i.2.2⟩⟩

theorem State.storeAt_goes {s0 s : State} (pa : Nat) (m : Sector) (bytes : List Byte) (hg : Goes s0 s) :
    Goes s0 (State.storeAt s pa m bytes) := by
  unfold State.storeAt
  try dsimp only
  repeat' first
    | with_reducible exact hg | with_reducible assumption | with_reducible apply State.storeSector_goes | split | (intro _)

theorem State.putBook_goes {s0 s : State} (pa : Nat) (bytes : List Byte) (hg : Goes s0 s) :
    Goes s0 (State.putBook s pa bytes) := by
  unfold State.putBook
  try dsimp only
  repeat' first
    | with_reducible exact hg | with_reducible assumption | with_reducible apply State.updPart_goes | split | (intro _)
    | with_reducible refine Goes.mk ?_ rfl

theorem State.writeSector_goes {s0 s : State} (who : Nat) (pa : Nat) (bytes : List Byte) (hg : Goes s0 s) :
    Goes s0 (State.writeSector s who pa bytes) := by
  unfold State.writeSector
  try dsimp only
  repeat' first
    | with_reducible exact hg | with_reducible assumption | with_reducible apply State.storeAt_goes
    | with_reducible apply State.putBook_goes | split

theorem State.upsetSector_goes {s0 s : State} (pa : Nat) (e : BitVec 580) (hg : Goes s0 s) :
    Goes s0 (State.upsetSector s pa e) := by
  unfold State.upsetSector
  try dsimp only
  repeat' first
    | with_reducible exact hg | with_reducible assumption | split | (intro _) | with_reducible refine Goes.mk ?_ rfl

theorem State.countRead_goes {s0 s : State} (st : Nat) (phys : Nat) (kind : Nat) (hg : Goes s0 s) :
    Goes s0 (State.countRead s st phys kind) := by
  unfold State.countRead
  try dsimp only
  repeat' first
    | with_reducible exact hg | with_reducible assumption | with_reducible apply State.updStack_goes | (intro _)
    | with_reducible refine Goes.mk ?_ rfl

theorem State.startMigration_goes {s0 s : State} (die : Nat) (st : Nat) (ch : Nat) (hg : Goes s0 s) :
    Goes s0 (State.startMigration s die st ch) := by
  unfold State.startMigration
  try dsimp only
  repeat' first
    | with_reducible exact hg | with_reducible assumption | with_reducible apply State.raise_goes
    | with_reducible apply State.updStack_goes | with_reducible apply State.updMemDie_goes | split | (intro _)
    | with_reducible refine Goes.mk ?_ rfl

theorem State.triggerMigration_goes {s0 s : State} (st : Nat) (ch : Nat) (hg : Goes s0 s) :
    Goes s0 (State.triggerMigration s st ch) := by
  unfold State.triggerMigration
  try dsimp only
  repeat' first
    | with_reducible exact hg | with_reducible assumption | with_reducible apply State.startMigration_goes
    | with_reducible apply State.updMemDie_goes | split | (intro _) | with_reducible refine Goes.mk ?_ rfl

theorem State.noteCorrected_goes {s0 s : State} (st : Nat) (phys : Nat) (ch : Nat) (hg : Goes s0 s) :
    Goes s0 (State.noteCorrected s st phys ch) := by
  unfold State.noteCorrected
  try dsimp only
  repeat' first
    | with_reducible exact hg | with_reducible assumption | with_reducible apply State.triggerMigration_goes
    | with_reducible apply State.updStack_goes | split | (intro _) | with_reducible refine Goes.mk ?_ rfl

theorem State.raise40_goes {s0 s : State} (st : Nat) (phys : Nat) (detail : Nat) (part : Option Nat) (loc : List
    (LocKind × Nat)) (hg : Goes s0 s) :
    Goes s0 (State.raise40 s st phys detail part loc) := by
  unfold State.raise40
  try dsimp only
  repeat' first
    | with_reducible exact hg | with_reducible assumption | with_reducible apply State.raise_goes
    | with_reducible apply State.updStack_goes | split | (intro _) | with_reducible refine Goes.mk ?_ rfl

theorem State.rebuild_goes {s0 s : State} (pa : Nat) (hg : Goes s0 s) :
    Goes s0 (State.rebuild s pa) := by
  unfold State.rebuild
  try dsimp only
  repeat' first
    | with_reducible exact hg | with_reducible assumption | with_reducible apply State.writeSector_goes | (intro _)

theorem State.deviceLost_goes {s0 s : State} (pa : Nat) (hg : Goes s0 s) :
    Goes s0 (State.deviceLost s pa) := by
  unfold State.deviceLost
  try dsimp only
  repeat' first
    | with_reducible exact hg | with_reducible assumption | with_reducible apply State.setFlag_goes
    | with_reducible apply State.raise_goes | with_reducible apply State.enterFaulted_goes
    | with_reducible apply State.releaseModule_goes | with_reducible apply State.rebuild_goes
    | with_reducible apply State.updPart_goes | with_reducible apply State.updService_goes
    | with_reducible apply Square.foldl_ok | with_reducible refine Goes.foldl _ ?_ ?_
    | with_reducible refine Square.foldl_ok _ ?_ ?_ | split | (intro _) | with_reducible refine Goes.mk ?_ rfl

theorem State.rewrite_goes {s0 s : State} (pa : Nat) (m : Sector) (bytes : List Byte) (hg : Goes s0 s) :
    Goes s0 (State.rewrite s pa m bytes) := by
  unfold State.rewrite
  try dsimp only
  repeat' first
    | with_reducible exact hg | with_reducible assumption | with_reducible apply State.chargeStack_goes
    | with_reducible apply State.storeAt_goes

theorem State.correctedRead_goes {s0 s : State} (part : Option Nat) (pa : Nat) (detail : Nat) (hg : Goes s0 s) :
    Goes s0 (State.correctedRead s part pa detail) := by
  unfold State.correctedRead
  try dsimp only
  repeat' first
    | with_reducible exact hg | with_reducible assumption | with_reducible apply State.countRead_goes
    | with_reducible apply State.noteCorrected_goes | with_reducible apply State.raise40_goes
    | with_reducible apply State.rewrite_goes | (intro _) | with_reducible refine Goes.mk ?_ rfl

theorem State.failedCopy_goes {s0 s : State} (pa : Nat) (code : Bool) (hg : Goes s0 s) :
    Goes s0 (State.failedCopy s pa code) := by
  unfold State.failedCopy
  try dsimp only
  repeat' first
    | with_reducible exact hg | with_reducible assumption | with_reducible apply State.countRead_goes
    | with_reducible apply State.triggerMigration_goes | split

theorem State.restoreCopy_goes {s0 s : State} (pa : Nat) (part : Option Nat) (hg : Goes s0 s) :
    Goes s0 (State.restoreCopy s pa part) := by
  unfold State.restoreCopy
  try dsimp only
  repeat' first
    | with_reducible exact hg | with_reducible assumption | with_reducible apply State.setFlag_goes
    | with_reducible apply State.raise40_goes | with_reducible apply State.rewrite_goes

theorem State.fromMirror_goes {s0 s : State} (pa : Nat) (part : Option Nat) (hg : Goes s0 s) :
    Goes s0 (State.fromMirror s pa part) := by
  unfold State.fromMirror
  try dsimp only
  repeat' first
    | with_reducible exact hg | with_reducible assumption | with_reducible apply State.deviceLost_goes
    | with_reducible apply State.correctedRead_goes | with_reducible apply State.failedCopy_goes
    | with_reducible apply State.restoreCopy_goes | split | (intro _)

theorem State.readEffects_goes {s0 s : State} (who : Nat) (pa : Nat) (part : Option Nat) (step : Bool) (pools : List
    Nat) (hg : Goes s0 s) :
    Goes s0 (State.readEffects s who pa part step pools) := by
  unfold State.readEffects
  try dsimp only
  repeat' first
    | with_reducible exact hg | with_reducible assumption | with_reducible apply State.raise_goes
    | with_reducible apply State.dataError_goes | with_reducible apply State.countRead_goes
    | with_reducible apply State.triggerMigration_goes | with_reducible apply State.correctedRead_goes
    | with_reducible apply State.failedCopy_goes | with_reducible apply State.fromMirror_goes | split | (intro _)

theorem State.writeBytes_goes {s0 s : State} (who : Nat) (pa : Nat) (part : Option Nat) (ws : List (Nat × Byte ×
    Byte)) (pools : List Nat) (hg : Goes s0 s) :
    Goes s0 (State.writeBytes s who pa part ws pools) := by
  unfold State.writeBytes
  try dsimp only
  repeat' first
    | with_reducible exact hg | with_reducible assumption | with_reducible apply State.raise_goes
    | with_reducible apply State.dataError_goes | with_reducible apply State.writeSector_goes
    | with_reducible apply State.countRead_goes | with_reducible apply State.triggerMigration_goes
    | with_reducible apply State.correctedRead_goes | with_reducible apply State.readEffects_goes
    | with_reducible apply Square.foldl_ok | with_reducible refine Goes.foldl _ ?_ ?_
    | with_reducible refine Square.foldl_ok _ ?_ ?_ | split | (intro _)

end Sys2Proof.Machine
end

