-- ==== Sys2Proof/Laws/GoesSquare.lean ====
section
/-!
SUPPORT. What every shared operation keeps (Goes): operands, issue, engines.
-/

namespace Sys2Proof.Machine

open Sys2Proof

/-! ### Tensor -/

theorem Square.lsWrite_ok {x : Square} (off : Nat) (l : List Byte) (hx : x.storesOk) : (x.lsWrite off l).storesOk :=
  ⟨Mem.wf_writeAll _ _ hx.1, hx.2⟩

theorem Square.lsPutBits_ok {x : Square} (off : Nat) (lo : Nat) (len : Nat) (v : Nat) (hg : x.storesOk) :
    (Square.lsPutBits x off lo len v).storesOk := by
  unfold Square.lsPutBits
  try dsimp only
  repeat' (first | with_reducible exact hg | with_reducible assumption | with_reducible apply Square.lsWrite_ok | exact hg)

theorem Square.putElem_ok {x : Square} (w : ElemWrite) (hx : x.storesOk) : (x.putElem w).storesOk :=
  Square.foldl_ok _ (fun _ _ h => Square.lsPut_ok _ _ h) hx

theorem Square.freshLs_ok {x : Square} (offs : List Nat) (hg : x.storesOk) :
    (Square.freshLs x offs).storesOk := by
  unfold Square.freshLs
  try dsimp only
  repeat' (first | with_reducible exact hg | with_reducible assumption | exact hg | (intro _))

theorem State.putElems_goes {s0 s : State} (q : Nat) (ws : List ElemWrite) (hg : Goes s0 s) : Goes s0 (s.putElems q ws) :=
  State.updSq_goes _ _ (fun _ h => Square.foldl_ok _ (fun _ w h => Square.putElem_ok w h) h) hg

theorem State.storeError_goes {s0 s : State} (q : Nat) (kind : Nat) (hg : Goes s0 s) :
    Goes s0 (State.storeError s q kind) := by
  unfold State.storeError
  try dsimp only
  repeat' first
    | with_reducible exact hg | with_reducible assumption | with_reducible apply State.raise_goes
    | with_reducible apply State.dataError_goes | with_reducible apply State.updSq_goes | (intro x hx; exact hx) | split
    | (intro _) | with_reducible refine Goes.mk ?_ rfl

theorem State.touchLs_goes {s0 s : State} (q : Nat) (offs : List Nat) (hg : Goes s0 s) :
    Goes s0 (State.touchLs s q offs) := by
  unfold State.touchLs
  try dsimp only
  repeat' first
    | with_reducible exact hg | with_reducible assumption | with_reducible apply State.storeError_goes
    | with_reducible apply State.updSq_goes | with_reducible apply Square.foldl_ok
    | with_reducible refine Goes.foldl _ ?_ ?_ | with_reducible refine Square.foldl_ok _ ?_ ?_ | (intro x hx; exact hx)
    | split | (intro _) | with_reducible refine Goes.mk ?_ rfl

theorem State.touchElems_goes {s0 s : State} (q : Nat) (p : Nat) (t : Tensor) (ks : List Nat) (hg : Goes s0 s) :
    Goes s0 (State.touchElems s q p t ks) := by
  unfold State.touchElems
  try dsimp only
  repeat' (first | with_reducible exact hg | with_reducible assumption | with_reducible apply State.touchLs_goes | split)

theorem State.touchTensor_goes {s0 s : State} (q : Nat) (p : Nat) (t : Tensor) (n : Nat) (hg : Goes s0 s) :
    Goes s0 (State.touchTensor s q p t n) := by
  unfold State.touchTensor
  try dsimp only
  repeat' (first | with_reducible exact hg | with_reducible assumption | with_reducible apply State.touchElems_goes)

theorem Square.accWrite_ok {x : Square} (i v : Nat) (hx : x.storesOk) : (x.accWrite i v).storesOk :=
  ⟨hx.1, Mem.wf_write _ _ hx.2.1, hx.2.2⟩

theorem Square.accWriteAll_ok {x : Square} (ws : List (Nat × Nat)) (hx : x.storesOk) : (x.accWriteAll ws).storesOk :=
  Square.foldl_ok _ (fun _ _ h => Square.accWrite_ok _ _ h) hx

theorem State.touchAcc_goes {s0 s : State} (q : Nat) (is_ : List Nat) (hg : Goes s0 s) :
    Goes s0 (State.touchAcc s q is_) := by
  unfold State.touchAcc
  try dsimp only
  repeat' first
    | with_reducible exact hg | with_reducible assumption | with_reducible apply State.storeError_goes
    | with_reducible apply State.updSq_goes | with_reducible apply Square.foldl_ok
    | with_reducible refine Goes.foldl _ ?_ ?_ | with_reducible refine Square.foldl_ok _ ?_ ?_ | (intro x hx; exact hx)
    | split | (intro _) | with_reducible refine Goes.mk ?_ rfl

theorem State.makeWrites_goes {s0 s : State} (p : Nat) (ws : List ByteWrite) (pools : List Nat) (fenced : Bool)
    (hg : Goes s0 s) : Goes s0 (s.makeWrites p ws pools fenced) := by
  unfold State.makeWrites
  refine Goes.foldl _ (fun t x ht => ?_) (Goes.foldl _ (fun t x ht => ?_) (Goes.foldl _ (fun t x ht => ?_) hg))
  · dsimp only
    split
    · exact State.updPart_goes _ _ ht
    · exact State.writeBytes_goes _ _ _ _ _ ht
  · split
    · exact ht
    · exact State.updSq_goes _ _ (fun _ h => Square.freshLs_ok _ h) ht
  · exact State.updSq_goes _ _ (fun _ h => Square.lsPut_ok _ _ h) ht

theorem State.touchVas_goes {s0 s : State} (p : Nat) (vas : List Nat) (pools : List Nat) (hg : Goes s0 s) :
    Goes s0 (State.touchVas s p vas pools) := by
  unfold State.touchVas
  try dsimp only
  repeat' first
    | with_reducible exact hg | with_reducible assumption | with_reducible apply State.readEffects_goes
    | with_reducible apply State.touchLs_goes | with_reducible apply Square.foldl_ok
    | with_reducible refine Goes.foldl _ ?_ ?_ | with_reducible refine Square.foldl_ok _ ?_ ?_ | split | (intro _)

theorem State.chargeAll_goes {s0 s : State} (p : Nat) (channel : Option (MoverId × Nat)) (l : List (Nat × Traffic))
    (hg : Goes s0 s) :
    Goes s0 (State.chargeAll s p channel l) := by
  unfold State.chargeAll
  try dsimp only
  repeat' first
    | with_reducible exact hg | with_reducible assumption | with_reducible apply State.charge_goes
    | with_reducible apply Square.foldl_ok | with_reducible refine Goes.foldl _ ?_ ?_
    | with_reducible refine Square.foldl_ok _ ?_ ?_ | (intro _)

theorem State.runFault_goes {s0 s : State} (q : Nat) (o : Op) (f : RunFault) (hg : Goes s0 s) :
    Goes s0 (State.runFault s q o f) := by
  unfold State.runFault
  try dsimp only
  repeat' first
    | with_reducible exact hg | with_reducible assumption | with_reducible apply State.raise_goes
    | with_reducible apply State.freeze_goes | split | (intro _)

/-! ### Issue -/

theorem State.active_goes {s0 s : State} (p : Nat) (hg : Goes s0 s) :
    Goes s0 (State.active s p) := by
  unfold State.active
  try dsimp only
  repeat' first
    | with_reducible exact hg | with_reducible assumption | with_reducible apply State.updPart_goes | (intro _)
    | with_reducible refine Goes.mk ?_ rfl

theorem State.applyPost_goes {s0 s : State} (p : Nat) (q : Nat) (e : Nat) (sem : Bool) (n : Nat) (hg : Goes s0 s) :
    Goes s0 (State.applyPost s p q e sem n) := by
  unfold State.applyPost
  try dsimp only
  repeat' first
    | with_reducible exact hg | with_reducible assumption | with_reducible apply State.placeFault_goes
    | with_reducible apply State.active_goes | with_reducible apply State.updPart_goes
    | with_reducible apply State.updEntry_goes | with_reducible apply Square.updEntry_ok | split | (intro _)
    | with_reducible refine Goes.mk ?_ rfl

theorem State.arrivePost_goes {s0 s : State} (p : Nat) (q : Nat) (e : Nat) (sem : Bool) (n : Nat) (epoch : Nat) (hg :
    Goes s0 s) :
    Goes s0 (State.arrivePost s p q e sem n epoch) := by
  unfold State.arrivePost
  try dsimp only
  repeat' first
    | with_reducible exact hg | with_reducible assumption | with_reducible apply State.placeFault_goes
    | with_reducible apply State.active_goes | with_reducible apply State.applyPost_goes
    | with_reducible apply State.updPart_goes | split | (intro _) | with_reducible refine Goes.mk ?_ rfl

theorem State.post_goes {s0 s : State} (q : Nat) (e : Nat) (sem : Bool) (n : Nat) (hg : Goes s0 s) :
    Goes s0 (State.post s q e sem n) := by
  unfold State.post
  try dsimp only
  repeat' first
    | with_reducible exact hg | with_reducible assumption | with_reducible apply State.placeFault_goes
    | with_reducible apply State.sendSeat_goes | with_reducible apply State.applyPost_goes | split | (intro _)
    | with_reducible refine Goes.mk ?_ rfl

theorem State.takeNeeds_goes {s0 s : State} (q : Nat) (pl : Nat) (r : Rec) (hg : Goes s0 s) :
    Goes s0 (State.takeNeeds s q pl r) := by
  unfold State.takeNeeds
  try dsimp only
  repeat' first
    | with_reducible exact hg | with_reducible assumption | with_reducible apply State.updPlayer_goes
    | with_reducible apply State.updEntry_goes | with_reducible apply Square.foldl_ok
    | with_reducible apply Square.updPlayer_ok | with_reducible apply Square.updEntry_ok
    | with_reducible refine Goes.foldl _ ?_ ?_ | with_reducible refine Square.foldl_ok _ ?_ ?_ | (intro _)
    | with_reducible refine Goes.mk ?_ rfl

theorem State.takeWaits_goes {s0 s : State} (q : Nat) (pl : Nat) (r : Rec) (hg : Goes s0 s) :
    Goes s0 (State.takeWaits s q pl r) := by
  unfold State.takeWaits
  try dsimp only
  repeat' first
    | with_reducible exact hg | with_reducible assumption | with_reducible apply State.updEntry_goes
    | with_reducible apply Square.foldl_ok | with_reducible apply Square.updEntry_ok
    | with_reducible refine Goes.foldl _ ?_ ?_ | with_reducible refine Square.foldl_ok _ ?_ ?_ | (intro _)

theorem State.advance_goes {s0 s : State} (q : Nat) (pl : Nat) (n : Nat) (hg : Goes s0 s) :
    Goes s0 (State.advance s q pl n) := by
  unfold State.advance
  try dsimp only
  repeat' first
    | with_reducible exact hg | with_reducible assumption | with_reducible apply State.updPlayer_goes
    | with_reducible apply Square.updPlayer_ok | (intro _)

theorem State.postAndSlot_goes {s0 s : State} (q : Nat) (pl : Nat) (r : Rec) (record : Nat) (hg : Goes s0 s) :
    Goes s0 (State.postAndSlot s q pl r record) := by
  unfold State.postAndSlot
  try dsimp only
  repeat' first
    | with_reducible exact hg | with_reducible assumption | with_reducible apply State.addSlot_goes
    | with_reducible apply State.post_goes | split

/-- An attempt to issue: a fault of the operation, a wait, or its action at issue. -/
theorem State.attempt_goes {s0 s : State} (q pl opcode : Nat) (pre : Rec → Nat) (chk : State → Rec → Option IssueFault)
    (act : State → Rec → State) (ha : ∀ t r, Goes s0 t → Goes s0 (act t r)) (hg : Goes s0 s) :
    Goes s0 (s.attempt q pl opcode pre chk act) := by
  unfold State.attempt
  split
  · exact hg
  split
  · exact hg
  split
  · exact State.opFault_goes _ _ _ _ hg
  split
  · exact State.opFault_goes _ _ _ _ hg
  split
  · exact State.opFault_goes _ _ _ _ hg
  have h1 := State.takeWaits_goes q pl ‹Rec› hg
  dsimp only
  split
  · exact h1
  split
  · exact State.opFault_goes _ _ _ _ h1
  · exact ha _ _ (State.takeNeeds_goes _ _ _ h1)

theorem State.atIssue_goes {s0 s : State} (q pl : Nat) (r : Rec) (t : State) (hg : Goes s0 t) : Goes s0 (s.atIssue q pl r t) := by
  unfold State.atIssue
  exact State.postAndSlot_goes _ _ _ _ (State.advance_goes _ _ _ hg)

theorem State.issueOp_goes {s0 s : State} (q : Nat) (pl : Nat) (r : Rec) (kind : OpKind) (phase : OpPhase) (operands :
    List Rec) (index : Nat) (slots : List Nat) (reads : Nat) (writes : Nat) (hg : Goes s0 s) :
    Goes s0 (State.issueOp s q pl r kind phase operands index slots reads writes) := by
  unfold State.issueOp
  try dsimp only
  repeat' first
    | with_reducible exact hg | with_reducible assumption | with_reducible apply State.advance_goes
    | with_reducible apply State.updSq_goes | (intro x hx; exact hx) | (intro _) | with_reducible refine Goes.mk ?_ rfl

theorem Square.updOp_ok {x : Square} (id : Nat) (f : Op → Op) (hg : x.storesOk) :
    (Square.updOp x id f).storesOk := by
  unfold Square.updOp
  try dsimp only
  repeat' (first | with_reducible exact hg | with_reducible assumption | exact hg | split | (intro _))

theorem State.updOp_goes {s0 s : State} (q : Nat) (id : Nat) (f : Op → Op) (hg : Goes s0 s) :
    Goes s0 (State.updOp s q id f) := by
  unfold State.updOp
  try dsimp only
  repeat' first
    | with_reducible exact hg | with_reducible assumption | with_reducible apply State.updSq_goes
    | with_reducible apply Square.updOp_ok | (intro x hx; exact hx) | (intro _)

theorem State.addFlags_goes {s0 s : State} (q : Nat) (pl : Nat) (flags : Nat) (hg : Goes s0 s) :
    Goes s0 (State.addFlags s q pl flags) := by
  unfold State.addFlags
  try dsimp only
  repeat' first
    | with_reducible exact hg | with_reducible assumption | with_reducible apply State.updPlayer_goes
    | with_reducible apply Square.updPlayer_ok | (intro _) | with_reducible refine Goes.mk ?_ rfl

theorem Square.retire_ok {x : Square} (id : Nat) (hg : x.storesOk) :
    (Square.retire x id).storesOk := by
  unfold Square.retire
  try dsimp only
  repeat' (first | with_reducible exact hg | with_reducible assumption | exact hg | split | (intro _))

theorem State.complete_goes {s0 s : State} (q : Nat) (o : Op) (hg : Goes s0 s) :
    Goes s0 (State.complete s q o) := by
  unfold State.complete
  try dsimp only
  repeat' first
    | with_reducible exact hg | with_reducible assumption | with_reducible apply State.active_goes
    | with_reducible apply State.postAndSlot_goes | with_reducible apply State.addFlags_goes
    | with_reducible apply State.updSq_goes | with_reducible apply Square.retire_ok | (intro x hx; exact hx) | split
    | (intro _)

/-! ### Players -/

theorem playerOp_goes {s0 s : State} (q pl opcode : Nat) (pre : Rec → Nat) (chk : State → Rec → Option IssueFault)
    (act : State → Rec → State) (ha : ∀ t r, Goes s0 t → Goes s0 (act t r)) (hg : Goes s0 s) :
    OutGoes s0 (playerOp s q pl opcode pre chk act) := OutGoes.onUnit _ (State.attempt_goes _ _ _ _ _ _ ha hg)

theorem State.park_goes {s0 s : State} (q : Nat) (pl : Nat) (hg : Goes s0 s) :
    Goes s0 (State.park s q pl) := by
  unfold State.park
  try dsimp only
  repeat' first
    | with_reducible exact hg | with_reducible assumption | with_reducible apply State.updSq_goes
    | with_reducible apply State.updPlayer_goes | with_reducible apply Square.updPlayer_ok | (intro x hx; exact hx) | split
    | (intro _) | with_reducible refine Goes.mk ?_ rfl

/-! ### Matrix -/

theorem State.holdOp_goes {s0 s : State} (q : Nat) (id : Nat) (hg : Goes s0 s) :
    Goes s0 (State.holdOp s q id) := by
  unfold State.holdOp
  try dsimp only
  repeat' first
    | with_reducible exact hg | with_reducible assumption | with_reducible apply State.updSq_goes
    | with_reducible apply State.updOp_goes | with_reducible apply Square.updOp_ok | (intro x hx; exact hx) | (intro _)
    | with_reducible refine Goes.mk ?_ rfl

theorem State.feedMet_goes {s0 s : State} (q : Nat) (r : Rec) (x : MmTensors) (hg : Goes s0 s) :
    Goes s0 (State.feedMet s q r x) := by
  unfold State.feedMet
  try dsimp only
  repeat' first
    | with_reducible exact hg | with_reducible assumption | with_reducible apply State.storeError_goes
    | with_reducible apply State.updSq_goes | with_reducible apply Square.foldl_ok
    | with_reducible refine Goes.foldl _ ?_ ?_ | with_reducible refine Square.foldl_ok _ ?_ ?_ | (intro x hx; exact hx)
    | split | (intro _) | with_reducible refine Goes.mk ?_ rfl

theorem State.runStream_goes {s0 s : State} (q : Nat) (o : Op) (hg : Goes s0 s) :
    Goes s0 (State.runStream s q o) := by
  unfold State.runStream
  try dsimp only
  repeat' first
    | with_reducible exact hg | with_reducible assumption | with_reducible apply State.count_goes
    | with_reducible apply State.touchTensor_goes | with_reducible apply State.touchAcc_goes
    | with_reducible apply State.runFault_goes | with_reducible apply State.feedMet_goes
    | with_reducible apply State.updOp_goes | with_reducible apply Square.updOp_ok | split | (intro _)
    | with_reducible refine Goes.mk ?_ rfl

theorem State.tryStream_goes {s0 s : State} (q : Nat) (id : Nat) (hg : Goes s0 s) :
    Goes s0 (State.tryStream s q id) := by
  unfold State.tryStream
  try dsimp only
  repeat' first
    | with_reducible exact hg | with_reducible assumption | with_reducible apply State.holdOp_goes
    | with_reducible apply State.runStream_goes | split | (intro _)

theorem State.tryConfig_goes {s0 s : State} (q : Nat) (id : Nat) (hg : Goes s0 s) :
    Goes s0 (State.tryConfig s q id) := by
  unfold State.tryConfig
  try dsimp only
  repeat' first
    | with_reducible exact hg | with_reducible assumption | with_reducible apply State.updSq_goes
    | with_reducible apply State.updOp_goes | with_reducible apply Square.updOp_ok | (intro x hx; exact hx) | split
    | (intro _) | with_reducible refine Goes.mk ?_ rfl

theorem State.arrayProgress_goes {s0 s : State} (q : Nat) (hg : Goes s0 s) :
    Goes s0 (State.arrayProgress s q) := by
  unfold State.arrayProgress
  try dsimp only
  repeat' first
    | with_reducible exact hg | with_reducible assumption | with_reducible apply State.tryStream_goes
    | with_reducible apply State.tryConfig_goes | with_reducible apply Square.foldl_ok
    | with_reducible refine Goes.foldl _ ?_ ?_ | with_reducible refine Square.foldl_ok _ ?_ ?_ | (intro _)

theorem State.drainMet_goes {s0 s : State} (q : Nat) (sums : List (Nat × Word)) (hg : Goes s0 s) :
    Goes s0 (State.drainMet s q sums) := by
  unfold State.drainMet
  try dsimp only
  repeat' first
    | with_reducible exact hg | with_reducible assumption | with_reducible apply State.storeError_goes
    | with_reducible apply State.updSq_goes | with_reducible apply Square.foldl_ok
    | with_reducible refine Goes.foldl _ ?_ ?_ | with_reducible refine Square.foldl_ok _ ?_ ?_ | (intro x hx; exact hx)
    | split | (intro _) | with_reducible refine Goes.mk ?_ rfl

theorem State.runDrain_goes {s0 s : State} (q : Nat) (o : Op) (hg : Goes s0 s) :
    Goes s0 (State.runDrain s q o) := by
  unfold State.runDrain
  try dsimp only
  repeat' first
    | with_reducible exact hg | with_reducible assumption | with_reducible apply State.touchAcc_goes
    | with_reducible apply State.drainMet_goes | with_reducible apply State.updSq_goes
    | with_reducible apply State.updOp_goes | with_reducible apply Square.foldl_ok
    | with_reducible apply Square.accWriteAll_ok | with_reducible apply Square.updOp_ok
    | with_reducible refine Goes.foldl _ ?_ ?_ | with_reducible refine Square.foldl_ok _ ?_ ?_ | (intro x hx; exact hx)
    | split | (intro _) | with_reducible refine Goes.mk ?_ rfl

/-! ### Accum -/

theorem accLoadRun_goes {s0 s : State} (q : Nat) (o : Op) (hg : Goes s0 s) :
    Goes s0 (accLoadRun s q o).state := by
  unfold accLoadRun
  try dsimp only
  repeat' first
    | with_reducible exact hg | with_reducible assumption | with_reducible apply State.touchTensor_goes
    | with_reducible apply State.updSq_goes | with_reducible apply Square.accWriteAll_ok | (intro x hx; exact hx) | split
    | (intro _)

theorem accStoreRun_goes {s0 s : State} (q : Nat) (o : Op) (hg : Goes s0 s) :
    Goes s0 (accStoreRun s q o).state := by
  unfold accStoreRun
  try dsimp only
  repeat' first
    | with_reducible exact hg | with_reducible assumption | with_reducible apply State.putElems_goes
    | with_reducible apply State.touchAcc_goes | with_reducible apply State.updSq_goes
    | with_reducible apply Square.accWriteAll_ok | (intro x hx; exact hx) | split | (intro _)

theorem accCombineRun_goes {s0 s : State} (q : Nat) (o : Op) (hg : Goes s0 s) :
    Goes s0 (accCombineRun s q o).state := by
  unfold accCombineRun
  try dsimp only
  repeat' first
    | with_reducible exact hg | with_reducible assumption | with_reducible apply State.touchElems_goes
    | with_reducible apply State.touchAcc_goes | with_reducible apply State.updSq_goes
    | with_reducible apply Square.accWriteAll_ok | (intro x hx; exact hx) | split | (intro _)

/-! ### Stream -/

theorem State.putOut_goes {s0 s : State} (q : Nat) (ws : List OutWrite) (hg : Goes s0 s) : Goes s0 (s.putOut q ws) := by
  refine State.updSq_goes _ _ (fun x hx => Square.foldl_ok _ (fun y w h => ?_) hx) hg
  cases w with
 | acc i v => exact Square.accWrite_ok _ _ h
 | ls e => exact Square.putElem_ok _ h

theorem State.touchStream_goes {s0 s : State} (q : Nat) (p : Nat) (x : Stream) (ks : List Nat) (hg : Goes s0 s) :
    Goes s0 (State.touchStream s q p x ks) := by
  unfold State.touchStream
  try dsimp only
  repeat' first
    | with_reducible exact hg | with_reducible assumption | with_reducible apply State.touchElems_goes
    | with_reducible apply State.touchAcc_goes | split

theorem State.putMask_goes {s0 s : State} (q : Nat) (pl : Nat) (m : Nat) (v : BitVec 65536) (words : Nat) (hg : Goes
    s0 s) :
    Goes s0 (State.putMask s q pl m v words) := by
  unfold State.putMask
  try dsimp only
  repeat' first
    | with_reducible exact hg | with_reducible assumption | with_reducible apply State.updSq_goes
    | with_reducible apply State.updPlayer_goes | with_reducible apply Square.updPlayer_ok | (intro x hx; exact hx)
    | (intro _) | with_reducible refine Goes.mk ?_ rfl

theorem State.touchMasks_goes {s0 s : State} (q : Nat) (pl : Nat) (regs : Nat) (n : Nat) (hg : Goes s0 s) :
    Goes s0 (State.touchMasks s q pl regs n) := by
  unfold State.touchMasks
  try dsimp only
  repeat' first
    | with_reducible exact hg | with_reducible assumption | with_reducible apply State.storeError_goes
    | with_reducible apply Square.foldl_ok | with_reducible refine Goes.foldl _ ?_ ?_
    | with_reducible refine Square.foldl_ok _ ?_ ?_ | (intro _)

/-! ### Vrun -/

theorem State.touchTemps_goes {s0 s : State} (c : VrunCtx) (lanes : List Lane) (hg : Goes s0 s) :
    Goes s0 (State.touchTemps s c lanes) := by
  unfold State.touchTemps
  try dsimp only
  repeat' first
    | with_reducible exact hg | with_reducible assumption | with_reducible apply State.storeError_goes
    | with_reducible apply State.updSq_goes | with_reducible apply Square.foldl_ok
    | with_reducible refine Goes.foldl _ ?_ ?_ | with_reducible refine Square.foldl_ok _ ?_ ?_ | (intro x hx; exact hx)
    | split | (intro _) | with_reducible refine Goes.mk ?_ rfl

theorem State.touchLanes_goes {s0 s : State} (c : VrunCtx) (lanes : List Lane) (hg : Goes s0 s) :
    Goes s0 (State.touchLanes s c lanes) := by
  unfold State.touchLanes
  try dsimp only
  repeat' first
    | with_reducible exact hg | with_reducible assumption | with_reducible apply State.storeError_goes
    | with_reducible apply State.touchStream_goes | with_reducible apply State.touchTemps_goes
    | with_reducible apply Square.foldl_ok | with_reducible refine Goes.foldl _ ?_ ?_
    | with_reducible refine Square.foldl_ok _ ?_ ?_ | (intro _)

theorem vrunRun_goes {s0 s : State} (q : Nat) (o : Op) (hg : Goes s0 s) :
    Goes s0 (vrunRun s q o).state := by
  unfold vrunRun
  try dsimp only
  repeat' first
    | with_reducible exact hg | with_reducible assumption | with_reducible apply State.putOut_goes
    | with_reducible apply State.putMask_goes | with_reducible apply State.touchMasks_goes
    | with_reducible apply State.touchLanes_goes | with_reducible apply State.updSq_goes
    | with_reducible apply Square.foldl_ok | with_reducible refine Goes.foldl _ ?_ ?_
    | with_reducible refine Square.foldl_ok _ ?_ ?_ | (intro x hx; exact hx) | split | (intro _)
    | with_reducible refine Goes.mk ?_ rfl

end Sys2Proof.Machine
end

