-- ==== Sys2Proof/Laws/GoesTurn.lean ====
section
/-!
SUPPORT. What every shared operation keeps (Goes): frames, the step gate, block operations, Movers, Turns, run commands.
-/

namespace Sys2Proof.Machine

open Sys2Proof

/-! ### Frames -/

theorem State.takeFrame_goes {s0 s t : State} (r : Req) (kind : Nat) (ht : s.takeFrame r kind = some t) (hg : Goes s0 s) :
    Goes s0 t := by
  unfold State.takeFrame at ht
  split at ht
  · cases ht
    split
    · exact State.count_goes _ hg
    · exact hg
  · split at ht
    · cases ht
    · split at ht
      · cases ht; exact State.updAslet_goes _ hg
      · cases ht

theorem State.answer_goes {s0 s : State} (r : Req) (kind : Nat) (code : Nat) (value : List Byte) (hg : Goes s0 s) :
    Goes s0 (State.answer s r kind code value) := by
  unfold State.answer
  try dsimp only
  repeat' first
    | with_reducible exact hg | with_reducible assumption | with_reducible apply State.sendFrame_goes
    | with_reducible apply State.updSession_goes | split | (intro _) | with_reducible refine Goes.mk ?_ rfl

theorem State.reply_goes {s0 s : State} (r : Req) (code : Nat) (hg : Goes s0 s) :
    Goes s0 (State.reply s r code) := by
  unfold State.reply
  try dsimp only
  repeat' (first | with_reducible exact hg | with_reducible assumption | with_reducible apply State.answer_goes)

theorem State.admitFrame_goes {s0 s : State} (r : Req) (kind : Nat) (hg : Goes s0 s) : Goes s0 (s.admitFrame r kind).1 := by
  unfold State.admitFrame
  split
  · exact hg
  split
  · exact hg
  next t ht =>
    have h1 := State.takeFrame_goes r kind ht hg
    split
    · exact h1
    split
    · exact State.count_goes _ h1
    split
    · exact State.count_goes _ h1
    · dsimp only
      split
      · exact State.sendFrame_goes _ _ (State.updSession_goes _ _ h1)
      · exact State.updSession_goes _ _ h1

theorem State.putTransfer_goes {s0 s : State} (k : Nat) (t : SegTransfer) (hg : Goes s0 s) :
    Goes s0 (State.putTransfer s k t) := by
  unfold State.putTransfer
  try dsimp only
  repeat' first
    | with_reducible exact hg | with_reducible assumption | with_reducible apply State.updSec_goes | (intro _)
    | with_reducible refine Goes.mk ?_ rfl

theorem State.dropTransfer_goes {s0 s : State} (k : Nat) (hg : Goes s0 s) :
    Goes s0 (State.dropTransfer s k) := by
  unfold State.dropTransfer
  try dsimp only
  repeat' first
    | with_reducible exact hg | with_reducible assumption | with_reducible apply State.updSec_goes | (intro _)
    | with_reducible refine Goes.mk ?_ rfl

theorem State.judged_goes {s0 s : State} (r : Req) (chk : State → Nat) (act : State → State)
    (ha : ∀ t, Goes s0 t → Goes s0 (act t)) (hg : Goes s0 s) : Goes s0 (s.judged r chk act) := by
  unfold State.judged
  dsimp only
  split
  · exact State.reply_goes _ _ hg
  split
  · exact State.reply_goes _ _ hg
  · exact ha _ hg

/-- A write command: refused with a response, or its action. -/
theorem State.command_goes {s0 s : State} (r : Req) (chk : State → Nat) (act : State → State)
    (ha : ∀ t, Goes s0 t → Goes s0 (act t)) (hg : Goes s0 s) : Goes s0 (s.command r chk act) := by
  unfold State.command
  split
  · dsimp only
    split
    · exact State.admitFrame_goes _ _ hg
    · exact State.judged_goes _ _ _ ha (State.admitFrame_goes _ _ hg)
  · split
    · exact hg
    · dsimp only
      split
      · exact State.admitFrame_goes _ _ hg
      · exact State.judged_goes _ _ _ ha (State.dropTransfer_goes _ (State.admitFrame_goes _ _ hg))

theorem State.commandWith_goes {s0 s : State} (r : Req) (chk : Req → State → Nat) (act : Req → State → State)
    (ha : ∀ w t, Goes s0 t → Goes s0 (act w t)) (hg : Goes s0 s) : Goes s0 (s.commandWith r chk act) := by
  unfold State.commandWith
  split
  · exact State.command_goes _ _ _ (ha _) hg
  · split
    · exact hg
    · exact State.command_goes _ _ _ (ha _) hg

/-! ### StepGate -/

theorem State.applyAdvances_goes {s0 s : State} (p : Nat) (hg : Goes s0 s) :
    Goes s0 (State.applyAdvances s p) := by
  unfold State.applyAdvances
  try dsimp only
  repeat' first
    | with_reducible exact hg | with_reducible assumption | with_reducible apply State.updPart_goes
    | with_reducible apply Square.foldl_ok | with_reducible refine Goes.foldl _ ?_ ?_
    | with_reducible refine Square.foldl_ok _ ?_ ?_ | split | (intro _) | with_reducible refine Goes.mk ?_ rfl

theorem State.applySwaps_goes {s0 s : State} (p : Nat) (hg : Goes s0 s) :
    Goes s0 (State.applySwaps s p) := by
  unfold State.applySwaps
  try dsimp only
  repeat' first
    | with_reducible exact hg | with_reducible assumption | with_reducible apply State.updPart_goes
    | with_reducible apply Square.foldl_ok | with_reducible refine Goes.foldl _ ?_ ?_
    | with_reducible refine Square.foldl_ok _ ?_ ?_ | (intro _)

theorem State.applyPatches_goes {s0 s : State} (p : Nat) (hg : Goes s0 s) :
    Goes s0 (State.applyPatches s p) := by
  unfold State.applyPatches
  try dsimp only
  repeat' first
    | with_reducible exact hg | with_reducible assumption | with_reducible apply State.updSq_goes
    | with_reducible apply Square.foldl_ok | with_reducible refine Goes.foldl _ ?_ ?_
    | with_reducible refine Square.foldl_ok _ ?_ ?_ | (intro x hx; exact hx) | (intro _)
    | with_reducible refine Goes.mk ?_ rfl

theorem State.beginStep_goes {s0 s : State} (p : Nat) (g : List Byte) (hg : Goes s0 s) :
    Goes s0 (State.beginStep s p g) := by
  unfold State.beginStep
  try dsimp only
  repeat' first
    | with_reducible exact hg | with_reducible assumption | with_reducible apply State.updSq_goes
    | with_reducible apply State.updPart_goes | with_reducible apply Square.foldl_ok
    | with_reducible apply Square.lsWrite_ok | with_reducible refine Goes.foldl _ ?_ ?_
    | with_reducible refine Square.foldl_ok _ ?_ ?_ | (intro x hx; exact hx) | (intro _)
    | with_reducible refine Goes.mk ?_ rfl

theorem State.closedEvents_goes {s0 s : State} (p : Nat) (m : GateMsg) (stuck : Bool) (hg : Goes s0 s) :
    Goes s0 (State.closedEvents s p m stuck) := by
  unfold State.closedEvents
  try dsimp only
  repeat' (first | with_reducible exact hg | with_reducible assumption | with_reducible apply State.raise_goes | split)

theorem State.takeDecision_goes {s0 s : State} (p : Nat) (g : List Byte) (m : GateMsg) (hg : Goes s0 s) :
    Goes s0 (State.takeDecision s p g m) := by
  unfold State.takeDecision
  try dsimp only
  repeat' first
    | with_reducible exact hg | with_reducible assumption | with_reducible apply State.sendSeat_goes
    | with_reducible apply State.closedEvents_goes | with_reducible apply State.updPart_goes
    | with_reducible apply Square.foldl_ok | with_reducible refine Goes.foldl _ ?_ ?_
    | with_reducible refine Square.foldl_ok _ ?_ ?_ | (intro _) | with_reducible refine Goes.mk ?_ rfl

theorem State.castVote_goes {s0 s : State} (p : Nat) (g : List Byte) (hg : Goes s0 s) :
    Goes s0 (State.castVote s p g) := by
  unfold State.castVote
  try dsimp only
  repeat' first
    | with_reducible exact hg | with_reducible assumption | with_reducible apply State.sendSeat_goes
    | with_reducible apply State.takeDecision_goes | with_reducible apply State.updPart_goes
    | with_reducible apply Square.foldl_ok | with_reducible refine Goes.foldl _ ?_ ?_
    | with_reducible refine Square.foldl_ok _ ?_ ?_ | split | (intro _) | with_reducible refine Goes.mk ?_ rfl

theorem State.takeGate_goes {s0 s : State} {p kind : Nat} {x : State × Nat × GateMsg} (hx : s.takeGate p kind = some x)
    (hg : Goes s0 s) : Goes s0 x.1 := by
  unfold State.takeGate at hx
  split at hx
  · cases hx
  · split at hx
    · cases hx
    · cases hx; exact State.updPart_goes _ _ hg

theorem State.applyGate_goes {s0 s : State} (p : Nat) (g : List Byte) (hg : Goes s0 s) :
    Goes s0 (State.applyGate s p g) := by
  unfold State.applyGate
  try dsimp only
  repeat' first
    | with_reducible exact hg | with_reducible assumption | with_reducible apply State.applyAdvances_goes
    | with_reducible apply State.applySwaps_goes | with_reducible apply State.applyPatches_goes
    | with_reducible apply State.closedEvents_goes | with_reducible apply State.updPart_goes | split | (intro _)
    | with_reducible refine Goes.mk ?_ rfl

theorem State.checkpointDone_goes {s0 s : State} (p : Nat) (hg : Goes s0 s) :
    Goes s0 (State.checkpointDone s p) := by
  unfold State.checkpointDone
  try dsimp only
  repeat' first
    | with_reducible exact hg | with_reducible assumption | with_reducible apply State.updPart_goes | split | (intro _)
    | with_reducible refine Goes.mk ?_ rfl

theorem State.planEnter_goes {s0 s : State} (p : Nat) (n : Nat) (g : List Byte) (gi : Nat) (hg : Goes s0 s) :
    Goes s0 (State.planEnter s p n g gi) := by
  unfold State.planEnter
  try dsimp only
  repeat' first
    | with_reducible exact hg | with_reducible assumption | with_reducible apply State.beginStep_goes
    | with_reducible apply State.applyGate_goes | with_reducible apply State.checkpointDone_goes
    | with_reducible apply State.updPart_goes | split | (intro _) | with_reducible refine Goes.mk ?_ rfl

theorem State.planTurn_goes {s0 s : State} (p n : Nat) (hg : Goes s0 s) : Goes s0 (s.planTurn p n).1 := by
  unfold State.planTurn
  split
  · have h1 := State.planEnter_goes p n ‹_› ‹_› hg
    dsimp only
    split
    · exact State.updPart_goes _ _ h1
    · exact h1
  · exact hg

/-! ### Reduce -/

theorem maskOpRun_goes {s0 s : State} (q : Nat) (o : Op) (hg : Goes s0 s) :
    Goes s0 (maskOpRun s q o).state := by
  unfold maskOpRun
  try dsimp only
  repeat' first
    | with_reducible exact hg | with_reducible assumption | with_reducible apply State.putElems_goes
    | with_reducible apply State.touchTensor_goes | with_reducible apply State.putMask_goes
    | with_reducible apply State.touchMasks_goes | split | (intro _)

theorem State.touchPresent_goes {s0 s : State} (q : Nat) (pl : Nat) (p : Nat) (enable : Bool) (m : Nat) (xs : List
    Stream) (n : Nat) (hg : Goes s0 s) :
    Goes s0 (State.touchPresent s q pl p enable m xs n) := by
  unfold State.touchPresent
  try dsimp only
  repeat' first
    | with_reducible exact hg | with_reducible assumption | with_reducible apply State.touchStream_goes
    | with_reducible apply State.touchMasks_goes | with_reducible apply Square.foldl_ok
    | with_reducible refine Goes.foldl _ ?_ ?_ | with_reducible refine Square.foldl_ok _ ?_ ?_ | (intro _)

theorem vreduceRun_goes {s0 s : State} (q : Nat) (o : Op) (hg : Goes s0 s) :
    Goes s0 (vreduceRun s q o).state := by
  unfold vreduceRun
  try dsimp only
  repeat' first
    | with_reducible exact hg | with_reducible assumption | with_reducible apply State.putOut_goes
    | with_reducible apply State.touchPresent_goes | split | (intro _)

theorem State.putCarry_goes {s0 s : State} (l : List (Nat × Nat × Byte)) (hg : Goes s0 s) : Goes s0 (s.putCarry l) :=
  Goes.foldl _ (fun _ _ h => State.updSq_goes _ _ (fun _ h => Square.lsPut_ok _ _ h) h) hg

theorem vscanRun_goes {s0 s : State} (q : Nat) (o : Op) (hg : Goes s0 s) :
    Goes s0 (vscanRun s q o).state := by
  unfold vscanRun
  try dsimp only
  repeat' first
    | with_reducible exact hg | with_reducible assumption | with_reducible apply State.touchTensor_goes
    | with_reducible apply State.putOut_goes | with_reducible apply State.touchPresent_goes
    | with_reducible apply State.putCarry_goes | with_reducible apply Square.foldl_ok
    | with_reducible refine Goes.foldl _ ?_ ?_ | with_reducible refine Square.foldl_ok _ ?_ ?_ | split | (intro _)
    | with_reducible refine Goes.mk ?_ rfl

theorem Square.lutWrite_ok {x : Square} (ad : Nat) (bytes : List Byte) (hx : x.storesOk) : (x.lutWrite ad bytes).storesOk :=
  ⟨hx.1, hx.2.1, Mem.wf_writeAll _ _ hx.2.2⟩

theorem lutLoadRun_goes {s0 s : State} (q : Nat) (o : Op) (hg : Goes s0 s) :
    Goes s0 (lutLoadRun s q o).state := by
  unfold lutLoadRun
  try dsimp only
  repeat' first
    | with_reducible exact hg | with_reducible assumption | with_reducible apply State.count_goes
    | with_reducible apply State.touchTensor_goes | with_reducible apply State.updSq_goes
    | with_reducible apply Square.foldl_ok | with_reducible apply Square.lutWrite_ok
    | with_reducible refine Goes.foldl _ ?_ ?_ | with_reducible refine Square.foldl_ok _ ?_ ?_ | (intro x hx; exact hx)
    | split | (intro _)

theorem Square.swapBanks_ok {x : Square} (quads : Nat) (hg : x.storesOk) :
    (Square.swapBanks x quads).storesOk := by
  unfold Square.swapBanks
  try dsimp only
  repeat' (first | with_reducible exact hg | with_reducible assumption | exact hg | (intro _))

/-! ### Special -/

theorem Square.countRows_ok {x : Square} (l : List RowOut) (hg : x.storesOk) :
    (Square.countRows x l).storesOk := by
  unfold Square.countRows
  try dsimp only
  repeat' first
    | with_reducible exact hg | with_reducible assumption | with_reducible apply Square.foldl_ok
    | with_reducible refine Square.foldl_ok _ ?_ ?_ | exact hg | split | (intro _)

theorem State.putRows_goes {s0 s : State} (q : Nat) (l : List RowOut) (hg : Goes s0 s) :
    Goes s0 (State.putRows s q l) := by
  unfold State.putRows
  try dsimp only
  repeat' first
    | with_reducible exact hg | with_reducible assumption | with_reducible apply State.putOut_goes
    | with_reducible apply State.updSq_goes | with_reducible apply Square.countRows_ok | (intro x hx; exact hx) | (intro _)

theorem smaxRun_goes {s0 s : State} (q : Nat) (o : Op) (hg : Goes s0 s) :
    Goes s0 (smaxRun s q o).state := by
  unfold smaxRun
  try dsimp only
  repeat' first
    | with_reducible exact hg | with_reducible assumption | with_reducible apply State.touchElems_goes
    | with_reducible apply State.touchPresent_goes | with_reducible apply State.putRows_goes | split | (intro _)

theorem rowStatsRun_goes {s0 s : State} (q : Nat) (o : Op) (hg : Goes s0 s) :
    Goes s0 (rowStatsRun s q o).state := by
  unfold rowStatsRun
  try dsimp only
  repeat' first
    | with_reducible exact hg | with_reducible assumption | with_reducible apply State.touchElems_goes
    | with_reducible apply State.touchTensor_goes | with_reducible apply State.touchPresent_goes
    | with_reducible apply State.putRows_goes | split | (intro _)

/-! ### Blocks -/

theorem State.runMoves_goes {s0 s : State} (p : Nat) (o : BlockOp) (code : Nat → Move → Nat) (ms : List Move) (hg :
    Goes s0 s) :
    Goes s0 (State.runMoves s p o code ms).1 := by
  unfold State.runMoves
  try dsimp only
  repeat' first
    | with_reducible exact hg | with_reducible assumption | with_reducible apply State.makeWrites_goes
    | with_reducible apply State.touchVas_goes | split | (intro _)

theorem State.countIndex_goes {s0 s : State} (p : Nat) (hg : Goes s0 s) :
    Goes s0 (State.countIndex s p) := by
  unfold State.countIndex
  try dsimp only
  repeat' first
    | with_reducible exact hg | with_reducible assumption | with_reducible apply State.updPart_goes | (intro _)
    | with_reducible refine Goes.mk ?_ rfl

theorem State.markBlock_goes {s0 s : State} (p : Nat) (o : BlockOp) (j : Nat) (hg : Goes s0 s) :
    Goes s0 (State.markBlock s p o j).1 := by
  unfold State.markBlock
  try dsimp only
  repeat' first
    | with_reducible exact hg | with_reducible assumption | with_reducible apply State.makeWrites_goes | split | (intro _)

theorem State.endEntry_goes {s0 s : State} (p : Nat) (o : BlockOp) (j : Nat) (hg : Goes s0 s) :
    Goes s0 (State.endEntry s p o j).1 := by
  unfold State.endEntry
  try dsimp only
  repeat' first
    | with_reducible exact hg | with_reducible assumption | with_reducible apply State.countIndex_goes
    | with_reducible apply State.markBlock_goes | split

theorem blockStep_goes {s0 : State} (p : Nat) (o : BlockOp) (x : State × Option RunFault) (j : Nat) (hg : Goes s0 x.1) :
    Goes s0 (blockStep p o x j).1 := by
  obtain ⟨s, f⟩ := x
  cases f with
  | some f => exact hg
  | none =>
    unfold blockStep
    simp only [Option.isSome_none, Bool.false_eq_true, if_false]
    cases s.entryFault p o j with
    | some f => exact hg
    | none =>
      cases hm : s.entryMoves p o j with
      | none => exact State.countIndex_goes p hg
      | some ms =>
        have h1 := State.runMoves_goes p o (fun _ m => s.moveCode p o (s.earlierSame p o j) m) ms hg
        dsimp only
        generalize s.runMoves p o (fun _ m => s.moveCode p o (s.earlierSame p o j) m) ms = t at h1 ⊢
        obtain ⟨t, f, n⟩ := t
        have h2 := State.chargeAll_goes p none (s.moveTraffic p o (ms.take n)) h1
        cases f with
        | some f => exact h2
        | none => exact State.endEntry_goes p o j h2

theorem vblockRun_goes {s0 s : State} (q : Nat) (o : Op) (hg : Goes s0 s) : Goes s0 (vblockRun s q o).state := by
  have key : ∀ (l : List Nat) (x : State × Option RunFault), Goes s0 x.1 →
      Goes s0 (l.foldl (blockStep (s.partOf q) (s.vblockOp q o.bits)) x).1 := by
    intro l
    induction l with
 | nil => exact fun _ h => h
 | cons j r ih => exact fun x h => ih _ (blockStep_goes _ _ x j h)
  exact key _ (s, none) hg

/-! ### Chain -/

theorem State.discardPacket_goes {s0 s : State} (src : Nat) (q : Nat) (hg : Goes s0 s) :
    Goes s0 (State.discardPacket s src q) := by
  unfold State.discardPacket
  try dsimp only
  repeat' first
    | with_reducible exact hg | with_reducible assumption | with_reducible apply State.count_goes
    | with_reducible apply State.raise_goes

theorem State.onFabric_goes {s0 s : State} (m : FabricMsg) (src q : Nat) (f : State → State)
    (hf : ∀ t, Goes s0 t → Goes s0 (f t)) (hg : Goes s0 s) : Goes s0 (s.onFabric m src q f) := by
  unfold State.onFabric
  split
  · have h1 : Goes s0 { s with fabric := s.fabric.erase m } := hg.mk rfl
    dsimp only
    split
    · exact hf _ h1
    · exact State.discardPacket_goes _ _ h1
  · exact hg

theorem State.resetRing_goes {s0 s : State} (q : Nat) (e : Nat) (o : Op) (hg : Goes s0 s) :
    Goes s0 (State.resetRing s q e o) := by
  unfold State.resetRing
  try dsimp only
  repeat' first
    | with_reducible exact hg | with_reducible assumption | with_reducible apply State.sendSeat_goes
    | with_reducible apply State.updEntry_goes | with_reducible apply State.updOp_goes
    | with_reducible apply Square.updEntry_ok | with_reducible apply Square.updOp_ok | split | (intro _)
    | with_reducible refine Goes.mk ?_ rfl

theorem State.arriveReset_goes {s0 s : State} (p : Nat) (q : Nat) (e : Nat) (epoch : Nat) (hg : Goes s0 s) :
    Goes s0 (State.arriveReset s p q e epoch) := by
  unfold State.arriveReset
  try dsimp only
  repeat' first
    | with_reducible exact hg | with_reducible assumption | with_reducible apply State.placeFault_goes
    | with_reducible apply State.active_goes | with_reducible apply State.updEntry_goes
    | with_reducible apply Square.updEntry_ok | split | (intro _) | with_reducible refine Goes.mk ?_ rfl

theorem State.arriveResetAck_goes {s0 s : State} (p : Nat) (q : Nat) (e : Nat) (hg : Goes s0 s) :
    Goes s0 (State.arriveResetAck s p q e) := by
  unfold State.arriveResetAck
  try dsimp only
  repeat' first
    | with_reducible exact hg | with_reducible assumption | with_reducible apply State.placeFault_goes
    | with_reducible apply State.active_goes | with_reducible apply State.updOp_goes | with_reducible apply Square.updOp_ok
    | split | (intro _) | with_reducible refine Goes.mk ?_ rfl

/-! ### VectorQueue -/

theorem vectorRun_goes {s0 s : State} (q : Nat) (o : Op) (hg : Goes s0 s) :
    Goes s0 (vectorRun s q o).state := by
  unfold vectorRun
  try dsimp only
  repeat' first
    | with_reducible exact hg | with_reducible assumption | with_reducible apply accLoadRun_goes
    | with_reducible apply accStoreRun_goes | with_reducible apply accCombineRun_goes | with_reducible apply vrunRun_goes
    | with_reducible apply maskOpRun_goes | with_reducible apply vreduceRun_goes | with_reducible apply vscanRun_goes
    | with_reducible apply lutLoadRun_goes | with_reducible apply smaxRun_goes | with_reducible apply rowStatsRun_goes
    | with_reducible apply vblockRun_goes | split | (intro _)

theorem State.runVector_goes {s0 s : State} (q : Nat) (o : Op) (hg : Goes s0 s) :
    Goes s0 (State.runVector s q o) := by
  unfold State.runVector
  try dsimp only
  repeat' first
    | with_reducible exact hg | with_reducible assumption | with_reducible apply State.runFault_goes
    | with_reducible apply vectorRun_goes | with_reducible apply State.updSq_goes | with_reducible apply State.updOp_goes
    | with_reducible apply Square.updOp_ok | (intro x hx; exact hx) | split | (intro _)
    | with_reducible refine Goes.mk ?_ rfl

theorem State.runSwap_goes {s0 s : State} (q : Nat) (o : Op) (hg : Goes s0 s) :
    Goes s0 (State.runSwap s q o) := by
  unfold State.runSwap
  try dsimp only
  repeat' first
    | with_reducible exact hg | with_reducible assumption | with_reducible apply State.updSq_goes
    | with_reducible apply State.updOp_goes | with_reducible apply Square.updOp_ok
    | with_reducible apply Square.swapBanks_ok | (intro x hx; exact hx) | split | (intro _)
    | with_reducible refine Goes.mk ?_ rfl

theorem State.startHead_goes {s0 s : State} (q : Nat) (hg : Goes s0 s) :
    Goes s0 (State.startHead s q) := by
  unfold State.startHead
  try dsimp only
  repeat' first
    | with_reducible exact hg | with_reducible assumption | with_reducible apply State.holdOp_goes
    | with_reducible apply State.runVector_goes | with_reducible apply State.runSwap_goes | split | (intro _)

theorem State.vectorProgress_goes {s0 s : State} (q : Nat) (hg : Goes s0 s) :
    Goes s0 (State.vectorProgress s q) := by
  unfold State.vectorProgress
  try dsimp only
  repeat' first
    | with_reducible exact hg | with_reducible assumption | with_reducible apply State.startHead_goes
    | with_reducible apply Square.foldl_ok | with_reducible refine Goes.foldl _ ?_ ?_
    | with_reducible refine Square.foldl_ok _ ?_ ?_ | (intro _)

theorem State.issueVector_goes {s0 s : State} (q : Nat) (pl : Nat) (r : Rec) (operands : List Rec) (index : Nat)
    (slots : List Nat) (reads : Nat) (writes : Nat) (hg : Goes s0 s) :
    Goes s0 (State.issueVector s q pl r operands index slots reads writes) := by
  unfold State.issueVector
  try dsimp only
  repeat' first
    | with_reducible exact hg | with_reducible assumption | with_reducible apply State.issueOp_goes
    | with_reducible apply State.vectorProgress_goes | with_reducible apply State.updSq_goes | (intro x hx; exact hx)
    | (intro _) | with_reducible refine Goes.mk ?_ rfl

/-! ### AsletSend -/

theorem State.asletSend_goes {s0 s : State} (t : AsletTxn) (hg : Goes s0 s) :
    Goes s0 (State.asletSend s t) := by
  unfold State.asletSend
  try dsimp only
  repeat' first
    | with_reducible exact hg | with_reducible assumption | with_reducible apply State.updAslet_goes | (intro _)

theorem State.hostRequest_goes {s0 s : State} (ch : Nat) (want : AsletWant) (off : Nat) (t : AsletTxn) (hg : Goes s0
    s) :
    Goes s0 (State.hostRequest s ch want off t) := by
  unfold State.hostRequest
  try dsimp only
  repeat' first
    | with_reducible exact hg | with_reducible assumption | with_reducible apply State.asletSend_goes
    | with_reducible apply State.updAslet_goes | (intro _) | with_reducible refine Goes.mk ?_ rfl

theorem State.hostRead_goes {s0 s : State} (ch : Nat) (want : AsletWant) (addr : Nat) (len : Nat) (hg : Goes s0 s) :
    Goes s0 (State.hostRead s ch want addr len) := by
  unfold State.hostRead
  try dsimp only
  repeat' first
    | with_reducible exact hg | with_reducible assumption | with_reducible apply State.hostRequest_goes
    | with_reducible apply Square.foldl_ok | with_reducible refine Goes.foldl _ ?_ ?_
    | with_reducible refine Square.foldl_ok _ ?_ ?_ | (intro _)

theorem State.hostWrite_goes {s0 s : State} (ch : Nat) (want : AsletWant) (addr : Nat) (l : List Byte) (hg : Goes s0
    s) :
    Goes s0 (State.hostWrite s ch want addr l) := by
  unfold State.hostWrite
  try dsimp only
  repeat' first
    | with_reducible exact hg | with_reducible assumption | with_reducible apply State.hostRequest_goes
    | with_reducible apply Square.foldl_ok | with_reducible refine Goes.foldl _ ?_ ?_
    | with_reducible refine Square.foldl_ok _ ?_ ?_ | (intro _)

/-! ### Mover -/

theorem State.startChain_goes {s0 s : State} (m : MoverId) (ch : Nat) (p : Nat) (first : Nat) (srcShift : Int)
    (dstShift : Int) (transfer : Option Nat) (repeatNo : Nat) (hg : Goes s0 s) :
    Goes s0 (State.startChain s m ch p first srcShift dstShift transfer repeatNo) := by
  unfold State.startChain
  try dsimp only
  repeat' first
    | with_reducible exact hg | with_reducible assumption | with_reducible apply State.updChannel_goes | (intro _)
    | with_reducible refine Goes.mk ?_ rfl

theorem State.moverFault_goes {s0 s : State} (m : MoverId) (ch : Nat) (f : RunFault) (cause : Nat) (hg : Goes s0 s) :
    Goes s0 (State.moverFault s m ch f cause) := by
  unfold State.moverFault
  try dsimp only
  repeat' first
    | with_reducible exact hg | with_reducible assumption | with_reducible apply State.raise_goes
    | with_reducible apply State.freeze_goes | with_reducible apply State.updChannel_goes | split | (intro _)
    | with_reducible refine Goes.mk ?_ rfl

theorem State.activate_goes {s0 s : State} (m : MoverId) (ch : Nat) (hg : Goes s0 s) :
    Goes s0 (State.activate s m ch) := by
  unfold State.activate
  try dsimp only
  repeat' first
    | with_reducible exact hg | with_reducible assumption | with_reducible apply State.count_goes
    | with_reducible apply State.active_goes | with_reducible apply State.updChannel_goes | split | (intro _)
    | with_reducible refine Goes.mk ?_ rfl

theorem State.channelEnded_goes {s0 s : State} (m : MoverId) (ch : Nat) (hg : Goes s0 s) :
    Goes s0 (State.channelEnded s m ch) := by
  unfold State.channelEnded
  try dsimp only
  repeat' first
    | with_reducible exact hg | with_reducible assumption | with_reducible apply State.updSq_goes | (intro x hx; exact hx)
    | split | (intro _) | with_reducible refine Goes.mk ?_ rfl

theorem State.moverSlot_goes {s0 s : State} (m : MoverId) (ch : Nat) (d : Rec) (hg : Goes s0 s) :
    Goes s0 (State.moverSlot s m ch d) := by
  unfold State.moverSlot
  try dsimp only
  repeat' (first | with_reducible exact hg | with_reducible assumption | with_reducible apply State.addSlot_goes | split)

theorem State.moverPost_goes {s0 s : State} (m : MoverId) (ch : Nat) (d : Rec) (hg : Goes s0 s) :
    Goes s0 (State.moverPost s m ch d) := by
  unfold State.moverPost
  try dsimp only
  repeat' (first | with_reducible exact hg | with_reducible assumption | with_reducible apply State.post_goes | split)

theorem State.refusedRequest_goes {s0 s : State} (m : MoverId) (ch : Nat) (p : Nat) (live : Bool) (desc : Nat) (va :
    Nat) (hg : Goes s0 s) :
    Goes s0 (State.refusedRequest s m ch p live desc va) := by
  unfold State.refusedRequest
  try dsimp only
  repeat' first
    | with_reducible exact hg | with_reducible assumption | with_reducible apply State.raise_goes
    | with_reducible apply State.freeze_goes | with_reducible apply State.updChannel_goes | split | (intro _)
    | with_reducible refine Goes.mk ?_ rfl

theorem State.moverReport_goes {s0 s : State} (m : MoverId) (ch : Nat) (detail : Nat) (p : Nat) (desc : Nat) (hg :
    Goes s0 s) :
    Goes s0 (State.moverReport s m ch detail p desc) := by
  unfold State.moverReport
  try dsimp only
  repeat' (first | with_reducible exact hg | with_reducible assumption | with_reducible apply State.raise_goes)

/-! ### MoverBurst -/

theorem State.passEntries_goes {s0 s : State} (m : MoverId) (ch n : Nat) (hg : Goes s0 s) :
    Goes s0 (State.passEntries s m ch n).1 := by
  induction n generalizing s with
 | zero => exact hg
 | succ n ih =>
    unfold State.passEntries
    dsimp only
    split
    · split
      · split
        · split
          · exact State.endEntry_goes _ _ _ hg
          · exact ih (State.updChannel_goes _ _ _ (State.endEntry_goes _ _ _ hg))
        · exact hg
      · exact hg
    · exact hg

theorem State.advanceWalk_goes {s0 s : State} (m : MoverId) (ch n : Nat) (codes : List Nat) (hg : Goes s0 s) :
    Goes s0 (s.advanceWalk m ch n codes).1 := by
  unfold State.advanceWalk
  dsimp only
  generalize hc : decide (mdKind (s.mdesc (s.channel m ch)) = 0) = c
  cases c with
 | true =>
    simp only [if_true]
    split
    · exact State.updChannel_goes _ _ _ (State.updChannel_goes _ _ _ hg)
    · exact State.updChannel_goes _ _ _ hg
 | false =>
    simp only [Bool.false_eq_true, if_false]
    split
    · exact State.updChannel_goes _ _ _ (State.passEntries_goes _ _ _ (State.updChannel_goes _ _ _ hg))
    · exact State.passEntries_goes _ _ _ (State.updChannel_goes _ _ _ hg)

theorem State.stopFault_goes {s0 s : State} (m : MoverId) (ch : Nat) (hg : Goes s0 s) :
    Goes s0 (State.stopFault s m ch) := by
  unfold State.stopFault
  try dsimp only
  repeat' first
    | with_reducible exact hg | with_reducible assumption | with_reducible apply State.countIndex_goes
    | with_reducible apply State.moverFault_goes | split | (intro _)

theorem State.endBurst_goes {s0 s : State} (m : MoverId) (ch n : Nat) (codes : List Nat) (f : Option RunFault) (hg : Goes
    s0 s) :
    Goes s0 (s.endBurst m ch n codes f) := by
  unfold State.endBurst
  have h1 := State.advanceWalk_goes m ch n codes hg
  dsimp only
  split
  · exact State.moverFault_goes _ _ _ _ (State.updChannel_goes _ _ _ h1)
  · exact State.active_goes _ h1

theorem State.localBurst_goes {s0 s : State} (m : MoverId) (ch : Nat) (hg : Goes s0 s) :
    Goes s0 (State.localBurst s m ch) := by
  unfold State.localBurst
  try dsimp only
  repeat' first
    | with_reducible exact hg | with_reducible assumption | with_reducible apply State.runMoves_goes
    | with_reducible apply State.endBurst_goes | (intro _)

theorem State.storeCodes_goes {s0 s : State} (m : MoverId) (ch : Nat) (new : List Nat) (hg : Goes s0 s) :
    Goes s0 (State.storeCodes s m ch new) := by
  unfold State.storeCodes
  try dsimp only
  repeat' first
    | with_reducible exact hg | with_reducible assumption | with_reducible apply State.updChannel_goes | (intro _)
    | with_reducible refine Goes.mk ?_ rfl

theorem State.zeroCodes_goes {s0 s : State} (m : MoverId) (ch : Nat) (hg : Goes s0 s) :
    Goes s0 (State.zeroCodes s m ch) := by
  unfold State.zeroCodes
  try dsimp only
  repeat' first
    | with_reducible exact hg | with_reducible assumption | with_reducible apply State.storeCodes_goes | split | (intro _)

theorem State.writeFar_goes {s0 s : State} (m : MoverId) (ch : Nat) (hg : Goes s0 s) :
    Goes s0 (State.writeFar s m ch) := by
  unfold State.writeFar
  try dsimp only
  repeat' first
    | with_reducible exact hg | with_reducible assumption | with_reducible apply State.runMoves_goes
    | with_reducible apply State.endBurst_goes | (intro _) | with_reducible refine Goes.mk ?_ rfl

theorem State.linkRequest_goes {s0 s : State} (l : Nat) (ch : Nat) (va : Nat) (blocks : List (Nat × Nat)) (t : Txn)
    (hg : Goes s0 s) :
    Goes s0 (State.linkRequest s l ch va blocks t) := by
  unfold State.linkRequest
  try dsimp only
  repeat' first
    | with_reducible exact hg | with_reducible assumption | with_reducible apply State.sendRoute_goes
    | with_reducible apply State.updLink_goes | with_reducible apply State.updChannel_goes | (intro _)
    | with_reducible refine Goes.mk ?_ rfl

theorem State.trainBurst_goes {s0 s : State} (l : Nat) (ch : Nat) (hg : Goes s0 s) :
    Goes s0 (State.trainBurst s l ch) := by
  unfold State.trainBurst
  try dsimp only
  repeat' first
    | with_reducible exact hg | with_reducible assumption | with_reducible apply State.touchVas_goes
    | with_reducible apply State.moverFault_goes | with_reducible apply State.endBurst_goes
    | with_reducible apply State.linkRequest_goes | with_reducible apply Square.foldl_ok
    | with_reducible refine Goes.foldl _ ?_ ?_ | with_reducible refine Square.foldl_ok _ ?_ ?_ | split | (intro _)

theorem State.readBurst_goes {s0 s : State} (l : Nat) (ch : Nat) (hg : Goes s0 s) :
    Goes s0 (State.readBurst s l ch) := by
  unfold State.readBurst
  try dsimp only
  repeat' first
    | with_reducible exact hg | with_reducible assumption | with_reducible apply State.zeroCodes_goes
    | with_reducible apply State.writeFar_goes | with_reducible apply State.linkRequest_goes | split | (intro _)

theorem State.readArrived_goes {s0 s : State} (l : Nat) (ch : Nat) (data : List Byte) (hg : Goes s0 s) :
    Goes s0 (State.readArrived s l ch data) := by
  unfold State.readArrived
  try dsimp only
  repeat' first
    | with_reducible exact hg | with_reducible assumption | with_reducible apply State.storeCodes_goes | (intro _)

theorem State.recordStep_goes {s0 s : State} (ch : Nat) (i : Nat) (size : Nat) (key : Option (BitVec 288)) (aad : List
    Byte → List Byte) (expect : Nat) (hg : Goes s0 s) :
    Goes s0 (State.recordStep s ch i size key aad expect).1 := by
  unfold State.recordStep
  try dsimp only
  repeat' first
    | with_reducible exact hg | with_reducible assumption | with_reducible apply State.hostRead_goes
    | with_reducible apply State.updChannel_goes | split | (intro _) | with_reducible refine Goes.mk ?_ rfl

theorem State.recordFault_goes {s0 s : State} (ch : Nat) (code : Nat) (off : Nat) (hg : Goes s0 s) :
    Goes s0 (State.recordFault s ch code off) := by
  unfold State.recordFault
  try dsimp only
  repeat' (first | with_reducible exact hg | with_reducible assumption | with_reducible apply State.moverFault_goes | split)

theorem State.hostInBurst_goes {s0 s : State} (ch : Nat) (hg : Goes s0 s) :
    Goes s0 (State.hostInBurst s ch) := by
  unfold State.hostInBurst
  try dsimp only
  repeat' first
    | with_reducible exact hg | with_reducible assumption | with_reducible apply State.moverFault_goes
    | with_reducible apply State.storeCodes_goes | with_reducible apply State.zeroCodes_goes
    | with_reducible apply State.writeFar_goes | with_reducible apply State.recordStep_goes
    | with_reducible apply State.recordFault_goes | with_reducible apply State.updPart_goes
    | with_reducible apply State.updChannel_goes | split | (intro _) | with_reducible refine Goes.mk ?_ rfl

theorem State.flushRecord_goes {s0 s : State} (ch : Nat) (size : Nat) (hg : Goes s0 s) :
    Goes s0 (State.flushRecord s ch size) := by
  unfold State.flushRecord
  try dsimp only
  repeat' first
    | with_reducible exact hg | with_reducible assumption | with_reducible apply State.hostWrite_goes
    | with_reducible apply State.updPart_goes | with_reducible apply State.updChannel_goes | split | (intro _)
    | with_reducible refine Goes.mk ?_ rfl

theorem State.hostOutBurst_goes {s0 s : State} (ch : Nat) (hg : Goes s0 s) :
    Goes s0 (State.hostOutBurst s ch) := by
  unfold State.hostOutBurst
  try dsimp only
  repeat' first
    | with_reducible exact hg | with_reducible assumption | with_reducible apply State.touchVas_goes
    | with_reducible apply State.moverFault_goes | with_reducible apply State.endBurst_goes
    | with_reducible apply State.flushRecord_goes | with_reducible apply State.updChannel_goes
    | with_reducible apply Square.foldl_ok | with_reducible refine Goes.foldl _ ?_ ?_
    | with_reducible refine Square.foldl_ok _ ?_ ?_ | split | (intro _) | with_reducible refine Goes.mk ?_ rfl

theorem State.placeBurst_goes {s0 s : State} (p : Nat) (hg : Goes s0 s) :
    Goes s0 (State.placeBurst s p) := by
  unfold State.placeBurst
  try dsimp only
  repeat' first
    | with_reducible exact hg | with_reducible assumption | with_reducible apply State.freshDevice_goes
    | with_reducible apply State.moverFault_goes | with_reducible apply State.recordStep_goes
    | with_reducible apply State.recordFault_goes | with_reducible apply State.updPart_goes
    | with_reducible apply State.updSession_goes | split | (intro _) | with_reducible refine Goes.mk ?_ rfl

theorem State.deliverBurst_goes {s0 s : State} (p : Nat) (hg : Goes s0 s) :
    Goes s0 (State.deliverBurst s p) := by
  unfold State.deliverBurst
  try dsimp only
  repeat' first
    | with_reducible exact hg | with_reducible assumption | with_reducible apply State.raise_goes
    | with_reducible apply State.makeWrites_goes | with_reducible apply State.chargeAll_goes
    | with_reducible apply State.moverFault_goes | with_reducible apply State.recordStep_goes
    | with_reducible apply State.updPart_goes | with_reducible apply State.updChannel_goes | split | (intro _)
    | with_reducible refine Goes.mk ?_ rfl

theorem State.runBurst_goes {s0 s : State} (m : MoverId) (ch : Nat) (hg : Goes s0 s) :
    Goes s0 (State.runBurst s m ch) := by
  unfold State.runBurst
  try dsimp only
  repeat' first
    | with_reducible exact hg | with_reducible assumption | with_reducible apply State.localBurst_goes
    | with_reducible apply State.trainBurst_goes | with_reducible apply State.readBurst_goes
    | with_reducible apply State.hostInBurst_goes | with_reducible apply State.hostOutBurst_goes | split | (intro _)

theorem State.paidBurst_goes {s0 s : State} (m : MoverId) (ch : Nat) (hg : Goes s0 s) :
    Goes s0 (State.paidBurst s m ch) := by
  unfold State.paidBurst
  try dsimp only
  repeat' first
    | with_reducible exact hg | with_reducible assumption | with_reducible apply State.chargeAll_goes
    | with_reducible apply State.runBurst_goes | with_reducible apply State.updChannel_goes | split | (intro _)
    | with_reducible refine Goes.mk ?_ rfl

theorem State.burst_goes {s0 s : State} (m : MoverId) (ch : Nat) (hg : Goes s0 s) : Goes s0 (s.burst m ch) := by
  unfold State.burst
  have h1 := State.advanceWalk_goes m ch 0 (s.channel m ch).codes hg
  dsimp only
  split
  · exact State.moverFault_goes _ _ _ _ h1
  split
  · exact h1
  split
  · exact State.stopFault_goes _ _ h1
  · exact State.paidBurst_goes _ _ h1

theorem State.serviceBurst_goes {s0 s : State} (p : Nat) (hg : Goes s0 s) :
    Goes s0 (State.serviceBurst s p) := by
  unfold State.serviceBurst
  try dsimp only
  repeat' first
    | with_reducible exact hg | with_reducible assumption | with_reducible apply State.placeBurst_goes
    | with_reducible apply State.deliverBurst_goes | split

theorem State.moverBurst_goes {s0 s : State} (m : MoverId) (ch : Nat) (hg : Goes s0 s) :
    Goes s0 (State.moverBurst s m ch) := by
  unfold State.moverBurst
  try dsimp only
  repeat' first
    | with_reducible exact hg | with_reducible assumption | with_reducible apply State.active_goes
    | with_reducible apply State.burst_goes | with_reducible apply State.serviceBurst_goes | split

/-! ### Turn -/

theorem State.nextRepeat_goes {s0 s : State} (m : MoverId) (ch : Nat) (hg : Goes s0 s) :
    Goes s0 (State.nextRepeat s m ch) := by
  unfold State.nextRepeat
  try dsimp only
  repeat' first
    | with_reducible exact hg | with_reducible assumption | with_reducible apply State.placeFault_goes
    | with_reducible apply State.startChain_goes | with_reducible apply State.updEntry_goes
    | with_reducible apply State.updChannel_goes | with_reducible apply Square.foldl_ok
    | with_reducible apply Square.updEntry_ok | with_reducible refine Goes.foldl _ ?_ ?_
    | with_reducible refine Square.foldl_ok _ ?_ ?_ | split | (intro _) | with_reducible refine Goes.mk ?_ rfl

theorem State.startTransfer_goes {s0 s : State} (p : Nat) (k : Nat) (hg : Goes s0 s) :
    Goes s0 (State.startTransfer s p k) := by
  unfold State.startTransfer
  try dsimp only
  repeat' first
    | with_reducible exact hg | with_reducible assumption | with_reducible apply State.placeFault_goes
    | with_reducible apply State.nextRepeat_goes | with_reducible apply State.updChannel_goes | split | (intro _)
    | with_reducible refine Goes.mk ?_ rfl

theorem State.startTransfers_goes {s0 s : State} (p : Nat) (i : Nat) (hg : Goes s0 s) :
    Goes s0 (State.startTransfers s p i) := by
  unfold State.startTransfers
  try dsimp only
  repeat' first
    | with_reducible exact hg | with_reducible assumption | with_reducible apply State.startTransfer_goes
    | with_reducible apply Square.foldl_ok | with_reducible refine Goes.foldl _ ?_ ?_
    | with_reducible refine Square.foldl_ok _ ?_ ?_ | (intro _)

theorem Square.startSegment_ok {x : Square} (seg : Option Nat) (now : Nat) (hg : x.storesOk) :
    (Square.startSegment x seg now).storesOk := by
  unfold Square.startSegment
  try dsimp only
  repeat' first
    | with_reducible exact hg | with_reducible assumption | with_reducible apply State.count_goes
    | with_reducible apply State.updPlayer_goes | with_reducible apply Square.updPlayer_ok | exact hg | split | (intro _)

theorem Square.clearWaiters_ok {x : Square} (hg : x.storesOk) :
    (Square.clearWaiters x).storesOk := by
  unfold Square.clearWaiters
  try dsimp only
  repeat' (first | with_reducible exact hg | with_reducible assumption | exact hg | (intro _))

theorem State.runTurn_goes {s0 s : State} (p : Nat) (n : Nat) (hg : Goes s0 s) :
    Goes s0 (State.runTurn s p n) := by
  unfold State.runTurn
  try dsimp only
  repeat' first
    | with_reducible exact hg | with_reducible assumption | with_reducible apply State.active_goes
    | with_reducible apply State.planTurn_goes | with_reducible apply State.startTransfers_goes
    | with_reducible apply State.updSq_goes | with_reducible apply State.updPart_goes | with_reducible apply Square.foldl_ok
    | with_reducible apply Square.startSegment_ok | with_reducible apply Square.clearWaiters_ok
    | with_reducible refine Goes.foldl _ ?_ ?_ | with_reducible refine Square.foldl_ok _ ?_ ?_ | (intro x hx; exact hx)
    | split | (intro _) | with_reducible refine Goes.mk ?_ rfl

theorem Square.boundary_ok {x : Square} (hg : x.storesOk) :
    (Square.boundary x).storesOk := by
  unfold Square.boundary
  try dsimp only
  repeat' first
    | with_reducible exact hg | with_reducible assumption | with_reducible apply Square.foldl_ok
    | with_reducible refine Square.foldl_ok _ ?_ ?_ | exact hg | (intro _)

theorem State.turnReset_goes {s0 s : State} (p : Nat) (hg : Goes s0 s) :
    Goes s0 (State.turnReset s p) := by
  unfold State.turnReset
  try dsimp only
  repeat' first
    | with_reducible exact hg | with_reducible assumption | with_reducible apply State.updSq_goes
    | with_reducible apply State.updPart_goes | with_reducible apply State.updChannel_goes
    | with_reducible apply Square.foldl_ok | with_reducible apply Square.boundary_ok
    | with_reducible refine Goes.foldl _ ?_ ?_ | with_reducible refine Square.foldl_ok _ ?_ ?_ | (intro x hx; exact hx)
    | (intro _) | with_reducible refine Goes.mk ?_ rfl

theorem Square.recordSlack_ok {x : Square} (now : Nat) (len : Nat) (hg : x.storesOk) :
    (Square.recordSlack x now len).storesOk := by
  unfold Square.recordSlack
  try dsimp only
  repeat' first
    | with_reducible exact hg | with_reducible assumption | with_reducible apply State.count_goes | exact hg | split
    | (intro _)

theorem State.recordSlack_goes {s0 s : State} (p : Nat) (hg : Goes s0 s) :
    Goes s0 (State.recordSlack s p) := by
  unfold State.recordSlack
  try dsimp only
  repeat' first
    | with_reducible exact hg | with_reducible assumption | with_reducible apply State.updSq_goes
    | with_reducible apply Square.foldl_ok | with_reducible apply Square.recordSlack_ok
    | with_reducible refine Goes.foldl _ ?_ ?_ | with_reducible refine Square.foldl_ok _ ?_ ?_ | (intro x hx; exact hx)
    | (intro _)

theorem State.overrun_goes {s0 s : State} (p : Nat) (n : Nat) (hg : Goes s0 s) :
    Goes s0 (State.overrun s p n) := by
  unfold State.overrun
  try dsimp only
  repeat' first
    | with_reducible exact hg | with_reducible assumption | with_reducible apply State.setFlag_goes
    | with_reducible apply State.raise_goes | with_reducible apply State.requestHold_goes
    | with_reducible apply State.updPart_goes | with_reducible apply Square.foldl_ok
    | with_reducible refine Goes.foldl _ ?_ ?_ | with_reducible refine Square.foldl_ok _ ?_ ?_ | split | (intro _)
    | with_reducible refine Goes.mk ?_ rfl

theorem State.sendMarks_goes {s0 s : State} (p : Nat) (n : Nat) (hg : Goes s0 s) :
    Goes s0 (State.sendMarks s p n) := by
  unfold State.sendMarks
  try dsimp only
  repeat' first
    | with_reducible exact hg | with_reducible assumption | with_reducible apply State.sendOrdered_goes
    | with_reducible apply Square.foldl_ok | with_reducible refine Goes.foldl _ ?_ ?_
    | with_reducible refine Square.foldl_ok _ ?_ ?_ | (intro _)

theorem State.enterHeld_goes {s0 s : State} (p : Nat) (n : Nat) (hg : Goes s0 s) :
    Goes s0 (State.enterHeld s p n) := by
  unfold State.enterHeld
  try dsimp only
  repeat' first
    | with_reducible exact hg | with_reducible assumption | with_reducible apply State.holdEvent_goes
    | with_reducible apply State.beginRetrains_goes | with_reducible apply State.checkpointDone_goes
    | with_reducible apply State.updPart_goes | with_reducible apply Square.foldl_ok
    | with_reducible refine Goes.foldl _ ?_ ?_ | with_reducible refine Square.foldl_ok _ ?_ ?_ | split | (intro _)
    | with_reducible refine Goes.mk ?_ rfl

theorem State.beginTurn_goes {s0 s : State} (p : Nat) (n : Nat) (hg : Goes s0 s) :
    Goes s0 (State.beginTurn s p n) := by
  unfold State.beginTurn
  try dsimp only
  repeat' first
    | with_reducible exact hg | with_reducible assumption | with_reducible apply State.trim_goes
    | with_reducible apply State.runTurn_goes | with_reducible apply State.turnReset_goes
    | with_reducible apply State.recordSlack_goes | with_reducible apply State.overrun_goes
    | with_reducible apply State.sendMarks_goes | with_reducible apply State.updPart_goes
    | with_reducible apply Square.recordSlack_ok | split | (intro _) | with_reducible refine Goes.mk ?_ rfl

theorem State.boundary_goes {s0 s : State} (p : Nat) (n : Nat) (hg : Goes s0 s) :
    Goes s0 (State.boundary s p n) := by
  unfold State.boundary
  try dsimp only
  repeat' first
    | with_reducible exact hg | with_reducible assumption | with_reducible apply State.enterHeld_goes
    | with_reducible apply State.beginTurn_goes | split | (intro _)

/-! ### TableMsg -/

theorem State.takeTable_goes {s0 s : State} {l kind : Nat} {x : State × TableMsg} (hx : s.takeTable l kind = some x)
    (hg : Goes s0 s) : Goes s0 x.1 := by
  unfold State.takeTable at hx
  split at hx
  · cases hx
  · split at hx
    · cases hx; exact State.updLink_goes _ _ hg
    · cases hx

theorem State.joinedComplete_goes {s0 s : State} (p : Nat) (hg : Goes s0 s) :
    Goes s0 (State.joinedComplete s p) := by
  unfold State.joinedComplete
  try dsimp only
  repeat' first
    | with_reducible exact hg | with_reducible assumption | with_reducible apply State.raise_goes
    | with_reducible apply Square.foldl_ok | with_reducible refine Goes.foldl _ ?_ ?_
    | with_reducible refine Square.foldl_ok _ ?_ ?_ | split | (intro _)

theorem State.refuseJoin_goes {s0 s : State} (p : Nat) (m : TableMsg) (hg : Goes s0 s) :
    Goes s0 (State.refuseJoin s p m) := by
  unfold State.refuseJoin
  try dsimp only
  repeat' first
    | with_reducible exact hg | with_reducible assumption | with_reducible apply State.raise_goes
    | with_reducible apply State.updPart_goes | (intro _) | with_reducible refine Goes.mk ?_ rfl

theorem State.takeJoin_goes {s0 s : State} (p : Nat) (l : Nat) (m : TableMsg) (hg : Goes s0 s) :
    Goes s0 (State.takeJoin s p l m) := by
  unfold State.takeJoin
  try dsimp only
  repeat' first
    | with_reducible exact hg | with_reducible assumption | with_reducible apply State.flood_goes
    | with_reducible apply State.remember_goes | with_reducible apply State.joinedComplete_goes
    | with_reducible apply State.refuseJoin_goes | with_reducible apply State.updPart_goes | split | (intro _)
    | with_reducible refine Goes.mk ?_ rfl

theorem State.meetJoin_goes {s0 s : State} (p : Nat) (l : Nat) (m : TableMsg) (hg : Goes s0 s) :
    Goes s0 (State.meetJoin s p l m) := by
  unfold State.meetJoin
  try dsimp only
  repeat' first
    | with_reducible exact hg | with_reducible assumption | with_reducible apply State.rememberOn_goes
    | with_reducible apply State.refuseJoin_goes | with_reducible apply State.takeJoin_goes | split

theorem State.lengthsAgree_goes {s0 s : State} (p : Nat) (hg : Goes s0 s) :
    Goes s0 (State.lengthsAgree s p) := by
  unfold State.lengthsAgree
  try dsimp only
  repeat' first
    | with_reducible exact hg | with_reducible assumption | with_reducible apply State.releaseHold_goes | split | (intro _)

theorem State.takeLength_goes {s0 s : State} (p : Nat) (m : TableMsg) (hg : Goes s0 s) :
    Goes s0 (State.takeLength s p m) := by
  unfold State.takeLength
  try dsimp only
  repeat' first
    | with_reducible exact hg | with_reducible assumption | with_reducible apply State.raise_goes
    | with_reducible apply State.lengthsAgree_goes | with_reducible apply State.updPart_goes | split | (intro _)
    | with_reducible refine Goes.mk ?_ rfl

/-! ### RunCommand -/

theorem runCommand_goes {s0 s : State} (r : Req) (code : Nat) (chk : State → Nat) (act : State → State)
    (ha : ∀ t, Goes s0 t → Goes s0 (act t)) (hg : Goes s0 s) : OutGoes s0 (runCommand s r code chk act) := by
  refine OutGoes.next ?_
  split
  · exact State.command_goes _ _ _ ha hg
  · exact hg

theorem State.refuseRuns_goes {s0 s : State} (p : Nat) (hg : Goes s0 s) :
    Goes s0 (State.refuseRuns s p) := by
  unfold State.refuseRuns
  try dsimp only
  repeat' first
    | with_reducible exact hg | with_reducible assumption | with_reducible apply State.reply_goes
    | with_reducible apply State.updPart_goes | with_reducible apply Square.foldl_ok
    | with_reducible refine Goes.foldl _ ?_ ?_ | with_reducible refine Square.foldl_ok _ ?_ ?_ | (intro _)
    | with_reducible refine Goes.mk ?_ rfl

theorem Square.halt_ok {x : Square} (hg : x.storesOk) :
    (Square.halt x).storesOk := by
  unfold Square.halt
  try dsimp only
  repeat' (first | with_reducible exact hg | with_reducible assumption | exact hg | (intro _))

theorem State.haltSquares_goes {s0 s : State} (p : Nat) (hg : Goes s0 s) :
    Goes s0 (State.haltSquares s p) := by
  unfold State.haltSquares
  try dsimp only
  repeat' first
    | with_reducible exact hg | with_reducible assumption | with_reducible apply State.updSq_goes
    | with_reducible apply Square.foldl_ok | with_reducible apply Square.halt_ok | with_reducible refine Goes.foldl _ ?_ ?_
    | with_reducible refine Square.foldl_ok _ ?_ ?_ | (intro x hx; exact hx) | (intro _)

theorem Square.onLoad_ok {x : Square} (hg : x.storesOk) :
    (Square.onLoad x).storesOk := by
  unfold Square.onLoad
  try dsimp only
  repeat' (first | with_reducible exact hg | with_reducible assumption | exact hg | (intro _))

theorem State.load_goes {s0 s : State} (p : Nat) (hg : Goes s0 s) : Goes s0 (s.load p).1 := by
  unfold State.load
  have h1 := State.dropTableKeys_goes p (State.haltSquares_goes p hg)
  dsimp only
  split
  · exact State.updPart_goes _ _ (State.updPart_goes _ _ h1)
  · exact Goes.foldl _ (fun t q ht => State.updSq_goes _ _ (fun x hx => hx) ht)
      (State.updPart_goes _ _ (State.updPart_goes _ _ h1))

theorem Square.takeBlock_ok {x : Square} (b : List Byte) (off : Nat) (hg : x.storesOk) :
    (Square.takeBlock x b off).storesOk := by
  unfold Square.takeBlock
  try dsimp only
  repeat' first
    | with_reducible exact hg | with_reducible assumption | with_reducible apply Square.halt_ok | exact hg | (intro _)

theorem State.takeEarly_goes {s0 s : State} (p : Nat) (hg : Goes s0 s) :
    Goes s0 (State.takeEarly s p) := by
  unfold State.takeEarly
  try dsimp only
  repeat' first
    | with_reducible exact hg | with_reducible assumption | with_reducible apply State.meetJoin_goes
    | with_reducible apply Square.foldl_ok | with_reducible refine Goes.foldl _ ?_ ?_
    | with_reducible refine Square.foldl_ok _ ?_ ?_ | (intro _) | with_reducible refine Goes.mk ?_ rfl

theorem State.takeShares_goes {s0 s : State} (p : Nat) (l : Nat) (hg : Goes s0 s) :
    Goes s0 (State.takeShares s p l) := by
  unfold State.takeShares
  try dsimp only
  repeat' first
    | with_reducible exact hg | with_reducible assumption | with_reducible apply State.installKey_goes
    | with_reducible apply State.takeStream_goes | with_reducible apply State.updLink_goes
    | with_reducible apply Square.foldl_ok | with_reducible refine Goes.foldl _ ?_ ?_
    | with_reducible refine Square.foldl_ok _ ?_ ?_ | (intro _) | with_reducible refine Goes.mk ?_ rfl

theorem State.sendJoin_goes {s0 s : State} (p : Nat) (hg : Goes s0 s) :
    Goes s0 (State.sendJoin s p) := by
  unfold State.sendJoin
  try dsimp only
  repeat' first
    | with_reducible exact hg | with_reducible assumption | with_reducible apply State.flood_goes
    | with_reducible apply State.remember_goes | with_reducible apply State.offerKey_goes
    | with_reducible apply State.joinedComplete_goes | with_reducible apply State.takeShares_goes
    | with_reducible apply Square.foldl_ok | with_reducible refine Goes.foldl _ ?_ ?_
    | with_reducible refine Square.foldl_ok _ ?_ ?_ | (intro _)

theorem State.arm_goes {s0 s : State} (p : Nat) (hg : Goes s0 s) :
    Goes s0 (State.arm s p) := by
  unfold State.arm
  try dsimp only
  repeat' first
    | with_reducible exact hg | with_reducible assumption | with_reducible apply State.applyAdvances_goes
    | with_reducible apply State.applySwaps_goes | with_reducible apply State.applyPatches_goes
    | with_reducible apply State.takeEarly_goes | with_reducible apply State.sendJoin_goes
    | with_reducible apply State.updSq_goes | with_reducible apply State.updPart_goes | with_reducible apply Square.foldl_ok
    | with_reducible apply Square.takeBlock_ok | with_reducible refine Goes.foldl _ ?_ ?_
    | with_reducible refine Square.foldl_ok _ ?_ ?_ | (intro x hx; exact hx) | split | (intro _)
    | with_reducible refine Goes.mk ?_ rfl

/-! ### Supply -/

theorem Square.cleared_ok (x : Square) : x.cleared.storesOk := ⟨rfl, rfl, rfl⟩

theorem State.clearSquare_goes {s0 s : State} (q : Nat) (hg : Goes s0 s) : Goes s0 (s.clearSquare q) :=
  State.updSq_goes _ _ (fun x _ => Square.cleared_ok x) hg

theorem State.clearSquares_goes {s0 s : State} (hg : Goes s0 s) :
    Goes s0 (State.clearSquares s) := by
  unfold State.clearSquares
  try dsimp only
  repeat' first
    | with_reducible exact hg | with_reducible assumption | with_reducible apply State.clearSquare_goes
    | with_reducible apply Square.foldl_ok | with_reducible refine Goes.foldl _ ?_ ?_
    | with_reducible refine Square.foldl_ok _ ?_ ?_ | (intro _)

theorem State.setRails_goes {s0 s : State} (lo : Nat) (hi : Nat) (v : Nat) (hg : Goes s0 s) :
    Goes s0 (State.setRails s lo hi v) := by
  unfold State.setRails
  try dsimp only
  repeat' first
    | with_reducible exact hg | with_reducible assumption | with_reducible apply State.updPower_goes | (intro _)
    | with_reducible refine Goes.mk ?_ rfl

theorem State.railsFor_goes {s0 s : State} (st : PowerState) (hg : Goes s0 s) :
    Goes s0 (State.railsFor s st) := by
  unfold State.railsFor
  try dsimp only
  repeat' first
    | with_reducible exact hg | with_reducible assumption | with_reducible apply State.active_goes
    | with_reducible apply State.setRails_goes | split | (intro _)

theorem State.toPower_goes {s0 s : State} (st : PowerState) (hg : Goes s0 s) :
    Goes s0 (State.toPower s st) := by
  unfold State.toPower
  try dsimp only
  repeat' first
    | with_reducible exact hg | with_reducible assumption | with_reducible apply State.raise_goes
    | with_reducible apply State.railsFor_goes | with_reducible apply State.updPower_goes | (intro _)
    | with_reducible refine Goes.mk ?_ rfl

theorem State.linksDown_goes {s0 s : State} (hg : Goes s0 s) :
    Goes s0 (State.linksDown s) := by
  unfold State.linksDown
  try dsimp only
  repeat' (first | with_reducible exact hg | with_reducible assumption | (intro _) | with_reducible refine Goes.mk ?_ rfl)

theorem State.enterSafe_goes {s0 s : State} (hg : Goes s0 s) :
    Goes s0 (State.enterSafe s) := by
  unfold State.enterSafe
  try dsimp only
  repeat' first
    | with_reducible exact hg | with_reducible assumption | with_reducible apply State.setFlag_goes
    | with_reducible apply State.raise_goes | with_reducible apply State.toPower_goes
    | with_reducible apply State.linksDown_goes | with_reducible apply State.updAslet_goes | split | (intro _)
    | with_reducible refine Goes.mk ?_ rfl

theorem State.unpowered_goes {s0 s : State} (hg : Goes s0 s) : Goes s0 s.unpowered :=
  hg.trans ⟨rfl, le_rfl, fun _ => ⟨Nat.zero_le _, rfl, fun _ => ⟨rfl, rfl, rfl⟩⟩⟩

theorem State.goOff_goes {s0 s : State} (cause : Nat) (hg : Goes s0 s) :
    Goes s0 (State.goOff s cause) := by
  unfold State.goOff
  try dsimp only
  repeat' first
    | with_reducible exact hg | with_reducible assumption | with_reducible apply State.raise_goes
    | with_reducible apply State.unpowered_goes | with_reducible apply State.updPower_goes
    | with_reducible apply Square.foldl_ok | with_reducible refine Goes.foldl _ ?_ ?_
    | with_reducible refine Square.foldl_ok _ ?_ ?_ | split | (intro _) | with_reducible refine Goes.mk ?_ rfl

theorem State.boot_goes {s0 s : State} (hg : Goes s0 s) :
    Goes s0 (State.boot s) := by
  unfold State.boot
  try dsimp only
  repeat' first
    | with_reducible exact hg | with_reducible assumption | with_reducible apply State.toPower_goes
    | with_reducible apply State.updPower_goes | split | (intro _) | with_reducible refine Goes.mk ?_ rfl

theorem State.levelActions_goes {s0 s : State} (z : Nat) (old : Nat) (new : Nat) (hg : Goes s0 s) :
    Goes s0 (State.levelActions s z old new) := by
  unfold State.levelActions
  try dsimp only
  repeat' first
    | with_reducible exact hg | with_reducible assumption | with_reducible apply State.holdModule_goes
    | with_reducible apply State.releaseModule_goes | with_reducible apply State.setDomain_goes
    | with_reducible apply Square.foldl_ok | with_reducible refine Goes.foldl _ ?_ ?_
    | with_reducible refine Square.foldl_ok _ ?_ ?_ | split | (intro _)

theorem State.judgeZone_goes {s0 s : State} (z : Nat) (reading : Word) (hg : Goes s0 s) :
    Goes s0 (State.judgeZone s z reading) := by
  unfold State.judgeZone
  try dsimp only
  repeat' first
    | with_reducible exact hg | with_reducible assumption | with_reducible apply State.raise_goes
    | with_reducible apply State.enterSafe_goes | with_reducible apply State.levelActions_goes
    | with_reducible apply State.updThermal_goes | split | (intro _) | with_reducible refine Goes.mk ?_ rfl

theorem State.settleDomain_goes {s0 s : State} (d : Nat) (hg : Goes s0 s) :
    Goes s0 (State.settleDomain s d) := by
  unfold State.settleDomain
  try dsimp only
  repeat' (first | with_reducible exact hg | with_reducible assumption | with_reducible apply State.setDomain_goes | split)

end Sys2Proof.Machine
end

