-- ==== Sys2Proof/Laws/GoesModule.lean ====
section
/-!
SUPPORT. What every shared operation keeps (Goes): the regulator, the dictionary, power, links, Aslet, security, service.
-/

namespace Sys2Proof.Machine

open Sys2Proof

/-! ### Staged -/

theorem State.beginInit_goes {s0 s : State} (sh : List Pair) (hg : Goes s0 s) :
    Goes s0 (State.beginInit s sh) := by
  unfold State.beginInit
  try dsimp only
  repeat' first
    | with_reducible exact hg | with_reducible assumption | with_reducible apply State.updPart_goes
    | with_reducible apply State.updSec_goes | with_reducible apply Square.foldl_ok
    | with_reducible refine Goes.foldl _ ?_ ?_ | with_reducible refine Square.foldl_ok _ ?_ ?_ | split | (intro _)
    | with_reducible refine Goes.mk ?_ rfl

theorem State.commitLength_goes {s0 s : State} (p : Nat) (v : Nat) (hg : Goes s0 s) :
    Goes s0 (State.commitLength s p v) := by
  unfold State.commitLength
  try dsimp only
  repeat' first
    | with_reducible exact hg | with_reducible assumption | with_reducible apply State.flood_goes
    | with_reducible apply State.remember_goes | with_reducible apply State.requestHold_goes
    | with_reducible apply State.takeLength_goes | with_reducible apply State.updPart_goes | split | (intro _)
    | with_reducible refine Goes.mk ?_ rfl

theorem State.applyPair_goes {s0 s : State} (e : Pair) (hg : Goes s0 s) : Goes s0 (s.applyPair e) := by
  obtain ⟨⟨idx, sub⟩, b⟩ := e
  unfold State.applyPair
  simp only []
  by_cases h1 : idx = 0x2010
  · rw [if_pos h1]; split
    · exact State.updPart_goes _ _ hg
    · exact State.setPageMap_goes _ _ hg
  rw [if_neg h1]
  by_cases h2 : idx = 0x3000
  · rw [if_pos h2]; exact State.updPower_goes _ hg
  rw [if_neg h2]
  by_cases h3 : idx = 0x3020
  · rw [if_pos h3]; exact State.updPower_goes _ hg
  rw [if_neg h3]
  by_cases h4 : idx = 0x4000
  · rw [if_pos h4]; exact State.updPart_goes _ _ hg
  rw [if_neg h4]
  by_cases h5 : idx = 0x4200
  · rw [if_pos h5]; exact hg.mk rfl
  rw [if_neg h5]
  by_cases h6 : idx / 0x100 = 0x41
  · rw [if_pos h6]; exact State.updLink_goes _ _ hg
  rw [if_neg h6]
  by_cases h7 : idx = 0x5300
  · rw [if_pos h7]; split <;> exact hg.mk rfl
  rw [if_neg h7]
  by_cases h8 : idx / 0x1000 = 6
  · rw [if_pos h8]; exact State.commitLength_goes _ _ hg
  rw [if_neg h8]
  by_cases h9 : idx = 0x7000
  · rw [if_pos h9]; exact State.updSec_goes _ hg
  rw [if_neg h9]
  by_cases h10 : idx / 0x10 = 0x703
  · rw [if_pos h10]; exact State.updPart_goes _ _ hg
  rw [if_neg h10]
  by_cases h11 : idx = 0x8100
  · rw [if_pos h11]; exact State.updPart_goes _ _ hg
  rw [if_neg h11]; exact hg

theorem State.reown_goes {s0 s : State} (hg : Goes s0 s) :
    Goes s0 (State.reown s) := by
  unfold State.reown
  try dsimp only
  repeat' first
    | with_reducible exact hg | with_reducible assumption | with_reducible apply State.clearSquare_goes
    | with_reducible apply State.settleDomain_goes | with_reducible apply State.updSq_goes
    | with_reducible apply Square.foldl_ok | with_reducible refine Goes.foldl _ ?_ ?_
    | with_reducible refine Square.foldl_ok _ ?_ ?_ | (intro x hx; exact hx) | split | (intro _)
    | with_reducible refine Goes.mk ?_ rfl

theorem State.destroyKeys_goes {s0 s : State} (p : Nat) (hg : Goes s0 s) :
    Goes s0 (State.destroyKeys s p) := by
  unfold State.destroyKeys
  try dsimp only
  repeat' first
    | with_reducible exact hg | with_reducible assumption | with_reducible apply State.raise_goes
    | with_reducible apply State.updPart_goes | with_reducible apply State.updChannel_goes | split | (intro _)
    | with_reducible refine Goes.mk ?_ rfl

theorem State.freshKeys_goes {s0 s : State} (p : Nat) (hg : Goes s0 s) :
    Goes s0 (State.freshKeys s p) := by
  unfold State.freshKeys
  try dsimp only
  repeat' first
    | with_reducible exact hg | with_reducible assumption | with_reducible apply State.updPart_goes
    | with_reducible apply State.updSec_goes | split | (intro _) | with_reducible refine Goes.mk ?_ rfl

theorem State.newPartition_goes {s0 s : State} (p : Nat) (hg : Goes s0 s) :
    Goes s0 (State.newPartition s p) := by
  unfold State.newPartition
  try dsimp only
  repeat' (first | with_reducible exact hg | with_reducible assumption | with_reducible apply State.updPart_goes | (intro _))

theorem State.applySet_goes {s0 s : State} (sh : List Pair) (hg : Goes s0 s) :
    Goes s0 (State.applySet s sh) := by
  unfold State.applySet
  try dsimp only
  repeat' first
    | with_reducible exact hg | with_reducible assumption | with_reducible apply State.refillAll_goes
    | with_reducible apply State.serveAll_goes | with_reducible apply State.applyPair_goes
    | with_reducible apply State.reown_goes | with_reducible apply State.destroyKeys_goes
    | with_reducible apply State.freshKeys_goes | with_reducible apply State.newPartition_goes
    | with_reducible apply State.updPart_goes | with_reducible apply State.updSec_goes
    | with_reducible apply Square.foldl_ok | with_reducible refine Goes.foldl _ ?_ ?_
    | with_reducible refine Square.foldl_ok _ ?_ ?_ | split | (intro _) | with_reducible refine Goes.mk ?_ rfl

/-! ### Objects -/

theorem Square.clearCounter_ok {x : Square} (sub : Nat) (hg : x.storesOk) :
    (Square.clearCounter x sub).storesOk := by
  unfold Square.clearCounter
  try dsimp only
  repeat' (first | with_reducible exact hg | with_reducible assumption | exact hg | split | (intro _))

theorem State.clearCounter_goes {s0 s : State} (idx : Nat) (sub : Nat) (hg : Goes s0 s) :
    Goes s0 (State.clearCounter s idx sub) := by
  unfold State.clearCounter
  try dsimp only
  repeat' first
    | with_reducible exact hg | with_reducible assumption | with_reducible apply State.updSq_goes
    | with_reducible apply State.updPart_goes | with_reducible apply State.updLink_goes
    | with_reducible apply State.updStack_goes | with_reducible apply State.updThermal_goes
    | with_reducible apply Square.clearCounter_ok | (intro x hx; exact hx) | split | (intro _)
    | with_reducible refine Goes.mk ?_ rfl

theorem State.clearFlags_goes {s0 s : State} (idx : Nat) (v : Nat) (hg : Goes s0 s) :
    Goes s0 (State.clearFlags s idx v) := by
  unfold State.clearFlags
  try dsimp only
  repeat' first
    | with_reducible exact hg | with_reducible assumption | with_reducible apply State.updPower_goes
    | with_reducible apply State.updThermal_goes | split | (intro _) | with_reducible refine Goes.mk ?_ rfl

theorem State.plainWrite_goes {s0 s : State} (w : Req) (hg : Goes s0 s) :
    Goes s0 (State.plainWrite s w) := by
  unfold State.plainWrite
  try dsimp only
  repeat' first
    | with_reducible exact hg | with_reducible assumption | with_reducible apply State.updPart_goes
    | with_reducible apply State.updSession_goes | split | (intro _) | with_reducible refine Goes.mk ?_ rfl

theorem State.losePartition_goes {s0 s : State} (p : Nat) (hg : Goes s0 s) :
    Goes s0 (State.losePartition s p) := by
  unfold State.losePartition
  try dsimp only
  repeat' first
    | with_reducible exact hg | with_reducible assumption | with_reducible apply State.setPageMap_goes
    | with_reducible apply State.reown_goes | with_reducible apply State.destroyKeys_goes
    | with_reducible apply State.updPart_goes | (intro _) | with_reducible refine Goes.mk ?_ rfl

theorem State.defaultStatus_goes {s0 s : State} (o : Nat × Nat) (hg : Goes s0 s) :
    Goes s0 (State.defaultStatus s o) := by
  unfold State.defaultStatus
  split
  all_goals repeat' first
    | with_reducible exact hg | with_reducible apply State.updService_goes | with_reducible apply State.updSec_goes
    | with_reducible apply State.updPower_goes | with_reducible apply State.updPart_goes
    | with_reducible exact Goes.mk hg rfl | exact hg.trans ⟨rfl, le_rfl, fun i => ⟨Nat.zero_le _, i.2.1, i.2.2⟩⟩ | split

theorem State.defaultObject_goes {s0 s : State} (o : Nat × Nat) (hg : Goes s0 s) :
    Goes s0 (State.defaultObject s o) := by
  unfold State.defaultObject
  try dsimp only
  repeat' first
    | with_reducible exact hg | with_reducible assumption | with_reducible apply State.applyPair_goes
    | with_reducible apply State.clearCounter_goes | with_reducible apply State.losePartition_goes
    | with_reducible apply State.defaultStatus_goes | with_reducible apply State.updPart_goes
    | with_reducible apply Square.clearCounter_ok | split | (intro _) | with_reducible refine Goes.mk ?_ rfl

theorem State.settleLost_goes {s0 s : State} (hg : Goes s0 s) :
    Goes s0 (State.settleLost s) := by
  unfold State.settleLost
  try dsimp only
  repeat' first
    | with_reducible exact hg | with_reducible assumption | with_reducible apply State.enterFaulted_goes
    | with_reducible apply State.defaultObject_goes | with_reducible apply Square.foldl_ok
    | with_reducible refine Goes.foldl _ ?_ ?_ | with_reducible refine Square.foldl_ok _ ?_ ?_ | split | (intro _)
    | with_reducible refine Goes.mk ?_ rfl

/-! ### Ulyan -/

theorem State.sendSeg_goes {s0 s : State} (t : SegTransfer) (kind : Nat) (code : Nat) (value : List Byte) (hg : Goes
    s0 s) :
    Goes s0 (State.sendSeg s t kind code value) := by
  unfold State.sendSeg
  try dsimp only
  repeat' (first | with_reducible exact hg | with_reducible assumption | with_reducible apply State.sendFrame_goes | split)

theorem State.endSession_goes {s0 s : State} (n : Nat) (hg : Goes s0 s) :
    Goes s0 (State.endSession s n) := by
  unfold State.endSession
  try dsimp only
  repeat' first
    | with_reducible exact hg | with_reducible assumption | with_reducible apply State.dropTransfer_goes
    | with_reducible apply State.updSec_goes | (intro _) | with_reducible refine Goes.mk ?_ rfl

theorem State.finishCommit_goes {s0 s : State} (c : PendingCommit) (hg : Goes s0 s) :
    Goes s0 (State.finishCommit s c) := by
  unfold State.finishCommit
  try dsimp only
  repeat' first
    | with_reducible exact hg | with_reducible assumption | with_reducible apply State.reply_goes
    | with_reducible apply State.applySet_goes | with_reducible apply State.updSec_goes
    | with_reducible apply State.updSession_goes | split | (intro _) | with_reducible refine Goes.mk ?_ rfl

/-! ### Memory -/

theorem State.readSector_goes {s0 s : State} (owner : Nat) (pa : Nat) (hg : Goes s0 s) :
    Goes s0 (State.readSector s owner pa) := by
  unfold State.readSector
  try dsimp only
  repeat' first
    | with_reducible exact hg | with_reducible assumption | with_reducible apply State.chargeStack_goes
    | with_reducible apply State.readEffects_goes | with_reducible apply State.settleLost_goes | (intro _)
    | with_reducible refine Goes.mk ?_ rfl

theorem State.scrub_goes {s0 s : State} (pa : Nat) (hg : Goes s0 s) :
    Goes s0 (State.scrub s pa) := by
  unfold State.scrub
  try dsimp only
  repeat' first
    | with_reducible exact hg | with_reducible assumption | with_reducible apply State.raise_goes
    | with_reducible apply State.dataError_goes | with_reducible apply State.countRead_goes
    | with_reducible apply State.triggerMigration_goes | with_reducible apply State.correctedRead_goes | split | (intro _)

theorem State.scrubDevice_goes {s0 s : State} (pa : Nat) (hg : Goes s0 s) :
    Goes s0 (State.scrubDevice s pa) := by
  unfold State.scrubDevice
  try dsimp only
  repeat' first
    | with_reducible exact hg | with_reducible assumption | with_reducible apply State.deviceLost_goes
    | with_reducible apply State.correctedRead_goes | with_reducible apply State.failedCopy_goes
    | with_reducible apply State.restoreCopy_goes | with_reducible apply State.settleLost_goes | split

theorem State.initPage_goes {s0 s : State} (p : Nat) (page : Nat) (hg : Goes s0 s) :
    Goes s0 (State.initPage s p page) := by
  unfold State.initPage
  try dsimp only
  repeat' first
    | with_reducible exact hg | with_reducible assumption | with_reducible apply State.storeAt_goes
    | with_reducible apply Square.foldl_ok | with_reducible refine Goes.foldl _ ?_ ?_
    | with_reducible refine Square.foldl_ok _ ?_ ?_ | split | (intro _) | with_reducible refine Goes.mk ?_ rfl

theorem State.chargePage_goes {s0 s : State} (page : Nat) (hg : Goes s0 s) :
    Goes s0 (State.chargePage s page) := by
  unfold State.chargePage
  try dsimp only
  repeat' first
    | with_reducible exact hg | with_reducible assumption | with_reducible apply State.chargeStack_goes
    | with_reducible apply Square.foldl_ok | with_reducible refine Goes.foldl _ ?_ ?_
    | with_reducible refine Square.foldl_ok _ ?_ ?_ | (intro _)

theorem State.copyChunks_goes {s0 s : State} (st old spare lo hi : Nat) (hg : Goes s0 s) :
    Goes s0 (s.copyChunks st old spare lo hi) :=
  hg.trans ⟨rfl, le_rfl, fun i => ⟨i.1, Mem.wf_puts _ _ _
    (fun e he => Mem.wf_values (Mem.wf_filter _ i.2.1) e he) (Mem.wf_filter _ i.2.1), i.2.2⟩⟩

theorem State.reportCopied_goes {s0 s : State} (st : Nat) (ch : Nat) (old : Nat) (lo : Nat) (hi : Nat) (hg : Goes s0
    s) :
    Goes s0 (State.reportCopied s st ch old lo hi) := by
  unfold State.reportCopied
  try dsimp only
  repeat' first
    | with_reducible exact hg | with_reducible assumption | with_reducible apply State.raise_goes
    | with_reducible apply State.dataError_goes | with_reducible apply Square.foldl_ok
    | with_reducible refine Goes.foldl _ ?_ ?_ | with_reducible refine Square.foldl_ok _ ?_ ?_ | split | (intro _)

theorem State.copyTo_goes {s0 s : State} (die : Nat) (hi : Nat) (hg : Goes s0 s) :
    Goes s0 (State.copyTo s die hi) := by
  unfold State.copyTo
  try dsimp only
  repeat' first
    | with_reducible exact hg | with_reducible assumption | with_reducible apply State.copyChunks_goes
    | with_reducible apply State.reportCopied_goes | with_reducible apply State.updMemDie_goes | (intro _)
    | with_reducible refine Goes.mk ?_ rfl

theorem State.copyDue_goes {s0 s : State} (die : Nat) (hg : Goes s0 s) :
    Goes s0 (State.copyDue s die) := by
  unfold State.copyDue
  try dsimp only
  repeat' (first | with_reducible exact hg | with_reducible assumption | with_reducible apply State.copyTo_goes | split)

theorem State.copyOn_goes {s0 s : State} (hg : Goes s0 s) :
    Goes s0 (State.copyOn s) := by
  unfold State.copyOn
  try dsimp only
  repeat' first
    | with_reducible exact hg | with_reducible assumption | with_reducible apply State.copyDue_goes
    | with_reducible apply Square.foldl_ok | with_reducible refine Goes.foldl _ ?_ ?_
    | with_reducible refine Square.foldl_ok _ ?_ ?_ | (intro _)

theorem State.switchChannel_goes {s0 s : State} (die : Nat) (hg : Goes s0 s) :
    Goes s0 (State.switchChannel s die) := by
  unfold State.switchChannel
  try dsimp only
  repeat' first
    | with_reducible exact hg | with_reducible assumption | with_reducible apply State.raise_goes
    | with_reducible apply State.releaseModule_goes | with_reducible apply State.updStack_goes
    | with_reducible apply State.updMemDie_goes | split | (intro _) | with_reducible refine Goes.mk ?_ rfl

theorem State.awaitHold_goes {s0 s : State} (die : Nat) (hg : Goes s0 s) :
    Goes s0 (State.awaitHold s die) := by
  unfold State.awaitHold
  try dsimp only
  repeat' first
    | with_reducible exact hg | with_reducible assumption | with_reducible apply State.holdModule_goes
    | with_reducible apply State.switchChannel_goes | with_reducible apply State.updMemDie_goes | split | (intro _)
    | with_reducible refine Goes.mk ?_ rfl

theorem State.nextMigration_goes {s0 s : State} (n die : Nat) (hg : Goes s0 s) : Goes s0 (State.nextMigration n die s) := by
  induction n generalizing s with
 | zero => exact hg
 | succ n ih =>
    unfold State.nextMigration
    split
    · exact hg
    · dsimp only
      split
      · exact ih (State.startMigration_goes _ _ _ (State.updMemDie_goes _ _ hg))
      · exact State.startMigration_goes _ _ _ (State.updMemDie_goes _ _ hg)

theorem State.migrationDone_goes {s0 s : State} (die : Nat) (hg : Goes s0 s) : Goes s0 (s.migrationDone die) :=
  State.nextMigration_goes _ _ (State.updMemDie_goes _ _ hg)

/-! ### Power -/

theorem State.flagSupply_goes {s0 s : State} (b : Nat) (hg : Goes s0 s) :
    Goes s0 (State.flagSupply s b) := by
  unfold State.flagSupply
  try dsimp only
  repeat' first
    | with_reducible exact hg | with_reducible assumption | with_reducible apply State.updPower_goes | (intro _)
    | with_reducible refine Goes.mk ?_ rfl

theorem State.startSelfTest_goes {s0 s : State} (kind : Nat) (hg : Goes s0 s) :
    Goes s0 (State.startSelfTest s kind) := by
  unfold State.startSelfTest
  try dsimp only
  repeat' first
    | with_reducible exact hg | with_reducible assumption | with_reducible apply State.updService_goes | (intro _)
    | with_reducible refine Goes.mk ?_ rfl

theorem State.goActive_goes {s0 s : State} (hg : Goes s0 s) :
    Goes s0 (State.goActive s) := by
  unfold State.goActive
  try dsimp only
  repeat' first
    | with_reducible exact hg | with_reducible assumption | with_reducible apply State.active_goes
    | with_reducible apply State.clearSquares_goes | with_reducible apply State.toPower_goes
    | with_reducible apply State.startSelfTest_goes | with_reducible apply State.updPower_goes | split | (intro _)
    | with_reducible refine Goes.mk ?_ rfl

theorem State.trip_goes {s0 s : State} (cause : Nat) (hg : Goes s0 s) :
    Goes s0 (State.trip s cause) := by
  unfold State.trip
  try dsimp only
  repeat' first
    | with_reducible exact hg | with_reducible assumption | with_reducible apply State.raise_goes
    | with_reducible apply State.toPower_goes | with_reducible apply State.updAslet_goes
    | with_reducible apply State.updPower_goes | split | (intro _) | with_reducible refine Goes.mk ?_ rfl

theorem State.goStandby_goes {s0 s : State} (hg : Goes s0 s) :
    Goes s0 (State.goStandby s) := by
  unfold State.goStandby
  try dsimp only
  repeat' first
    | with_reducible exact hg | with_reducible assumption | with_reducible apply State.toPower_goes
    | with_reducible apply State.updPower_goes | with_reducible apply State.updService_goes | split | (intro _)
    | with_reducible refine Goes.mk ?_ rfl

theorem State.sleepNow_goes {s0 s : State} (hg : Goes s0 s) :
    Goes s0 (State.sleepNow s) := by
  unfold State.sleepNow
  try dsimp only
  repeat' first
    | with_reducible exact hg | with_reducible assumption | with_reducible apply State.toPower_goes
    | with_reducible apply State.updPower_goes | (intro _) | with_reducible refine Goes.mk ?_ rfl

theorem State.sleepStep_goes {s0 s : State} (hg : Goes s0 s) :
    Goes s0 (State.sleepStep s) := by
  unfold State.sleepStep
  try dsimp only
  repeat' first
    | with_reducible exact hg | with_reducible assumption | with_reducible apply State.linksDown_goes
    | with_reducible apply State.sleepNow_goes | with_reducible apply State.updAslet_goes | split | (intro _)
    | with_reducible refine Goes.mk ?_ rfl

theorem State.trainLinks_goes {s0 s : State} (lo : Nat) (n : Nat) (hg : Goes s0 s) :
    Goes s0 (State.trainLinks s lo n) := by
  unfold State.trainLinks
  try dsimp only
  repeat' first
    | with_reducible exact hg | with_reducible assumption | with_reducible apply State.updLink_goes
    | with_reducible apply Square.foldl_ok | with_reducible refine Goes.foldl _ ?_ ?_
    | with_reducible refine Square.foldl_ok _ ?_ ?_ | (intro _) | with_reducible refine Goes.mk ?_ rfl

theorem State.tripSource_goes {s0 s : State} (source : Nat) (hg : Goes s0 s) :
    Goes s0 (State.tripSource s source) := by
  unfold State.tripSource
  try dsimp only
  repeat' (first | with_reducible exact hg | with_reducible assumption | with_reducible apply State.trip_goes | split)

theorem State.tick_goes {s0 s : State} (hg : Goes s0 s) : Goes s0 s.tick := by
  have h : Goes s0 { s with now := s.now + 1 } := hg.trans ⟨rfl, Nat.le_succ _, fun i => ⟨i.1, i.2.1, i.2.2⟩⟩
  unfold State.tick
  repeat' first
    | with_reducible exact h | with_reducible assumption | with_reducible apply State.sleepStep_goes
    | with_reducible apply State.copyOn_goes | with_reducible apply State.serveWaiting_goes

/-! ### LinkTrain -/

theorem State.takeLanes_goes {s0 s : State} (l : Nat) (rx : Bool) (dcTest : Bool) (rep : LaneReport) (o : LaneOutcome)
    (hg : Goes s0 s) :
    Goes s0 (State.takeLanes s l rx dcTest rep o) := by
  unfold State.takeLanes
  try dsimp only
  repeat' first
    | with_reducible exact hg | with_reducible assumption | with_reducible apply State.count_goes
    | with_reducible apply State.linkEvent_goes | with_reducible apply State.updLink_goes
    | with_reducible apply State.updGroup_goes | with_reducible apply Square.foldl_ok
    | with_reducible refine Goes.foldl _ ?_ ?_ | with_reducible refine Square.foldl_ok _ ?_ ?_ | split | (intro _)
    | with_reducible refine Goes.mk ?_ rfl

theorem State.linkRefused_goes {s0 s : State} (l : Nat) (detail : Nat) (hg : Goes s0 s) :
    Goes s0 (State.linkRefused s l detail) := by
  unfold State.linkRefused
  try dsimp only
  repeat' first
    | with_reducible exact hg | with_reducible assumption | with_reducible apply State.linkEvent_goes
    | with_reducible apply State.updLink_goes | split | (intro _) | with_reducible refine Goes.mk ?_ rfl

theorem State.sendAll_goes {s0 s : State} (l : Nat) (ts : List Txn) (hg : Goes s0 s) :
    Goes s0 (State.sendAll s l ts) := by
  unfold State.sendAll
  try dsimp only
  repeat' first
    | with_reducible exact hg | with_reducible assumption | with_reducible apply State.sendTxn_goes
    | with_reducible apply Square.foldl_ok | with_reducible refine Goes.foldl _ ?_ ?_
    | with_reducible refine Square.foldl_ok _ ?_ ?_ | (intro _)

theorem State.settleLink_goes {s0 s : State} (l : Nat) (narrow : Bool) (peer : PeerReport) (hg : Goes s0 s) :
    Goes s0 (State.settleLink s l narrow peer) := by
  unfold State.settleLink
  try dsimp only
  repeat' first
    | with_reducible exact hg | with_reducible assumption | with_reducible apply State.linkFall_goes
    | with_reducible apply State.takeStream_goes | with_reducible apply State.linkRefused_goes
    | with_reducible apply State.sendAll_goes | with_reducible apply State.updLink_goes | split | (intro _)
    | with_reducible refine Goes.mk ?_ rfl

theorem State.endTraining_goes {s0 s : State} (l : Nat) (hg : Goes s0 s) :
    Goes s0 (State.endTraining s l) := by
  unfold State.endTraining
  try dsimp only
  repeat' first
    | with_reducible exact hg | with_reducible assumption | with_reducible apply State.releaseModule_goes
    | with_reducible apply State.updLink_goes | (intro _) | with_reducible refine Goes.mk ?_ rfl

theorem State.loseLane_goes {s0 t : State} (l : Nat) (c : Nat) (k : Nat) (hg : Goes s0 t) :
    Goes s0 (State.loseLane t l c k) := by
  unfold State.loseLane
  try dsimp only
  repeat' first
    | with_reducible exact hg | with_reducible assumption | with_reducible apply State.count_goes
    | with_reducible apply State.sendTxn_goes | with_reducible apply State.linkEvent_goes
    | with_reducible apply State.updLink_goes | with_reducible apply State.updGroup_goes | (intro _)
    | with_reducible refine Goes.mk ?_ rfl

/-! ### LinkIn -/

theorem State.goodFrame_goes {s0 s : State} (l : Nat) (b : List Byte) (hg : Goes s0 s) :
    Goes s0 (State.goodFrame s l b) := by
  unfold State.goodFrame
  try dsimp only
  repeat' first
    | with_reducible exact hg | with_reducible assumption | with_reducible apply State.takeAck_goes
    | with_reducible apply State.resendFrame_goes | with_reducible apply State.sendNak_goes
    | with_reducible apply State.orderFrame_goes | split

theorem State.popTxn_goes {s0 s : State} (l : Nat) (hg : Goes s0 s) :
    Goes s0 (State.popTxn s l) := by
  unfold State.popTxn
  try dsimp only
  repeat' first
    | with_reducible exact hg | with_reducible assumption | with_reducible apply State.updLink_goes | (intro _)
    | with_reducible refine Goes.mk ?_ rfl

theorem onTxn_goes {s0 s : State} (l kind : Nat) (f : State → Nat → Txn → State)
    (hf : ∀ u p t, Goes s0 u → Goes s0 (f u p t)) (hg : Goes s0 s) : OutGoes s0 (onTxn l kind s f) := by
  refine OutGoes.onUnit _ ?_
  split
  · exact hf _ _ _ (State.active_goes _ (State.popTxn_goes _ hg))
  · exact hg

theorem State.replyTxn_goes {s0 s : State} (l : Nat) (p : Nat) (t : Txn) (kind : Nat) (status : Nat) (data : List
    Byte) (hg : Goes s0 s) :
    Goes s0 (State.replyTxn s l p t kind status data) := by
  unfold State.replyTxn
  try dsimp only
  repeat' (first | with_reducible exact hg | with_reducible assumption | with_reducible apply State.sendTxn_goes)

theorem State.refuseTxn_goes {s0 s : State} (l : Nat) (p : Nat) (t : Txn) (kind : Nat) (detail : Nat) (va : Nat) (hg :
    Goes s0 s) :
    Goes s0 (State.refuseTxn s l p t kind detail va) := by
  unfold State.refuseTxn
  try dsimp only
  repeat' first
    | with_reducible exact hg | with_reducible assumption | with_reducible apply State.raise_goes
    | with_reducible apply State.replyTxn_goes

theorem State.storeTrain_goes {s0 s : State} (l : Nat) (p : Nat) (t : Txn) (ws : List ByteWrite) (hg : Goes s0 s) :
    Goes s0 (State.storeTrain s l p t ws) := by
  unfold State.storeTrain
  try dsimp only
  repeat' first
    | with_reducible exact hg | with_reducible assumption | with_reducible apply State.makeWrites_goes
    | with_reducible apply State.chargeAll_goes | with_reducible apply State.settleLost_goes
    | with_reducible apply State.replyTxn_goes | with_reducible apply State.refuseTxn_goes | split | (intro _)

theorem State.badTrain_goes {s0 s : State} (l : Nat) (p : Nat) (t : Txn) (hg : Goes s0 s) :
    Goes s0 (State.badTrain s l p t) := by
  unfold State.badTrain
  try dsimp only
  repeat' first
    | with_reducible exact hg | with_reducible assumption | with_reducible apply State.raise_goes
    | with_reducible apply State.replyTxn_goes

theorem State.dropTag_goes {s0 s : State} (l : Nat) (ch : Nat) (tag : Nat) (hg : Goes s0 s) :
    Goes s0 (State.dropTag s l ch tag) := by
  unfold State.dropTag
  try dsimp only
  repeat' first
    | with_reducible exact hg | with_reducible assumption | with_reducible apply State.updChannel_goes | (intro _)
    | with_reducible refine Goes.mk ?_ rfl

theorem State.refusedAtSender_goes {s0 s : State} (l : Nat) (ch : Nat) (p : Nat) (z : Sent) (hg : Goes s0 s) :
    Goes s0 (State.refusedAtSender s l ch p z) := by
  unfold State.refusedAtSender
  try dsimp only
  repeat' (first | with_reducible exact hg | with_reducible assumption | with_reducible apply State.refusedRequest_goes)

theorem State.atSquare_goes {s0 s : State} (p : Nat) (t : Txn) (f : State) (hf : Goes s0 f) (hg : Goes s0 s) :
    Goes s0 (s.atSquare p t f) := by
  unfold State.atSquare
  split
  · exact hf
  · exact State.placeFault_goes _ _ _ hg

theorem onCtrl_goes {s0 s : State} (l sub : Nat) (f : State → Txn → State) (hf : ∀ u t, Goes s0 u → Goes s0 (f u t))
    (hg : Goes s0 s) : OutGoes s0 (onCtrl l sub s f) := by
  refine OutGoes.onUnit _ ?_
  split
  · exact hg
  split
  · exact hf _ _ (State.popTxn_goes _ hg)
  · exact hg

/-! ### AsletIn -/

theorem State.asletEvent_goes {s0 s : State} (detail : Nat) (hg : Goes s0 s) :
    Goes s0 (State.asletEvent s detail) := by
  unfold State.asletEvent
  try dsimp only
  repeat' (first | with_reducible exact hg | with_reducible assumption | with_reducible apply State.raise_goes)

theorem State.asletFall_goes {s0 s : State} (st : Nat) (detail : Nat) (hg : Goes s0 s) :
    Goes s0 (State.asletFall s st detail) := by
  unfold State.asletFall
  try dsimp only
  repeat' first
    | with_reducible exact hg | with_reducible assumption | with_reducible apply State.asletEvent_goes
    | with_reducible apply State.updAslet_goes | (intro _) | with_reducible refine Goes.mk ?_ rfl

theorem State.asletSettle_goes {s0 s : State} (w : Nat × Bool) (lane0 : Bool) (peerVersion : Nat) (hg : Goes s0 s) :
    Goes s0 (State.asletSettle s w lane0 peerVersion) := by
  unfold State.asletSettle
  try dsimp only
  repeat' first
    | with_reducible exact hg | with_reducible assumption | with_reducible apply State.asletFall_goes
    | with_reducible apply State.updAslet_goes | split | (intro _)

theorem State.asletResend_goes {s0 s : State} (seq : Nat) (hg : Goes s0 s) :
    Goes s0 (State.asletResend s seq) := by
  unfold State.asletResend
  try dsimp only
  repeat' first
    | with_reducible exact hg | with_reducible assumption | with_reducible apply State.asletFall_goes
    | with_reducible apply State.updAslet_goes | split | (intro _) | with_reducible refine Goes.mk ?_ rfl

theorem State.asletTake_goes {s0 s : State} (n : Nat) (hg : Goes s0 s) : Goes s0 (State.asletTake n s) := by
  induction n generalizing s with
 | zero => exact hg
 | succ n ih =>
    unfold State.asletTake
    dsimp only
    split
    · exact hg
    split
    · exact ih (State.updAslet_goes _ hg)
    split
    · exact hg
    split
    · exact ih (State.updAslet_goes _ (State.updAslet_goes _ hg))
    · exact ih (State.count_goes _ (State.updAslet_goes _ hg))

theorem State.asletDeliver_goes {s0 s : State} (seq : Nat) (flits : List Byte) (hg : Goes s0 s) :
    Goes s0 (s.asletDeliver seq flits) := State.asletTake_goes _ (State.updAslet_goes _ hg)

theorem State.asletHeld_goes {s0 s : State} (n : Nat) (hg : Goes s0 s) : Goes s0 (State.asletHeld n s) := by
  induction n generalizing s with
 | zero => exact hg
 | succ n ih =>
    unfold State.asletHeld
    split
    · exact ih (State.asletDeliver_goes _ _ (State.updAslet_goes _ hg))
    · exact hg

theorem State.asletOrder_goes {s0 s : State} (seq : Nat) (flits : List Byte) (hg : Goes s0 s) : Goes s0 (s.asletOrder seq
    flits) := by
  unfold State.asletOrder
  dsimp only
  split
  · exact State.asletHeld_goes _ (State.asletDeliver_goes _ _ hg)
  split
  · exact State.updAslet_goes _ hg
  · exact hg

theorem State.asletGood_goes {s0 s : State} (b : List Byte) (hg : Goes s0 s) :
    Goes s0 (State.asletGood s b) := by
  unfold State.asletGood
  try dsimp only
  repeat' first
    | with_reducible exact hg | with_reducible assumption | with_reducible apply State.asletResend_goes
    | with_reducible apply State.asletOrder_goes | with_reducible apply State.updAslet_goes | split | (intro _)
    | with_reducible refine Goes.mk ?_ rfl

theorem onAslet_goes {s0 s : State} (kind : Nat) (f : State → AsletTxn → State) (hf : ∀ u t, Goes s0 u → Goes s0 (f u t))
    (hg : Goes s0 s) : OutGoes s0 (onAslet kind s f) := by
  refine OutGoes.next ?_
  split
  · exact hg
  split
  · exact hf _ _ (State.updAslet_goes _ hg)
  · exact hg

theorem State.dropPend_goes {s0 s : State} (tag : Nat) (hg : Goes s0 s) :
    Goes s0 (State.dropPend s tag) := by
  unfold State.dropPend
  try dsimp only
  repeat' first
    | with_reducible exact hg | with_reducible assumption | with_reducible apply State.updAslet_goes | (intro _)
    | with_reducible refine Goes.mk ?_ rfl

theorem State.hostRefused_goes {s0 s : State} (ch : Nat) (va : Nat) (hg : Goes s0 s) :
    Goes s0 (State.hostRefused s ch va) := by
  unfold State.hostRefused
  try dsimp only
  repeat' (first | with_reducible exact hg | with_reducible assumption | with_reducible apply State.refusedRequest_goes)

theorem State.trailerDue_goes {s0 s : State} (ch : Nat) (hg : Goes s0 s) :
    Goes s0 (State.trailerDue s ch) := by
  unfold State.trailerDue
  try dsimp only
  repeat' first
    | with_reducible exact hg | with_reducible assumption | with_reducible apply State.hostWrite_goes
    | with_reducible apply State.updChannel_goes | split | (intro _) | with_reducible refine Goes.mk ?_ rfl

theorem onAsletCtrl_goes {s0 s : State} (sub : Nat) (f : State → AsletTxn → State) (other : State)
    (hf : ∀ u t, Goes s0 u → Goes s0 (f u t)) (ho : Goes s0 other) (hg : Goes s0 s) : OutGoes s0 (onAsletCtrl sub s f other) := by
  refine OutGoes.next ?_
  split
  · exact ho
  split
  · exact hf _ _ (State.updAslet_goes _ hg)
  · exact ho

/-! ### Place -/

theorem State.startService_goes {s0 s : State} (p : Nat) (hg : Goes s0 s) :
    Goes s0 (State.startService s p) := by
  unfold State.startService
  try dsimp only
  repeat' first
    | with_reducible exact hg | with_reducible assumption | with_reducible apply State.active_goes
    | with_reducible apply State.updChannel_goes | (intro _)

theorem State.stopService_goes {s0 s : State} (p : Nat) (hg : Goes s0 s) :
    Goes s0 (State.stopService s p) := by
  unfold State.stopService
  try dsimp only
  repeat' first
    | with_reducible exact hg | with_reducible assumption | with_reducible apply State.active_goes
    | with_reducible apply State.updChannel_goes | split | (intro _) | with_reducible refine Goes.mk ?_ rfl

/-! ### Sessions -/

theorem State.putHandshake_goes {s0 s : State} (c : Carrier) (h : Option Handshake) (hg : Goes s0 s) :
    Goes s0 (State.putHandshake s c h) := by
  unfold State.putHandshake
  try dsimp only
  repeat' first
    | with_reducible exact hg | with_reducible assumption | with_reducible apply State.updSec_goes | (intro _)
    | with_reducible refine Goes.mk ?_ rfl

theorem State.openSession_goes {s0 s : State} (r : Req) (h : Handshake) (finish : List Byte) (hg : Goes s0 s) :
    Goes s0 (s.openSession r h finish) := by
  have h1 : Goes s0 (if (s.session (helloSession h.clientHello)).isSome then
      (s.endSession (helloSession h.clientHello)).raise 0x70 0x32 (sessPart (helloSession h.clientHello))
        [(.session, helloSession h.clientHello)] [] else s) := by
    split
    · exact State.raise_goes _ _ _ _ _ (State.endSession_goes _ hg)
    · exact hg
  unfold State.openSession
  dsimp only
  split
  · exact State.updPart_goes _ _ (State.putSession_goes _ _ h1)
  · exact State.putSession_goes _ _ h1

theorem State.startRotation_goes {s0 s : State} (p : Nat) (hg : Goes s0 s) :
    Goes s0 (State.startRotation s p) := by
  unfold State.startRotation
  try dsimp only
  repeat' first
    | with_reducible exact hg | with_reducible assumption | with_reducible apply State.raise_goes
    | with_reducible apply State.updPart_goes | with_reducible apply State.updSec_goes | split | (intro _)
    | with_reducible refine Goes.mk ?_ rfl

theorem State.rekey_goes {s0 s : State} (p : Nat) (fails : List (Nat × Bool)) (hg : Goes s0 s) :
    Goes s0 (State.rekey s p fails) := by
  unfold State.rekey
  try dsimp only
  repeat' first
    | with_reducible exact hg | with_reducible assumption | with_reducible apply Square.foldl_ok
    | with_reducible refine Goes.foldl _ ?_ ?_ | with_reducible refine Square.foldl_ok _ ?_ ?_ | split | (intro _)
    | with_reducible refine Goes.mk ?_ rfl

theorem State.sweepFailed_goes {s0 s : State} (p : Nat) (u : Nat × Bool) (hg : Goes s0 s) :
    Goes s0 (State.sweepFailed s p u) := by
  unfold State.sweepFailed
  try dsimp only
  repeat' first
    | with_reducible exact hg | with_reducible assumption | with_reducible apply State.raise_goes
    | with_reducible apply State.dataError_goes | with_reducible apply State.failedCopy_goes | split

theorem State.chargeSweep_goes {s0 s : State} (p : Nat) (hg : Goes s0 s) :
    Goes s0 (State.chargeSweep s p) := by
  unfold State.chargeSweep
  try dsimp only
  repeat' first
    | with_reducible exact hg | with_reducible assumption | with_reducible apply State.chargeStack_goes
    | with_reducible apply Square.foldl_ok | with_reducible refine Goes.foldl _ ?_ ?_
    | with_reducible refine Square.foldl_ok _ ?_ ?_ | split | (intro _)

/-! ### Service -/

theorem State.putImage_goes {s0 s : State} (n : Nat) (x : Image) (hg : Goes s0 s) :
    Goes s0 (State.putImage s n x) := by
  unfold State.putImage
  try dsimp only
  repeat' first
    | with_reducible exact hg | with_reducible assumption | with_reducible apply State.updService_goes | (intro _)
    | with_reducible refine Goes.mk ?_ rfl

theorem State.markImage_goes {s0 s : State} (n : Nat) (k : Nat) (hg : Goes s0 s) :
    Goes s0 (State.markImage s n k) := by
  unfold State.markImage
  try dsimp only
  repeat' first
    | with_reducible exact hg | with_reducible assumption | with_reducible apply State.putImage_goes | (intro _)

theorem State.ready_goes {s0 s : State} (n : Nat) (hg : Goes s0 s) :
    Goes s0 (State.ready s n) := by
  unfold State.ready
  try dsimp only
  repeat' first
    | with_reducible exact hg | with_reducible assumption | with_reducible apply State.raise_goes
    | with_reducible apply State.active_goes | with_reducible apply State.toPower_goes
    | with_reducible apply State.trainLinks_goes | with_reducible apply State.markImage_goes
    | with_reducible apply State.updAslet_goes | with_reducible apply State.updPower_goes
    | with_reducible apply State.updService_goes | with_reducible apply State.updSec_goes | split | (intro _)
    | with_reducible refine Goes.mk ?_ rfl

theorem State.noteTested_goes {s0 s : State} (q : Nat) (bits : Nat) (hg : Goes s0 s) :
    Goes s0 (State.noteTested s q bits) := by
  unfold State.noteTested
  try dsimp only
  repeat' first
    | with_reducible exact hg | with_reducible assumption | with_reducible apply State.updPhys_goes | split | (intro _)
    | with_reducible refine Goes.mk ?_ rfl

theorem State.redirect_goes {s0 s : State} (q : Nat) (r : Nat) (hg : Goes s0 s) :
    Goes s0 (State.redirect s q r) := by
  unfold State.redirect
  try dsimp only
  repeat' first
    | with_reducible exact hg | with_reducible assumption | with_reducible apply State.updSq_goes
    | with_reducible apply State.updPhys_goes | (intro x hx; exact hx) | (intro _) | with_reducible refine Goes.mk ?_ rfl

theorem State.placeFailed_goes {s0 s : State} (q : Nat) (hg : Goes s0 s) :
    Goes s0 (State.placeFailed s q) := by
  unfold State.placeFailed
  try dsimp only
  repeat' first
    | with_reducible exact hg | with_reducible assumption | with_reducible apply State.redirect_goes
    | with_reducible apply State.updPhys_goes | split | (intro _) | with_reducible refine Goes.mk ?_ rfl

theorem State.clearTested_goes {s0 s : State} (q : Nat) (hg : Goes s0 s) :
    Goes s0 (State.clearTested s q) := by
  unfold State.clearTested
  try dsimp only
  repeat' first
    | with_reducible exact hg | with_reducible assumption | with_reducible apply State.clearSquare_goes
    | with_reducible apply State.updSq_goes | (intro x hx; exact hx) | (intro _) | with_reducible refine Goes.mk ?_ rfl

theorem State.abandonActivation_goes {s0 s : State} (hg : Goes s0 s) :
    Goes s0 (State.abandonActivation s) := by
  unfold State.abandonActivation
  try dsimp only
  repeat' first
    | with_reducible exact hg | with_reducible assumption | with_reducible apply State.releaseModule_goes
    | with_reducible apply State.updService_goes | (intro _) | with_reducible refine Goes.mk ?_ rfl

theorem State.switchImage_goes {s0 s : State} (hg : Goes s0 s) :
    Goes s0 (State.switchImage s) := by
  unfold State.switchImage
  try dsimp only
  repeat' first
    | with_reducible exact hg | with_reducible assumption | with_reducible apply State.releaseModule_goes
    | with_reducible apply State.active_goes | with_reducible apply State.markImage_goes
    | with_reducible apply State.updService_goes | with_reducible apply State.updSec_goes | (intro _)
    | with_reducible refine Goes.mk ?_ rfl

theorem State.putMigration_goes {s0 s : State} (die : Nat) (m : Option SquareMig) (hg : Goes s0 s) :
    Goes s0 (State.putMigration s die m) := by
  unfold State.putMigration
  try dsimp only
  repeat' first
    | with_reducible exact hg | with_reducible assumption | with_reducible apply State.updService_goes | (intro _)
    | with_reducible refine Goes.mk ?_ rfl

theorem State.moveSquare_goes {s0 s : State} (m : SquareMig) (hg : Goes s0 s) :
    Goes s0 (State.moveSquare s m) := by
  unfold State.moveSquare
  try dsimp only
  repeat' first
    | with_reducible exact hg | with_reducible assumption | with_reducible apply State.redirect_goes
    | with_reducible apply State.updSq_goes | with_reducible apply State.updPhys_goes | (intro x hx; exact hx) | split
    | (intro _) | with_reducible refine Goes.mk ?_ rfl

theorem State.noteArray_goes {s0 s : State} (q : Nat) (rows : List Nat) (cols : List Nat) (hg : Goes s0 s) :
    Goes s0 (State.noteArray s q rows cols) := by
  unfold State.noteArray
  try dsimp only
  repeat' first
    | with_reducible exact hg | with_reducible assumption | with_reducible apply State.updPhys_goes | (intro _)
    | with_reducible refine Goes.mk ?_ rfl

theorem State.burn_goes {s0 s : State} (q : Nat) (i : Nat) (lines : List Nat) (hg : Goes s0 s) :
    Goes s0 (State.burn s q i lines) := by
  unfold State.burn
  try dsimp only
  repeat' first
    | with_reducible exact hg | with_reducible assumption | with_reducible apply State.updPhys_goes
    | with_reducible apply Square.foldl_ok | with_reducible refine Goes.foldl _ ?_ ?_
    | with_reducible refine Square.foldl_ok _ ?_ ?_ | (intro _) | with_reducible refine Goes.mk ?_ rfl

theorem State.repair_goes {s0 s : State} (q : Nat) (rows : List Nat) (cols : List Nat) (hg : Goes s0 s) :
    Goes s0 (State.repair s q rows cols) := by
  unfold State.repair
  try dsimp only
  repeat' first
    | with_reducible exact hg | with_reducible assumption | with_reducible apply State.putMigration_goes
    | with_reducible apply State.noteArray_goes | with_reducible apply State.burn_goes
    | with_reducible apply State.updPhys_goes | split | (intro _) | with_reducible refine Goes.mk ?_ rfl

end Sys2Proof.Machine
end

