-- ==== Sys2Proof/Laws/State.lean ====
section
/-!
SUPPORT. One lemma per field and update of State, and what the shared operations of events and responses leave unchanged.
-/

namespace Sys2Proof.Machine

open Sys2Proof

/-! ### updSq -/

@[simp] theorem State.updSq_now (s : State) (q : Nat) (f : Square → Square) : (s.updSq q f).now = s.now := rfl
@[simp] theorem State.updSq_fresh (s : State) (q : Nat) (f : Square → Square) : (s.updSq q f).fresh = s.fresh := rfl
@[simp] theorem State.updSq_pending (s : State) (q : Nat) (f : Square → Square) : (s.updSq q f).pending = s.pending := rfl
@[simp] theorem State.updSq_phys (s : State) (q : Nat) (f : Square → Square) : (s.updSq q f).phys = s.phys := rfl
@[simp] theorem State.updSq_parts (s : State) (q : Nat) (f : Square → Square) : (s.updSq q f).parts = s.parts := rfl
@[simp] theorem State.updSq_fabric (s : State) (q : Nat) (f : Square → Square) : (s.updSq q f).fabric = s.fabric := rfl
@[simp] theorem State.updSq_links (s : State) (q : Nat) (f : Square → Square) : (s.updSq q f).links = s.links := rfl
@[simp] theorem State.updSq_groups (s : State) (q : Nat) (f : Square → Square) : (s.updSq q f).groups = s.groups := rfl
@[simp] theorem State.updSq_aslet (s : State) (q : Nat) (f : Square → Square) : (s.updSq q f).aslet = s.aslet := rfl
@[simp] theorem State.updSq_dram (s : State) (q : Nat) (f : Square → Square) : (s.updSq q f).dram = s.dram := rfl
@[simp] theorem State.updSq_sec (s : State) (q : Nat) (f : Square → Square) : (s.updSq q f).sec = s.sec := rfl
@[simp] theorem State.updSq_power (s : State) (q : Nat) (f : Square → Square) : (s.updSq q f).power = s.power := rfl
@[simp] theorem State.updSq_thermal (s : State) (q : Nat) (f : Square → Square) : (s.updSq q f).thermal = s.thermal := rfl
@[simp] theorem State.updSq_service (s : State) (q : Nat) (f : Square → Square) : (s.updSq q f).service = s.service := rfl
@[simp] theorem State.updSq_timeSource (s : State) (q : Nat) (f : Square → Square) : (s.updSq q f).timeSource = s.timeSource := rfl
@[simp] theorem State.updSq_holdover (s : State) (q : Nat) (f : Square → Square) : (s.updSq q f).holdover = s.holdover := rfl
@[simp] theorem State.updSq_events (s : State) (q : Nat) (f : Square → Square) : (s.updSq q f).events = s.events := rfl
@[simp] theorem State.updSq_eventsRaised (s : State) (q : Nat) (f : Square → Square) : (s.updSq q f).eventsRaised = s.eventsRaised := rfl
@[simp] theorem State.updSq_statusFlags (s : State) (q : Nat) (f : Square → Square) : (s.updSq q f).statusFlags = s.statusFlags := rfl
@[simp] theorem State.updSq_flagEvents (s : State) (q : Nat) (f : Square → Square) : (s.updSq q f).flagEvents = s.flagEvents := rfl
@[simp] theorem State.updSq_defaulted (s : State) (q : Nat) (f : Square → Square) : (s.updSq q f).defaulted = s.defaulted := rfl
@[simp] theorem State.updSq_lostObjects (s : State) (q : Nat) (f : Square → Square) : (s.updSq q f).lostObjects = s.lostObjects := rfl
@[simp] theorem State.updSq_counters (s : State) (q : Nat) (f : Square → Square) : (s.updSq q f).counters = s.counters := rfl
@[simp] theorem State.updSq_slotPins (s : State) (q : Nat) (f : Square → Square) : (s.updSq q f).slotPins = s.slotPins := rfl
@[simp] theorem State.updSq_slotId (s : State) (q : Nat) (f : Square → Square) : (s.updSq q f).slotId = s.slotId := rfl
@[simp] theorem State.updSq_coordinatorSilent (s : State) (q : Nat) (f : Square → Square) : (s.updSq q f).coordinatorSilent = s.coordinatorSilent := rfl
@[simp] theorem State.updSq_earlyJoins (s : State) (q : Nat) (f : Square → Square) : (s.updSq q f).earlyJoins = s.earlyJoins := rfl
@[simp] theorem State.updSq_responses (s : State) (q : Nat) (f : Square → Square) : (s.updSq q f).responses = s.responses := rfl

/-! ### updPart -/

@[simp] theorem State.updPart_now (s : State) (p : Nat) (f : Partition → Partition) : (s.updPart p f).now = s.now := rfl
@[simp] theorem State.updPart_fresh (s : State) (p : Nat) (f : Partition → Partition) : (s.updPart p f).fresh = s.fresh := rfl
@[simp] theorem State.updPart_pending (s : State) (p : Nat) (f : Partition → Partition) : (s.updPart p f).pending = s.pending := rfl
@[simp] theorem State.updPart_squares (s : State) (p : Nat) (f : Partition → Partition) : (s.updPart p f).squares = s.squares := rfl
@[simp] theorem State.updPart_phys (s : State) (p : Nat) (f : Partition → Partition) : (s.updPart p f).phys = s.phys := rfl
@[simp] theorem State.updPart_fabric (s : State) (p : Nat) (f : Partition → Partition) : (s.updPart p f).fabric = s.fabric := rfl
@[simp] theorem State.updPart_links (s : State) (p : Nat) (f : Partition → Partition) : (s.updPart p f).links = s.links := rfl
@[simp] theorem State.updPart_groups (s : State) (p : Nat) (f : Partition → Partition) : (s.updPart p f).groups = s.groups := rfl
@[simp] theorem State.updPart_aslet (s : State) (p : Nat) (f : Partition → Partition) : (s.updPart p f).aslet = s.aslet := rfl
@[simp] theorem State.updPart_dram (s : State) (p : Nat) (f : Partition → Partition) : (s.updPart p f).dram = s.dram := rfl
@[simp] theorem State.updPart_sec (s : State) (p : Nat) (f : Partition → Partition) : (s.updPart p f).sec = s.sec := rfl
@[simp] theorem State.updPart_power (s : State) (p : Nat) (f : Partition → Partition) : (s.updPart p f).power = s.power := rfl
@[simp] theorem State.updPart_thermal (s : State) (p : Nat) (f : Partition → Partition) : (s.updPart p f).thermal = s.thermal := rfl
@[simp] theorem State.updPart_service (s : State) (p : Nat) (f : Partition → Partition) : (s.updPart p f).service = s.service := rfl
@[simp] theorem State.updPart_timeSource (s : State) (p : Nat) (f : Partition → Partition) : (s.updPart p f).timeSource = s.timeSource := rfl
@[simp] theorem State.updPart_holdover (s : State) (p : Nat) (f : Partition → Partition) : (s.updPart p f).holdover = s.holdover := rfl
@[simp] theorem State.updPart_events (s : State) (p : Nat) (f : Partition → Partition) : (s.updPart p f).events = s.events := rfl
@[simp] theorem State.updPart_eventsRaised (s : State) (p : Nat) (f : Partition → Partition) : (s.updPart p f).eventsRaised = s.eventsRaised := rfl
@[simp] theorem State.updPart_statusFlags (s : State) (p : Nat) (f : Partition → Partition) : (s.updPart p f).statusFlags = s.statusFlags := rfl
@[simp] theorem State.updPart_flagEvents (s : State) (p : Nat) (f : Partition → Partition) : (s.updPart p f).flagEvents = s.flagEvents := rfl
@[simp] theorem State.updPart_defaulted (s : State) (p : Nat) (f : Partition → Partition) : (s.updPart p f).defaulted = s.defaulted := rfl
@[simp] theorem State.updPart_lostObjects (s : State) (p : Nat) (f : Partition → Partition) : (s.updPart p f).lostObjects = s.lostObjects := rfl
@[simp] theorem State.updPart_counters (s : State) (p : Nat) (f : Partition → Partition) : (s.updPart p f).counters = s.counters := rfl
@[simp] theorem State.updPart_slotPins (s : State) (p : Nat) (f : Partition → Partition) : (s.updPart p f).slotPins = s.slotPins := rfl
@[simp] theorem State.updPart_slotId (s : State) (p : Nat) (f : Partition → Partition) : (s.updPart p f).slotId = s.slotId := rfl
@[simp] theorem State.updPart_coordinatorSilent (s : State) (p : Nat) (f : Partition → Partition) : (s.updPart p f).coordinatorSilent = s.coordinatorSilent := rfl
@[simp] theorem State.updPart_earlyJoins (s : State) (p : Nat) (f : Partition → Partition) : (s.updPart p f).earlyJoins = s.earlyJoins := rfl
@[simp] theorem State.updPart_responses (s : State) (p : Nat) (f : Partition → Partition) : (s.updPart p f).responses = s.responses := rfl

/-! ### updLink -/

@[simp] theorem State.updLink_now (s : State) (l : Nat) (f : Link → Link) : (s.updLink l f).now = s.now := rfl
@[simp] theorem State.updLink_fresh (s : State) (l : Nat) (f : Link → Link) : (s.updLink l f).fresh = s.fresh := rfl
@[simp] theorem State.updLink_pending (s : State) (l : Nat) (f : Link → Link) : (s.updLink l f).pending = s.pending := rfl
@[simp] theorem State.updLink_squares (s : State) (l : Nat) (f : Link → Link) : (s.updLink l f).squares = s.squares := rfl
@[simp] theorem State.updLink_phys (s : State) (l : Nat) (f : Link → Link) : (s.updLink l f).phys = s.phys := rfl
@[simp] theorem State.updLink_parts (s : State) (l : Nat) (f : Link → Link) : (s.updLink l f).parts = s.parts := rfl
@[simp] theorem State.updLink_fabric (s : State) (l : Nat) (f : Link → Link) : (s.updLink l f).fabric = s.fabric := rfl
@[simp] theorem State.updLink_groups (s : State) (l : Nat) (f : Link → Link) : (s.updLink l f).groups = s.groups := rfl
@[simp] theorem State.updLink_aslet (s : State) (l : Nat) (f : Link → Link) : (s.updLink l f).aslet = s.aslet := rfl
@[simp] theorem State.updLink_dram (s : State) (l : Nat) (f : Link → Link) : (s.updLink l f).dram = s.dram := rfl
@[simp] theorem State.updLink_sec (s : State) (l : Nat) (f : Link → Link) : (s.updLink l f).sec = s.sec := rfl
@[simp] theorem State.updLink_power (s : State) (l : Nat) (f : Link → Link) : (s.updLink l f).power = s.power := rfl
@[simp] theorem State.updLink_thermal (s : State) (l : Nat) (f : Link → Link) : (s.updLink l f).thermal = s.thermal := rfl
@[simp] theorem State.updLink_service (s : State) (l : Nat) (f : Link → Link) : (s.updLink l f).service = s.service := rfl
@[simp] theorem State.updLink_timeSource (s : State) (l : Nat) (f : Link → Link) : (s.updLink l f).timeSource = s.timeSource := rfl
@[simp] theorem State.updLink_holdover (s : State) (l : Nat) (f : Link → Link) : (s.updLink l f).holdover = s.holdover := rfl
@[simp] theorem State.updLink_events (s : State) (l : Nat) (f : Link → Link) : (s.updLink l f).events = s.events := rfl
@[simp] theorem State.updLink_eventsRaised (s : State) (l : Nat) (f : Link → Link) : (s.updLink l f).eventsRaised = s.eventsRaised := rfl
@[simp] theorem State.updLink_statusFlags (s : State) (l : Nat) (f : Link → Link) : (s.updLink l f).statusFlags = s.statusFlags := rfl
@[simp] theorem State.updLink_flagEvents (s : State) (l : Nat) (f : Link → Link) : (s.updLink l f).flagEvents = s.flagEvents := rfl
@[simp] theorem State.updLink_defaulted (s : State) (l : Nat) (f : Link → Link) : (s.updLink l f).defaulted = s.defaulted := rfl
@[simp] theorem State.updLink_lostObjects (s : State) (l : Nat) (f : Link → Link) : (s.updLink l f).lostObjects = s.lostObjects := rfl
@[simp] theorem State.updLink_counters (s : State) (l : Nat) (f : Link → Link) : (s.updLink l f).counters = s.counters := rfl
@[simp] theorem State.updLink_slotPins (s : State) (l : Nat) (f : Link → Link) : (s.updLink l f).slotPins = s.slotPins := rfl
@[simp] theorem State.updLink_slotId (s : State) (l : Nat) (f : Link → Link) : (s.updLink l f).slotId = s.slotId := rfl
@[simp] theorem State.updLink_coordinatorSilent (s : State) (l : Nat) (f : Link → Link) : (s.updLink l f).coordinatorSilent = s.coordinatorSilent := rfl
@[simp] theorem State.updLink_earlyJoins (s : State) (l : Nat) (f : Link → Link) : (s.updLink l f).earlyJoins = s.earlyJoins := rfl
@[simp] theorem State.updLink_responses (s : State) (l : Nat) (f : Link → Link) : (s.updLink l f).responses = s.responses := rfl

/-! ### updGroup -/

@[simp] theorem State.updGroup_now (s : State) (g : Nat) (f : LinkGroup → LinkGroup) : (s.updGroup g f).now = s.now := rfl
@[simp] theorem State.updGroup_fresh (s : State) (g : Nat) (f : LinkGroup → LinkGroup) : (s.updGroup g f).fresh = s.fresh := rfl
@[simp] theorem State.updGroup_pending (s : State) (g : Nat) (f : LinkGroup → LinkGroup) : (s.updGroup g f).pending = s.pending := rfl
@[simp] theorem State.updGroup_squares (s : State) (g : Nat) (f : LinkGroup → LinkGroup) : (s.updGroup g f).squares = s.squares := rfl
@[simp] theorem State.updGroup_phys (s : State) (g : Nat) (f : LinkGroup → LinkGroup) : (s.updGroup g f).phys = s.phys := rfl
@[simp] theorem State.updGroup_parts (s : State) (g : Nat) (f : LinkGroup → LinkGroup) : (s.updGroup g f).parts = s.parts := rfl
@[simp] theorem State.updGroup_fabric (s : State) (g : Nat) (f : LinkGroup → LinkGroup) : (s.updGroup g f).fabric = s.fabric := rfl
@[simp] theorem State.updGroup_links (s : State) (g : Nat) (f : LinkGroup → LinkGroup) : (s.updGroup g f).links = s.links := rfl
@[simp] theorem State.updGroup_aslet (s : State) (g : Nat) (f : LinkGroup → LinkGroup) : (s.updGroup g f).aslet = s.aslet := rfl
@[simp] theorem State.updGroup_dram (s : State) (g : Nat) (f : LinkGroup → LinkGroup) : (s.updGroup g f).dram = s.dram := rfl
@[simp] theorem State.updGroup_sec (s : State) (g : Nat) (f : LinkGroup → LinkGroup) : (s.updGroup g f).sec = s.sec := rfl
@[simp] theorem State.updGroup_power (s : State) (g : Nat) (f : LinkGroup → LinkGroup) : (s.updGroup g f).power = s.power := rfl
@[simp] theorem State.updGroup_thermal (s : State) (g : Nat) (f : LinkGroup → LinkGroup) : (s.updGroup g f).thermal = s.thermal := rfl
@[simp] theorem State.updGroup_service (s : State) (g : Nat) (f : LinkGroup → LinkGroup) : (s.updGroup g f).service = s.service := rfl
@[simp] theorem State.updGroup_timeSource (s : State) (g : Nat) (f : LinkGroup → LinkGroup) : (s.updGroup g f).timeSource = s.timeSource := rfl
@[simp] theorem State.updGroup_holdover (s : State) (g : Nat) (f : LinkGroup → LinkGroup) : (s.updGroup g f).holdover = s.holdover := rfl
@[simp] theorem State.updGroup_events (s : State) (g : Nat) (f : LinkGroup → LinkGroup) : (s.updGroup g f).events = s.events := rfl
@[simp] theorem State.updGroup_eventsRaised (s : State) (g : Nat) (f : LinkGroup → LinkGroup) : (s.updGroup g f).eventsRaised = s.eventsRaised := rfl
@[simp] theorem State.updGroup_statusFlags (s : State) (g : Nat) (f : LinkGroup → LinkGroup) : (s.updGroup g f).statusFlags = s.statusFlags := rfl
@[simp] theorem State.updGroup_flagEvents (s : State) (g : Nat) (f : LinkGroup → LinkGroup) : (s.updGroup g f).flagEvents = s.flagEvents := rfl
@[simp] theorem State.updGroup_defaulted (s : State) (g : Nat) (f : LinkGroup → LinkGroup) : (s.updGroup g f).defaulted = s.defaulted := rfl
@[simp] theorem State.updGroup_lostObjects (s : State) (g : Nat) (f : LinkGroup → LinkGroup) : (s.updGroup g f).lostObjects = s.lostObjects := rfl
@[simp] theorem State.updGroup_counters (s : State) (g : Nat) (f : LinkGroup → LinkGroup) : (s.updGroup g f).counters = s.counters := rfl
@[simp] theorem State.updGroup_slotPins (s : State) (g : Nat) (f : LinkGroup → LinkGroup) : (s.updGroup g f).slotPins = s.slotPins := rfl
@[simp] theorem State.updGroup_slotId (s : State) (g : Nat) (f : LinkGroup → LinkGroup) : (s.updGroup g f).slotId = s.slotId := rfl
@[simp] theorem State.updGroup_coordinatorSilent (s : State) (g : Nat) (f : LinkGroup → LinkGroup) : (s.updGroup g f).coordinatorSilent = s.coordinatorSilent := rfl
@[simp] theorem State.updGroup_earlyJoins (s : State) (g : Nat) (f : LinkGroup → LinkGroup) : (s.updGroup g f).earlyJoins = s.earlyJoins := rfl
@[simp] theorem State.updGroup_responses (s : State) (g : Nat) (f : LinkGroup → LinkGroup) : (s.updGroup g f).responses = s.responses := rfl

/-! ### updPhys -/

@[simp] theorem State.updPhys_now (s : State) (q : Nat) (f : Phys → Phys) : (s.updPhys q f).now = s.now := rfl
@[simp] theorem State.updPhys_fresh (s : State) (q : Nat) (f : Phys → Phys) : (s.updPhys q f).fresh = s.fresh := rfl
@[simp] theorem State.updPhys_pending (s : State) (q : Nat) (f : Phys → Phys) : (s.updPhys q f).pending = s.pending := rfl
@[simp] theorem State.updPhys_squares (s : State) (q : Nat) (f : Phys → Phys) : (s.updPhys q f).squares = s.squares := rfl
@[simp] theorem State.updPhys_parts (s : State) (q : Nat) (f : Phys → Phys) : (s.updPhys q f).parts = s.parts := rfl
@[simp] theorem State.updPhys_fabric (s : State) (q : Nat) (f : Phys → Phys) : (s.updPhys q f).fabric = s.fabric := rfl
@[simp] theorem State.updPhys_links (s : State) (q : Nat) (f : Phys → Phys) : (s.updPhys q f).links = s.links := rfl
@[simp] theorem State.updPhys_groups (s : State) (q : Nat) (f : Phys → Phys) : (s.updPhys q f).groups = s.groups := rfl
@[simp] theorem State.updPhys_aslet (s : State) (q : Nat) (f : Phys → Phys) : (s.updPhys q f).aslet = s.aslet := rfl
@[simp] theorem State.updPhys_dram (s : State) (q : Nat) (f : Phys → Phys) : (s.updPhys q f).dram = s.dram := rfl
@[simp] theorem State.updPhys_sec (s : State) (q : Nat) (f : Phys → Phys) : (s.updPhys q f).sec = s.sec := rfl
@[simp] theorem State.updPhys_power (s : State) (q : Nat) (f : Phys → Phys) : (s.updPhys q f).power = s.power := rfl
@[simp] theorem State.updPhys_thermal (s : State) (q : Nat) (f : Phys → Phys) : (s.updPhys q f).thermal = s.thermal := rfl
@[simp] theorem State.updPhys_service (s : State) (q : Nat) (f : Phys → Phys) : (s.updPhys q f).service = s.service := rfl
@[simp] theorem State.updPhys_timeSource (s : State) (q : Nat) (f : Phys → Phys) : (s.updPhys q f).timeSource = s.timeSource := rfl
@[simp] theorem State.updPhys_holdover (s : State) (q : Nat) (f : Phys → Phys) : (s.updPhys q f).holdover = s.holdover := rfl
@[simp] theorem State.updPhys_events (s : State) (q : Nat) (f : Phys → Phys) : (s.updPhys q f).events = s.events := rfl
@[simp] theorem State.updPhys_eventsRaised (s : State) (q : Nat) (f : Phys → Phys) : (s.updPhys q f).eventsRaised = s.eventsRaised := rfl
@[simp] theorem State.updPhys_statusFlags (s : State) (q : Nat) (f : Phys → Phys) : (s.updPhys q f).statusFlags = s.statusFlags := rfl
@[simp] theorem State.updPhys_flagEvents (s : State) (q : Nat) (f : Phys → Phys) : (s.updPhys q f).flagEvents = s.flagEvents := rfl
@[simp] theorem State.updPhys_defaulted (s : State) (q : Nat) (f : Phys → Phys) : (s.updPhys q f).defaulted = s.defaulted := rfl
@[simp] theorem State.updPhys_lostObjects (s : State) (q : Nat) (f : Phys → Phys) : (s.updPhys q f).lostObjects = s.lostObjects := rfl
@[simp] theorem State.updPhys_counters (s : State) (q : Nat) (f : Phys → Phys) : (s.updPhys q f).counters = s.counters := rfl
@[simp] theorem State.updPhys_slotPins (s : State) (q : Nat) (f : Phys → Phys) : (s.updPhys q f).slotPins = s.slotPins := rfl
@[simp] theorem State.updPhys_slotId (s : State) (q : Nat) (f : Phys → Phys) : (s.updPhys q f).slotId = s.slotId := rfl
@[simp] theorem State.updPhys_coordinatorSilent (s : State) (q : Nat) (f : Phys → Phys) : (s.updPhys q f).coordinatorSilent = s.coordinatorSilent := rfl
@[simp] theorem State.updPhys_earlyJoins (s : State) (q : Nat) (f : Phys → Phys) : (s.updPhys q f).earlyJoins = s.earlyJoins := rfl
@[simp] theorem State.updPhys_responses (s : State) (q : Nat) (f : Phys → Phys) : (s.updPhys q f).responses = s.responses := rfl

/-! ### updStack -/

@[simp] theorem State.updStack_now (s : State) (n : Nat) (f : Stack → Stack) : (s.updStack n f).now = s.now := rfl
@[simp] theorem State.updStack_fresh (s : State) (n : Nat) (f : Stack → Stack) : (s.updStack n f).fresh = s.fresh := rfl
@[simp] theorem State.updStack_pending (s : State) (n : Nat) (f : Stack → Stack) : (s.updStack n f).pending = s.pending := rfl
@[simp] theorem State.updStack_squares (s : State) (n : Nat) (f : Stack → Stack) : (s.updStack n f).squares = s.squares := rfl
@[simp] theorem State.updStack_phys (s : State) (n : Nat) (f : Stack → Stack) : (s.updStack n f).phys = s.phys := rfl
@[simp] theorem State.updStack_parts (s : State) (n : Nat) (f : Stack → Stack) : (s.updStack n f).parts = s.parts := rfl
@[simp] theorem State.updStack_fabric (s : State) (n : Nat) (f : Stack → Stack) : (s.updStack n f).fabric = s.fabric := rfl
@[simp] theorem State.updStack_links (s : State) (n : Nat) (f : Stack → Stack) : (s.updStack n f).links = s.links := rfl
@[simp] theorem State.updStack_groups (s : State) (n : Nat) (f : Stack → Stack) : (s.updStack n f).groups = s.groups := rfl
@[simp] theorem State.updStack_aslet (s : State) (n : Nat) (f : Stack → Stack) : (s.updStack n f).aslet = s.aslet := rfl
@[simp] theorem State.updStack_sec (s : State) (n : Nat) (f : Stack → Stack) : (s.updStack n f).sec = s.sec := rfl
@[simp] theorem State.updStack_power (s : State) (n : Nat) (f : Stack → Stack) : (s.updStack n f).power = s.power := rfl
@[simp] theorem State.updStack_thermal (s : State) (n : Nat) (f : Stack → Stack) : (s.updStack n f).thermal = s.thermal := rfl
@[simp] theorem State.updStack_service (s : State) (n : Nat) (f : Stack → Stack) : (s.updStack n f).service = s.service := rfl
@[simp] theorem State.updStack_timeSource (s : State) (n : Nat) (f : Stack → Stack) : (s.updStack n f).timeSource = s.timeSource := rfl
@[simp] theorem State.updStack_holdover (s : State) (n : Nat) (f : Stack → Stack) : (s.updStack n f).holdover = s.holdover := rfl
@[simp] theorem State.updStack_events (s : State) (n : Nat) (f : Stack → Stack) : (s.updStack n f).events = s.events := rfl
@[simp] theorem State.updStack_eventsRaised (s : State) (n : Nat) (f : Stack → Stack) : (s.updStack n f).eventsRaised = s.eventsRaised := rfl
@[simp] theorem State.updStack_statusFlags (s : State) (n : Nat) (f : Stack → Stack) : (s.updStack n f).statusFlags = s.statusFlags := rfl
@[simp] theorem State.updStack_flagEvents (s : State) (n : Nat) (f : Stack → Stack) : (s.updStack n f).flagEvents = s.flagEvents := rfl
@[simp] theorem State.updStack_defaulted (s : State) (n : Nat) (f : Stack → Stack) : (s.updStack n f).defaulted = s.defaulted := rfl
@[simp] theorem State.updStack_lostObjects (s : State) (n : Nat) (f : Stack → Stack) : (s.updStack n f).lostObjects = s.lostObjects := rfl
@[simp] theorem State.updStack_counters (s : State) (n : Nat) (f : Stack → Stack) : (s.updStack n f).counters = s.counters := rfl
@[simp] theorem State.updStack_slotPins (s : State) (n : Nat) (f : Stack → Stack) : (s.updStack n f).slotPins = s.slotPins := rfl
@[simp] theorem State.updStack_slotId (s : State) (n : Nat) (f : Stack → Stack) : (s.updStack n f).slotId = s.slotId := rfl
@[simp] theorem State.updStack_coordinatorSilent (s : State) (n : Nat) (f : Stack → Stack) : (s.updStack n f).coordinatorSilent = s.coordinatorSilent := rfl
@[simp] theorem State.updStack_earlyJoins (s : State) (n : Nat) (f : Stack → Stack) : (s.updStack n f).earlyJoins = s.earlyJoins := rfl
@[simp] theorem State.updStack_responses (s : State) (n : Nat) (f : Stack → Stack) : (s.updStack n f).responses = s.responses := rfl

/-! ### updMemDie -/

@[simp] theorem State.updMemDie_now (s : State) (d : Nat) (f : MemDie → MemDie) : (s.updMemDie d f).now = s.now := rfl
@[simp] theorem State.updMemDie_fresh (s : State) (d : Nat) (f : MemDie → MemDie) : (s.updMemDie d f).fresh = s.fresh := rfl
@[simp] theorem State.updMemDie_pending (s : State) (d : Nat) (f : MemDie → MemDie) : (s.updMemDie d f).pending = s.pending := rfl
@[simp] theorem State.updMemDie_squares (s : State) (d : Nat) (f : MemDie → MemDie) : (s.updMemDie d f).squares = s.squares := rfl
@[simp] theorem State.updMemDie_phys (s : State) (d : Nat) (f : MemDie → MemDie) : (s.updMemDie d f).phys = s.phys := rfl
@[simp] theorem State.updMemDie_parts (s : State) (d : Nat) (f : MemDie → MemDie) : (s.updMemDie d f).parts = s.parts := rfl
@[simp] theorem State.updMemDie_fabric (s : State) (d : Nat) (f : MemDie → MemDie) : (s.updMemDie d f).fabric = s.fabric := rfl
@[simp] theorem State.updMemDie_links (s : State) (d : Nat) (f : MemDie → MemDie) : (s.updMemDie d f).links = s.links := rfl
@[simp] theorem State.updMemDie_groups (s : State) (d : Nat) (f : MemDie → MemDie) : (s.updMemDie d f).groups = s.groups := rfl
@[simp] theorem State.updMemDie_aslet (s : State) (d : Nat) (f : MemDie → MemDie) : (s.updMemDie d f).aslet = s.aslet := rfl
@[simp] theorem State.updMemDie_sec (s : State) (d : Nat) (f : MemDie → MemDie) : (s.updMemDie d f).sec = s.sec := rfl
@[simp] theorem State.updMemDie_power (s : State) (d : Nat) (f : MemDie → MemDie) : (s.updMemDie d f).power = s.power := rfl
@[simp] theorem State.updMemDie_thermal (s : State) (d : Nat) (f : MemDie → MemDie) : (s.updMemDie d f).thermal = s.thermal := rfl
@[simp] theorem State.updMemDie_service (s : State) (d : Nat) (f : MemDie → MemDie) : (s.updMemDie d f).service = s.service := rfl
@[simp] theorem State.updMemDie_timeSource (s : State) (d : Nat) (f : MemDie → MemDie) : (s.updMemDie d f).timeSource = s.timeSource := rfl
@[simp] theorem State.updMemDie_holdover (s : State) (d : Nat) (f : MemDie → MemDie) : (s.updMemDie d f).holdover = s.holdover := rfl
@[simp] theorem State.updMemDie_events (s : State) (d : Nat) (f : MemDie → MemDie) : (s.updMemDie d f).events = s.events := rfl
@[simp] theorem State.updMemDie_eventsRaised (s : State) (d : Nat) (f : MemDie → MemDie) : (s.updMemDie d f).eventsRaised = s.eventsRaised := rfl
@[simp] theorem State.updMemDie_statusFlags (s : State) (d : Nat) (f : MemDie → MemDie) : (s.updMemDie d f).statusFlags = s.statusFlags := rfl
@[simp] theorem State.updMemDie_flagEvents (s : State) (d : Nat) (f : MemDie → MemDie) : (s.updMemDie d f).flagEvents = s.flagEvents := rfl
@[simp] theorem State.updMemDie_defaulted (s : State) (d : Nat) (f : MemDie → MemDie) : (s.updMemDie d f).defaulted = s.defaulted := rfl
@[simp] theorem State.updMemDie_lostObjects (s : State) (d : Nat) (f : MemDie → MemDie) : (s.updMemDie d f).lostObjects = s.lostObjects := rfl
@[simp] theorem State.updMemDie_counters (s : State) (d : Nat) (f : MemDie → MemDie) : (s.updMemDie d f).counters = s.counters := rfl
@[simp] theorem State.updMemDie_slotPins (s : State) (d : Nat) (f : MemDie → MemDie) : (s.updMemDie d f).slotPins = s.slotPins := rfl
@[simp] theorem State.updMemDie_slotId (s : State) (d : Nat) (f : MemDie → MemDie) : (s.updMemDie d f).slotId = s.slotId := rfl
@[simp] theorem State.updMemDie_coordinatorSilent (s : State) (d : Nat) (f : MemDie → MemDie) : (s.updMemDie d f).coordinatorSilent = s.coordinatorSilent := rfl
@[simp] theorem State.updMemDie_earlyJoins (s : State) (d : Nat) (f : MemDie → MemDie) : (s.updMemDie d f).earlyJoins = s.earlyJoins := rfl
@[simp] theorem State.updMemDie_responses (s : State) (d : Nat) (f : MemDie → MemDie) : (s.updMemDie d f).responses = s.responses := rfl

/-! ### updAslet -/

@[simp] theorem State.updAslet_now (s : State) (f : Aslet → Aslet) : (s.updAslet f).now = s.now := rfl
@[simp] theorem State.updAslet_fresh (s : State) (f : Aslet → Aslet) : (s.updAslet f).fresh = s.fresh := rfl
@[simp] theorem State.updAslet_pending (s : State) (f : Aslet → Aslet) : (s.updAslet f).pending = s.pending := rfl
@[simp] theorem State.updAslet_squares (s : State) (f : Aslet → Aslet) : (s.updAslet f).squares = s.squares := rfl
@[simp] theorem State.updAslet_phys (s : State) (f : Aslet → Aslet) : (s.updAslet f).phys = s.phys := rfl
@[simp] theorem State.updAslet_parts (s : State) (f : Aslet → Aslet) : (s.updAslet f).parts = s.parts := rfl
@[simp] theorem State.updAslet_fabric (s : State) (f : Aslet → Aslet) : (s.updAslet f).fabric = s.fabric := rfl
@[simp] theorem State.updAslet_links (s : State) (f : Aslet → Aslet) : (s.updAslet f).links = s.links := rfl
@[simp] theorem State.updAslet_groups (s : State) (f : Aslet → Aslet) : (s.updAslet f).groups = s.groups := rfl
@[simp] theorem State.updAslet_dram (s : State) (f : Aslet → Aslet) : (s.updAslet f).dram = s.dram := rfl
@[simp] theorem State.updAslet_sec (s : State) (f : Aslet → Aslet) : (s.updAslet f).sec = s.sec := rfl
@[simp] theorem State.updAslet_power (s : State) (f : Aslet → Aslet) : (s.updAslet f).power = s.power := rfl
@[simp] theorem State.updAslet_thermal (s : State) (f : Aslet → Aslet) : (s.updAslet f).thermal = s.thermal := rfl
@[simp] theorem State.updAslet_service (s : State) (f : Aslet → Aslet) : (s.updAslet f).service = s.service := rfl
@[simp] theorem State.updAslet_timeSource (s : State) (f : Aslet → Aslet) : (s.updAslet f).timeSource = s.timeSource := rfl
@[simp] theorem State.updAslet_holdover (s : State) (f : Aslet → Aslet) : (s.updAslet f).holdover = s.holdover := rfl
@[simp] theorem State.updAslet_events (s : State) (f : Aslet → Aslet) : (s.updAslet f).events = s.events := rfl
@[simp] theorem State.updAslet_eventsRaised (s : State) (f : Aslet → Aslet) : (s.updAslet f).eventsRaised = s.eventsRaised := rfl
@[simp] theorem State.updAslet_statusFlags (s : State) (f : Aslet → Aslet) : (s.updAslet f).statusFlags = s.statusFlags := rfl
@[simp] theorem State.updAslet_flagEvents (s : State) (f : Aslet → Aslet) : (s.updAslet f).flagEvents = s.flagEvents := rfl
@[simp] theorem State.updAslet_defaulted (s : State) (f : Aslet → Aslet) : (s.updAslet f).defaulted = s.defaulted := rfl
@[simp] theorem State.updAslet_lostObjects (s : State) (f : Aslet → Aslet) : (s.updAslet f).lostObjects = s.lostObjects := rfl
@[simp] theorem State.updAslet_counters (s : State) (f : Aslet → Aslet) : (s.updAslet f).counters = s.counters := rfl
@[simp] theorem State.updAslet_slotPins (s : State) (f : Aslet → Aslet) : (s.updAslet f).slotPins = s.slotPins := rfl
@[simp] theorem State.updAslet_slotId (s : State) (f : Aslet → Aslet) : (s.updAslet f).slotId = s.slotId := rfl
@[simp] theorem State.updAslet_coordinatorSilent (s : State) (f : Aslet → Aslet) : (s.updAslet f).coordinatorSilent = s.coordinatorSilent := rfl
@[simp] theorem State.updAslet_earlyJoins (s : State) (f : Aslet → Aslet) : (s.updAslet f).earlyJoins = s.earlyJoins := rfl
@[simp] theorem State.updAslet_responses (s : State) (f : Aslet → Aslet) : (s.updAslet f).responses = s.responses := rfl

/-! ### updPower -/

@[simp] theorem State.updPower_now (s : State) (f : Power → Power) : (s.updPower f).now = s.now := rfl
@[simp] theorem State.updPower_fresh (s : State) (f : Power → Power) : (s.updPower f).fresh = s.fresh := rfl
@[simp] theorem State.updPower_pending (s : State) (f : Power → Power) : (s.updPower f).pending = s.pending := rfl
@[simp] theorem State.updPower_squares (s : State) (f : Power → Power) : (s.updPower f).squares = s.squares := rfl
@[simp] theorem State.updPower_phys (s : State) (f : Power → Power) : (s.updPower f).phys = s.phys := rfl
@[simp] theorem State.updPower_parts (s : State) (f : Power → Power) : (s.updPower f).parts = s.parts := rfl
@[simp] theorem State.updPower_fabric (s : State) (f : Power → Power) : (s.updPower f).fabric = s.fabric := rfl
@[simp] theorem State.updPower_links (s : State) (f : Power → Power) : (s.updPower f).links = s.links := rfl
@[simp] theorem State.updPower_groups (s : State) (f : Power → Power) : (s.updPower f).groups = s.groups := rfl
@[simp] theorem State.updPower_aslet (s : State) (f : Power → Power) : (s.updPower f).aslet = s.aslet := rfl
@[simp] theorem State.updPower_dram (s : State) (f : Power → Power) : (s.updPower f).dram = s.dram := rfl
@[simp] theorem State.updPower_sec (s : State) (f : Power → Power) : (s.updPower f).sec = s.sec := rfl
@[simp] theorem State.updPower_thermal (s : State) (f : Power → Power) : (s.updPower f).thermal = s.thermal := rfl
@[simp] theorem State.updPower_service (s : State) (f : Power → Power) : (s.updPower f).service = s.service := rfl
@[simp] theorem State.updPower_timeSource (s : State) (f : Power → Power) : (s.updPower f).timeSource = s.timeSource := rfl
@[simp] theorem State.updPower_holdover (s : State) (f : Power → Power) : (s.updPower f).holdover = s.holdover := rfl
@[simp] theorem State.updPower_events (s : State) (f : Power → Power) : (s.updPower f).events = s.events := rfl
@[simp] theorem State.updPower_eventsRaised (s : State) (f : Power → Power) : (s.updPower f).eventsRaised = s.eventsRaised := rfl
@[simp] theorem State.updPower_statusFlags (s : State) (f : Power → Power) : (s.updPower f).statusFlags = s.statusFlags := rfl
@[simp] theorem State.updPower_flagEvents (s : State) (f : Power → Power) : (s.updPower f).flagEvents = s.flagEvents := rfl
@[simp] theorem State.updPower_defaulted (s : State) (f : Power → Power) : (s.updPower f).defaulted = s.defaulted := rfl
@[simp] theorem State.updPower_lostObjects (s : State) (f : Power → Power) : (s.updPower f).lostObjects = s.lostObjects := rfl
@[simp] theorem State.updPower_counters (s : State) (f : Power → Power) : (s.updPower f).counters = s.counters := rfl
@[simp] theorem State.updPower_slotPins (s : State) (f : Power → Power) : (s.updPower f).slotPins = s.slotPins := rfl
@[simp] theorem State.updPower_slotId (s : State) (f : Power → Power) : (s.updPower f).slotId = s.slotId := rfl
@[simp] theorem State.updPower_coordinatorSilent (s : State) (f : Power → Power) : (s.updPower f).coordinatorSilent = s.coordinatorSilent := rfl
@[simp] theorem State.updPower_earlyJoins (s : State) (f : Power → Power) : (s.updPower f).earlyJoins = s.earlyJoins := rfl
@[simp] theorem State.updPower_responses (s : State) (f : Power → Power) : (s.updPower f).responses = s.responses := rfl

/-! ### updThermal -/

@[simp] theorem State.updThermal_now (s : State) (f : Thermal → Thermal) : (s.updThermal f).now = s.now := rfl
@[simp] theorem State.updThermal_fresh (s : State) (f : Thermal → Thermal) : (s.updThermal f).fresh = s.fresh := rfl
@[simp] theorem State.updThermal_pending (s : State) (f : Thermal → Thermal) : (s.updThermal f).pending = s.pending := rfl
@[simp] theorem State.updThermal_squares (s : State) (f : Thermal → Thermal) : (s.updThermal f).squares = s.squares := rfl
@[simp] theorem State.updThermal_phys (s : State) (f : Thermal → Thermal) : (s.updThermal f).phys = s.phys := rfl
@[simp] theorem State.updThermal_parts (s : State) (f : Thermal → Thermal) : (s.updThermal f).parts = s.parts := rfl
@[simp] theorem State.updThermal_fabric (s : State) (f : Thermal → Thermal) : (s.updThermal f).fabric = s.fabric := rfl
@[simp] theorem State.updThermal_links (s : State) (f : Thermal → Thermal) : (s.updThermal f).links = s.links := rfl
@[simp] theorem State.updThermal_groups (s : State) (f : Thermal → Thermal) : (s.updThermal f).groups = s.groups := rfl
@[simp] theorem State.updThermal_aslet (s : State) (f : Thermal → Thermal) : (s.updThermal f).aslet = s.aslet := rfl
@[simp] theorem State.updThermal_dram (s : State) (f : Thermal → Thermal) : (s.updThermal f).dram = s.dram := rfl
@[simp] theorem State.updThermal_sec (s : State) (f : Thermal → Thermal) : (s.updThermal f).sec = s.sec := rfl
@[simp] theorem State.updThermal_power (s : State) (f : Thermal → Thermal) : (s.updThermal f).power = s.power := rfl
@[simp] theorem State.updThermal_service (s : State) (f : Thermal → Thermal) : (s.updThermal f).service = s.service := rfl
@[simp] theorem State.updThermal_timeSource (s : State) (f : Thermal → Thermal) : (s.updThermal f).timeSource = s.timeSource := rfl
@[simp] theorem State.updThermal_holdover (s : State) (f : Thermal → Thermal) : (s.updThermal f).holdover = s.holdover := rfl
@[simp] theorem State.updThermal_events (s : State) (f : Thermal → Thermal) : (s.updThermal f).events = s.events := rfl
@[simp] theorem State.updThermal_eventsRaised (s : State) (f : Thermal → Thermal) : (s.updThermal f).eventsRaised = s.eventsRaised := rfl
@[simp] theorem State.updThermal_statusFlags (s : State) (f : Thermal → Thermal) : (s.updThermal f).statusFlags = s.statusFlags := rfl
@[simp] theorem State.updThermal_flagEvents (s : State) (f : Thermal → Thermal) : (s.updThermal f).flagEvents = s.flagEvents := rfl
@[simp] theorem State.updThermal_defaulted (s : State) (f : Thermal → Thermal) : (s.updThermal f).defaulted = s.defaulted := rfl
@[simp] theorem State.updThermal_lostObjects (s : State) (f : Thermal → Thermal) : (s.updThermal f).lostObjects = s.lostObjects := rfl
@[simp] theorem State.updThermal_counters (s : State) (f : Thermal → Thermal) : (s.updThermal f).counters = s.counters := rfl
@[simp] theorem State.updThermal_slotPins (s : State) (f : Thermal → Thermal) : (s.updThermal f).slotPins = s.slotPins := rfl
@[simp] theorem State.updThermal_slotId (s : State) (f : Thermal → Thermal) : (s.updThermal f).slotId = s.slotId := rfl
@[simp] theorem State.updThermal_coordinatorSilent (s : State) (f : Thermal → Thermal) : (s.updThermal f).coordinatorSilent = s.coordinatorSilent := rfl
@[simp] theorem State.updThermal_earlyJoins (s : State) (f : Thermal → Thermal) : (s.updThermal f).earlyJoins = s.earlyJoins := rfl
@[simp] theorem State.updThermal_responses (s : State) (f : Thermal → Thermal) : (s.updThermal f).responses = s.responses := rfl

/-! ### updService -/

@[simp] theorem State.updService_now (s : State) (f : Service → Service) : (s.updService f).now = s.now := rfl
@[simp] theorem State.updService_fresh (s : State) (f : Service → Service) : (s.updService f).fresh = s.fresh := rfl
@[simp] theorem State.updService_pending (s : State) (f : Service → Service) : (s.updService f).pending = s.pending := rfl
@[simp] theorem State.updService_squares (s : State) (f : Service → Service) : (s.updService f).squares = s.squares := rfl
@[simp] theorem State.updService_phys (s : State) (f : Service → Service) : (s.updService f).phys = s.phys := rfl
@[simp] theorem State.updService_parts (s : State) (f : Service → Service) : (s.updService f).parts = s.parts := rfl
@[simp] theorem State.updService_fabric (s : State) (f : Service → Service) : (s.updService f).fabric = s.fabric := rfl
@[simp] theorem State.updService_links (s : State) (f : Service → Service) : (s.updService f).links = s.links := rfl
@[simp] theorem State.updService_groups (s : State) (f : Service → Service) : (s.updService f).groups = s.groups := rfl
@[simp] theorem State.updService_aslet (s : State) (f : Service → Service) : (s.updService f).aslet = s.aslet := rfl
@[simp] theorem State.updService_dram (s : State) (f : Service → Service) : (s.updService f).dram = s.dram := rfl
@[simp] theorem State.updService_sec (s : State) (f : Service → Service) : (s.updService f).sec = s.sec := rfl
@[simp] theorem State.updService_power (s : State) (f : Service → Service) : (s.updService f).power = s.power := rfl
@[simp] theorem State.updService_thermal (s : State) (f : Service → Service) : (s.updService f).thermal = s.thermal := rfl
@[simp] theorem State.updService_timeSource (s : State) (f : Service → Service) : (s.updService f).timeSource = s.timeSource := rfl
@[simp] theorem State.updService_holdover (s : State) (f : Service → Service) : (s.updService f).holdover = s.holdover := rfl
@[simp] theorem State.updService_events (s : State) (f : Service → Service) : (s.updService f).events = s.events := rfl
@[simp] theorem State.updService_eventsRaised (s : State) (f : Service → Service) : (s.updService f).eventsRaised = s.eventsRaised := rfl
@[simp] theorem State.updService_statusFlags (s : State) (f : Service → Service) : (s.updService f).statusFlags = s.statusFlags := rfl
@[simp] theorem State.updService_flagEvents (s : State) (f : Service → Service) : (s.updService f).flagEvents = s.flagEvents := rfl
@[simp] theorem State.updService_defaulted (s : State) (f : Service → Service) : (s.updService f).defaulted = s.defaulted := rfl
@[simp] theorem State.updService_lostObjects (s : State) (f : Service → Service) : (s.updService f).lostObjects = s.lostObjects := rfl
@[simp] theorem State.updService_counters (s : State) (f : Service → Service) : (s.updService f).counters = s.counters := rfl
@[simp] theorem State.updService_slotPins (s : State) (f : Service → Service) : (s.updService f).slotPins = s.slotPins := rfl
@[simp] theorem State.updService_slotId (s : State) (f : Service → Service) : (s.updService f).slotId = s.slotId := rfl
@[simp] theorem State.updService_coordinatorSilent (s : State) (f : Service → Service) : (s.updService f).coordinatorSilent = s.coordinatorSilent := rfl
@[simp] theorem State.updService_earlyJoins (s : State) (f : Service → Service) : (s.updService f).earlyJoins = s.earlyJoins := rfl
@[simp] theorem State.updService_responses (s : State) (f : Service → Service) : (s.updService f).responses = s.responses := rfl

/-! ### updSec -/

@[simp] theorem State.updSec_now (s : State) (f : Security → Security) : (s.updSec f).now = s.now := rfl
@[simp] theorem State.updSec_fresh (s : State) (f : Security → Security) : (s.updSec f).fresh = s.fresh := rfl
@[simp] theorem State.updSec_pending (s : State) (f : Security → Security) : (s.updSec f).pending = s.pending := rfl
@[simp] theorem State.updSec_squares (s : State) (f : Security → Security) : (s.updSec f).squares = s.squares := rfl
@[simp] theorem State.updSec_phys (s : State) (f : Security → Security) : (s.updSec f).phys = s.phys := rfl
@[simp] theorem State.updSec_parts (s : State) (f : Security → Security) : (s.updSec f).parts = s.parts := rfl
@[simp] theorem State.updSec_fabric (s : State) (f : Security → Security) : (s.updSec f).fabric = s.fabric := rfl
@[simp] theorem State.updSec_links (s : State) (f : Security → Security) : (s.updSec f).links = s.links := rfl
@[simp] theorem State.updSec_groups (s : State) (f : Security → Security) : (s.updSec f).groups = s.groups := rfl
@[simp] theorem State.updSec_aslet (s : State) (f : Security → Security) : (s.updSec f).aslet = s.aslet := rfl
@[simp] theorem State.updSec_dram (s : State) (f : Security → Security) : (s.updSec f).dram = s.dram := rfl
@[simp] theorem State.updSec_power (s : State) (f : Security → Security) : (s.updSec f).power = s.power := rfl
@[simp] theorem State.updSec_thermal (s : State) (f : Security → Security) : (s.updSec f).thermal = s.thermal := rfl
@[simp] theorem State.updSec_service (s : State) (f : Security → Security) : (s.updSec f).service = s.service := rfl
@[simp] theorem State.updSec_timeSource (s : State) (f : Security → Security) : (s.updSec f).timeSource = s.timeSource := rfl
@[simp] theorem State.updSec_holdover (s : State) (f : Security → Security) : (s.updSec f).holdover = s.holdover := rfl
@[simp] theorem State.updSec_events (s : State) (f : Security → Security) : (s.updSec f).events = s.events := rfl
@[simp] theorem State.updSec_eventsRaised (s : State) (f : Security → Security) : (s.updSec f).eventsRaised = s.eventsRaised := rfl
@[simp] theorem State.updSec_statusFlags (s : State) (f : Security → Security) : (s.updSec f).statusFlags = s.statusFlags := rfl
@[simp] theorem State.updSec_flagEvents (s : State) (f : Security → Security) : (s.updSec f).flagEvents = s.flagEvents := rfl
@[simp] theorem State.updSec_defaulted (s : State) (f : Security → Security) : (s.updSec f).defaulted = s.defaulted := rfl
@[simp] theorem State.updSec_lostObjects (s : State) (f : Security → Security) : (s.updSec f).lostObjects = s.lostObjects := rfl
@[simp] theorem State.updSec_counters (s : State) (f : Security → Security) : (s.updSec f).counters = s.counters := rfl
@[simp] theorem State.updSec_slotPins (s : State) (f : Security → Security) : (s.updSec f).slotPins = s.slotPins := rfl
@[simp] theorem State.updSec_slotId (s : State) (f : Security → Security) : (s.updSec f).slotId = s.slotId := rfl
@[simp] theorem State.updSec_coordinatorSilent (s : State) (f : Security → Security) : (s.updSec f).coordinatorSilent = s.coordinatorSilent := rfl
@[simp] theorem State.updSec_earlyJoins (s : State) (f : Security → Security) : (s.updSec f).earlyJoins = s.earlyJoins := rfl
@[simp] theorem State.updSec_responses (s : State) (f : Security → Security) : (s.updSec f).responses = s.responses := rfl

/-! ### count -/

@[simp] theorem State.count_now (s : State) (k : Nat) : (s.count k).now = s.now := rfl
@[simp] theorem State.count_fresh (s : State) (k : Nat) : (s.count k).fresh = s.fresh := rfl
@[simp] theorem State.count_pending (s : State) (k : Nat) : (s.count k).pending = s.pending := rfl
@[simp] theorem State.count_squares (s : State) (k : Nat) : (s.count k).squares = s.squares := rfl
@[simp] theorem State.count_phys (s : State) (k : Nat) : (s.count k).phys = s.phys := rfl
@[simp] theorem State.count_parts (s : State) (k : Nat) : (s.count k).parts = s.parts := rfl
@[simp] theorem State.count_fabric (s : State) (k : Nat) : (s.count k).fabric = s.fabric := rfl
@[simp] theorem State.count_links (s : State) (k : Nat) : (s.count k).links = s.links := rfl
@[simp] theorem State.count_groups (s : State) (k : Nat) : (s.count k).groups = s.groups := rfl
@[simp] theorem State.count_aslet (s : State) (k : Nat) : (s.count k).aslet = s.aslet := rfl
@[simp] theorem State.count_dram (s : State) (k : Nat) : (s.count k).dram = s.dram := rfl
@[simp] theorem State.count_sec (s : State) (k : Nat) : (s.count k).sec = s.sec := rfl
@[simp] theorem State.count_power (s : State) (k : Nat) : (s.count k).power = s.power := rfl
@[simp] theorem State.count_thermal (s : State) (k : Nat) : (s.count k).thermal = s.thermal := rfl
@[simp] theorem State.count_service (s : State) (k : Nat) : (s.count k).service = s.service := rfl
@[simp] theorem State.count_timeSource (s : State) (k : Nat) : (s.count k).timeSource = s.timeSource := rfl
@[simp] theorem State.count_holdover (s : State) (k : Nat) : (s.count k).holdover = s.holdover := rfl
@[simp] theorem State.count_events (s : State) (k : Nat) : (s.count k).events = s.events := rfl
@[simp] theorem State.count_eventsRaised (s : State) (k : Nat) : (s.count k).eventsRaised = s.eventsRaised := rfl
@[simp] theorem State.count_statusFlags (s : State) (k : Nat) : (s.count k).statusFlags = s.statusFlags := rfl
@[simp] theorem State.count_flagEvents (s : State) (k : Nat) : (s.count k).flagEvents = s.flagEvents := rfl
@[simp] theorem State.count_defaulted (s : State) (k : Nat) : (s.count k).defaulted = s.defaulted := rfl
@[simp] theorem State.count_lostObjects (s : State) (k : Nat) : (s.count k).lostObjects = s.lostObjects := rfl
@[simp] theorem State.count_slotPins (s : State) (k : Nat) : (s.count k).slotPins = s.slotPins := rfl
@[simp] theorem State.count_slotId (s : State) (k : Nat) : (s.count k).slotId = s.slotId := rfl
@[simp] theorem State.count_coordinatorSilent (s : State) (k : Nat) : (s.count k).coordinatorSilent = s.coordinatorSilent := rfl
@[simp] theorem State.count_earlyJoins (s : State) (k : Nat) : (s.count k).earlyJoins = s.earlyJoins := rfl
@[simp] theorem State.count_responses (s : State) (k : Nat) : (s.count k).responses = s.responses := rfl

/-! ### setFlag -/

@[simp] theorem State.setFlag_now (s : State) (b : Nat) : (s.setFlag b).now = s.now := rfl
@[simp] theorem State.setFlag_fresh (s : State) (b : Nat) : (s.setFlag b).fresh = s.fresh := rfl
@[simp] theorem State.setFlag_pending (s : State) (b : Nat) : (s.setFlag b).pending = s.pending := rfl
@[simp] theorem State.setFlag_squares (s : State) (b : Nat) : (s.setFlag b).squares = s.squares := rfl
@[simp] theorem State.setFlag_phys (s : State) (b : Nat) : (s.setFlag b).phys = s.phys := rfl
@[simp] theorem State.setFlag_parts (s : State) (b : Nat) : (s.setFlag b).parts = s.parts := rfl
@[simp] theorem State.setFlag_fabric (s : State) (b : Nat) : (s.setFlag b).fabric = s.fabric := rfl
@[simp] theorem State.setFlag_links (s : State) (b : Nat) : (s.setFlag b).links = s.links := rfl
@[simp] theorem State.setFlag_groups (s : State) (b : Nat) : (s.setFlag b).groups = s.groups := rfl
@[simp] theorem State.setFlag_aslet (s : State) (b : Nat) : (s.setFlag b).aslet = s.aslet := rfl
@[simp] theorem State.setFlag_dram (s : State) (b : Nat) : (s.setFlag b).dram = s.dram := rfl
@[simp] theorem State.setFlag_sec (s : State) (b : Nat) : (s.setFlag b).sec = s.sec := rfl
@[simp] theorem State.setFlag_power (s : State) (b : Nat) : (s.setFlag b).power = s.power := rfl
@[simp] theorem State.setFlag_thermal (s : State) (b : Nat) : (s.setFlag b).thermal = s.thermal := rfl
@[simp] theorem State.setFlag_service (s : State) (b : Nat) : (s.setFlag b).service = s.service := rfl
@[simp] theorem State.setFlag_timeSource (s : State) (b : Nat) : (s.setFlag b).timeSource = s.timeSource := rfl
@[simp] theorem State.setFlag_holdover (s : State) (b : Nat) : (s.setFlag b).holdover = s.holdover := rfl
@[simp] theorem State.setFlag_events (s : State) (b : Nat) : (s.setFlag b).events = s.events := rfl
@[simp] theorem State.setFlag_eventsRaised (s : State) (b : Nat) : (s.setFlag b).eventsRaised = s.eventsRaised := rfl
@[simp] theorem State.setFlag_defaulted (s : State) (b : Nat) : (s.setFlag b).defaulted = s.defaulted := rfl
@[simp] theorem State.setFlag_lostObjects (s : State) (b : Nat) : (s.setFlag b).lostObjects = s.lostObjects := rfl
@[simp] theorem State.setFlag_counters (s : State) (b : Nat) : (s.setFlag b).counters = s.counters := rfl
@[simp] theorem State.setFlag_slotPins (s : State) (b : Nat) : (s.setFlag b).slotPins = s.slotPins := rfl
@[simp] theorem State.setFlag_slotId (s : State) (b : Nat) : (s.setFlag b).slotId = s.slotId := rfl
@[simp] theorem State.setFlag_coordinatorSilent (s : State) (b : Nat) : (s.setFlag b).coordinatorSilent = s.coordinatorSilent := rfl
@[simp] theorem State.setFlag_earlyJoins (s : State) (b : Nat) : (s.setFlag b).earlyJoins = s.earlyJoins := rfl
@[simp] theorem State.setFlag_responses (s : State) (b : Nat) : (s.setFlag b).responses = s.responses := rfl

/-! ### reach -/

@[simp] theorem State.reach_fresh (s : State) (n : Nat) : (s.reach n).fresh = s.fresh := rfl
@[simp] theorem State.reach_pending (s : State) (n : Nat) : (s.reach n).pending = s.pending := rfl
@[simp] theorem State.reach_squares (s : State) (n : Nat) : (s.reach n).squares = s.squares := rfl
@[simp] theorem State.reach_phys (s : State) (n : Nat) : (s.reach n).phys = s.phys := rfl
@[simp] theorem State.reach_parts (s : State) (n : Nat) : (s.reach n).parts = s.parts := rfl
@[simp] theorem State.reach_fabric (s : State) (n : Nat) : (s.reach n).fabric = s.fabric := rfl
@[simp] theorem State.reach_links (s : State) (n : Nat) : (s.reach n).links = s.links := rfl
@[simp] theorem State.reach_groups (s : State) (n : Nat) : (s.reach n).groups = s.groups := rfl
@[simp] theorem State.reach_aslet (s : State) (n : Nat) : (s.reach n).aslet = s.aslet := rfl
@[simp] theorem State.reach_dram (s : State) (n : Nat) : (s.reach n).dram = s.dram := rfl
@[simp] theorem State.reach_sec (s : State) (n : Nat) : (s.reach n).sec = s.sec := rfl
@[simp] theorem State.reach_power (s : State) (n : Nat) : (s.reach n).power = s.power := rfl
@[simp] theorem State.reach_thermal (s : State) (n : Nat) : (s.reach n).thermal = s.thermal := rfl
@[simp] theorem State.reach_service (s : State) (n : Nat) : (s.reach n).service = s.service := rfl
@[simp] theorem State.reach_timeSource (s : State) (n : Nat) : (s.reach n).timeSource = s.timeSource := rfl
@[simp] theorem State.reach_holdover (s : State) (n : Nat) : (s.reach n).holdover = s.holdover := rfl
@[simp] theorem State.reach_events (s : State) (n : Nat) : (s.reach n).events = s.events := rfl
@[simp] theorem State.reach_eventsRaised (s : State) (n : Nat) : (s.reach n).eventsRaised = s.eventsRaised := rfl
@[simp] theorem State.reach_statusFlags (s : State) (n : Nat) : (s.reach n).statusFlags = s.statusFlags := rfl
@[simp] theorem State.reach_flagEvents (s : State) (n : Nat) : (s.reach n).flagEvents = s.flagEvents := rfl
@[simp] theorem State.reach_defaulted (s : State) (n : Nat) : (s.reach n).defaulted = s.defaulted := rfl
@[simp] theorem State.reach_lostObjects (s : State) (n : Nat) : (s.reach n).lostObjects = s.lostObjects := rfl
@[simp] theorem State.reach_counters (s : State) (n : Nat) : (s.reach n).counters = s.counters := rfl
@[simp] theorem State.reach_slotPins (s : State) (n : Nat) : (s.reach n).slotPins = s.slotPins := rfl
@[simp] theorem State.reach_slotId (s : State) (n : Nat) : (s.reach n).slotId = s.slotId := rfl
@[simp] theorem State.reach_coordinatorSilent (s : State) (n : Nat) : (s.reach n).coordinatorSilent = s.coordinatorSilent := rfl
@[simp] theorem State.reach_earlyJoins (s : State) (n : Nat) : (s.reach n).earlyJoins = s.earlyJoins := rfl
@[simp] theorem State.reach_responses (s : State) (n : Nat) : (s.reach n).responses = s.responses := rfl

@[simp] theorem State.updAslet_aslet (s : State) (f : Aslet → Aslet) : (s.updAslet f).aslet = f s.aslet := rfl
@[simp] theorem State.updPower_power (s : State) (f : Power → Power) : (s.updPower f).power = f s.power := rfl
@[simp] theorem State.updThermal_thermal (s : State) (f : Thermal → Thermal) : (s.updThermal f).thermal = f s.thermal := rfl
@[simp] theorem State.updService_service (s : State) (f : Service → Service) : (s.updService f).service = f s.service := rfl
@[simp] theorem State.updSec_sec (s : State) (f : Security → Security) : (s.updSec f).sec = f s.sec := rfl
@[simp] theorem State.reach_now (s : State) (n : Nat) : (s.reach n).now = max s.now n := rfl

/-! ### A unit after an update of a unit -/

theorem State.sq_updSq (s : State) (q k : Nat) (f : Square → Square) :
    (s.updSq q f).sq k = if q = k then f (s.sq q) else s.sq k := Tab.get_upd ..
theorem State.part_updPart (s : State) (p k : Nat) (f : Partition → Partition) :
    (s.updPart p f).part k = if p = k then f (s.part p) else s.part k := Tab.get_upd ..
theorem State.link_updLink (s : State) (l k : Nat) (f : Link → Link) :
    (s.updLink l f).link k = if l = k then f (s.link l) else s.link k := Tab.get_upd ..
theorem State.group_updGroup (s : State) (g k : Nat) (f : LinkGroup → LinkGroup) :
    (s.updGroup g f).group k = if g = k then f (s.group g) else s.group k := Tab.get_upd ..
theorem State.physSq_updPhys (s : State) (q k : Nat) (f : Phys → Phys) :
    (s.updPhys q f).physSq k = if q = k then f (s.physSq q) else s.physSq k := Tab.get_upd ..
theorem State.stack_updStack (s : State) (n k : Nat) (f : Stack → Stack) :
    (s.updStack n f).stack k = if n = k then f (s.stack n) else s.stack k := Tab.get_put ..
theorem State.memDie_updMemDie (s : State) (d k : Nat) (f : MemDie → MemDie) :
    (s.updMemDie d f).memDie k = if d = k then f (s.memDie d) else s.memDie k := Tab.get_upd ..

@[simp] theorem State.sq_updSq_same (s : State) (q : Nat) (f : Square → Square) : (s.updSq q f).sq q = f (s.sq q) :=
  Tab.get_upd_same ..
@[simp] theorem State.part_updPart_same (s : State) (p : Nat) (f : Partition → Partition) :
    (s.updPart p f).part p = f (s.part p) := Tab.get_upd_same ..
@[simp] theorem State.link_updLink_same (s : State) (l : Nat) (f : Link → Link) : (s.updLink l f).link l = f (s.link l) :=
  Tab.get_upd_same ..
@[simp] theorem State.memDie_updMemDie_same (s : State) (d : Nat) (f : MemDie → MemDie) :
    (s.updMemDie d f).memDie d = f (s.memDie d) := Tab.get_upd_same ..
@[simp] theorem State.stack_updStack_same (s : State) (n : Nat) (f : Stack → Stack) :
    (s.updStack n f).stack n = f (s.stack n) := Tab.get_upd_same ..

theorem State.entry_updEntry (s : State) (q e k : Nat) (f : Entry → Entry) :
    (s.updEntry q e f).entry q k = if e = k then f (s.entry q e) else s.entry q k := by
  simp only [State.updEntry, State.entry, Square.updEntry, Square.entry, State.sq_updSq_same, Tab.get_upd]
theorem State.player_updPlayer (s : State) (q n k : Nat) (f : Player → Player) :
    (s.updPlayer q n f).player q k = if n = k then f (s.player q n) else s.player q k := by
  simp only [State.updPlayer, State.player, Square.updPlayer, Square.player, State.sq_updSq_same, Tab.get_upd]

/-! ### Responses and events

They touch the carrier, the sessions, the response list, the counters and flags of lost events, and the history; nothing else.
-/

theorem SameCore.refl (s : State) : SameCore s s := by simp [SameCore]

theorem SameCore.trans {s t u : State} (h : SameCore s t) (k : SameCore t u) : SameCore s u := by
  unfold SameCore at *
  simp_all

theorem State.updSession_core (s : State) (n : Nat) (f : Session → Session) : SameCore s (s.updSession n f) := by
  unfold State.updSession
  split <;> simp [SameCore, State.putSession]

theorem State.putFrame_core (s : State) (f : Response) (x : Option Session) : SameCore s (s.putFrame f x) := by
  unfold State.putFrame
  dsimp only
  split <;> simp [SameCore]

theorem State.sendFrame_core (s : State) (n : Option Nat) (f : Response) : SameCore s (s.sendFrame n f) := by
  unfold State.sendFrame
  split
  · exact State.putFrame_core ..
  · exact (State.putFrame_core ..).trans (State.updSession_core ..)

theorem State.deliver_core (s : State) (e : Event) (n : Nat) : SameCore s (s.deliver e n) := by
  unfold State.deliver
  split
  · exact SameCore.refl s
  · dsimp only
    split
    · refine SameCore.trans ?_ (State.sendFrame_core ..)
      refine SameCore.trans ?_ (State.updSession_core ..)
      split
      · exact SameCore.refl s
      · exact (State.updSession_core ..).trans (State.sendFrame_core ..)
    · refine (State.updSession_core s n (fun y => { y with lost := y.lost + 1 })).trans ?_
      simp [SameCore]

theorem SameCore.foldl {α : Type} {f : State → α → State} (l : List α) {s t : State} (hf : ∀ u x, SameCore u (f u x))
    (h : SameCore s t) : SameCore s (l.foldl f t) := by
  induction l generalizing t with
  | nil => exact h
  | cons x r ih => exact ih (h.trans (hf t x))

/-- An event changes the history, its count, the sessions and what they are sent, and nothing else. -/
theorem State.raise_core (s : State) (cls detail : Nat) (part : Option Nat) (loc : List (LocKind × Nat)) (arg : List Nat) :
    SameCore s (s.raise cls detail part loc arg) := by
  unfold State.raise
  refine SameCore.foldl _ (fun u x => ?_) (by simp [SameCore])
  split
  · exact State.deliver_core ..
  · exact SameCore.refl u

@[simp] theorem State.raise_now (s : State) (c d : Nat) (p : Option Nat) (l : List (LocKind × Nat)) (a : List Nat) :
    (s.raise c d p l a).now = s.now := by have h := State.raise_core s c d p l a; unfold SameCore at h; simp [h]
@[simp] theorem State.raise_fresh (s : State) (c d : Nat) (p : Option Nat) (l : List (LocKind × Nat)) (a : List Nat) :
    (s.raise c d p l a).fresh = s.fresh := by have h := State.raise_core s c d p l a; unfold SameCore at h; simp [h]
@[simp] theorem State.raise_pending (s : State) (c d : Nat) (p : Option Nat) (l : List (LocKind × Nat)) (a : List Nat) :
    (s.raise c d p l a).pending = s.pending := by have h := State.raise_core s c d p l a; unfold SameCore at h; simp [h]
@[simp] theorem State.raise_squares (s : State) (c d : Nat) (p : Option Nat) (l : List (LocKind × Nat)) (a : List Nat) :
    (s.raise c d p l a).squares = s.squares := by have h := State.raise_core s c d p l a; unfold SameCore at h; simp [h]
@[simp] theorem State.raise_phys (s : State) (c d : Nat) (p : Option Nat) (l : List (LocKind × Nat)) (a : List Nat) :
    (s.raise c d p l a).phys = s.phys := by have h := State.raise_core s c d p l a; unfold SameCore at h; simp [h]
@[simp] theorem State.raise_parts (s : State) (c d : Nat) (p : Option Nat) (l : List (LocKind × Nat)) (a : List Nat) :
    (s.raise c d p l a).parts = s.parts := by have h := State.raise_core s c d p l a; unfold SameCore at h; simp [h]
@[simp] theorem State.raise_fabric (s : State) (c d : Nat) (p : Option Nat) (l : List (LocKind × Nat)) (a : List Nat) :
    (s.raise c d p l a).fabric = s.fabric := by have h := State.raise_core s c d p l a; unfold SameCore at h; simp [h]
@[simp] theorem State.raise_links (s : State) (c d : Nat) (p : Option Nat) (l : List (LocKind × Nat)) (a : List Nat) :
    (s.raise c d p l a).links = s.links := by have h := State.raise_core s c d p l a; unfold SameCore at h; simp [h]
@[simp] theorem State.raise_groups (s : State) (c d : Nat) (p : Option Nat) (l : List (LocKind × Nat)) (a : List Nat) :
    (s.raise c d p l a).groups = s.groups := by have h := State.raise_core s c d p l a; unfold SameCore at h; simp [h]
@[simp] theorem State.raise_dram (s : State) (c d : Nat) (p : Option Nat) (l : List (LocKind × Nat)) (a : List Nat) :
    (s.raise c d p l a).dram = s.dram := by have h := State.raise_core s c d p l a; unfold SameCore at h; simp [h]
@[simp] theorem State.raise_power (s : State) (c d : Nat) (p : Option Nat) (l : List (LocKind × Nat)) (a : List Nat) :
    (s.raise c d p l a).power = s.power := by have h := State.raise_core s c d p l a; unfold SameCore at h; simp [h]
@[simp] theorem State.raise_thermal (s : State) (c d : Nat) (p : Option Nat) (l : List (LocKind × Nat)) (a : List Nat) :
    (s.raise c d p l a).thermal = s.thermal := by have h := State.raise_core s c d p l a; unfold SameCore at h; simp [h]
@[simp] theorem State.raise_service (s : State) (c d : Nat) (p : Option Nat) (l : List (LocKind × Nat)) (a : List Nat) :
    (s.raise c d p l a).service = s.service := by have h := State.raise_core s c d p l a; unfold SameCore at h; simp [h]
@[simp] theorem State.raise_timeSource (s : State) (c d : Nat) (p : Option Nat) (l : List (LocKind × Nat)) (a : List Nat) :
    (s.raise c d p l a).timeSource = s.timeSource := by have h := State.raise_core s c d p l a; unfold SameCore at h; simp [h]
@[simp] theorem State.raise_holdover (s : State) (c d : Nat) (p : Option Nat) (l : List (LocKind × Nat)) (a : List Nat) :
    (s.raise c d p l a).holdover = s.holdover := by have h := State.raise_core s c d p l a; unfold SameCore at h; simp [h]
@[simp] theorem State.raise_defaulted (s : State) (c d : Nat) (p : Option Nat) (l : List (LocKind × Nat)) (a : List Nat) :
    (s.raise c d p l a).defaulted = s.defaulted := by have h := State.raise_core s c d p l a; unfold SameCore at h; simp [h]
@[simp] theorem State.raise_lostObjects (s : State) (c d : Nat) (p : Option Nat) (l : List (LocKind × Nat)) (a : List Nat) :
    (s.raise c d p l a).lostObjects = s.lostObjects := by have h := State.raise_core s c d p l a; unfold SameCore at h; simp [h]
@[simp] theorem State.raise_slotPins (s : State) (c d : Nat) (p : Option Nat) (l : List (LocKind × Nat)) (a : List Nat) :
    (s.raise c d p l a).slotPins = s.slotPins := by have h := State.raise_core s c d p l a; unfold SameCore at h; simp [h]
@[simp] theorem State.raise_slotId (s : State) (c d : Nat) (p : Option Nat) (l : List (LocKind × Nat)) (a : List Nat) :
    (s.raise c d p l a).slotId = s.slotId := by have h := State.raise_core s c d p l a; unfold SameCore at h; simp [h]
@[simp] theorem State.raise_coordinatorSilent (s : State) (c d : Nat) (p : Option Nat) (l : List (LocKind × Nat)) (a : List Nat) :
    (s.raise c d p l a).coordinatorSilent = s.coordinatorSilent := by have h := State.raise_core s c d p l a; unfold SameCore at h; simp [h]
@[simp] theorem State.raise_earlyJoins (s : State) (c d : Nat) (p : Option Nat) (l : List (LocKind × Nat)) (a : List Nat) :
    (s.raise c d p l a).earlyJoins = s.earlyJoins := by have h := State.raise_core s c d p l a; unfold SameCore at h; simp [h]
/-- A response leaves what an event leaves. -/
theorem State.answer_core (s : State) (r : Req) (kind code : Nat) (v : List Byte) : SameCore s (s.answer r kind code v) := by
  unfold State.answer
  dsimp only
  split
  · exact State.sendFrame_core ..
  · exact (State.sendFrame_core ..).trans (State.updSession_core ..)

theorem State.reply_core (s : State) (r : Req) (code : Nat) : SameCore s (s.reply r code) := State.answer_core ..
@[simp] theorem State.reply_now (s : State) (r : Req) (c : Nat) : (s.reply r c).now = s.now := by
  have h := State.reply_core s r c; unfold SameCore at h; simp [h]
@[simp] theorem State.reply_fresh (s : State) (r : Req) (c : Nat) : (s.reply r c).fresh = s.fresh := by
  have h := State.reply_core s r c; unfold SameCore at h; simp [h]
@[simp] theorem State.reply_pending (s : State) (r : Req) (c : Nat) : (s.reply r c).pending = s.pending := by
  have h := State.reply_core s r c; unfold SameCore at h; simp [h]
@[simp] theorem State.reply_squares (s : State) (r : Req) (c : Nat) : (s.reply r c).squares = s.squares := by
  have h := State.reply_core s r c; unfold SameCore at h; simp [h]
@[simp] theorem State.reply_phys (s : State) (r : Req) (c : Nat) : (s.reply r c).phys = s.phys := by
  have h := State.reply_core s r c; unfold SameCore at h; simp [h]
@[simp] theorem State.reply_parts (s : State) (r : Req) (c : Nat) : (s.reply r c).parts = s.parts := by
  have h := State.reply_core s r c; unfold SameCore at h; simp [h]
@[simp] theorem State.reply_fabric (s : State) (r : Req) (c : Nat) : (s.reply r c).fabric = s.fabric := by
  have h := State.reply_core s r c; unfold SameCore at h; simp [h]
@[simp] theorem State.reply_links (s : State) (r : Req) (c : Nat) : (s.reply r c).links = s.links := by
  have h := State.reply_core s r c; unfold SameCore at h; simp [h]
@[simp] theorem State.reply_groups (s : State) (r : Req) (c : Nat) : (s.reply r c).groups = s.groups := by
  have h := State.reply_core s r c; unfold SameCore at h; simp [h]
@[simp] theorem State.reply_dram (s : State) (r : Req) (c : Nat) : (s.reply r c).dram = s.dram := by
  have h := State.reply_core s r c; unfold SameCore at h; simp [h]
@[simp] theorem State.reply_power (s : State) (r : Req) (c : Nat) : (s.reply r c).power = s.power := by
  have h := State.reply_core s r c; unfold SameCore at h; simp [h]
@[simp] theorem State.reply_thermal (s : State) (r : Req) (c : Nat) : (s.reply r c).thermal = s.thermal := by
  have h := State.reply_core s r c; unfold SameCore at h; simp [h]
@[simp] theorem State.reply_service (s : State) (r : Req) (c : Nat) : (s.reply r c).service = s.service := by
  have h := State.reply_core s r c; unfold SameCore at h; simp [h]
@[simp] theorem State.reply_timeSource (s : State) (r : Req) (c : Nat) : (s.reply r c).timeSource = s.timeSource := by
  have h := State.reply_core s r c; unfold SameCore at h; simp [h]
@[simp] theorem State.reply_holdover (s : State) (r : Req) (c : Nat) : (s.reply r c).holdover = s.holdover := by
  have h := State.reply_core s r c; unfold SameCore at h; simp [h]
@[simp] theorem State.reply_defaulted (s : State) (r : Req) (c : Nat) : (s.reply r c).defaulted = s.defaulted := by
  have h := State.reply_core s r c; unfold SameCore at h; simp [h]
@[simp] theorem State.reply_lostObjects (s : State) (r : Req) (c : Nat) : (s.reply r c).lostObjects = s.lostObjects := by
  have h := State.reply_core s r c; unfold SameCore at h; simp [h]
@[simp] theorem State.reply_slotPins (s : State) (r : Req) (c : Nat) : (s.reply r c).slotPins = s.slotPins := by
  have h := State.reply_core s r c; unfold SameCore at h; simp [h]
@[simp] theorem State.reply_slotId (s : State) (r : Req) (c : Nat) : (s.reply r c).slotId = s.slotId := by
  have h := State.reply_core s r c; unfold SameCore at h; simp [h]
@[simp] theorem State.reply_coordinatorSilent (s : State) (r : Req) (c : Nat) : (s.reply r c).coordinatorSilent = s.coordinatorSilent := by
  have h := State.reply_core s r c; unfold SameCore at h; simp [h]
@[simp] theorem State.reply_earlyJoins (s : State) (r : Req) (c : Nat) : (s.reply r c).earlyJoins = s.earlyJoins := by
  have h := State.reply_core s r c; unfold SameCore at h; simp [h]

/-! ### The history -/

@[simp] theorem State.updSession_events (s : State) (n : Nat) (f : Session → Session) : (s.updSession n f).events = s.events := by
  unfold State.updSession
  split <;> rfl

@[simp] theorem State.putFrame_events (s : State) (f : Response) (x : Option Session) : (s.putFrame f x).events = s.events := by
  unfold State.putFrame
  dsimp only
  split <;> rfl

@[simp] theorem State.sendFrame_events (s : State) (n : Option Nat) (f : Response) : (s.sendFrame n f).events = s.events := by
  unfold State.sendFrame
  split <;> simp

@[simp] theorem State.reply_events (s : State) (r : Req) (c : Nat) : (s.reply r c).events = s.events := by
  unfold State.reply State.answer
  dsimp only
  split <;> simp

@[simp] theorem State.deliver_events (s : State) (e : Event) (n : Nat) : (s.deliver e n).events = s.events := by
  unfold State.deliver
  split
  · rfl
  · dsimp only
    split
    · rw [State.sendEvent, State.sendFrame_events, State.updSession_events]
      split
      · rfl
      · rw [State.sendEvent, State.sendFrame_events, State.updSession_events]
    · simp

/-- An event is the newest record of the history. -/
theorem State.raise_events (s : State) (cls detail : Nat) (part : Option Nat) (loc : List (LocKind × Nat)) (arg : List Nat) :
    (s.raise cls detail part loc arg).events =
      withEvent s.events { time := s.now, cls := cls, detail := detail, part := part, loc := loc, arg := arg } := by
  have key : ∀ (k : List Nat) (u : State) (f : State → Nat → State), (∀ v n, (f v n).events = v.events) →
      (k.foldl f u).events = u.events := by
    intro k
    induction k with
    | nil => exact fun _ _ _ => rfl
    | cons n r ih => intro u f hf; rw [List.foldl_cons, ih _ f hf, hf]
  unfold State.raise withEvent
  dsimp only
  rw [key]
  intro v n
  split <;> simp

/-! ### Write commands -/

/-- What receiving a frame changes: the carrier, the sessions, the responses, counters. -/
theorem State.admitFrame_core (s : State) (r : Req) (kind : Nat) : SameCore s (s.admitFrame r kind).1 := by
  unfold State.admitFrame
  split
  · exact SameCore.refl s
  split
  · exact SameCore.refl s
  next t ht =>
    have h1 : SameCore s t := by
      unfold State.takeFrame at ht
      split at ht
      · cases ht
        split
        · simp [SameCore]
        · exact SameCore.refl _
      · split at ht
        · cases ht
        · split at ht
          · cases ht; simp [SameCore]
          · cases ht
    split
    · exact h1
    split
    · exact h1.trans (by simp [SameCore])
    split
    · exact h1.trans (by simp [SameCore])
    · dsimp only
      split
      · exact h1.trans ((State.updSession_core ..).trans (State.sendFrame_core ..))
      · exact h1.trans (State.updSession_core ..)

/-- A write command whose frame is received, whose form is good and whose own conditions hold has its effect. -/
theorem State.command_runs {s t : State} {r : Req} {chk : State → Nat} {act : State → State} (hw : s.writing r = none)
    (ha : s.admitFrame r kWrite = (t, true)) (hf : t.judgeForm r true r.payload.length = 0) (hc : chk t = 0) :
    s.command r chk act = act t := by
  unfold State.command
  rw [hw]
  dsimp only
  rw [ha]
  simp [State.judged, hf, hc]

theorem State.commandWith_runs {s t : State} {r : Req} {chk : Req → State → Nat} {act : Req → State → State}
    (hw : s.writing r = none) (ha : s.admitFrame r kWrite = (t, true)) (hf : t.judgeForm r true r.payload.length = 0)
    (hc : chk r t = 0) : s.commandWith r chk act = act r t := by
  unfold State.commandWith
  rw [hw]
  exact State.command_runs hw ha hf hc

end Sys2Proof.Machine
end

