-- ==== Sys2Proof/Laws/Issue.lean ====
section
/-!
SUPPORT. Issue (R89): what an attempt does where the record may issue, and what it takes.
-/

namespace Sys2Proof.Machine

open Sys2Proof

/-- Where the record may issue and its checks pass, the attempt is the operation's action. -/
theorem State.attempt_acts {s : State} {q pl : Nat} {r : Rec} {opcode : Nat} {pre : Rec → Nat}
    {chk : State → Rec → Option IssueFault} {act : State → Rec → State} (h : IssuesNow s q pl r opcode) (hp : pre r = 0)
    (hc : chk (s.takeWaits q pl r) r = none) : s.attempt q pl opcode pre chk act = act (s.taken q pl r) r := by
  obtain ⟨_, _, h1, h2, h3, h4, h5⟩ := h
  unfold State.attempt
  rw [h1]
  simp only [h2, ne_eq, not_true_eq_false, if_false, h3, Bool.not_true, Bool.false_eq_true, hp, h4, h5, hc]
  rfl

theorem playerOp_acts {s : State} {q pl : Nat} {r : Rec} {opcode : Nat} {pre : Rec → Nat}
    {chk : State → Rec → Option IssueFault} {act : State → Rec → State} (h : IssuesNow s q pl r opcode) (hp : pre r = 0)
    (hc : chk (s.takeWaits q pl r) r = none) : playerOp s q pl opcode pre chk act = .next (act (s.taken q pl r) r) := by
  have hk : playerOk q pl = true := by simp [playerOk, h.1, h.2.1]
  simp only [playerOp, onUnit, hk, if_true, State.attempt_acts h hp hc]

end Sys2Proof.Machine
end

