-- ==== Sys2Proof/Laws/Units.lean ====
section
/-!
SUPPORT. Reading one unit after an update of another: nothing has changed.
-/

namespace Sys2Proof.Machine

open Sys2Proof

/-! ### updSq -/

@[simp] theorem State.updSq_part (s : State) (q : Nat) (f : Square → Square) (k : Nat) : (s.updSq q f).part k = s.part k := rfl
@[simp] theorem State.updSq_link (s : State) (q : Nat) (f : Square → Square) (k : Nat) : (s.updSq q f).link k = s.link k := rfl
@[simp] theorem State.updSq_group (s : State) (q : Nat) (f : Square → Square) (k : Nat) : (s.updSq q f).group k = s.group k := rfl
@[simp] theorem State.updSq_physSq (s : State) (q : Nat) (f : Square → Square) (k : Nat) : (s.updSq q f).physSq k = s.physSq k := rfl
@[simp] theorem State.updSq_stack (s : State) (q : Nat) (f : Square → Square) (k : Nat) : (s.updSq q f).stack k = s.stack k := rfl
@[simp] theorem State.updSq_memDie (s : State) (q : Nat) (f : Square → Square) (k : Nat) : (s.updSq q f).memDie k = s.memDie k := rfl
@[simp] theorem State.updSq_session (s : State) (q : Nat) (f : Square → Square) (k : Nat) : (s.updSq q f).session k = s.session k := rfl

/-! ### updPart -/

@[simp] theorem State.updPart_sq (s : State) (p : Nat) (f : Partition → Partition) (k : Nat) : (s.updPart p f).sq k = s.sq k := rfl
@[simp] theorem State.updPart_owner (s : State) (p : Nat) (f : Partition → Partition) (k : Nat) : (s.updPart p f).owner k = s.owner k := rfl
@[simp] theorem State.updPart_link (s : State) (p : Nat) (f : Partition → Partition) (k : Nat) : (s.updPart p f).link k = s.link k := rfl
@[simp] theorem State.updPart_group (s : State) (p : Nat) (f : Partition → Partition) (k : Nat) : (s.updPart p f).group k = s.group k := rfl
@[simp] theorem State.updPart_physSq (s : State) (p : Nat) (f : Partition → Partition) (k : Nat) : (s.updPart p f).physSq k = s.physSq k := rfl
@[simp] theorem State.updPart_stack (s : State) (p : Nat) (f : Partition → Partition) (k : Nat) : (s.updPart p f).stack k = s.stack k := rfl
@[simp] theorem State.updPart_memDie (s : State) (p : Nat) (f : Partition → Partition) (k : Nat) : (s.updPart p f).memDie k = s.memDie k := rfl
@[simp] theorem State.updPart_session (s : State) (p : Nat) (f : Partition → Partition) (k : Nat) : (s.updPart p f).session k = s.session k := rfl
@[simp] theorem State.updPart_entry (s : State) (p : Nat) (f : Partition → Partition) (k j : Nat) : (s.updPart p f).entry k j = s.entry k j := rfl
@[simp] theorem State.updPart_player (s : State) (p : Nat) (f : Partition → Partition) (k j : Nat) : (s.updPart p f).player k j = s.player k j := rfl

/-! ### updLink -/

@[simp] theorem State.updLink_sq (s : State) (l : Nat) (f : Link → Link) (k : Nat) : (s.updLink l f).sq k = s.sq k := rfl
@[simp] theorem State.updLink_owner (s : State) (l : Nat) (f : Link → Link) (k : Nat) : (s.updLink l f).owner k = s.owner k := rfl
@[simp] theorem State.updLink_part (s : State) (l : Nat) (f : Link → Link) (k : Nat) : (s.updLink l f).part k = s.part k := rfl
@[simp] theorem State.updLink_group (s : State) (l : Nat) (f : Link → Link) (k : Nat) : (s.updLink l f).group k = s.group k := rfl
@[simp] theorem State.updLink_physSq (s : State) (l : Nat) (f : Link → Link) (k : Nat) : (s.updLink l f).physSq k = s.physSq k := rfl
@[simp] theorem State.updLink_stack (s : State) (l : Nat) (f : Link → Link) (k : Nat) : (s.updLink l f).stack k = s.stack k := rfl
@[simp] theorem State.updLink_memDie (s : State) (l : Nat) (f : Link → Link) (k : Nat) : (s.updLink l f).memDie k = s.memDie k := rfl
@[simp] theorem State.updLink_session (s : State) (l : Nat) (f : Link → Link) (k : Nat) : (s.updLink l f).session k = s.session k := rfl
@[simp] theorem State.updLink_entry (s : State) (l : Nat) (f : Link → Link) (k j : Nat) : (s.updLink l f).entry k j = s.entry k j := rfl
@[simp] theorem State.updLink_player (s : State) (l : Nat) (f : Link → Link) (k j : Nat) : (s.updLink l f).player k j = s.player k j := rfl

/-! ### updGroup -/

@[simp] theorem State.updGroup_sq (s : State) (g : Nat) (f : LinkGroup → LinkGroup) (k : Nat) : (s.updGroup g f).sq k = s.sq k := rfl
@[simp] theorem State.updGroup_owner (s : State) (g : Nat) (f : LinkGroup → LinkGroup) (k : Nat) : (s.updGroup g f).owner k = s.owner k := rfl
@[simp] theorem State.updGroup_part (s : State) (g : Nat) (f : LinkGroup → LinkGroup) (k : Nat) : (s.updGroup g f).part k = s.part k := rfl
@[simp] theorem State.updGroup_link (s : State) (g : Nat) (f : LinkGroup → LinkGroup) (k : Nat) : (s.updGroup g f).link k = s.link k := rfl
@[simp] theorem State.updGroup_physSq (s : State) (g : Nat) (f : LinkGroup → LinkGroup) (k : Nat) : (s.updGroup g f).physSq k = s.physSq k := rfl
@[simp] theorem State.updGroup_stack (s : State) (g : Nat) (f : LinkGroup → LinkGroup) (k : Nat) : (s.updGroup g f).stack k = s.stack k := rfl
@[simp] theorem State.updGroup_memDie (s : State) (g : Nat) (f : LinkGroup → LinkGroup) (k : Nat) : (s.updGroup g f).memDie k = s.memDie k := rfl
@[simp] theorem State.updGroup_session (s : State) (g : Nat) (f : LinkGroup → LinkGroup) (k : Nat) : (s.updGroup g f).session k = s.session k := rfl
@[simp] theorem State.updGroup_entry (s : State) (g : Nat) (f : LinkGroup → LinkGroup) (k j : Nat) : (s.updGroup g f).entry k j = s.entry k j := rfl
@[simp] theorem State.updGroup_player (s : State) (g : Nat) (f : LinkGroup → LinkGroup) (k j : Nat) : (s.updGroup g f).player k j = s.player k j := rfl

/-! ### updPhys -/

@[simp] theorem State.updPhys_sq (s : State) (n : Nat) (f : Phys → Phys) (k : Nat) : (s.updPhys n f).sq k = s.sq k := rfl
@[simp] theorem State.updPhys_owner (s : State) (n : Nat) (f : Phys → Phys) (k : Nat) : (s.updPhys n f).owner k = s.owner k := rfl
@[simp] theorem State.updPhys_part (s : State) (n : Nat) (f : Phys → Phys) (k : Nat) : (s.updPhys n f).part k = s.part k := rfl
@[simp] theorem State.updPhys_link (s : State) (n : Nat) (f : Phys → Phys) (k : Nat) : (s.updPhys n f).link k = s.link k := rfl
@[simp] theorem State.updPhys_group (s : State) (n : Nat) (f : Phys → Phys) (k : Nat) : (s.updPhys n f).group k = s.group k := rfl
@[simp] theorem State.updPhys_stack (s : State) (n : Nat) (f : Phys → Phys) (k : Nat) : (s.updPhys n f).stack k = s.stack k := rfl
@[simp] theorem State.updPhys_memDie (s : State) (n : Nat) (f : Phys → Phys) (k : Nat) : (s.updPhys n f).memDie k = s.memDie k := rfl
@[simp] theorem State.updPhys_session (s : State) (n : Nat) (f : Phys → Phys) (k : Nat) : (s.updPhys n f).session k = s.session k := rfl
@[simp] theorem State.updPhys_entry (s : State) (n : Nat) (f : Phys → Phys) (k j : Nat) : (s.updPhys n f).entry k j = s.entry k j := rfl
@[simp] theorem State.updPhys_player (s : State) (n : Nat) (f : Phys → Phys) (k j : Nat) : (s.updPhys n f).player k j = s.player k j := rfl

/-! ### updStack -/

@[simp] theorem State.updStack_sq (s : State) (n : Nat) (f : Stack → Stack) (k : Nat) : (s.updStack n f).sq k = s.sq k := rfl
@[simp] theorem State.updStack_owner (s : State) (n : Nat) (f : Stack → Stack) (k : Nat) : (s.updStack n f).owner k = s.owner k := rfl
@[simp] theorem State.updStack_part (s : State) (n : Nat) (f : Stack → Stack) (k : Nat) : (s.updStack n f).part k = s.part k := rfl
@[simp] theorem State.updStack_link (s : State) (n : Nat) (f : Stack → Stack) (k : Nat) : (s.updStack n f).link k = s.link k := rfl
@[simp] theorem State.updStack_group (s : State) (n : Nat) (f : Stack → Stack) (k : Nat) : (s.updStack n f).group k = s.group k := rfl
@[simp] theorem State.updStack_physSq (s : State) (n : Nat) (f : Stack → Stack) (k : Nat) : (s.updStack n f).physSq k = s.physSq k := rfl
@[simp] theorem State.updStack_memDie (s : State) (n : Nat) (f : Stack → Stack) (k : Nat) : (s.updStack n f).memDie k = s.memDie k := rfl
@[simp] theorem State.updStack_session (s : State) (n : Nat) (f : Stack → Stack) (k : Nat) : (s.updStack n f).session k = s.session k := rfl
@[simp] theorem State.updStack_entry (s : State) (n : Nat) (f : Stack → Stack) (k j : Nat) : (s.updStack n f).entry k j = s.entry k j := rfl
@[simp] theorem State.updStack_player (s : State) (n : Nat) (f : Stack → Stack) (k j : Nat) : (s.updStack n f).player k j = s.player k j := rfl

/-! ### updMemDie -/

@[simp] theorem State.updMemDie_sq (s : State) (d : Nat) (f : MemDie → MemDie) (k : Nat) : (s.updMemDie d f).sq k = s.sq k := rfl
@[simp] theorem State.updMemDie_owner (s : State) (d : Nat) (f : MemDie → MemDie) (k : Nat) : (s.updMemDie d f).owner k = s.owner k := rfl
@[simp] theorem State.updMemDie_part (s : State) (d : Nat) (f : MemDie → MemDie) (k : Nat) : (s.updMemDie d f).part k = s.part k := rfl
@[simp] theorem State.updMemDie_link (s : State) (d : Nat) (f : MemDie → MemDie) (k : Nat) : (s.updMemDie d f).link k = s.link k := rfl
@[simp] theorem State.updMemDie_group (s : State) (d : Nat) (f : MemDie → MemDie) (k : Nat) : (s.updMemDie d f).group k = s.group k := rfl
@[simp] theorem State.updMemDie_physSq (s : State) (d : Nat) (f : MemDie → MemDie) (k : Nat) : (s.updMemDie d f).physSq k = s.physSq k := rfl
@[simp] theorem State.updMemDie_stack (s : State) (d : Nat) (f : MemDie → MemDie) (k : Nat) : (s.updMemDie d f).stack k = s.stack k := rfl
@[simp] theorem State.updMemDie_session (s : State) (d : Nat) (f : MemDie → MemDie) (k : Nat) : (s.updMemDie d f).session k = s.session k := rfl
@[simp] theorem State.updMemDie_entry (s : State) (d : Nat) (f : MemDie → MemDie) (k j : Nat) : (s.updMemDie d f).entry k j = s.entry k j := rfl
@[simp] theorem State.updMemDie_player (s : State) (d : Nat) (f : MemDie → MemDie) (k j : Nat) : (s.updMemDie d f).player k j = s.player k j := rfl

/-! ### updAslet -/

@[simp] theorem State.updAslet_sq (s : State) (f : Aslet → Aslet) (k : Nat) : (s.updAslet f).sq k = s.sq k := rfl
@[simp] theorem State.updAslet_owner (s : State) (f : Aslet → Aslet) (k : Nat) : (s.updAslet f).owner k = s.owner k := rfl
@[simp] theorem State.updAslet_part (s : State) (f : Aslet → Aslet) (k : Nat) : (s.updAslet f).part k = s.part k := rfl
@[simp] theorem State.updAslet_link (s : State) (f : Aslet → Aslet) (k : Nat) : (s.updAslet f).link k = s.link k := rfl
@[simp] theorem State.updAslet_group (s : State) (f : Aslet → Aslet) (k : Nat) : (s.updAslet f).group k = s.group k := rfl
@[simp] theorem State.updAslet_physSq (s : State) (f : Aslet → Aslet) (k : Nat) : (s.updAslet f).physSq k = s.physSq k := rfl
@[simp] theorem State.updAslet_stack (s : State) (f : Aslet → Aslet) (k : Nat) : (s.updAslet f).stack k = s.stack k := rfl
@[simp] theorem State.updAslet_memDie (s : State) (f : Aslet → Aslet) (k : Nat) : (s.updAslet f).memDie k = s.memDie k := rfl
@[simp] theorem State.updAslet_session (s : State) (f : Aslet → Aslet) (k : Nat) : (s.updAslet f).session k = s.session k := rfl
@[simp] theorem State.updAslet_entry (s : State) (f : Aslet → Aslet) (k j : Nat) : (s.updAslet f).entry k j = s.entry k j := rfl
@[simp] theorem State.updAslet_player (s : State) (f : Aslet → Aslet) (k j : Nat) : (s.updAslet f).player k j = s.player k j := rfl

/-! ### updPower -/

@[simp] theorem State.updPower_sq (s : State) (f : Power → Power) (k : Nat) : (s.updPower f).sq k = s.sq k := rfl
@[simp] theorem State.updPower_owner (s : State) (f : Power → Power) (k : Nat) : (s.updPower f).owner k = s.owner k := rfl
@[simp] theorem State.updPower_part (s : State) (f : Power → Power) (k : Nat) : (s.updPower f).part k = s.part k := rfl
@[simp] theorem State.updPower_link (s : State) (f : Power → Power) (k : Nat) : (s.updPower f).link k = s.link k := rfl
@[simp] theorem State.updPower_group (s : State) (f : Power → Power) (k : Nat) : (s.updPower f).group k = s.group k := rfl
@[simp] theorem State.updPower_physSq (s : State) (f : Power → Power) (k : Nat) : (s.updPower f).physSq k = s.physSq k := rfl
@[simp] theorem State.updPower_stack (s : State) (f : Power → Power) (k : Nat) : (s.updPower f).stack k = s.stack k := rfl
@[simp] theorem State.updPower_memDie (s : State) (f : Power → Power) (k : Nat) : (s.updPower f).memDie k = s.memDie k := rfl
@[simp] theorem State.updPower_session (s : State) (f : Power → Power) (k : Nat) : (s.updPower f).session k = s.session k := rfl
@[simp] theorem State.updPower_entry (s : State) (f : Power → Power) (k j : Nat) : (s.updPower f).entry k j = s.entry k j := rfl
@[simp] theorem State.updPower_player (s : State) (f : Power → Power) (k j : Nat) : (s.updPower f).player k j = s.player k j := rfl

/-! ### updThermal -/

@[simp] theorem State.updThermal_sq (s : State) (f : Thermal → Thermal) (k : Nat) : (s.updThermal f).sq k = s.sq k := rfl
@[simp] theorem State.updThermal_owner (s : State) (f : Thermal → Thermal) (k : Nat) : (s.updThermal f).owner k = s.owner k := rfl
@[simp] theorem State.updThermal_part (s : State) (f : Thermal → Thermal) (k : Nat) : (s.updThermal f).part k = s.part k := rfl
@[simp] theorem State.updThermal_link (s : State) (f : Thermal → Thermal) (k : Nat) : (s.updThermal f).link k = s.link k := rfl
@[simp] theorem State.updThermal_group (s : State) (f : Thermal → Thermal) (k : Nat) : (s.updThermal f).group k = s.group k := rfl
@[simp] theorem State.updThermal_physSq (s : State) (f : Thermal → Thermal) (k : Nat) : (s.updThermal f).physSq k = s.physSq k := rfl
@[simp] theorem State.updThermal_stack (s : State) (f : Thermal → Thermal) (k : Nat) : (s.updThermal f).stack k = s.stack k := rfl
@[simp] theorem State.updThermal_memDie (s : State) (f : Thermal → Thermal) (k : Nat) : (s.updThermal f).memDie k = s.memDie k := rfl
@[simp] theorem State.updThermal_session (s : State) (f : Thermal → Thermal) (k : Nat) : (s.updThermal f).session k = s.session k := rfl
@[simp] theorem State.updThermal_entry (s : State) (f : Thermal → Thermal) (k j : Nat) : (s.updThermal f).entry k j = s.entry k j := rfl
@[simp] theorem State.updThermal_player (s : State) (f : Thermal → Thermal) (k j : Nat) : (s.updThermal f).player k j = s.player k j := rfl

/-! ### updService -/

@[simp] theorem State.updService_sq (s : State) (f : Service → Service) (k : Nat) : (s.updService f).sq k = s.sq k := rfl
@[simp] theorem State.updService_owner (s : State) (f : Service → Service) (k : Nat) : (s.updService f).owner k = s.owner k := rfl
@[simp] theorem State.updService_part (s : State) (f : Service → Service) (k : Nat) : (s.updService f).part k = s.part k := rfl
@[simp] theorem State.updService_link (s : State) (f : Service → Service) (k : Nat) : (s.updService f).link k = s.link k := rfl
@[simp] theorem State.updService_group (s : State) (f : Service → Service) (k : Nat) : (s.updService f).group k = s.group k := rfl
@[simp] theorem State.updService_physSq (s : State) (f : Service → Service) (k : Nat) : (s.updService f).physSq k = s.physSq k := rfl
@[simp] theorem State.updService_stack (s : State) (f : Service → Service) (k : Nat) : (s.updService f).stack k = s.stack k := rfl
@[simp] theorem State.updService_memDie (s : State) (f : Service → Service) (k : Nat) : (s.updService f).memDie k = s.memDie k := rfl
@[simp] theorem State.updService_session (s : State) (f : Service → Service) (k : Nat) : (s.updService f).session k = s.session k := rfl
@[simp] theorem State.updService_entry (s : State) (f : Service → Service) (k j : Nat) : (s.updService f).entry k j = s.entry k j := rfl
@[simp] theorem State.updService_player (s : State) (f : Service → Service) (k j : Nat) : (s.updService f).player k j = s.player k j := rfl

/-! ### updSec -/

@[simp] theorem State.updSec_sq (s : State) (f : Security → Security) (k : Nat) : (s.updSec f).sq k = s.sq k := rfl
@[simp] theorem State.updSec_owner (s : State) (f : Security → Security) (k : Nat) : (s.updSec f).owner k = s.owner k := rfl
@[simp] theorem State.updSec_part (s : State) (f : Security → Security) (k : Nat) : (s.updSec f).part k = s.part k := rfl
@[simp] theorem State.updSec_link (s : State) (f : Security → Security) (k : Nat) : (s.updSec f).link k = s.link k := rfl
@[simp] theorem State.updSec_group (s : State) (f : Security → Security) (k : Nat) : (s.updSec f).group k = s.group k := rfl
@[simp] theorem State.updSec_physSq (s : State) (f : Security → Security) (k : Nat) : (s.updSec f).physSq k = s.physSq k := rfl
@[simp] theorem State.updSec_stack (s : State) (f : Security → Security) (k : Nat) : (s.updSec f).stack k = s.stack k := rfl
@[simp] theorem State.updSec_memDie (s : State) (f : Security → Security) (k : Nat) : (s.updSec f).memDie k = s.memDie k := rfl
@[simp] theorem State.updSec_entry (s : State) (f : Security → Security) (k j : Nat) : (s.updSec f).entry k j = s.entry k j := rfl
@[simp] theorem State.updSec_player (s : State) (f : Security → Security) (k j : Nat) : (s.updSec f).player k j = s.player k j := rfl

/-! ### reach -/

@[simp] theorem State.reach_sq (s : State) (n : Nat) (k : Nat) : (s.reach n).sq k = s.sq k := rfl
@[simp] theorem State.reach_owner (s : State) (n : Nat) (k : Nat) : (s.reach n).owner k = s.owner k := rfl
@[simp] theorem State.reach_part (s : State) (n : Nat) (k : Nat) : (s.reach n).part k = s.part k := rfl
@[simp] theorem State.reach_link (s : State) (n : Nat) (k : Nat) : (s.reach n).link k = s.link k := rfl
@[simp] theorem State.reach_group (s : State) (n : Nat) (k : Nat) : (s.reach n).group k = s.group k := rfl
@[simp] theorem State.reach_physSq (s : State) (n : Nat) (k : Nat) : (s.reach n).physSq k = s.physSq k := rfl
@[simp] theorem State.reach_stack (s : State) (n : Nat) (k : Nat) : (s.reach n).stack k = s.stack k := rfl
@[simp] theorem State.reach_memDie (s : State) (n : Nat) (k : Nat) : (s.reach n).memDie k = s.memDie k := rfl
@[simp] theorem State.reach_session (s : State) (n : Nat) (k : Nat) : (s.reach n).session k = s.session k := rfl
@[simp] theorem State.reach_entry (s : State) (n : Nat) (k j : Nat) : (s.reach n).entry k j = s.entry k j := rfl
@[simp] theorem State.reach_player (s : State) (n : Nat) (k j : Nat) : (s.reach n).player k j = s.player k j := rfl

/-! ### raise -/

@[simp] theorem State.raise_sq (s : State) (c d : Nat) (o : Option Nat) (l : List (LocKind × Nat)) (a : List Nat) (k : Nat) : (s.raise c d o l a).sq k = s.sq k := by
  simp only [State.sq, State.raise_squares]
@[simp] theorem State.raise_owner (s : State) (c d : Nat) (o : Option Nat) (l : List (LocKind × Nat)) (a : List Nat) (k : Nat) : (s.raise c d o l a).owner k = s.owner k := by
  simp only [State.owner, State.sq, State.raise_squares]
@[simp] theorem State.raise_part (s : State) (c d : Nat) (o : Option Nat) (l : List (LocKind × Nat)) (a : List Nat) (k : Nat) : (s.raise c d o l a).part k = s.part k := by
  simp only [State.part, State.raise_parts]
@[simp] theorem State.raise_link (s : State) (c d : Nat) (o : Option Nat) (l : List (LocKind × Nat)) (a : List Nat) (k : Nat) : (s.raise c d o l a).link k = s.link k := by
  simp only [State.link, State.raise_links]
@[simp] theorem State.raise_group (s : State) (c d : Nat) (o : Option Nat) (l : List (LocKind × Nat)) (a : List Nat) (k : Nat) : (s.raise c d o l a).group k = s.group k := by
  simp only [State.group, State.raise_groups]
@[simp] theorem State.raise_physSq (s : State) (c d : Nat) (o : Option Nat) (l : List (LocKind × Nat)) (a : List Nat) (k : Nat) : (s.raise c d o l a).physSq k = s.physSq k := by
  simp only [State.physSq, State.raise_phys]
@[simp] theorem State.raise_stack (s : State) (c d : Nat) (o : Option Nat) (l : List (LocKind × Nat)) (a : List Nat) (k : Nat) : (s.raise c d o l a).stack k = s.stack k := by
  simp only [State.stack, State.raise_dram]
@[simp] theorem State.raise_memDie (s : State) (c d : Nat) (o : Option Nat) (l : List (LocKind × Nat)) (a : List Nat) (k : Nat) : (s.raise c d o l a).memDie k = s.memDie k := by
  simp only [State.memDie, State.raise_dram]
@[simp] theorem State.raise_entry (s : State) (c d : Nat) (o : Option Nat) (l : List (LocKind × Nat)) (a : List Nat) (k j : Nat) : (s.raise c d o l a).entry k j = s.entry k j := by
  simp only [State.entry, State.sq, State.raise_squares]
@[simp] theorem State.raise_player (s : State) (c d : Nat) (o : Option Nat) (l : List (LocKind × Nat)) (a : List Nat) (k j : Nat) : (s.raise c d o l a).player k j = s.player k j := by
  simp only [State.player, State.sq, State.raise_squares]

/-! ### reply -/

@[simp] theorem State.reply_sq (s : State) (r : Req) (c : Nat) (k : Nat) : (s.reply r c).sq k = s.sq k := by
  simp only [State.sq, State.reply_squares]
@[simp] theorem State.reply_owner (s : State) (r : Req) (c : Nat) (k : Nat) : (s.reply r c).owner k = s.owner k := by
  simp only [State.owner, State.sq, State.reply_squares]
@[simp] theorem State.reply_part (s : State) (r : Req) (c : Nat) (k : Nat) : (s.reply r c).part k = s.part k := by
  simp only [State.part, State.reply_parts]
@[simp] theorem State.reply_link (s : State) (r : Req) (c : Nat) (k : Nat) : (s.reply r c).link k = s.link k := by
  simp only [State.link, State.reply_links]
@[simp] theorem State.reply_group (s : State) (r : Req) (c : Nat) (k : Nat) : (s.reply r c).group k = s.group k := by
  simp only [State.group, State.reply_groups]
@[simp] theorem State.reply_physSq (s : State) (r : Req) (c : Nat) (k : Nat) : (s.reply r c).physSq k = s.physSq k := by
  simp only [State.physSq, State.reply_phys]
@[simp] theorem State.reply_stack (s : State) (r : Req) (c : Nat) (k : Nat) : (s.reply r c).stack k = s.stack k := by
  simp only [State.stack, State.reply_dram]
@[simp] theorem State.reply_memDie (s : State) (r : Req) (c : Nat) (k : Nat) : (s.reply r c).memDie k = s.memDie k := by
  simp only [State.memDie, State.reply_dram]
@[simp] theorem State.reply_entry (s : State) (r : Req) (c : Nat) (k j : Nat) : (s.reply r c).entry k j = s.entry k j := by
  simp only [State.entry, State.sq, State.reply_squares]
@[simp] theorem State.reply_player (s : State) (r : Req) (c : Nat) (k j : Nat) : (s.reply r c).player k j = s.player k j := by
  simp only [State.player, State.sq, State.reply_squares]

/-! ### Channels -/

theorem State.channel_updChannel (s : State) (m n : MoverId) (c k : Nat) (f : Channel → Channel) :
    (s.updChannel m c f).channel n k = if n = m ∧ k = c then f (s.channel m c) else s.channel n k := by
  cases m <;> cases n <;>
    simp only [State.updChannel, State.channel, State.sq_updSq, State.link_updLink, State.updAslet_aslet, State.updSq_link, State.updSq_aslet,
      State.updLink_sq, State.updLink_aslet, State.updAslet_sq, State.updAslet_link] <;>
    (try split) <;> simp_all [Tab.get_upd, eq_comm]

@[simp] theorem State.channel_updChannel_same (s : State) (m : MoverId) (c : Nat) (f : Channel → Channel) :
    (s.updChannel m c f).channel m c = f (s.channel m c) := by simp [State.channel_updChannel]

theorem State.updChannel_other (s : State) (m : MoverId) (c : Nat) (f : Channel → Channel) : OtherChannels s (s.updChannel m c f) m c := by
  intro n k h
  rw [State.channel_updChannel, if_neg (by simpa using h)]

/-! ### updChannel, abortChannel, freeze -/

theorem foldl_keeps {α β : Type} (g : State → β) {f : State → α → State} (l : List α) (s : State) (h : ∀ t x, g (f t x) = g t) :
    g (l.foldl f s) = g s := by
  induction l generalizing s with
  | nil => rfl
  | cons x r ih => simp only [List.foldl_cons]; rw [ih, h]

@[simp] theorem State.updChannel_now (s : State) (m : MoverId) (c : Nat) (g : Channel → Channel) : (s.updChannel m c g).now = s.now := by
  cases m <;> rfl
@[simp] theorem State.updChannel_fresh (s : State) (m : MoverId) (c : Nat) (g : Channel → Channel) : (s.updChannel m c g).fresh = s.fresh := by
  cases m <;> rfl
@[simp] theorem State.updChannel_pending (s : State) (m : MoverId) (c : Nat) (g : Channel → Channel) : (s.updChannel m c g).pending = s.pending := by
  cases m <;> rfl
@[simp] theorem State.updChannel_phys (s : State) (m : MoverId) (c : Nat) (g : Channel → Channel) : (s.updChannel m c g).phys = s.phys := by
  cases m <;> rfl
@[simp] theorem State.updChannel_parts (s : State) (m : MoverId) (c : Nat) (g : Channel → Channel) : (s.updChannel m c g).parts = s.parts := by
  cases m <;> rfl
@[simp] theorem State.updChannel_fabric (s : State) (m : MoverId) (c : Nat) (g : Channel → Channel) : (s.updChannel m c g).fabric = s.fabric := by
  cases m <;> rfl
@[simp] theorem State.updChannel_groups (s : State) (m : MoverId) (c : Nat) (g : Channel → Channel) : (s.updChannel m c g).groups = s.groups := by
  cases m <;> rfl
@[simp] theorem State.updChannel_dram (s : State) (m : MoverId) (c : Nat) (g : Channel → Channel) : (s.updChannel m c g).dram = s.dram := by
  cases m <;> rfl
@[simp] theorem State.updChannel_sec (s : State) (m : MoverId) (c : Nat) (g : Channel → Channel) : (s.updChannel m c g).sec = s.sec := by
  cases m <;> rfl
@[simp] theorem State.updChannel_power (s : State) (m : MoverId) (c : Nat) (g : Channel → Channel) : (s.updChannel m c g).power = s.power := by
  cases m <;> rfl
@[simp] theorem State.updChannel_thermal (s : State) (m : MoverId) (c : Nat) (g : Channel → Channel) : (s.updChannel m c g).thermal = s.thermal := by
  cases m <;> rfl
@[simp] theorem State.updChannel_service (s : State) (m : MoverId) (c : Nat) (g : Channel → Channel) : (s.updChannel m c g).service = s.service := by
  cases m <;> rfl
@[simp] theorem State.updChannel_timeSource (s : State) (m : MoverId) (c : Nat) (g : Channel → Channel) : (s.updChannel m c g).timeSource = s.timeSource := by
  cases m <;> rfl
@[simp] theorem State.updChannel_holdover (s : State) (m : MoverId) (c : Nat) (g : Channel → Channel) : (s.updChannel m c g).holdover = s.holdover := by
  cases m <;> rfl
@[simp] theorem State.updChannel_events (s : State) (m : MoverId) (c : Nat) (g : Channel → Channel) : (s.updChannel m c g).events = s.events := by
  cases m <;> rfl
@[simp] theorem State.updChannel_eventsRaised (s : State) (m : MoverId) (c : Nat) (g : Channel → Channel) : (s.updChannel m c g).eventsRaised = s.eventsRaised := by
  cases m <;> rfl
@[simp] theorem State.updChannel_statusFlags (s : State) (m : MoverId) (c : Nat) (g : Channel → Channel) : (s.updChannel m c g).statusFlags = s.statusFlags := by
  cases m <;> rfl
@[simp] theorem State.updChannel_flagEvents (s : State) (m : MoverId) (c : Nat) (g : Channel → Channel) : (s.updChannel m c g).flagEvents = s.flagEvents := by
  cases m <;> rfl
@[simp] theorem State.updChannel_defaulted (s : State) (m : MoverId) (c : Nat) (g : Channel → Channel) : (s.updChannel m c g).defaulted = s.defaulted := by
  cases m <;> rfl
@[simp] theorem State.updChannel_lostObjects (s : State) (m : MoverId) (c : Nat) (g : Channel → Channel) : (s.updChannel m c g).lostObjects = s.lostObjects := by
  cases m <;> rfl
@[simp] theorem State.updChannel_counters (s : State) (m : MoverId) (c : Nat) (g : Channel → Channel) : (s.updChannel m c g).counters = s.counters := by
  cases m <;> rfl
@[simp] theorem State.updChannel_slotPins (s : State) (m : MoverId) (c : Nat) (g : Channel → Channel) : (s.updChannel m c g).slotPins = s.slotPins := by
  cases m <;> rfl
@[simp] theorem State.updChannel_slotId (s : State) (m : MoverId) (c : Nat) (g : Channel → Channel) : (s.updChannel m c g).slotId = s.slotId := by
  cases m <;> rfl
@[simp] theorem State.updChannel_coordinatorSilent (s : State) (m : MoverId) (c : Nat) (g : Channel → Channel) : (s.updChannel m c g).coordinatorSilent = s.coordinatorSilent := by
  cases m <;> rfl
@[simp] theorem State.updChannel_earlyJoins (s : State) (m : MoverId) (c : Nat) (g : Channel → Channel) : (s.updChannel m c g).earlyJoins = s.earlyJoins := by
  cases m <;> rfl
@[simp] theorem State.updChannel_responses (s : State) (m : MoverId) (c : Nat) (g : Channel → Channel) : (s.updChannel m c g).responses = s.responses := by
  cases m <;> rfl
@[simp] theorem State.updChannel_part (s : State) (m : MoverId) (c : Nat) (g : Channel → Channel) (k : Nat) : (s.updChannel m c g).part k = s.part k := by
  cases m <;> rfl
@[simp] theorem State.abortChannel_now (s : State) (m : MoverId) (c n : Nat) : (s.abortChannel m c n).now = s.now := by
  unfold State.abortChannel; split <;> simp
@[simp] theorem State.cancelChannel_now (s : State) (m : MoverId) (c n : Nat) : (s.cancelChannel m c n).now = s.now := by
  unfold State.cancelChannel; split <;> simp
@[simp] theorem State.abortChannel_fresh (s : State) (m : MoverId) (c n : Nat) : (s.abortChannel m c n).fresh = s.fresh := by
  unfold State.abortChannel; split <;> simp
@[simp] theorem State.cancelChannel_fresh (s : State) (m : MoverId) (c n : Nat) : (s.cancelChannel m c n).fresh = s.fresh := by
  unfold State.cancelChannel; split <;> simp
@[simp] theorem State.abortChannel_pending (s : State) (m : MoverId) (c n : Nat) : (s.abortChannel m c n).pending = s.pending := by
  unfold State.abortChannel; split <;> simp
@[simp] theorem State.cancelChannel_pending (s : State) (m : MoverId) (c n : Nat) : (s.cancelChannel m c n).pending = s.pending := by
  unfold State.cancelChannel; split <;> simp
@[simp] theorem State.abortChannel_phys (s : State) (m : MoverId) (c n : Nat) : (s.abortChannel m c n).phys = s.phys := by
  unfold State.abortChannel; split <;> simp
@[simp] theorem State.cancelChannel_phys (s : State) (m : MoverId) (c n : Nat) : (s.cancelChannel m c n).phys = s.phys := by
  unfold State.cancelChannel; split <;> simp
@[simp] theorem State.abortChannel_parts (s : State) (m : MoverId) (c n : Nat) : (s.abortChannel m c n).parts = s.parts := by
  unfold State.abortChannel; split <;> simp
@[simp] theorem State.cancelChannel_parts (s : State) (m : MoverId) (c n : Nat) : (s.cancelChannel m c n).parts = s.parts := by
  unfold State.cancelChannel; split <;> simp
@[simp] theorem State.abortChannel_fabric (s : State) (m : MoverId) (c n : Nat) : (s.abortChannel m c n).fabric = s.fabric := by
  unfold State.abortChannel; split <;> simp
@[simp] theorem State.cancelChannel_fabric (s : State) (m : MoverId) (c n : Nat) : (s.cancelChannel m c n).fabric = s.fabric := by
  unfold State.cancelChannel; split <;> simp
@[simp] theorem State.abortChannel_groups (s : State) (m : MoverId) (c n : Nat) : (s.abortChannel m c n).groups = s.groups := by
  unfold State.abortChannel; split <;> simp
@[simp] theorem State.cancelChannel_groups (s : State) (m : MoverId) (c n : Nat) : (s.cancelChannel m c n).groups = s.groups := by
  unfold State.cancelChannel; split <;> simp
@[simp] theorem State.abortChannel_dram (s : State) (m : MoverId) (c n : Nat) : (s.abortChannel m c n).dram = s.dram := by
  unfold State.abortChannel; split <;> simp
@[simp] theorem State.cancelChannel_dram (s : State) (m : MoverId) (c n : Nat) : (s.cancelChannel m c n).dram = s.dram := by
  unfold State.cancelChannel; split <;> simp
@[simp] theorem State.abortChannel_sec (s : State) (m : MoverId) (c n : Nat) : (s.abortChannel m c n).sec = s.sec := by
  unfold State.abortChannel; split <;> simp
@[simp] theorem State.cancelChannel_sec (s : State) (m : MoverId) (c n : Nat) : (s.cancelChannel m c n).sec = s.sec := by
  unfold State.cancelChannel; split <;> simp
@[simp] theorem State.abortChannel_power (s : State) (m : MoverId) (c n : Nat) : (s.abortChannel m c n).power = s.power := by
  unfold State.abortChannel; split <;> simp
@[simp] theorem State.cancelChannel_power (s : State) (m : MoverId) (c n : Nat) : (s.cancelChannel m c n).power = s.power := by
  unfold State.cancelChannel; split <;> simp
@[simp] theorem State.abortChannel_thermal (s : State) (m : MoverId) (c n : Nat) : (s.abortChannel m c n).thermal = s.thermal := by
  unfold State.abortChannel; split <;> simp
@[simp] theorem State.cancelChannel_thermal (s : State) (m : MoverId) (c n : Nat) : (s.cancelChannel m c n).thermal = s.thermal := by
  unfold State.cancelChannel; split <;> simp
@[simp] theorem State.abortChannel_service (s : State) (m : MoverId) (c n : Nat) : (s.abortChannel m c n).service = s.service := by
  unfold State.abortChannel; split <;> simp
@[simp] theorem State.cancelChannel_service (s : State) (m : MoverId) (c n : Nat) : (s.cancelChannel m c n).service = s.service := by
  unfold State.cancelChannel; split <;> simp
@[simp] theorem State.abortChannel_timeSource (s : State) (m : MoverId) (c n : Nat) : (s.abortChannel m c n).timeSource = s.timeSource := by
  unfold State.abortChannel; split <;> simp
@[simp] theorem State.cancelChannel_timeSource (s : State) (m : MoverId) (c n : Nat) : (s.cancelChannel m c n).timeSource = s.timeSource := by
  unfold State.cancelChannel; split <;> simp
@[simp] theorem State.abortChannel_holdover (s : State) (m : MoverId) (c n : Nat) : (s.abortChannel m c n).holdover = s.holdover := by
  unfold State.abortChannel; split <;> simp
@[simp] theorem State.cancelChannel_holdover (s : State) (m : MoverId) (c n : Nat) : (s.cancelChannel m c n).holdover = s.holdover := by
  unfold State.cancelChannel; split <;> simp
@[simp] theorem State.abortChannel_events (s : State) (m : MoverId) (c n : Nat) : (s.abortChannel m c n).events = s.events := by
  unfold State.abortChannel; split <;> simp
@[simp] theorem State.cancelChannel_events (s : State) (m : MoverId) (c n : Nat) : (s.cancelChannel m c n).events = s.events := by
  unfold State.cancelChannel; split <;> simp
@[simp] theorem State.abortChannel_eventsRaised (s : State) (m : MoverId) (c n : Nat) : (s.abortChannel m c n).eventsRaised = s.eventsRaised := by
  unfold State.abortChannel; split <;> simp
@[simp] theorem State.cancelChannel_eventsRaised (s : State) (m : MoverId) (c n : Nat) : (s.cancelChannel m c n).eventsRaised = s.eventsRaised := by
  unfold State.cancelChannel; split <;> simp
@[simp] theorem State.abortChannel_statusFlags (s : State) (m : MoverId) (c n : Nat) : (s.abortChannel m c n).statusFlags = s.statusFlags := by
  unfold State.abortChannel; split <;> simp
@[simp] theorem State.cancelChannel_statusFlags (s : State) (m : MoverId) (c n : Nat) : (s.cancelChannel m c n).statusFlags = s.statusFlags := by
  unfold State.cancelChannel; split <;> simp
@[simp] theorem State.abortChannel_flagEvents (s : State) (m : MoverId) (c n : Nat) : (s.abortChannel m c n).flagEvents = s.flagEvents := by
  unfold State.abortChannel; split <;> simp
@[simp] theorem State.cancelChannel_flagEvents (s : State) (m : MoverId) (c n : Nat) : (s.cancelChannel m c n).flagEvents = s.flagEvents := by
  unfold State.cancelChannel; split <;> simp
@[simp] theorem State.abortChannel_defaulted (s : State) (m : MoverId) (c n : Nat) : (s.abortChannel m c n).defaulted = s.defaulted := by
  unfold State.abortChannel; split <;> simp
@[simp] theorem State.cancelChannel_defaulted (s : State) (m : MoverId) (c n : Nat) : (s.cancelChannel m c n).defaulted = s.defaulted := by
  unfold State.cancelChannel; split <;> simp
@[simp] theorem State.abortChannel_lostObjects (s : State) (m : MoverId) (c n : Nat) : (s.abortChannel m c n).lostObjects = s.lostObjects := by
  unfold State.abortChannel; split <;> simp
@[simp] theorem State.cancelChannel_lostObjects (s : State) (m : MoverId) (c n : Nat) : (s.cancelChannel m c n).lostObjects = s.lostObjects := by
  unfold State.cancelChannel; split <;> simp
@[simp] theorem State.abortChannel_counters (s : State) (m : MoverId) (c n : Nat) : (s.abortChannel m c n).counters = s.counters := by
  unfold State.abortChannel; split <;> simp
@[simp] theorem State.cancelChannel_counters (s : State) (m : MoverId) (c n : Nat) : (s.cancelChannel m c n).counters = s.counters := by
  unfold State.cancelChannel; split <;> simp
@[simp] theorem State.abortChannel_slotPins (s : State) (m : MoverId) (c n : Nat) : (s.abortChannel m c n).slotPins = s.slotPins := by
  unfold State.abortChannel; split <;> simp
@[simp] theorem State.cancelChannel_slotPins (s : State) (m : MoverId) (c n : Nat) : (s.cancelChannel m c n).slotPins = s.slotPins := by
  unfold State.cancelChannel; split <;> simp
@[simp] theorem State.abortChannel_slotId (s : State) (m : MoverId) (c n : Nat) : (s.abortChannel m c n).slotId = s.slotId := by
  unfold State.abortChannel; split <;> simp
@[simp] theorem State.cancelChannel_slotId (s : State) (m : MoverId) (c n : Nat) : (s.cancelChannel m c n).slotId = s.slotId := by
  unfold State.cancelChannel; split <;> simp
@[simp] theorem State.abortChannel_coordinatorSilent (s : State) (m : MoverId) (c n : Nat) : (s.abortChannel m c n).coordinatorSilent = s.coordinatorSilent := by
  unfold State.abortChannel; split <;> simp
@[simp] theorem State.cancelChannel_coordinatorSilent (s : State) (m : MoverId) (c n : Nat) : (s.cancelChannel m c n).coordinatorSilent = s.coordinatorSilent := by
  unfold State.cancelChannel; split <;> simp
@[simp] theorem State.abortChannel_earlyJoins (s : State) (m : MoverId) (c n : Nat) : (s.abortChannel m c n).earlyJoins = s.earlyJoins := by
  unfold State.abortChannel; split <;> simp
@[simp] theorem State.cancelChannel_earlyJoins (s : State) (m : MoverId) (c n : Nat) : (s.cancelChannel m c n).earlyJoins = s.earlyJoins := by
  unfold State.cancelChannel; split <;> simp
@[simp] theorem State.abortChannel_responses (s : State) (m : MoverId) (c n : Nat) : (s.abortChannel m c n).responses = s.responses := by
  unfold State.abortChannel; split <;> simp
@[simp] theorem State.cancelChannel_responses (s : State) (m : MoverId) (c n : Nat) : (s.cancelChannel m c n).responses = s.responses := by
  unfold State.cancelChannel; split <;> simp
/-! ### freezeBut and freeze -/

@[simp] theorem State.freezeBut_now (s : State) (p c : Nat) (o : Option (MoverId × Nat)) : (s.freezeBut p c o).now = s.now := by
  unfold State.freezeBut
  split
  · rfl
  · exact (foldl_keeps (fun t => t.now) _ _ (fun t x => by split <;> simp)).trans rfl
@[simp] theorem State.freeze_now (s : State) (p c : Nat) : (s.freeze p c).now = s.now := State.freezeBut_now s p c none
@[simp] theorem State.freezeBut_fresh (s : State) (p c : Nat) (o : Option (MoverId × Nat)) : (s.freezeBut p c o).fresh = s.fresh := by
  unfold State.freezeBut
  split
  · rfl
  · exact (foldl_keeps (fun t => t.fresh) _ _ (fun t x => by split <;> simp)).trans rfl
@[simp] theorem State.freeze_fresh (s : State) (p c : Nat) : (s.freeze p c).fresh = s.fresh := State.freezeBut_fresh s p c none
@[simp] theorem State.freezeBut_pending (s : State) (p c : Nat) (o : Option (MoverId × Nat)) : (s.freezeBut p c o).pending = s.pending := by
  unfold State.freezeBut
  split
  · rfl
  · exact (foldl_keeps (fun t => t.pending) _ _ (fun t x => by split <;> simp)).trans rfl
@[simp] theorem State.freeze_pending (s : State) (p c : Nat) : (s.freeze p c).pending = s.pending := State.freezeBut_pending s p c none
@[simp] theorem State.freezeBut_phys (s : State) (p c : Nat) (o : Option (MoverId × Nat)) : (s.freezeBut p c o).phys = s.phys := by
  unfold State.freezeBut
  split
  · rfl
  · exact (foldl_keeps (fun t => t.phys) _ _ (fun t x => by split <;> simp)).trans rfl
@[simp] theorem State.freeze_phys (s : State) (p c : Nat) : (s.freeze p c).phys = s.phys := State.freezeBut_phys s p c none
@[simp] theorem State.freezeBut_fabric (s : State) (p c : Nat) (o : Option (MoverId × Nat)) : (s.freezeBut p c o).fabric = s.fabric := by
  unfold State.freezeBut
  split
  · rfl
  · exact (foldl_keeps (fun t => t.fabric) _ _ (fun t x => by split <;> simp)).trans rfl
@[simp] theorem State.freeze_fabric (s : State) (p c : Nat) : (s.freeze p c).fabric = s.fabric := State.freezeBut_fabric s p c none
@[simp] theorem State.freezeBut_groups (s : State) (p c : Nat) (o : Option (MoverId × Nat)) : (s.freezeBut p c o).groups = s.groups := by
  unfold State.freezeBut
  split
  · rfl
  · exact (foldl_keeps (fun t => t.groups) _ _ (fun t x => by split <;> simp)).trans rfl
@[simp] theorem State.freeze_groups (s : State) (p c : Nat) : (s.freeze p c).groups = s.groups := State.freezeBut_groups s p c none
@[simp] theorem State.freezeBut_dram (s : State) (p c : Nat) (o : Option (MoverId × Nat)) : (s.freezeBut p c o).dram = s.dram := by
  unfold State.freezeBut
  split
  · rfl
  · exact (foldl_keeps (fun t => t.dram) _ _ (fun t x => by split <;> simp)).trans rfl
@[simp] theorem State.freeze_dram (s : State) (p c : Nat) : (s.freeze p c).dram = s.dram := State.freezeBut_dram s p c none
@[simp] theorem State.freezeBut_sec (s : State) (p c : Nat) (o : Option (MoverId × Nat)) : (s.freezeBut p c o).sec = s.sec := by
  unfold State.freezeBut
  split
  · rfl
  · exact (foldl_keeps (fun t => t.sec) _ _ (fun t x => by split <;> simp)).trans rfl
@[simp] theorem State.freeze_sec (s : State) (p c : Nat) : (s.freeze p c).sec = s.sec := State.freezeBut_sec s p c none
@[simp] theorem State.freezeBut_power (s : State) (p c : Nat) (o : Option (MoverId × Nat)) : (s.freezeBut p c o).power = s.power := by
  unfold State.freezeBut
  split
  · rfl
  · exact (foldl_keeps (fun t => t.power) _ _ (fun t x => by split <;> simp)).trans rfl
@[simp] theorem State.freeze_power (s : State) (p c : Nat) : (s.freeze p c).power = s.power := State.freezeBut_power s p c none
@[simp] theorem State.freezeBut_thermal (s : State) (p c : Nat) (o : Option (MoverId × Nat)) : (s.freezeBut p c o).thermal = s.thermal := by
  unfold State.freezeBut
  split
  · rfl
  · exact (foldl_keeps (fun t => t.thermal) _ _ (fun t x => by split <;> simp)).trans rfl
@[simp] theorem State.freeze_thermal (s : State) (p c : Nat) : (s.freeze p c).thermal = s.thermal := State.freezeBut_thermal s p c none
@[simp] theorem State.freezeBut_service (s : State) (p c : Nat) (o : Option (MoverId × Nat)) : (s.freezeBut p c o).service = s.service := by
  unfold State.freezeBut
  split
  · rfl
  · exact (foldl_keeps (fun t => t.service) _ _ (fun t x => by split <;> simp)).trans rfl
@[simp] theorem State.freeze_service (s : State) (p c : Nat) : (s.freeze p c).service = s.service := State.freezeBut_service s p c none
@[simp] theorem State.freezeBut_timeSource (s : State) (p c : Nat) (o : Option (MoverId × Nat)) : (s.freezeBut p c o).timeSource = s.timeSource := by
  unfold State.freezeBut
  split
  · rfl
  · exact (foldl_keeps (fun t => t.timeSource) _ _ (fun t x => by split <;> simp)).trans rfl
@[simp] theorem State.freeze_timeSource (s : State) (p c : Nat) : (s.freeze p c).timeSource = s.timeSource := State.freezeBut_timeSource s p c none
@[simp] theorem State.freezeBut_holdover (s : State) (p c : Nat) (o : Option (MoverId × Nat)) : (s.freezeBut p c o).holdover = s.holdover := by
  unfold State.freezeBut
  split
  · rfl
  · exact (foldl_keeps (fun t => t.holdover) _ _ (fun t x => by split <;> simp)).trans rfl
@[simp] theorem State.freeze_holdover (s : State) (p c : Nat) : (s.freeze p c).holdover = s.holdover := State.freezeBut_holdover s p c none
@[simp] theorem State.freezeBut_events (s : State) (p c : Nat) (o : Option (MoverId × Nat)) : (s.freezeBut p c o).events = s.events := by
  unfold State.freezeBut
  split
  · rfl
  · exact (foldl_keeps (fun t => t.events) _ _ (fun t x => by split <;> simp)).trans rfl
@[simp] theorem State.freeze_events (s : State) (p c : Nat) : (s.freeze p c).events = s.events := State.freezeBut_events s p c none
@[simp] theorem State.freezeBut_eventsRaised (s : State) (p c : Nat) (o : Option (MoverId × Nat)) : (s.freezeBut p c o).eventsRaised = s.eventsRaised := by
  unfold State.freezeBut
  split
  · rfl
  · exact (foldl_keeps (fun t => t.eventsRaised) _ _ (fun t x => by split <;> simp)).trans rfl
@[simp] theorem State.freeze_eventsRaised (s : State) (p c : Nat) : (s.freeze p c).eventsRaised = s.eventsRaised := State.freezeBut_eventsRaised s p c none
@[simp] theorem State.freezeBut_statusFlags (s : State) (p c : Nat) (o : Option (MoverId × Nat)) : (s.freezeBut p c o).statusFlags = s.statusFlags := by
  unfold State.freezeBut
  split
  · rfl
  · exact (foldl_keeps (fun t => t.statusFlags) _ _ (fun t x => by split <;> simp)).trans rfl
@[simp] theorem State.freeze_statusFlags (s : State) (p c : Nat) : (s.freeze p c).statusFlags = s.statusFlags := State.freezeBut_statusFlags s p c none
@[simp] theorem State.freezeBut_flagEvents (s : State) (p c : Nat) (o : Option (MoverId × Nat)) : (s.freezeBut p c o).flagEvents = s.flagEvents := by
  unfold State.freezeBut
  split
  · rfl
  · exact (foldl_keeps (fun t => t.flagEvents) _ _ (fun t x => by split <;> simp)).trans rfl
@[simp] theorem State.freeze_flagEvents (s : State) (p c : Nat) : (s.freeze p c).flagEvents = s.flagEvents := State.freezeBut_flagEvents s p c none
@[simp] theorem State.freezeBut_defaulted (s : State) (p c : Nat) (o : Option (MoverId × Nat)) : (s.freezeBut p c o).defaulted = s.defaulted := by
  unfold State.freezeBut
  split
  · rfl
  · exact (foldl_keeps (fun t => t.defaulted) _ _ (fun t x => by split <;> simp)).trans rfl
@[simp] theorem State.freeze_defaulted (s : State) (p c : Nat) : (s.freeze p c).defaulted = s.defaulted := State.freezeBut_defaulted s p c none
@[simp] theorem State.freezeBut_lostObjects (s : State) (p c : Nat) (o : Option (MoverId × Nat)) : (s.freezeBut p c o).lostObjects = s.lostObjects := by
  unfold State.freezeBut
  split
  · rfl
  · exact (foldl_keeps (fun t => t.lostObjects) _ _ (fun t x => by split <;> simp)).trans rfl
@[simp] theorem State.freeze_lostObjects (s : State) (p c : Nat) : (s.freeze p c).lostObjects = s.lostObjects := State.freezeBut_lostObjects s p c none
@[simp] theorem State.freezeBut_counters (s : State) (p c : Nat) (o : Option (MoverId × Nat)) : (s.freezeBut p c o).counters = s.counters := by
  unfold State.freezeBut
  split
  · rfl
  · exact (foldl_keeps (fun t => t.counters) _ _ (fun t x => by split <;> simp)).trans rfl
@[simp] theorem State.freeze_counters (s : State) (p c : Nat) : (s.freeze p c).counters = s.counters := State.freezeBut_counters s p c none
@[simp] theorem State.freezeBut_slotPins (s : State) (p c : Nat) (o : Option (MoverId × Nat)) : (s.freezeBut p c o).slotPins = s.slotPins := by
  unfold State.freezeBut
  split
  · rfl
  · exact (foldl_keeps (fun t => t.slotPins) _ _ (fun t x => by split <;> simp)).trans rfl
@[simp] theorem State.freeze_slotPins (s : State) (p c : Nat) : (s.freeze p c).slotPins = s.slotPins := State.freezeBut_slotPins s p c none
@[simp] theorem State.freezeBut_slotId (s : State) (p c : Nat) (o : Option (MoverId × Nat)) : (s.freezeBut p c o).slotId = s.slotId := by
  unfold State.freezeBut
  split
  · rfl
  · exact (foldl_keeps (fun t => t.slotId) _ _ (fun t x => by split <;> simp)).trans rfl
@[simp] theorem State.freeze_slotId (s : State) (p c : Nat) : (s.freeze p c).slotId = s.slotId := State.freezeBut_slotId s p c none
@[simp] theorem State.freezeBut_coordinatorSilent (s : State) (p c : Nat) (o : Option (MoverId × Nat)) : (s.freezeBut p c o).coordinatorSilent = s.coordinatorSilent := by
  unfold State.freezeBut
  split
  · rfl
  · exact (foldl_keeps (fun t => t.coordinatorSilent) _ _ (fun t x => by split <;> simp)).trans rfl
@[simp] theorem State.freeze_coordinatorSilent (s : State) (p c : Nat) : (s.freeze p c).coordinatorSilent = s.coordinatorSilent := State.freezeBut_coordinatorSilent s p c none
@[simp] theorem State.freezeBut_earlyJoins (s : State) (p c : Nat) (o : Option (MoverId × Nat)) : (s.freezeBut p c o).earlyJoins = s.earlyJoins := by
  unfold State.freezeBut
  split
  · rfl
  · exact (foldl_keeps (fun t => t.earlyJoins) _ _ (fun t x => by split <;> simp)).trans rfl
@[simp] theorem State.freeze_earlyJoins (s : State) (p c : Nat) : (s.freeze p c).earlyJoins = s.earlyJoins := State.freezeBut_earlyJoins s p c none
@[simp] theorem State.freezeBut_responses (s : State) (p c : Nat) (o : Option (MoverId × Nat)) : (s.freezeBut p c o).responses = s.responses := by
  unfold State.freezeBut
  split
  · rfl
  · exact (foldl_keeps (fun t => t.responses) _ _ (fun t x => by split <;> simp)).trans rfl
@[simp] theorem State.freeze_responses (s : State) (p c : Nat) : (s.freeze p c).responses = s.responses := State.freezeBut_responses s p c none

theorem State.freezeBut_parts (s : State) (p c : Nat) (o : Option (MoverId × Nat)) (h : (s.part p).frozen = false) :
    (s.freezeBut p c o).parts = ((s.updPart p (fun x => { x with latePosts := 0 })).updPart p (fun x =>
      { x with frozen := true, stalemateRecord := (s.updPart p (fun x => { x with latePosts := 0 })).waitGraph p c })).parts := by
  unfold State.freezeBut
  rw [if_neg (by simp [h])]
  exact foldl_keeps (fun t => t.parts) _ _ (fun t x => by split <;> simp)

/-- A partition that freezes is frozen, its state of run is what it was. -/
theorem State.freezeBut_frozen (s : State) (p c : Nat) (o : Option (MoverId × Nat)) :
    ((s.freezeBut p c o).part p).frozen = true := by
  cases h : (s.part p).frozen with
  | true => unfold State.freezeBut; rw [if_pos h, h]
  | false =>
    unfold State.part
    rw [State.freezeBut_parts s p c o h]
    simp [State.updPart]

theorem State.freeze_frozen (s : State) (p c : Nat) : ((s.freeze p c).part p).frozen = true := State.freezeBut_frozen s p c none

theorem State.freezeBut_other (s : State) (p c : Nat) (o : Option (MoverId × Nat)) : OtherParts s (s.freezeBut p c o) p := by
  intro k hk
  cases h : (s.part p).frozen with
  | true => unfold State.freezeBut; rw [if_pos h]
  | false =>
    unfold State.part
    rw [State.freezeBut_parts s p c o h]
    simp [State.updPart, Tab.get_upd_ne _ _ (Ne.symm hk)]

theorem State.freeze_other (s : State) (p c : Nat) : OtherParts s (s.freeze p c) p := State.freezeBut_other s p c none

end Sys2Proof.Machine
end

