-- ==== Sys2Proof/WellFormed.lean ====
section
/-!
DEFINITION. Well-formed commands: every unit, place and field that a command names is one the module has (R11 to R14, R19,
R21, R104, R105, R306, R329, R404).
-/

namespace Sys2Proof

def okSquare (q : Nat) : Bool := decide (q < 144)
def okPlayer (pl : Nat) : Bool := decide (pl < 16)
def okEntry (e : Nat) : Bool := decide (e < 128)
def okPart (p : Nat) : Bool := decide (p < 16)
def okLink (l : Nat) : Bool := decide (l < 96)
def okGroup (g : Nat) : Bool := decide (g < 12)
def okLane (n : Nat) : Bool := decide (n < 4)
def okStack (st : Nat) : Bool := decide (st < 32)
def okChannel (ch : Nat) : Bool := decide (ch < 64)
def okStackChannel (x : Nat × Nat) : Bool := okStack x.1 && decide (x.2 < 66)
def okMemDie (d : Nat) : Bool := decide (d < 8)
def okComputeDie (d : Nat) : Bool := decide (d < 4)
def okRail (n : Nat) : Bool := decide (n < 24)
def okWake (n : Nat) : Bool := decide (n < 3)
/-- A sector of a channel: 2^18 chunks of 64 sectors (R306). -/
def okSectorIndex (n : Nat) : Bool := decide (n < 2 ^ 24)
/-- A physical address (R300). -/
def okPa (pa : Nat) : Bool := decide (pa < 2 ^ 41)
/-- An owner of memory: a partition, or 16 for the device region (R394). -/
def okOwner (n : Nat) : Bool := decide (n ≤ 16)
/-- Bytes within one sector, the whole of it or a part (R302, R305). -/
def okSector (pa : Nat) (l : List Byte) : Bool := decide (0 < l.length) && decide (pa % 64 + l.length ≤ 64)
def okPage (n : Nat) : Bool := decide (n < 2 ^ 25)
/-- Physical rows or columns of an array (R191). -/
def okArray (l : List Nat) : Bool := l.all (fun n => decide (n < 130))

/-- A Mover and one of its channels (Table MOV-1). -/
def okMover (m : MoverId) (ch : Nat) : Bool :=
  match m with
  | .square q => okSquare q && decide (ch < 16)
  | .host => decide (ch < 32)
  | .link l => okLink l && decide (ch < 8)

/-- A fabric message names a partition, a Square, an entry and an epoch. -/
def okMsg (m : FabricMsg) : Bool :=
  match m with
  | .post src q e _ n epoch fq =>
    okPart src && okSquare q && okEntry e && decide (n < 256) && decide (epoch < 16) && okSquare fq
  | .reset src q e epoch fq fe =>
    okPart src && okSquare q && okEntry e && decide (epoch < 16) && okSquare fq && okEntry fe
  | .resetAck src q e epoch fq => okPart src && okSquare q && okEntry e && decide (epoch < 16) && okSquare fq

def okCarrier (c : Carrier) : Bool :=
  match c with
  | .mgmt _ => true
  | .tunnel ch => decide (ch < 32)

/-- The fields of a Ulyan frame fit Table ULY-1. -/
def okReq (r : Req) : Bool :=
  okCarrier r.carrier && decide (r.version < 256) && decide (r.requestId < 2 ^ 32) && decide (r.sequence < 2 ^ 64) &&
    decide (r.index < 2 ^ 16) && decide (r.sub < 256) && decide (r.length < 2 ^ 32) && decide (r.code < 2 ^ 32)

def okReqOpt (r : Option Req) : Bool :=
  match r with
  | some x => okReq x
  | none => true

/-- A lane report of n lanes. -/
def okLanes (n : Nat) (x : LaneReport) : Bool :=
  x.working.all (fun k => decide (k < n)) && x.grounded.all (fun k => decide (k < n)) &&
    x.shorted.all (fun k => decide (k < n))

/-- A frame of 10-bit symbols. -/
def okFrame (f : RawFrame) : Bool := f.all (fun w => w.all (fun x => decide (x < 1024)))

/-- A bandwidth request: requester, stack and charge (R315). -/
def okToken (die : Nat) (t : TokenReq) : Bool :=
  decide (t.who ≤ 17) && (match t.traffic with
    | .stack st sectors partly => okStack st && decide (st / 4 = die) && decide (0 < sectors) && decide (sectors ≤ 64) && decide (partly ≤ sectors)
    | .link bytes => decide (0 < bytes))

/-- The command names units and values that the module has. -/
def Instr.wf (i : Instr) : Bool :=
  match i with
  | .semWait q pl => okSquare q && okPlayer pl
  | .semPost q pl => okSquare q && okPlayer pl
  | .slotWait q pl => okSquare q && okPlayer pl
  | .fence q pl => okSquare q && okPlayer pl
  | .playerStart q pl => okSquare q && okPlayer pl
  | .turnEnd q pl => okSquare q && okPlayer pl
  | .linkCancel q pl => okSquare q && okPlayer pl
  | .loop q pl => okSquare q && okPlayer pl
  | .setIndex q pl => okSquare q && okPlayer pl
  | .segmentEndWithoutTurnEnd q pl => okSquare q && okPlayer pl
  | .operationComplete q _ => okSquare q
  | .scoreboardSlotAccess q _ => okSquare q
  | .matmul q pl => okSquare q && okPlayer pl
  | .matmulDrain q _ => okSquare q
  | .packingChange q => okSquare q
  | .arrayConfig q pl => okSquare q && okPlayer pl
  | .accLoad q pl => okSquare q && okPlayer pl
  | .accStore q pl => okSquare q && okPlayer pl
  | .accCombine q pl => okSquare q && okPlayer pl
  | .vectorQueueStart q => okSquare q
  | .vsetLength q pl => okSquare q && okPlayer pl
  | .vrun q pl => okSquare q && okPlayer pl
  | .maskOp q pl => okSquare q && okPlayer pl
  | .vreduce q pl => okSquare q && okPlayer pl
  | .vscan q pl => okSquare q && okPlayer pl
  | .lutLoad q pl => okSquare q && okPlayer pl
  | .lutSwap q pl => okSquare q && okPlayer pl
  | .vblock q pl => okSquare q && okPlayer pl
  | .smax q pl => okSquare q && okPlayer pl
  | .rowStats q pl => okSquare q && okPlayer pl
  | .moverStart q pl => okSquare q && okPlayer pl
  | .moverAbort q pl => okSquare q && okPlayer pl
  | .moverCancel q pl => okSquare q && okPlayer pl
  | .descriptorCurrent m ch => okMover m ch
  | .pacingMet m ch => okMover m ch
  | .moverBurst m ch => okMover m ch
  | .descriptorComplete m ch => okMover m ch
  | .moverAbortEnd m ch => okMover m ch
  | .moverCancelEnd m ch => okMover m ch
  | .semaphorePostMessage msg => okMsg msg
  | .linkCancelChannelsReported q entry => okSquare q && okEntry entry
  | .linkResetMessage msg => okMsg msg
  | .linkResetAcknowledged msg => okMsg msg
  | .stalemateTimeout p => okPart p
  | .turnBoundary p => okPart p
  | .transferRepeat m ch => okMover m ch
  | .lateWorkEnd p => okPart p
  | .overrunTimeout p => okPart p
  | .joinReceived l => okLink l
  | .startReceived l => okLink l
  | .tableStartInstant p => okPart p
  | .holdReceived l => okLink l
  | .releaseReceived l => okLink l
  | .tableResume p => okPart p
  | .turnMarkReceived l => okLink l
  | .lengthReceived l => okLink l
  | .timeSourceLost => true
  | .load r => okReq r
  | .arm r => okReq r
  | .run r => okReq r
  | .hold r => okReq r
  | .release r => okReq r
  | .stop r => okReq r
  | .unload r => okReq r
  | .gateVote p => okPart p
  | .gateVoteReceived p => okPart p
  | .gateDecisionReceived p => okPart p
  | .gateStuckWrite r => okReq r
  | .stepCounterWrite r => okReq r
  | .restoreNeededWrite r => okReq r
  | .memoryRead owner pa _ => okOwner owner && okPa pa
  | .memoryWrite owner pa bytes _ => okOwner owner && okPa pa && okSector pa bytes
  | .regulatorAdmit die t => okMemDie die && okToken die t
  | .refresh st ch => okStack st && okChannel ch
  | .stackTemperatureSample st _ => okStack st
  | .patrolScrub st ch sector _ => okStack st && okChannel ch && okSectorIndex sector
  | .pageInitialisation p page => okPart p && okPage page
  | .migrateRequest r => okReq r
  | .migrationSpareTrained die => okMemDie die
  | .migrationCopyComplete die => okMemDie die
  | .migrationSwitch die => okMemDie die
  | .migrationOldChannelTest die _ => okMemDie die
  | .migrationSwitchTimeout die => okMemDie die
  | .migrationRetry die => okMemDie die
  | .linkTraining l rx tx _ => okLink l && okLanes 34 rx && okLanes 34 tx
  | .linkFrameReceived l frame => okLink l && okFrame frame
  | .linkAckTimeout l => okLink l
  | .linkWrite l => okLink l
  | .linkRead l => okLink l
  | .linkReadResp l => okLink l
  | .linkWriteAck l => okLink l
  | .linkPartial l => okLink l
  | .gradSign l => okLink l
  | .gradTopk l => okLink l
  | .linkSemPost l => okLink l
  | .linkReset l => okLink l
  | .linkResetAck l => okLink l
  | .gateTransaction l => okLink l
  | .ordered l => okLink l
  | .routeForward l => okLink l
  | .hello l => okLink l
  | .identity l => okLink l
  | .keyshare l => okLink l
  | .time l => okLink l
  | .timeSend l => okLink l
  | .swapReq l => okLink l
  | .swapAt l => okLink l
  | .laneLost l => okLink l
  | .assign l => okLink l
  | .laneSwapThreshold l lane => okLink l && okLane lane
  | .laneSpareAdapted l => okLink l
  | .laneLossOfLock l lane => okLink l && okLane lane
  | .retrainRequest r => okReq r
  | .trainWindowOpen l => okLink l
  | .cablePresent g => okGroup g
  | .cableRemoved g => okGroup g
  | .managementBeaconConflict => true
  | .asletTraining lanes _ => okLanes 16 lanes
  | .asletFrameReceived frame => okFrame frame
  | .asletAckTimeout => true
  | .asletHostWrite => true
  | .asletRead => true
  | .asletReadResp => true
  | .asletWriteAck => true
  | .message => true
  | .credit => true
  | .width => true
  | .asletHello => true
  | .sleepReq => true
  | .sleepAck => true
  | .wakeBurst => true
  | .place r => okReq r
  | .placeComplete p _ => okPart p
  | .clientHello r => okReq r
  | .clientFinish r _ _ => okReq r
  | .handshakeTimeout c => okCarrier c
  | .reportRequest r => okReq r
  | .wrappedKey r => okReq r
  | .deliver r => okReq r
  | .deliveryComplete p _ => okPart p
  | .rotateRequest r p => okReqOpt r && okPart p
  | .rotationDiesConfirmed p => okPart p
  | .rotationSweepDone p _ => okPart p
  | .entropyFailure => true
  | .readReq r => okReq r
  | .writeReq r => okReq r
  | .segStart r => okReq r
  | .segData r => okReq r
  | .segAck r => okReq r
  | .segCancel r => okReq r
  | .segmentResendTimeout _ => true
  | .segmentTransferAbandon _ => true
  | .eventAck r => okReq r
  | .eventResend _ => true
  | .close r => okReq r
  | .check r => okReq r
  | .checkDiscard r => okReq r
  | .commit r => okReq r
  | .commitApply _ => true
  | .flagClear r => okReq r
  | .counterClear r => okReq r
  | .powerActive r => okReq r
  | .powerStandby r => okReq r
  | .powerSleep r => okReq r
  | .padRelease r => okReq r
  | .wakeSource source => okWake source
  | .inputValid _ => true
  | .inputLow => true
  | .inputLost => true
  | .inputOvervoltage _ _ => true
  | .inputReversed => true
  | .powerLimit _ => true
  | .powerLimitEnd _ => true
  | .railShutdown rail => okRail rail
  | .aonBrownout => true
  | .junctionTemperatureSample die _ => okComputeDie die
  | .coolantInletHigh _ => true
  | .coolantFlowLow _ _ => true
  | .firmwareVerified _ _ => true
  | .selfTestRequest r => okReq r
  | .selfTestEnd _ => true
  | .stageImage r _ _ => okReq r
  | .activate r => okReq r
  | .activationHeld _ => true
  | .activationTimeout => true
  | .squareMigrationTrigger q _ => okSquare q
  | .squareMigrationTestPassed die => okComputeDie die
  | .squareMigrationCopy die _ => okComputeDie die
  | .arrayTestRequest r rows cols => okReq r && okArray rows && okArray cols
  | .arrayRepairRequest r rows cols => okReq r && okArray rows && okArray cols
  | .undefinedOpcode q pl => okSquare q && okPlayer pl
  | .memoryTrainingComplete failing => failing.all okStackChannel
  | .timeSourceRestored => true
  | .plannedRetrainTimeout l => okLink l

end Sys2Proof
end

