-- ==== Sys2Proof/Tests/Slice0.lean ====
section
/-!
SUPPORT. The model's own tests: the ill-formed commands that WellFormed refuses, and for every statement with hypotheses concrete states
and operands that meet them, clause by clause, at the ends of their ranges where they have ends.
-/

namespace Sys2Proof.Tests

open Sys2Proof Sys2Proof.Machine

set_option maxRecDepth 20000
set_option Elab.async false

/-! ### Well-formed commands -/

/-- An unsealed request of all zeros. -/
def blank : Req :=
  { carrier := .mgmt 0, version := 1, sealed := false, rsv := 0, session := 0, requestId := 0, sequence := 0, index := 0, sub := 0
    length := 0, code := 0, payload := [], tag := 0 }

/-- One command for each check of WellFormed, at the first value that it refuses. -/
theorem test_wf_units_refused :
    (Instr.semWait 144 0).wf = false ∧ (Instr.semWait 0 16).wf = false ∧ (Instr.packingChange 144).wf = false ∧
    (Instr.linkCancelChannelsReported 0 128).wf = false ∧ (Instr.turnBoundary 16).wf = false ∧ (Instr.linkWrite 96).wf = false ∧
    (Instr.cablePresent 12).wf = false ∧ (Instr.laneSwapThreshold 0 4).wf = false ∧ (Instr.stackTemperatureSample 32 0).wf = false ∧
    (Instr.patrolScrub 0 64 0 0).wf = false ∧ (Instr.patrolScrub 0 0 (2 ^ 24) 0).wf = false ∧
    (Instr.memoryTrainingComplete [(0, 66)]).wf = false ∧ (Instr.migrationSwitch 8).wf = false ∧
    (Instr.squareMigrationCopy 4 false).wf = false ∧ (Instr.railShutdown 24).wf = false ∧ (Instr.wakeSource 3).wf = false ∧
    (Instr.moverBurst (.square 144) 0).wf = false ∧ (Instr.moverBurst (.square 0) 16).wf = false ∧
    (Instr.moverBurst .host 32).wf = false ∧ (Instr.moverBurst (.link 0) 8).wf = false ∧ (Instr.moverBurst (.link 96) 0).wf = false := by
  decide

theorem test_wf_fields_refused :
    (Instr.memoryRead 17 0 0).wf = false ∧ (Instr.memoryRead 0 (2 ^ 41) 0).wf = false ∧ (Instr.memoryWrite 0 0 [] 0).wf = false ∧
    (Instr.memoryWrite 0 63 [0, 0] 0).wf = false ∧ (Instr.pageInitialisation 0 (2 ^ 25)).wf = false ∧
    (Instr.arrayTestRequest blank [130] []).wf = false ∧ (Instr.semaphorePostMessage (.post 16 0 0 false 1 0 0)).wf = false ∧
    (Instr.semaphorePostMessage (.post 0 0 0 false 256 0 0)).wf = false ∧ (Instr.linkResetMessage (.reset 0 0 0 16 0 0)).wf = false ∧
    (Instr.linkResetAcknowledged (.resetAck 0 0 128 0 0)).wf = false ∧ (Instr.handshakeTimeout (.tunnel 32)).wf = false ∧
    (Instr.linkFrameReceived 0 [[1024]]).wf = false ∧ (Instr.asletTraining ⟨[16], [], []⟩ 1).wf = false ∧
    (Instr.linkTraining 0 ⟨[34], [], []⟩ ⟨[], [], []⟩ ⟨2, true, true, 0, 0, 0⟩).wf = false ∧
    (Instr.regulatorAdmit 0 { who := 18, traffic := .link 1 }).wf = false ∧
    (Instr.regulatorAdmit 0 { who := 0, traffic := .stack 4 1 0 }).wf = false ∧
    (Instr.regulatorAdmit 0 { who := 0, traffic := .stack 0 0 0 }).wf = false ∧
    (Instr.regulatorAdmit 0 { who := 0, traffic := .stack 0 65 0 }).wf = false ∧
    (Instr.regulatorAdmit 0 { who := 0, traffic := .link 0 }).wf = false ∧ (Instr.readReq { blank with version := 256 }).wf = false ∧
    (Instr.readReq { blank with index := 2 ^ 16 }).wf = false ∧ (Instr.readReq { blank with sub := 256 }).wf = false ∧
    (Instr.readReq { blank with requestId := 2 ^ 32 }).wf = false ∧ (Instr.readReq { blank with sequence := 2 ^ 64 }).wf = false := by
  decide

/-- The last unit of each kind is one the module has. -/
theorem test_wf_accepted :
    (Instr.semWait 143 15).wf = true ∧ (Instr.linkWrite 95).wf = true ∧ (Instr.turnBoundary 15).wf = true ∧
    (Instr.moverBurst .host 31).wf = true ∧ (Instr.memoryWrite 16 0 (List.replicate 64 0) 0).wf = true ∧
    (Instr.readReq blank).wf = true := by decide

/-! ### Helpers -/

/-- Fields at bit places, as one number. -/
def fields (l : List (Nat × Nat)) : Nat := l.foldl (fun a f => a + f.2 <<< f.1) 0

/-- A record of an opcode with body fields at bit places. -/
def record (op : Nat) (l : List (Nat × Nat)) : Rec := BitVec.ofNat 256 (op + fields l)

/-- A tensor descriptor of partition 15 in Local Store, with every right and a window of one page. -/
def desc (base fmt : Nat) (dims : List (Nat × Nat)) (cols : Nat) : DescBits :=
  BitVec.ofNat 512 (fields ([(0, 2 ^ 41 + base), (48, fmt), (54, dims.length), (57, 15), (61, 7), (444, 1), (472, cols)] ++
    (dims.zip (List.range 6)).flatMap (fun d => [(64 + 24 * d.2, d.1.1), (208 + 36 * d.2, d.1.2)])))

def pool : List DescBits :=
  [desc 0 0 [(128, 4)] 32, desc 0x1000 1 [(2, 2), (2, 32)] 0, desc 0x2000 7 [(4, 4)] 0,
   desc 0x3000 0 [(16, 4), (16, 64), (2, 1024)] 0, desc 0x4000 0 [(16, 4), (16, 64)] 0, desc 0x5000 0 [(128, 4)] 0,
   desc 0x6000 0 [(128, 4)] 0]

/-- A Square of partition 15: Player 15 stands at the first of some records; chain link 0 is local, 1 a producer and 2 a consumer whose
other ends are on the same seat. -/
def square (recs : List Rec) (vl : Nat) : Square :=
  { owner := some 15, recs := recs, segs := [⟨0, recs.length, List.replicate 16 8⟩], seg := some 0
    players := [(15, { running := true, vl := vl, slots := [(0, 1)] })]
    chain := [(0, { depth := 64, isLocal := true, full := 64, empty := 1, producerChannels := 1 }),
              (1, { depth := 64, empty := 64, peerSquare := 3, peerEntry := 7 }),
              (2, { depth := 64, consumer := true, full := 1, peerSquare := 3, peerEntry := 8 })] }

/-- The page of a partition's run-control area that holds the level-1 table of its page map. -/
def rootOf (p : Nat) : Nat := (0x1F800000000 + 0x20000000 + p * 0x10000000 + 0x7000000) / 65536

/-- The module in ACTIVE with partition 15 running on Square 143. -/
def work (recs : List Rec) (vl : Nat) : State :=
  { power := { state := .active }, squares := [(143, square recs vl)]
    parts := [(15, { runState := .running, squares := 1 <<< 143, pool := pool, mdesc := [0, 0], trRoot := rootOf 15,
                     pageMap := [⟨2 ^ 25, true, true, true, 0, 143, 1⟩] })] }

/-- A record that Player 15 of Square 143 may issue at once, with one of zeros after it. -/
def Issuable (r : Rec) (vl : Nat) : Prop := IssuesNow (work [r, 0] vl) 143 15 r (recOpcode r)
def taken (r : Rec) (vl : Nat) : State := (work [r, 0] vl).takeWaits 143 15 r

/-! ### Module (the statements of the first group) -/

theorem test_idle_queue : State.reset.pending = [] := rfl

theorem test_invariant_holds_somewhere : Inv (work [] 0) ∧ ∃ t, step (work [] 0) = .next t := by
  refine ⟨⟨by decide, by decide, fun q => ?_⟩, _, rfl⟩
  by_cases h : q = 143
  · subst h; exact ⟨by decide, by decide, by decide⟩
  · have e : (work [] 0).sq q = {} := by simp [work, State.sq, Tab.get, Ne.symm h]
    rw [e]; exact ⟨rfl, rfl, rfl⟩

theorem test_units_at_their_ends :
    ((143 < 144 ∧ 15 < 16) ∧ ¬(144 < 144 ∧ 15 < 16) ∧ ¬(143 < 144 ∧ 16 < 16)) ∧ (143 < 144 ∧ 144 ≤ 144) ∧ (15 < 16 ∧ 16 ≤ 16) ∧
      (95 < 96 ∧ 96 ≤ 96) := by decide

/-! ### Players -/

theorem test_waits_hypotheses :
    let w := record 0x60 [(8, 1), (23, 1), (72, 1)]
    let w64 := record 0x60 [(72, 64)]
    let v := record 0x62 [(64, 1)]
    let f := record 0x63 []
    (Issuable w 0 ∧ 1 ≤ semCount w ∧ semCount w ≤ 64 ∧ recBodyOk w (bytesAt 8 2) = true) ∧ Issuable w64 0 ∧ semCount w64 = 64 ∧
    recBodyOk f 0 = true ∧ Issuable f 0 ∧ Issuable v 0 ∧ recSlotMask v ≠ 0 ∧ recBodyOk v (bytesAt 8 2) = true := by
  unfold Issuable IssuesNow; decide +kernel

theorem test_sem_post_hypotheses :
    let own := record 0x61 [(71, 1), (72, 63)]
    let away := record 0x61 [(64, 1), (72, 1)]
    let out := fun (r : Rec) => semPostCheck 143 15 (taken r 0) r = none
    (Issuable own 0 ∧ out own ∧ (((work [own, 0] 0).taken 143 15 own).entry 143 0).owns true = true) ∧
    (Issuable away 0 ∧ out away ∧ (((work [away, 0] 0).taken 143 15 away).entry 143 1).owns false = false ∧
      (((work [away, 0] 0).taken 143 15 away).entry 143 1).peerSeat = ((work [away, 0] 0).part ((work [away, 0] 0).partOf 143)).seat) := by
  unfold Issuable IssuesNow taken; decide +kernel

/-- A post over a link to another seat. -/
theorem test_sem_post_away_hypotheses :
    let r := record 0x61 [(64, 1), (72, 1)]
    let s := (work [r, 0] 0).updEntry 143 1 (fun e => { e with peerSeat := 4095 })
    IssuesNow s 143 15 r 0x61 ∧ semPostCheck 143 15 (s.takeWaits 143 15 r) r = none ∧
      ((s.taken 143 15 r).entry 143 1).owns false = false ∧
      ((s.taken 143 15 r).entry 143 1).peerSeat ≠ (s.part (s.partOf 143)).seat := by
  unfold IssuesNow; decide +kernel

theorem test_player_control_hypotheses :
    let start := record 0x64 [(64, 1), (96, 1)]
    let body := record 0x78 [(96, 2), (128, 1)]
    let set := record 0x79 [(64, 3), (96, 0xFFFFFFFF)]
    (Issuable start 0 ∧ playerStartCheck 143 (taken start 0) start = none) ∧
    (Issuable body 0 ∧ loopCheck 143 15 (taken body 0) body = none) ∧
    (Issuable set 0 ∧ recBodyOk set (bitsAt 64 2 ||| bytesAt 12 4) = true) := by
  unfold Issuable IssuesNow taken; decide +kernel

theorem test_loops_hypotheses :
    let f : LoopFrame := ⟨0, 1, 4, 2, 0⟩
    let P : Player := { pc := 4, loops := [f] }
    let l : Player := { P with loops := [{ f with pass := 1 }] }
    (({} : Player).loops = []) ∧ (P.loops = [f] ∧ P.pc + 1 = f.last + 1 ∧ f.pass + 1 < f.count) ∧
    (l.loops = [{ f with pass := 1 }] ∧ l.pc + 1 = f.last + 1 ∧ f.count ≤ 1 + 1) ∧ (P.loops = [f] ∧ P.pc + 2 ≠ f.last + 1) := by
  decide

theorem test_turn_end_and_cancel_hypotheses :
    let e := record 0x65 []
    let c := record 0x66 [(64, 2)]
    let u := (((work [e, 0] 0).taken 143 15 e).advance 143 15 1).postAndSlot 143 15 e 0
    let v := u.updPlayer 143 0 (fun P => { P with running := true })
    (Issuable e 0 ∧ recBodyOk e 0 = true) ∧ (∀ k, k < 16 → k ≠ 15 → (u.player 143 k).running = false) ∧
    (∃ k, k < 16 ∧ k ≠ 15 ∧ (v.player 143 k).running = true) ∧ (Issuable c 0 ∧ recBodyOk c (bitsAt 64 7) = true ∧
      ((work [c, 0] 0).entry 143 (semEntry c)).depth ≠ 0 ∧ ((work [c, 0] 0).entry 143 (semEntry c)).consumer = true) := by
  intro e c u v
  refine ⟨by unfold Issuable IssuesNow; decide +kernel, by decide +kernel, ⟨0, by decide +kernel⟩, ?_⟩
  unfold Issuable IssuesNow; decide +kernel

theorem test_bad_records_hypotheses :
    let r := record 0xFF []
    (143 < 144 ∧ 15 < 16 ∧ ((work [r] 0).part ((work [r] 0).partOf 143)).frozen = false) ∧
    ((work [r] 0).candidate 143 15 = some r ∧ definedOpcodes.contains (recOpcode r) = false) ∧
    ((work [] 0).issuing 143 15 = true ∧ (work [] 0).nextRecord 143 15 = none ∧
      ((work [] 0).part ((work [] 0).partOf 143)).frozen = false) := by decide +kernel

/-! ### Array, vector queue, accumulator -/

theorem test_array_issue_hypotheses :
    let m := record 0x10 [(64, 1), (80, 1)]
    let c := record 0x11 [(64, 1)]
    (Issuable m 0 ∧ matmulCheck 143 15 (taken m 0) m = none) ∧ (Issuable c 0 ∧ recBodyOk c (bitsAt 64 1) = true) ∧
    ((work [c, 0] 0).sq 143).inflight = [] := by
  unfold Issuable IssuesNow taken; decide +kernel

/-- An operation in flight. -/
def opOf (r : Rec) (kind : OpKind) (phase : OpPhase) : Op :=
  { id := 5, player := 15, record := 0, kind := kind, phase := phase, bits := r, slots := [0], vl := 65536, sums := [(7, 0x3F800000)] }

/-- The module with one operation in flight, its claim on slot 0 first or behind another's. -/
def flying (o : Op) (first : Bool) : State :=
  (work [] 0).updSq 143 (fun x => { x with inflight := [o], nextOp := 6, claims := if first then [(0, 5)] else [(0, 4), (0, 5)] })

theorem test_stream_and_drain_hypotheses :
    let m := record 0x10 [(64, 1), (80, 1)]
    let o := opOf m .matmul .working
    let s := flying o true
    (s.mmStream 143 o.bits (s.mmTensors (s.partOf 143) o.bits o.index)).toOption.isSome = true ∧
    (mmDrain o.bits = 0 ∧ fp8Tensor ((s.mmTensors (s.partOf 143) o.bits o.index).a.fmt % 32) = false ∧ (o.sums.map (·.1)).Nodup) := by
  decide +kernel

theorem test_drains_and_packing_hypotheses :
    let m := record 0x10 [(64, 1), (80, 1)]
    let o := opOf m .matmul .working
    let h := { o with held := true }
    let w := { h with phase := .waiting }
    let v := { opOf (record 0x70 [(104, 1), (112, 1)]) .vector .waiting with held := true }
    let q := (flying v true).updSq 143 (fun x => { x with vqueue := [5] })
    let k := (flying { o with phase := .waiting, bits := record 0x10 [(64, 1), (80, 1), (206, 1)] } true)
    (((flying o true).sq 143).op 5 = some o ∧ o.isMatmul = true ∧ ((flying o true).sq 143).drainTurn o = true ∧
      ((flying o true).sq 143).slotsFree o = true) ∧
    (((flying o false).sq 143).op 5 = some o ∧ ((flying o false).sq 143).drainTurn o = true ∧
      ((flying o false).sq 143).slotsFree o = false) ∧
    (k.sq 143).packingWanted = some 1 ∧
    (((flying h false).sq 143).op 5 = some h ∧ ((flying h false).sq 143).slotsFree h = false) ∧
    (((flying w true).sq 143).op 5 = some w ∧ ((flying w true).sq 143).slotsFree w = true) ∧
    (((flying h true).sq 143).op 5 = some h ∧ ((flying h true).sq 143).slotsFree h = true ∧ h.phase ≠ .waiting) ∧
    ((q.sq 143).op 5 = some v ∧ (q.sq 143).slotsFree v = true ∧ v.isMatmul = false ∧ (q.sq 143).vqueue.head? = some 5) := by
  decide +kernel

theorem test_operation_complete_hypotheses :
    let o := opOf (record 0x70 [(104, 1), (112, 1)]) .vector .done
    let f := { o with faulted := true }
    ((flying o true).sq 143).op 5 = some o ∧ o.phase = .done ∧ ((flying f true).sq 143).op 5 = some f ∧ f.faulted = true := by
  decide +kernel

theorem test_vector_issue_hypotheses_1 :
    let a := record 0x21 [(160, 1), (172, 1), (178, 1)]
    let b := record 0x22 [(67, 1)]
    let c := record 0x23 []
    let d := record 0x24 [(80, 15)]
    let e := record 0x25 [(80, 5), (96, 2)]
    let f := record 0x30 [(96, 3), (80, 0x10)]
    (Issuable a 128 ∧ vrunCheck 143 15 (taken a 128) a = none) ∧ (Issuable b 128 ∧ maskOpCheck 143 15 (taken b 128) b = none) ∧
    (Issuable c 0 ∧ lutLoadCheck 143 (taken c 0) c = none) ∧ (Issuable d 0 ∧ recBodyOk d (bitsAt 80 4) = true) ∧
    (Issuable e 0 ∧ vblockCheck 143 (taken e 0) e = none) ∧ (Issuable f 128 ∧ vreduceCheck 143 15 (taken f 128) f = none) := by
  unfold Issuable IssuesNow taken; decide +kernel

theorem test_vector_issue_hypotheses_2 :
    let a := record 0x31 [(144, 5), (96, 0x10)]
    let b := record 0x40 [(147, 3), (80, 0x10), (192, 0x3F800000)]
    let c := record 0x41 [(165, 1), (80, 5), (96, 6)]
    let d := record 0x70 [(104, 128), (112, 128)]
    let e := record 0x71 [(104, 16), (112, 16), (64, 4)]
    let f := record 0x72 [(104, 16), (112, 16), (64, 3)]
    (Issuable a 128 ∧ vscanCheck 143 15 (taken a 128) a = none) ∧ (Issuable b 128 ∧ smaxCheck 143 15 (taken b 128) b = none) ∧
    (Issuable c 128 ∧ rowStatsCheck 143 15 (taken c 128) c = none) ∧ (Issuable d 0 ∧ accLoadCheck 143 15 (taken d 0) d = none) ∧
    (Issuable e 0 ∧ accStoreCheck 143 15 (taken e 0) e = none) ∧ (Issuable f 0 ∧ accCombineCheck 143 15 (taken f 0) f = none) := by
  unfold Issuable IssuesNow taken; decide +kernel

theorem test_queue_head_hypotheses :
    let o := opOf (record 0x70 [(104, 1), (112, 1)]) .vector .waiting
    let w := opOf (record 0x24 [(80, 15)]) .vector .waiting
    let q := fun (y : Op) (first : Bool) => (flying y first).updSq 143 (fun x => { x with vqueue := [5] })
    ((work [] 0).sq 143).vqueue = [] ∧
    (((q o true).sq 143).vqueue = [o.id] ∧ ((q o true).sq 143).op o.id = some o ∧ ((q o true).sq 143).vstopped = false ∧
      ((q o true).sq 143).interlocksOpen o = true ∧ recOpcode o.bits ≠ 0x24 ∧ ((q o true).sq 143).slotsFree o = true) ∧
    (((q o false).sq 143).vqueue = [o.id] ∧ ((q o false).sq 143).op o.id = some o ∧ ((q o false).sq 143).interlocksOpen o = true ∧
      ((q o false).sq 143).slotsFree o = false) ∧
    (vectorRun (q o true) 143 o).fault = none ∧ ((q w true).sq 143).swapReady w = true := by
  decide +kernel

theorem test_vset_length_hypotheses :
    let a := record 0x20 [(64, 65536)]
    let b := record 0x20 [(64, 1), (96, 0xFFFFFFFF), (128, 1), (129, 3)]
    (Issuable a 0 ∧ vsetLengthCheck (taken a 0) a = none ∧ recBit a 128 = false) ∧
    (Issuable b 0 ∧ vsetLengthCheck (taken b 0) b = none ∧ recBit b 128 = true) := by
  unfold Issuable IssuesNow taken; decide +kernel

theorem test_accumulator_and_masks_hypotheses :
    let l := record 0x70 [(104, 128), (112, 128), (144, 0xFFFFFFFF)]
    let st := record 0x71 [(104, 16), (112, 16), (64, 4), (123, 1)]
    (accMode l = 0 ∧ accRegionBad l = false) ∧ moAction (record 0x22 []) = 0 ∧ moAction (record 0x22 [(67, 1)]) = 1 ∧
    (accClear st = true ∧ accRegionBad st = false ∧ (accStoreRun (work [] 0) 143 (opOf st .vector .waiting)).fault = none) ∧
    accClear (record 0x71 []) = false ∧ isNan32 (add32 0x3F800000 0xBF800000) = false := by
  decide +kernel

/-! ### Movers -/

/-- Channel 15 of the Mover of Square 143 in a phase, with a first and a second descriptor. -/
def moving (phase : ChPhase) (mds : List Rec) (c : Channel) : State :=
  ((work [] 0).updPart 15 (fun x => { x with mdesc := mds })).updChannel (.square 143) 15 (fun _ =>
    { c with phase := phase, partition := 15 })

/-- A copy of 128 FP32 elements that ends its chain, with further fields. -/
def copy (l : List (Nat × Nat)) : Rec :=
  let n := fields ([(0, 5), (16, 6), (192, mdEnd)] ++ l)
  BitVec.ofNat 256 (n + crc16 (leBytes 30 n) <<< 240)

def theMover : MoverId := .square 143

theorem test_mover_operations_hypotheses :
    let st := record 0x50 [(64, 15), (96, 1)]
    let ab := record 0x51 [(64, 0xFFFF)]
    let ca := record 0x52 [(64, 0x8000)]
    let s := (work [ab, 0] 0).updChannel theMover 15 (fun c => { c with phase := .active, partition := 15 })
    (Issuable st 0 ∧ moverStartCheck 143 (taken st 0) st = none) ∧ (Issuable ab 0 ∧ recBodyOk ab (bytesAt 8 2) = true) ∧
    (Issuable ca 0 ∧ recBodyOk ca (bytesAt 8 2) = true) ∧
    (IssuesNow s 143 15 ab 0x51 ∧ 15 ∈ s.busyIn 143 (recBytes ab 8 2) ∧ s.stoppable (s.channel theMover 15) = true) := by
  unfold Issuable IssuesNow taken; decide +kernel

theorem test_descriptors_begin_hypotheses :
    let s := moving .fetched [copy []] {}
    let c := s.channel theMover 15
    let t := moving .pacing [copy [(56, 1), (64, 200)]] {}
    let u := (moving .pacing [copy [(56, 2), (64, 0)]] {})
    moverHas theMover 15 = true ∧
    (c.phase = .fetched ∧ firstDescFault (s.mdUses c.partition (s.mdesc c) c.srcShift c.dstShift) = none ∧
      s.versionShort theMover 15 = false ∧ s.currentFault theMover 15 = 0 ∧ s.paced theMover 15 = true) ∧
    ((t.channel theMover 15).phase = .pacing ∧ mdPaceKind (t.mdesc (t.channel theMover 15)) = 1) ∧
    ((u.channel theMover 15).phase = .pacing ∧ mdPaceKind (u.mdesc (u.channel theMover 15)) ≠ 1 ∧ u.paced theMover 15 = true) := by
  decide +kernel

theorem test_descriptors_end_hypotheses :
    let s := moving .written [copy []] {}
    let d := s.mdesc (s.channel theMover 15)
    let t := moving .written [BitVec.ofNat 256 (fields [(0, 5), (16, 6), (54, 1), (55, 1), (192, 1)])] {}
    let e := t.mdesc (t.channel theMover 15)
    let a := moving (.aborting 1) [copy []] { done := 127 }
    let b := moving (.cancelling 6) [copy []] { done := 0 }
    ((s.channel theMover 15).phase = .written ∧ mdBarrier d = false ∧ mdSlotEnable d = false ∧ mdPostEnable d = false ∧
      mdNext d = mdEnd ∧ mdReport d = false) ∧
    ((t.channel theMover 15).phase = .written ∧ mdBarrier e = true ∧ t.answered theMover 15 = true ∧ mdSlotEnable e = false ∧
      mdPostEnable e = false ∧ mdNext e ≠ mdEnd ∧ mdReport e = true) ∧
    ((a.channel theMover 15).phase = .aborting 1 ∧ a.answered theMover 15 = true ∧
      mdSlotEnable (a.mdesc (a.channel theMover 15)) = false) ∧
    ((b.channel theMover 15).phase = .cancelling 6 ∧ b.answered theMover 15 = true) := by
  decide +kernel

theorem test_bursts_hypotheses :
    let s := moving .active [copy []] {}
    let c := s.channel theMover 15
    let y := s.advanceWalk theMover 15 0 c.codes
    let o := s.channelOp theMover 15
    let rest := (s.restMoves theMover 15).map (·.2)
    let ms := rest.take (burstLength false o.dstBits (rest.map (fun z => bitAddr z.dst)))
    let x := s.runMoves c.partition o (fun i _ => (s.burstCodes theMover 15 ms).getD i 0) ms
    (c.phase = .active ∧ y.2 = none ∧ (y.1.channel theMover 15).phase = .active ∧ (y.1.restMoves theMover 15).isEmpty = false) ∧
    (x.2.1 = none ∧ mdKind (x.1.mdesc (x.1.channel theMover 15)) = 0) := by
  decide +kernel

/-- A channel that waits for a token, one of the host-interface Mover's odd ones, and one whose last element is written. -/
theorem test_burst_ends_hypotheses :
    let done := moving .active [copy []] { done := 128 }
    let d := done.advanceWalk theMover 15 0 []
    let wait := (moving .active [copy []] {}).updMemDie 7 (fun x =>
      { x with waiting := [({ who := 15, traffic := .stack 28 1 0, channel := some (theMover, 15) }, 0)] })
    let host := (moving .active [copy []] {}).updChannel .host 31 (fun c => { c with phase := .active })
    ((moving .idle [] {}).channel theMover 15).phase ≠ .active ∧
    wait.tokenWaits theMover 15 = true ∧
    ((host.channel .host 31).phase = .active ∧ host.tokenWaits .host 31 = false) ∧
    (d.2 = none ∧ (d.1.channel theMover 15).phase ≠ .active) := by
  decide +kernel

/-- A scatter of one index on the first tensor, whose presence bitmap lies on no page; with list 8 the index lies on none. -/
def scattering (list : Nat) (c : Channel) : State :=
  let n := fields [(0, 5), (16, 6), (32, list), (48, 2), (162, 1), (164, 8), (192, mdEnd)]
  let far : DescBits := desc (2 ^ 30) 0 [(1, 4)] 32
  (moving .active [BitVec.ofNat 256 n] c).updPart 15 (fun x => { x with pool := pool ++ [desc 0x7000 11 [(1, 4)] 32, far] })

theorem test_walk_faults_hypotheses :
    let f := scattering 7 { pos := 128 }
    let e := scattering 8 {}
    let y := f.advanceWalk theMover 15 0 []
    let z := e.advanceWalk theMover 15 0 []
    y.2.isSome = true ∧
    (z.2 = none ∧ (z.1.channel theMover 15).phase = .active ∧ (z.1.restMoves theMover 15).isEmpty = true) := by
  decide +kernel

/-- A copy into stack memory, on an empty or a full regulator of its die. -/
def copying (pool : Nat) : State :=
  ((moving .active [copy [(64, 0)]] {}).updPart 15 (fun x =>
    { x with rho := 128, kappa := 200, mdesc := [copy [(96, 4)]], pool := x.pool.take 6 ++ [desc 0x40000 0 [(128, 4)] 32 - BitVec.ofNat 512 (2 ^ 41)],
             pageMap := [⟨4, true, true, false, 0, 0, 1⟩, ⟨2 ^ 25, true, true, true, 0, 143, 1⟩] })).updMemDie 0 (fun d =>
    { d with pool := pool, g := [(15, pool)], c := [(15, pool)] })

theorem test_burst_tokens_hypotheses :
    let short := copying 0
    let z := short.chargeAll 15 (some (theMover, 15)) (short.burstCharges theMover 15)
    let full := copying 1000000
    let w := full.chargeAll 15 (some (theMover, 15)) (full.burstCharges theMover 15)
    (short.channel theMover 15).paid = false ∧ (short.restMoves theMover 15).isEmpty = false ∧ z.tokenWaits theMover 15 = true ∧
      w.tokenWaits theMover 15 = false := by
  decide +kernel

/-- A transfer of two repeats whose entry runs descriptor 0. -/
def repeating (c : Channel) : State := moving .idle [copy []] { c with transfer := some 0 }

theorem test_repeats_hypotheses :
    let s := repeating { posted := false }
    let e := repeating { repeatNo := 1 }
    let c := fun (x : State) => x.channel theMover 15
    ((c s).transfer.isSome = true ∧ (c s).busy = false ∧ (c s).posted = false ∧ s.acknowledged theMover 15 = true) ∧
    ((c e).transfer.isSome = true ∧ (c e).busy = false ∧ (c e).posted = true ∧ rd (e.transferOf (c e)) 0x14 2 ≤ (c e).repeatNo) := by
  decide +kernel

/-! ### Books and frames -/

/-- A link record of two repeats on channel 7 of link 95, by offset in the Book and value. -/
def linkSection : List (Nat × Nat) :=
  [(0x90, 320), (0x98, 64), (0x9C, 1), (0x140, 3), (0x141, 7), (0x142, 95), (0x150, 143), (0x154, 2)]

/-- A step gate whose root is seat 0, at the first plan entry. -/
def gateSection : List (Nat × Nat) := [(0xB0, 384), (0xB8, 64), (0xBC, 1), (0x104, 1), (0x180, 1), (0x182, 3)]

/-- A Book of one seat, one plan entry and no Square, with further fields. -/
def book (l : List (Nat × Nat)) : List Byte :=
  let n := ([(0, 0x4B4F4F42), (4, 2), (8, 256), (10, 8), (0x1A, 1), (0x1C, 8), (0x20, 1), (0x24, 100), (0x58, 448),
      (0x70, 256), (0x78, 16), (0x7C, 1)] ++ l).map (fun (f : Nat × Nat) => (8 * f.1, f.2))
  let b := leBytes 448 (fields n)
  b.take 252 ++ leBytes 4 (crc32 (b.take 252)) ++ b.drop 256

theorem test_repeat_starts_hypotheses :
    let s := (moving .idle [copy []] { transfer := some 0, repeatNo := 1 }).updPart 15 (fun x => { x with book := book linkSection })
    let c := s.channel theMover 15
    c.transfer.isSome = true ∧ c.busy = false ∧ c.posted = true ∧ c.repeatNo < rd (s.transferOf c) 0x14 2 ∧
      s.mayIssue c.partition = true ∧ transferSems (s.transferOf c) false = [] := by
  decide +kernel

/-- A transfer of two repeats that waits on entry 0 of Square 143 or on entry 1, whose F the Square does not own. -/
def awaitingSem (wait : Nat) (c : Channel) : State :=
  (repeating { c with repeatNo := 1 }).updPart 15 (fun x => { x with book := book (linkSection ++ [(0x151, wait)]) })

theorem test_repeat_waits_hypotheses :
    let c := fun (x : State) => x.channel theMover 15
    let owned := fun (s : State) => ∀ w ∈ transferSems (s.transferOf (c s)) false, (s.entry 143 w.1).owns w.2 = true
    let mine := fun (s : State) => ∀ w ∈ transferSems (s.transferOf (c s)) false,
      ∀ x, (s.entry 143 w.1).waiter w.2 = some x → x = .mover theMover 15
    let s := awaitingSem 0x80 {}
    let none_ := s.updEntry 143 0 (fun e => { e with full := 0, empty := 0 })
    let taken := s.updEntry 143 0 (fun e => { e with waiterF := some (.player 1), waiterE := some (.player 1) })
    let other := awaitingSem 0x81 {}
    let idle := repeating { posted := false, sent := [⟨0, 0, 0, true, []⟩] }
    let stopped := (awaitingSem 0x80 {}).updPart 15 (fun x => { x with frozen := true })
    ((c idle).busy = false ∧ (c idle).posted = false ∧ idle.acknowledged theMover 15 = false) ∧
    ((c stopped).posted = true ∧ (c stopped).repeatNo < rd (stopped.transferOf (c stopped)) 0x14 2 ∧
      stopped.mayIssue (c stopped).partition = false) ∧
    (transferSems (s.transferOf (c s)) false ≠ [] ∧ rd (s.transferOf (c s)) 0x10 1 = 143 ∧ s.mayIssue 15 = true ∧ (c s).busy = false ∧
      owned s ∧ mine s ∧ ∀ w ∈ transferSems (s.transferOf (c s)) false, 1 ≤ (s.entry 143 w.1).sem w.2) ∧
    (owned none_ ∧ mine none_ ∧ ∃ w ∈ transferSems (none_.transferOf (c none_)) false, (none_.entry 143 w.1).sem w.2 = 0) ∧
    ¬owned other ∧ (owned taken ∧ ¬mine taken) := by
  decide +kernel

/-- A frame of a session before its tag. -/
def untagged (n idx sub : Nat) (payload : List Byte) : Req :=
  { blank with version := 2, sealed := true, session := n, sequence := 7, requestId := 9, index := idx, sub := sub
               length := payload.length, payload := payload }

/-- The frame with the tag of its session's key. -/
def frame (s : State) (kind : Nat) (r : Req) : Req :=
  { r with tag := Config.gcmTag (((s.session r.session).map (fun x => x.key false)).getD 0) r.sequence (reqHead r kind)
                    (reqTail r ++ r.payload) }

/-- The state after the frame was received. -/
def heard (s : State) (n : Nat) : State := s.updSession n (fun y => { y with rxSeq := 8 })

/-- A frame with the right tag and a new RequestId is admitted. -/
theorem admit_frame (s : State) (kind n idx sub : Nat) (payload : List Byte) (x : Session) (hr : s.reachable = true)
    (hs : s.session n = some x) (hq : x.rxSeq ≤ 7) (hl : x.last = []) (hc : x.carrier = .mgmt 0) :
    s.admitFrame (frame s kind (untagged n idx sub payload)) kind = (heard s n, true) := by
  have e1 : (frame s kind (untagged n idx sub payload)).carrier = .mgmt 0 := rfl
  have e2 : (frame s kind (untagged n idx sub payload)).sealed = true := rfl
  have e3 : (frame s kind (untagged n idx sub payload)).session = n := rfl
  have e4 : (frame s kind (untagged n idx sub payload)).sequence = 7 := rfl
  have e5 : (frame s kind (untagged n idx sub payload)).tag =
      Config.gcmTag (x.key false) 7 (reqHead (frame s kind (untagged n idx sub payload)) kind)
        (reqTail (frame s kind (untagged n idx sub payload)) ++ (frame s kind (untagged n idx sub payload)).payload) := by
    simp [frame, hs, untagged, reqHead, reqTail]
  have e6 : (frame s kind (untagged n idx sub payload)).reversed = false := rfl
  have hq' : ¬ 7 < x.rxSeq := by omega
  unfold State.admitFrame State.takeFrame
  rw [e1, e2, e3, e4, e5, e6]
  simp [hr, hl, hq', hs, hc, heard]

/-- A write of n bytes whose form is good is received. -/
theorem received (s : State) (n idx sub : Nat) (payload : List Byte) (x : Session) (hr : s.reachable = true)
    (hs : s.session n = some x) (hq : x.rxSeq ≤ 7) (hl : x.last = []) (hc : x.carrier = .mgmt 0) (hw : s.sec.transfers = [])
    (hf : (heard s n).judgeForm (untagged n idx sub payload) true payload.length = 0) :
    Received s (frame s kWrite (untagged n idx sub payload)) (heard s n) := by
  refine ⟨?_, admit_frame s kWrite n idx sub payload x hr hs hq hl hc, hf⟩
  simp [State.writing, State.transfer, hw]

/-- What `received` asks for, as one test. -/
def sound (s : State) (n idx sub : Nat) (payload : List Byte) : Bool :=
  s.reachable && (match s.session n with
    | some x => decide (x.rxSeq ≤ 7) && x.last.isEmpty && decide (x.carrier = .mgmt 0)
    | none => false) && s.sec.transfers.isEmpty &&
    decide ((heard s n).judgeForm (untagged n idx sub payload) true payload.length = 0)

theorem got (s : State) (n idx sub : Nat) (payload : List Byte) (h : sound s n idx sub payload = true) :
    Received s (frame s kWrite (untagged n idx sub payload)) (heard s n) := by
  simp only [sound, Bool.and_eq_true, List.isEmpty_iff, decide_eq_true_eq] at h
  obtain ⟨⟨⟨h1, h2⟩, h3⟩, h4⟩ := h
  cases hs : s.session n with
  | none => simp [hs] at h2
  | some x =>
    simp only [hs, Bool.and_eq_true, decide_eq_true_eq, List.isEmpty_iff] at h2
    exact received s n idx sub payload x h1 hs h2.1.1 h2.1.2 h2.2 h3 h4

/-- The stacks of a module in which manufacture test has spared no channel. -/
def stacksMade : Tab Stack := (List.range 32).map (fun n => (n, {}))

/-- The module in ACTIVE with a session, and partition 15 as given. -/
def hosted (n : Nat) (x : Partition) : State :=
  ({ power := { state := .active }, parts := [(15, x)], dram := { stackTab := stacksMade } } : State).putSession n
    { carrier := .mgmt 0, version := 2, prk := 0, binding := 0 }

/-! ### Run commands and the step -/


theorem test_run_commands_hypotheses_1 :
    (∃ r t, Received (hosted 0 { placedBytes := 448, image := book [] }) r t ∧ reqPart r = 15 ∧ isRunCommand r 1 = true ∧
      (t.part 15).placing = false ∧ (t.part 15).runState = .empty ∧ (t.part 15).placedBytes ≠ 0 ∧
      loadFaultOf (t.service.maxima.getD 5 2) (t.part 15).image (t.part 15).squares = 0) ∧
    (∃ r t, Received (hosted 0 { placedBytes := 1, runState := .faulted }) r t ∧ reqPart r = 15 ∧ isRunCommand r 1 = true ∧
      (t.part 15).runState = .faulted ∧ loadFaultOf (t.service.maxima.getD 5 2) (t.part 15).image (t.part 15).squares ≠ 0) ∧
    (∃ r t, Received (hosted 0 { runState := .loaded, book := book [] }) r t ∧ reqPart r = 15 ∧ isRunCommand r 2 = true ∧
      t.service.selfTest ≠ 1 ∧ (t.part 15).runState = .loaded ∧ t.power.state = .active) ∧
    (∃ r t, Received (hosted 0 { runState := .armed, book := book gateSection, tableProtocol := 2, joined := [⟨0, 2, true⟩] }) r t ∧
      reqPart r = 15 ∧ isRunCommand r 3 = true ∧ (t.part 15).mayRun = true ∧ (t.part 15).start = none) :=
  ⟨⟨_, _, got _ 0 0x6F01 0 [1] (by decide +kernel), by decide +kernel⟩,
   ⟨_, _, got _ 0 0x6F01 0 [1] (by decide +kernel), by decide +kernel⟩,
   ⟨_, _, got _ 0 0x6F01 0 [2] (by decide +kernel), by decide +kernel⟩,
   ⟨_, _, got _ 0 0x6F01 0 [3] (by decide +kernel), by decide +kernel⟩⟩

theorem test_arm_passes : (hosted 0 { runState := .loaded, book := book [] }).armFault 15 = none := by decide +kernel

theorem test_run_commands_hypotheses_2 :
    (∃ r t, Received (hosted 0 { runState := .running, book := book [] }) r t ∧ reqPart r = 15 ∧ isRunCommand r 4 = true ∧
      (t.part 15).tabled = true ∧ 6 ∉ (t.part 15).ownHold ∧ (t.part 15).runState = .running ∧ (t.part 15).heldAt = none) ∧
    (∃ r t, Received (hosted 0 { runState := .draining, book := book [], ownHold := [6], holders := [0], holdTarget := some 9 }) r t ∧
      reqPart r = 15 ∧ isRunCommand r 5 = true ∧ (t.part 15).runState = .draining ∧ 6 ∈ (t.part 15).ownHold) ∧
    (∃ r t, Received (hosted 0 { runState := .held }) r t ∧ reqPart r = 15 ∧ isRunCommand r 6 = true ∧ (t.part 15).runState = .held) ∧
    (∃ r t, Received (hosted 0 { runState := .stopped }) r t ∧ reqPart r = 15 ∧ isRunCommand r 7 = true ∧
      (t.part 15).runState = .stopped) :=
  ⟨⟨_, _, got _ 0 0x6F01 0 [4] (by decide +kernel), by decide +kernel⟩,
   ⟨_, _, got _ 0 0x6F01 0 [5] (by decide +kernel), by decide +kernel⟩,
   ⟨_, _, got _ 0 0x6F01 0 [6] (by decide +kernel), by decide +kernel⟩,
   ⟨_, _, got _ 0 0x6F01 0 [7] (by decide +kernel), by decide +kernel⟩⟩

theorem test_run_commands_hypotheses_3 :
    (∃ r t, Received (hosted 0 { runState := .loaded, book := book [] }) r t ∧ reqPart r = 15 ∧ isRunCommand r 2 = true ∧
      (t.part 15).runState = .loaded ∧ (t.part 15).delivering = false ∧ (t.part 15).bounceReady (t.part 15).book = true ∧
      t.armFault 15 = none) ∧
    (∃ r t, Received (hosted 0 { runState := .armed, book := book gateSection, tableProtocol := 2, joined := [⟨0, 2, true⟩] }) r t ∧
      reqPart r = 15 ∧ isRunCommand r 3 = true ∧ (t.part 15).mayRun = true ∧ (t.part 15).delivering = false) :=
  ⟨⟨_, _, got _ 0 0x6F01 0 [2] (by decide +kernel), by decide +kernel⟩,
   ⟨_, _, got _ 0 0x6F01 0 [3] (by decide +kernel), by decide +kernel⟩⟩

theorem test_step_writes_hypotheses :
    (∃ r t, Received (hosted 0 { runState := .loaded }) r t ∧ reqPart r = 15 ∧ reqNames6 r 0x20 1 = true ∧
      (t.part 15).runState = .loaded ∧ reqValue r = 2 ^ 64 - 1) ∧
    (∃ r t, Received (hosted 0 { runState := .held }) r t ∧ reqPart r = 15 ∧ reqNames6 r 0x20 2 = true ∧ (t.part 15).runState = .held) ∧
    (∃ r t, Received (hosted 0 { runState := .held, gateStuck := true }) r t ∧ reqPart r = 15 ∧ reqNames6 r 0x20 5 = true ∧
      reqValue r = 0 ∧ (t.part 15).runState = .held) ∧
    (∃ r t, Received (hosted 0 { runState := .held, restoreNeeded := true }) r t ∧ reqPart r = 15 ∧ reqNames6 r 0x20 6 = true ∧
      reqValue r = 0 ∧ (t.part 15).runState = .held) :=
  ⟨⟨_, _, got _ 0 0x6F20 1 (List.replicate 8 0xFF) (by decide +kernel), by decide +kernel⟩,
   ⟨_, _, got _ 0 0x6F20 2 (List.replicate 8 0) (by decide +kernel), by decide +kernel⟩,
   ⟨_, _, got _ 0 0x6F20 5 [0] (by decide +kernel), by decide +kernel⟩,
   ⟨_, _, got _ 0 0x6F20 6 [0] (by decide +kernel), by decide +kernel⟩⟩

/-- Partition 15 at the gate Turn of its step, the root of the gate tree. -/
def gating (l : List (Nat × Nat)) (x : Partition) : State :=
  hosted 0 { x with book := book (gateSection ++ l), runState := .running, workTurn := some 0, inStep := true }

def aVote : GateVote := ⟨5, 2 ^ 64 - 1, 4095, 0, true, false, 4095⟩


theorem test_gate_messages_hypotheses :
    let s := gating [] {}
    let x := s.part 15
    let m := gateMsgOf aVote 1
    let d := gateMsgOf aVote 2
    let bad : GateMsg := m ||| (1 <<< 255)
    let kid := gating [(0x194, 1), (0x198, 9)] { gateIn := [(3, m)] }
    let son := gating [(0x192, 7)] { gateIn := [(3, d)] }
    (x.gateTurn = true ∧ x.vote = none ∧ x.tabled = true ∧ (gateRecord x.book).isSome = true ∧ x.voteSent = false ∧ x.childVotes = [] ∧
      (∀ g, gateRecord x.book = some g → gateParent g = x.seat ∧ gateChildren g = [])) ∧
    (kid.takeGate 15 1 = some (kid.updPart 15 (fun y => { y with gateIn := [] }), 3, m) ∧ gateMsgOk m = true ∧
      (∀ g, gateRecord (kid.part 15).book = some g → (kid.part 15).childVotes.length < (gateChildren g).length)) ∧
    (((gating [] { gateIn := [(3, bad)] }).takeGate 15 1).isSome = true ∧
      ((gating [] { gateIn := [(3, bad)] }).takeGate 15 2).isSome = true ∧ gateMsgOk bad = false) ∧
    (son.takeGate 15 2 = some (son.updPart 15 (fun y => { y with gateIn := [] }), 3, d) ∧ gateMsgOk d = true ∧
      (son.part 15).gateTurn = true ∧ (son.part 15).decision = none ∧
      (∀ g, gateRecord (son.part 15).book = some g → gateParent g ≠ (son.part 15).seat)) := by
  intro s x m d bad kid son
  refine ⟨⟨by decide +kernel, by decide +kernel, by decide +kernel, by decide +kernel, by decide +kernel, by decide +kernel, ?_⟩,
    ⟨by decide +kernel, by decide +kernel, ?_⟩, by decide +kernel, ⟨by decide +kernel, by decide +kernel, by decide +kernel, by decide +kernel, ?_⟩⟩
  · intro g h
    have e : g = (gateRecord x.book).getD [] := by rw [h]; rfl
    rw [e]; decide +kernel
  · intro g h
    have e : g = (gateRecord (kid.part 15).book).getD [] := by rw [h]; rfl
    rw [e]; decide +kernel
  · intro g h
    have e : g = (gateRecord (son.part 15).book).getD [] := by rw [h]; rfl
    rw [e]; decide +kernel

theorem test_gate_decides_hypotheses :
    let opens := gateMsgOf ⟨3, 3, 0, 0, false, false, 0⟩ 2
    let closed := gateMsgOf ⟨3, 3, 0, 0, true, false, 1⟩ 2
    ((gating [] { decision := some opens }).part 15).decision = some opens ∧ (gateVoteOf opens).opens = true ∧
    ((gating [] { decision := some closed }).part 15).decision = some closed ∧ (gateVoteOf closed).opens = false ∧
    (gateVoteOf closed).nonFinite = true ∧ (gateVoteOf closed).hwFault = false ∧ (gateVoteOf closed).stepMin = (gateVoteOf closed).stepMax ∧
    (gateVoteOf (gateMsgOf aVote 2)).stepMin ≠ (gateVoteOf (gateMsgOf aVote 2)).stepMax := by
  decide +kernel

theorem test_votes_hypotheses :
    aVote.stepMin ≤ aVote.stepMax ∧ aVote.stepMin < 2 ^ 64 ∧ aVote.stepMax < 2 ^ 64 ∧ aVote.seatMin < 4096 ∧ aVote.seatMax < 4096 ∧
      aVote.seatBad < 4096 := by decide

/-! ### The Board fabric -/

theorem test_fabric_hypotheses :
    let post := FabricMsg.post 15 143 0 true 62 0 0
    let old := FabricMsg.post 15 143 0 true 1 15 1
    let lost := FabricMsg.post 0 143 0 false 1 0 2
    let reset := FabricMsg.reset 15 143 1 15 3 7
    let ack := FabricMsg.resetAck 15 143 2 15 4
    let s := { work [] 0 with fabric := [post, old, lost, reset, ack] }
    let waitingFor := fun (k : OpPhase) (e : Nat) => opOf 0 (.linkCancel e [15]) k
    let a := s.updSq 143 (fun x => { x with inflight := [waitingFor .working 2] })
    let b := fun (e : Nat) => s.updSq 143 (fun x => { x with inflight := [waitingFor .waiting e] })
    (s.arrives post = true ∧ s.owner 143 = some 15 ∧ (s.entry 143 0).owns true = true ∧ (s.entry 143 0).epoch = 0 ∧
      (s.entry 143 0).sem true + 62 ≤ (s.entry 143 0).depth) ∧
    (s.arrives old = true ∧ (s.entry 143 0).epoch ≠ 15) ∧ (s.arrives lost = true ∧ s.owner 143 ≠ some 0) ∧
    (s.arrives reset = true ∧ (s.entry 143 1).isProducer = true) ∧
    (a.arrives ack = true ∧ (a.entry 143 2).isConsumer = true ∧ (a.sq 143).cancelOp 2 .working = some (waitingFor .working 2)) ∧
    (((b 0).sq 143).cancelOp 0 .waiting = some (waitingFor .waiting 0) ∧ (∀ ch ∈ [15], (b 0).isCancelling 143 ch = false) ∧
      (s.entry 143 0).isLocal = true) ∧
    (((b 2).sq 143).cancelOp 2 .waiting = some (waitingFor .waiting 2) ∧ (s.entry 143 2).isLocal = false ∧
      (s.entry 143 2).peerSeat = (s.part (s.partOf 143)).seat) := by
  decide +kernel

/-! ### Turns and Tables -/

/-- Partition 15 as given, of Table 7 with seat 4095. -/
def seatOf (x : Partition) : State :=
  { power := { state := .active }, parts := [(15, { x with tableId := 7, seat := 4095, book := book [(0x68, 0)] })] }

theorem test_turns_begin_hypotheses :
    let x := fun (h : Partition) => (seatOf h).part 15
    (x { runState := .running, turn := 8 }).runState = .running ∧
    ((x { runState := .draining, turn := 8, holdTarget := some 9 }).holdTarget = some 9 ∧ 9 ≤ 8 + 1) ∧
    ((x { runState := .draining, turn := 8, holdTarget := some 10 }).holdTarget = some 10 ∧ 8 + 1 < 10) ∧
    ((x { runState := .armed, start := some (1500, 3) }).start = some (1500, 3) ∧
      (x { runState := .armed, start := some (1500, 3) }).holdTarget = none) ∧
    ((x { runState := .held, heldAt := some 9, resumeAt := some 9000 }).heldAt = some 9 ∧
      (x { runState := .held, heldAt := some 9, resumeAt := some 9000 }).resumeAt = some 9000 ∧
      (x { runState := .held, heldAt := some 9, resumeAt := some 9000 }).holdTarget = none) := by
  decide +kernel

theorem test_start_instant_hypotheses :
    let x := (seatOf { runState := .armed, start := some (1500, 3), joined := [⟨4095, 2, true⟩] }).part 15
    (x.start = some (1500, 3) ∧ x.runState = .armed ∧ x.formed = true ∧ x.holdTarget = none) ∧
    ((seatOf { runState := .armed, start := some (1500, 3) }).part 15).formed = false := by
  decide +kernel

theorem test_late_work_hypotheses :
    let s := seatOf { runState := .held, late := [143, 144], ownHold := [7], holders := [4095] }
    let d := seatOf { runState := .held, late := [144], deferred := [3, 4] }
    let f := seatOf { runState := .held, late := [144], frozen := true }
    let st := (work [record 0x62 [(64, 2)]] 0).updPart 15 (fun x => { x with pool := [] })
    ((s.part 15).late ≠ [] ∧ s.workEnded 15 = true ∧ (s.part 15).deferred = [] ∧ 143 ∈ (s.part 15).late) ∧
    ((d.part 15).late ≠ [] ∧ d.workEnded 15 = true ∧ (d.part 15).deferred = 3 :: [4]) ∧
    ((f.part 15).late ≠ [] ∧ (f.part 15).runState = .held ∧ f.workEnded 15 = false) ∧
    (State.reset.holdover = false ∧ ({ State.reset with holdover := true } : State).holdover = true) ∧
    ((st.part 15).runState = .running ∧ (st.part 15).frozen = false ∧ st.stalemate 15 = true) := by
  decide +kernel

/-- A Table message at link 95. -/
def tableAt (s : State) (m : TableMsg) : State := s.updLink 95 (fun x => { x with tableIn := [m], state := 2 })
/-- The state after it was taken. -/
def tableTaken (s : State) (m : TableMsg) : State := (tableAt s m).updLink 95 (fun x => { x with tableIn := [] })

def msg (kind seat stamp arg : Nat) : TableMsg :=
  { tableId := 7, kind := kind, rsv := 0, cause := 1, seat := seat, stamp := stamp, arg := arg }

/-- The message is taken and its partition is 15. -/
def Taken (s : State) (m : TableMsg) : Prop :=
  (tableAt s m).takeTable 95 m.kind = some (tableTaken s m, m) ∧ (tableTaken s m).partOfTable m.tableId = some 15

theorem test_joins_hypotheses :
    let a := seatOf { runState := .armed, tableProtocol := 2 }
    let good := msg 4 1 0 2
    let bad := msg 4 1 1 2
    let x := (tableTaken a good).part 15
    ((tableAt State.reset good).takeTable 95 4 = some (tableTaken State.reset good, good) ∧
      (tableTaken State.reset good).partOfTable 7 = none) ∧
    (Taken a good ∧ (x.knows good && !x.noEcho good) = false ∧ (tableTaken a good).joinOk 15 95 good = true) ∧
    (Taken a bad ∧ ((tableTaken a bad).part 15).knows bad = false ∧ (tableTaken a bad).joinOk 15 95 bad = false) := by
  unfold Taken; decide +kernel

theorem test_known_joins_hypotheses :
    let j := msg 4 1 0 2
    let b := msg 4 1 1 2
    let known := fun (m : TableMsg) => seatOf { runState := .armed, tableProtocol := 2, seen := [(4, 1, m.stamp)] }
    let again := seatOf { runState := .armed, tableProtocol := 2, seenOn := [(95, 4, 1, 0)] }
    let x := fun (s : State) (m : TableMsg) => (tableTaken s m).part 15
    (Taken again j ∧ (x again j).knowsOn 95 j = true) ∧
    (Taken (known j) j ∧ (x (known j) j).knowsOn 95 j = false ∧ ((x (known j) j).knows j && !(x (known j) j).noEcho j) = true ∧
      (tableTaken (known j) j).joinOk 15 95 j = true) ∧
    (Taken (known b) b ∧ (x (known b) b).knowsOn 95 b = false ∧ ((x (known b) b).knows b && !(x (known b) b).noEcho b) = true ∧
      (tableTaken (known b) b).joinOk 15 95 b = false ∧ b.seat ≠ (x (known b) b).seat) := by
  unfold Taken; decide +kernel

theorem test_starts_hypotheses :
    let m := msg 5 1 1000 0
    let known := seatOf { runState := .armed, seen := [(5, 1, 1000)] }
    let tie := seatOf { runState := .armed, start := some (1000, 4095) }
    (Taken known m ∧ ((tableTaken known m).part 15).knows m = true) ∧
    (Taken tie m ∧ ((tableTaken tie m).part 15).knows m = false ∧ ((tableTaken tie m).part 15).start = some (1000, 4095)) ∧
    (Taken (seatOf { runState := .armed }) m ∧ ((tableTaken (seatOf { runState := .armed }) m).part 15).start = none) := by
  unfold Taken; decide +kernel

theorem test_holds_hypotheses :
    let h := msg 1 1 1000 (2 ^ 32 - 1)
    let r := msg 2 1 1000 0
    let run := seatOf { runState := .running }
    let held := seatOf { runState := .held, heldAt := some 5, holders := [1] }
    let x := (tableTaken run h).part 15
    (Taken run h ∧ x.knows h = false ∧ x.heldAt = none ∧ x.runState = .running ∧ x.holdTarget = none) ∧
    ((tableTaken (seatOf { runState := .running, seen := [(1, 1, 1000)] }) h).part 15).knows h = true ∧
    (Taken held r ∧ ((tableTaken held r).part 15).knows r = false ∧ ((tableTaken held r).part 15).heldAt = some 5) ∧
    ((tableTaken (seatOf { runState := .running, seen := [(2, 1, 1000)] }) r).part 15).knows r = true := by
  unfold Taken; decide +kernel

/-- A release during a pending resume whose resume begins a Hold, and the last release of a Hold. -/
theorem test_releases_hypotheses :
    let r := msg 2 1 1000 0
    let p := seatOf { runState := .held, heldAt := some 5, holders := [1], resumeAt := some 3000, holdTarget := some 8 }
    let x := (tableTaken p r).part 15
    Taken p r ∧ x.knows r = false ∧ x.heldAt = some 5 ∧ x.resumeAt = some 3000 ∧ x.holdTarget = some 8 ∧
      x.holders.filter (fun k => decide (k ≠ r.seat)) = [] := by
  unfold Taken; decide +kernel

theorem test_lengths_and_marks_hypotheses :
    let n := msg 6 1 1000 65535
    let right := msg 3 1 0 5
    let wrong := msg 3 1 0 6
    let v1 := seatOf { runState := .held, tableProtocol := 1 }
    let v2 := seatOf { runState := .held, tableProtocol := 2 }
    let run := fun (now late : Nat) => { seatOf { runState := .running, turn := 5, lateMarks := [(95, late)] } with now := now }
    let inTime := fun (now late : Nat) => (tableTaken (run now late) right).markInTime 15 95
    (Taken v1 n ∧ ((tableTaken v1 n).part 15).tableProtocol < 2) ∧
    (Taken v2 n ∧ 2 ≤ ((tableTaken v2 n).part 15).tableProtocol ∧ ((tableTaken v2 n).part 15).knows n = false) ∧
    ((tableTaken (seatOf { tableProtocol := 2, seen := [(6, 1, 1000)] }) n).part 15).knows n = true ∧
    (Taken (run 40100 1) right ∧ right.arg = ((tableTaken (run 40100 1) right).part 15).turn % 2 ^ 32 ∧ inTime 40100 1 = true) ∧
    (Taken (run 40101 1) right ∧ inTime 40101 1 = false ∧ Tab.get 0 ((tableTaken (run 40101 1) right).part 15).lateMarks 95 < 2) ∧
    (inTime 40101 2 = false ∧ 2 ≤ Tab.get 0 ((tableTaken (run 40101 2) right).part 15).lateMarks 95) ∧
    (Taken (run 40000 0) wrong ∧ wrong.arg ≠ ((tableTaken (run 40000 0) wrong).part 15).turn % 2 ^ 32) := by
  unfold Taken; decide +kernel

/-- A mark in time on a link while another link's marks fail, or do not, and one that came on the link before. -/
theorem test_marks_hypotheses :
    let m := msg 3 1 0 5
    let run := fun (late : Tab Nat) => { seatOf { runState := .running, turn := 5, lateMarks := late } with now := 40100 }
    let x := fun (late : Tab Nat) => (tableTaken (run late) m).part 15
    let good := fun (late : Tab Nat) => ({ x late with lateMarks := Tab.put (x late).lateMarks 95 0 } : Partition).aligned
    let twice := seatOf { runState := .running, turn := 5, seenOn := [(95, 3, 1, 0)] }
    (Taken (run [(95, 3)]) m ∧ (x [(95, 3)]).knowsOn 95 m = false ∧ (tableTaken (run [(95, 3)]) m).markInTime 15 95 = true ∧
      good [(95, 3)] = true) ∧
    (Taken (run [(0, 3)]) m ∧ (tableTaken (run [(0, 3)]) m).markInTime 15 95 = true ∧ good [(0, 3)] = false) ∧
    (Taken twice m ∧ ((tableTaken twice m).part 15).knowsOn 95 m = true) := by
  unfold Taken; decide +kernel

/-! ### Stack memory -/

/-- The module with one page of partition 15 under key 3 at the last page of stack 0's first channel group. -/
def holding (x : Partition) (gen : Bool) : State :=
  { power := { state := .active }, dram := { trained := true, stackTab := stacksMade, pages := [(0, { owner := 15, key := 3, keyGen := gen })] }
    parts := [(15, { x with curKey := some 3, trRoot := rootOf 15, pageMap := [⟨4, true, true, false, 0, 0, 1⟩] })] }

theorem test_memory_hypotheses :
    let s := holding {} false
    let v := holding { vote := some aVote } true
    let off := { s with power := { s.power with state := .boot } }
    let hit : BitVec 580 := 0xFFFFFFFFFFFF
    (s.lostObjects = [] ∧ off.stackOn (paStack 64) = false ∧ s.stackOn (paStack 64) = true) ∧
    ((s.upsetSector 64 0).outcome 15 64 = 0 ∧ s.stackOn (paStack (2 ^ 41 - 1)) = true ∧ (s.part 15).curKey.isSome = true ∧
      s.mirrorPhys 64 = none ∧ 32 % 64 + 32 ≤ 64 ∧ 0 + 64 ≤ 64) ∧
    (2 ≤ (s.upsetSector 64 hit).outcome 15 64 ∧ (s.part 15).vote = none) ∧
    (2 ≤ (v.upsetSector 64 hit).outcome 15 64 ∧ (v.part 15).vote ≠ none) := by
  decide +kernel

theorem test_regulators_hypotheses :
    let s := { holding { rho := 100, kappa := 200 } false with now := 1000 }
    let big : TokenReq := { who := 15, traffic := .link 9600 }
    let one : TokenReq := { who := 15, traffic := .stack 31 1 0 }
    let huge : TokenReq := { who := 15, traffic := .link 12800000 }
    let t := s.refill 7
    let d := t.memDie 7
    ((s.memDie 7).waiting = [] ∧ trafficOnDie one.traffic 7 = true ∧ trafficOnDie big.traffic 7 = true) ∧
 d.reserved one = true ∧ (d.reserved big = false ∧ t.surplus d big = true) ∧
    (d.reserved huge = false ∧ t.surplus d huge = false) := by
  decide +kernel

theorem test_upkeep_hypotheses :
    let s := holding { pagesToInit := [5] } false
    let z := placeAddress 31 63 ((2 ^ 24 - 1) / 64) ((2 ^ 24 - 1) % 64)
    let train := fun (b : Bool) => { s with power := { s.power with memTraining := true }, dram := { s.dram with trained := b } }
    5 ∈ (s.part 15).pagesToInit ∧ s.stackOn 31 = true ∧ State.reset.stackOn 31 = false ∧
    (sectorDecode (s.sectorMeta z).upset = .clean ∧ s.codeFails z = false) ∧
    ((train true).power.memTraining = true ∧ (train true).dram.trained = true ∧ (train false).dram.trained = false) := by
  decide +kernel

/-- Die 7 in a phase of a migration of channel 63 of stack 31 to spare 65, with partition 15 running or none. -/
def migrating (m : MigPhase) (retried : Bool) (parts : Tab Partition) : State :=
  { power := { state := .active }, parts := parts
    dram := { trained := true, dies := [(7, { mig := m, migStack := 31, migChannel := 63, migSpare := 65, migOld := 63, retried := retried
                                              holdsFor := true })]
              stackTab := stacksMade } }

theorem test_channel_migration_hypotheses :
    (∃ r t, Received (hosted 1 {}) r t ∧ reqNames r 0x5300 3 = true ∧ fld (reqValue r) 11 5 = 0 ∧ reqValue r % 32 / 4 = 7 ∧
      t.migrationPending 7 31 63 = false ∧ (t.stack 31).retired.contains ((t.stack 31).physical 63) = false ∧
      (t.memDie 7).mig = .idle ∧ (t.stack 31).free = 64 :: [65] ∧ reqValue r % 32 = 31 ∧ fld (reqValue r) 5 6 = 63) ∧
    ((migrating .training false []).memDie 7).mig = .training ∧
    ((migrating .copying false [(15, { runState := .running })]).tabledParts ≠ [] ∧
      (∃ p ∈ (migrating .copying false [(15, { runState := .running })]).tabledParts,
        ((migrating .copying false [(15, { runState := .running })]).part p).runState ≠ .held)) ∧
    (migrating .copying false []).tabledParts = [] ∧
    (migrating .awaitingHold false [(15, { runState := .held, ownHold := [migHold 7] })]).moduleHeld (migHold 7) = true ∧
    (((migrating .testing false []).memDie 7).queue = [] ∧ 63 ∉ ((migrating .testing false []).stack 31).returned) ∧
    ((migrating .awaitingHold false []).memDie 7).retried = false ∧ ((migrating .awaitingHold true []).memDie 7).retried = true ∧
    ((migrating .awaitingRetry true []).memDie 7).mig = .awaitingRetry :=
  ⟨⟨_, _, got _ 1 0x5300 3 [0xFF, 0x07] (by decide +kernel), by decide +kernel⟩, by decide +kernel, by decide +kernel, by decide +kernel,
    by decide +kernel, by decide +kernel, by decide +kernel, by decide +kernel, by decide +kernel⟩

theorem test_switch_timeout_hypotheses :
    let held := fun (again : Bool) => migrating .awaitingHold again [(15, { runState := .held, ownHold := [migHold 7] })]
    let not_ := migrating .awaitingHold false [(15, { runState := .running, ownHold := [migHold 7] })]
    not_.moduleHeld (migHold 7) = false ∧
    (((held false).memDie 7).retried = false ∧ (held false).moduleHeld (migHold 7) = true) ∧
    (((held true).memDie 7).retried = true ∧ (held true).moduleHeld (migHold 7) = true ∧ ((held true).memDie 7).queue = []) := by
  decide +kernel

/-! ### Chip links -/

/-- Link 95 of the working module: up, version 2, with partition 15 under its slot 16. -/
def linked (x : Link) : State :=
  { (work [] 0).updLink 95 (fun _ => { x with state := 2, version := 2, rxKeys := [(16, { part := some 15 })] }) with
    service := { ({} : Service) with maxima := [2, 2, 2, 2, 2, 2] } }

/-- A transaction for partition 15 that has arrived at its seat. -/
def txn (kind tag address : Nat) (inl data : List Byte) : Txn :=
  { kind := kind, keySlot := 16, txnTag := tag, address := address, inl := inl, data := data }

def arrivedAt (t : Txn) : State := linked { arrived := [t] }

/-- An address in the Local Store of Square 143. -/
def lsAt (off : Nat) : Nat := 2 ^ 41 + off

theorem test_link_trains_hypotheses :
    let w := txn 1 0 (lsAt 8) (leBytes 16 2) [1, 2]
    let b := txn 1 0 0 (leBytes 16 2) [1, 2]
    let pt := txn 5 0 (lsAt 0) (leBytes 16 (2 + 3 * 2 ^ 32 + 8 * 2 ^ 64)) [1, 2]
    let sg := fun (lg len : Nat) => txn 6 0 (lsAt 0) (leBytes 24 (len + 1 * 2 ^ 32 + lg * 2 ^ 64)) (List.replicate 68 1)
    let tk := fun (len : Nat) => txn 7 0 (lsAt 0) (leBytes 24 (len + 1 * 2 ^ 32 + 4 * 2 ^ 64)) (List.replicate 8 1)
    let rdx := fun (n a : Nat) => txn 2 0 a (leBytes 16 n) []
    let ok := fun (t : Txn) (k : Nat) => (arrivedAt t).takeTxn 95 k = some (t, 15)
    let u := fun (t : Txn) => ((arrivedAt t).popTxn 95).active 15
    (ok w 1 ∧ ((u w).splitWrites 15 (runWrites w.address (trainData w) 0 0)).2 = none) ∧
    (ok b 1 ∧ ((u b).splitWrites 15 (runWrites b.address (trainData b) 0 0)).2 = some (1, 0)) ∧ ok pt 5 ∧
    (ok (sg 8 68) 6 ∧ rd (sg 8 68).inl 8 1 = 8 ∧ rd (sg 8 68).inl 0 4 = scaleStart 1 + 4 * cdiv 1 (2 ^ 8) ∧
      rd (sg 8 68).inl 0 4 ≤ (sg 8 68).data.length) ∧
    (ok (sg 7 68) 6 ∧ rd (sg 7 68).inl 8 1 = 7) ∧
    (ok (tk 8) 7 ∧ rd (tk 8).inl 0 4 = 4 * 1 + 1 * rd (tk 8).inl 8 4 ∧ rd (tk 8).inl 0 4 ≤ (tk 8).data.length) ∧
    (ok (tk 7) 7 ∧ rd (tk 7).inl 0 4 ≠ 4 * 1 + 1 * rd (tk 7).inl 8 4) ∧
    ((ok (rdx 0 0) 2 ∧ rd (rdx 0 0).inl 0 4 = 0) ∧ (ok (rdx 8193 0) 2 ∧ readLimit ((arrivedAt (rdx 8193 0)).link 95).version < 8193)) ∧
    (ok (rdx 2 (lsAt 8)) 2 ∧ 2 ≤ readLimit ((arrivedAt (rdx 2 (lsAt 8))).link 95).version ∧
      (u (rdx 2 (lsAt 8))).readFault 15 [lsAt 8, lsAt 9] = none) ∧
    (ok (rdx 1 0) 2 ∧ (u (rdx 1 0)).readFault 15 [0] = some (1, 0)) := by
  decide +kernel

theorem test_no_train_hypotheses :
    let s := arrivedAt (txn 8 0 0 [] [])
    ∀ k ∈ [1, 2, 3, 4, 5, 6, 7], s.takeTxn 95 k = none := by
  decide +kernel

/-- Channel 7 of link 95 has sent transaction 9. -/
def awaiting (phase : ChPhase) (live : Bool) (t : Txn) : State :=
  linked { arrived := [t], movers := [(7, { phase := phase, partition := 15, sent := [⟨9, 0, 64, live, []⟩] })] }

theorem test_link_answers_hypotheses :
    let t := fun (kind tag status : Nat) => txn kind tag 0 (leBytes 1 status) [1, 2]
    let v := fun (s : State) => ((s.popTxn 95).active 15).dropTag 95 7 9
    let ok := fun (s : State) (kind tag status : Nat) => s.takeTxn 95 kind = some (t kind tag status, 15)
    let from7 := fun (s : State) (live : Bool) => ((s.popTxn 95).active 15).senderOf 95 9 = some (7, ⟨9, 0, 64, live, []⟩)
    (ok (arrivedAt (t 4 9 0)) 4 9 0 ∧ (((arrivedAt (t 4 9 0)).popTxn 95).active 15).senderOf 95 9 = none) ∧
    (ok (awaiting .active true (t 4 9 0)) 4 9 0 ∧ from7 (awaiting .active true (t 4 9 0)) true) ∧
    (ok (awaiting .active true (t 3 9 0)) 3 9 0 ∧ from7 (awaiting .active true (t 3 9 0)) true ∧
      ((v (awaiting .active true (t 3 9 0))).channel (.link 95) 7).phase = .active) ∧
    (ok (awaiting .idle false (t 3 9 0)) 3 9 0 ∧ from7 (awaiting .idle false (t 3 9 0)) false) ∧
    (ok (awaiting .active true (t 4 9 1)) 4 9 1 ∧ from7 (awaiting .active true (t 4 9 1)) true ∧
      (v (awaiting .active true (t 4 9 1))).stoppable ((v (awaiting .active true (t 4 9 1))).channel (.link 95) 7) = true) ∧
    (ok (awaiting .idle false (t 3 9 255)) 3 9 255 ∧ from7 (awaiting .idle false (t 3 9 255)) false) := by
  decide +kernel

/-- Refused answers to the last descriptor of a chain, with Barrier 1 and without, and to one that no abort reaches. -/
theorem test_refused_answers_hypotheses :
    let t := txn 4 9 0 (leBytes 1 1) []
    let r := txn 3 9 0 (leBytes 1 0) []
    let v := fun (s : State) => ((s.popTxn 95).active 15).dropTag 95 7 9
    let d := fun (s : State) => (v s).channel (.link 95) 7
    let with_ := fun (s : State) (b : Nat) => s.updPart 15 (fun x => { x with mdesc := [copy [(54, b)]] })
    let one := with_ (awaiting .written true t) 1
    let two := with_ (awaiting .written true t) 0
    let gone := with_ (awaiting (.aborting 2) true t) 0
    let late := awaiting .written true r
    let last := fun (s : State) => (d s).phase = .written ∧ (v s).chainEnds (d s).partition (d s).desc = true
    let came := fun (s : State) (x : Txn) => s.takeTxn 95 x.kind = some (x, 15) ∧
      ((s.popTxn 95).active 15).senderOf 95 9 = some (7, ⟨9, 0, 64, true, []⟩)
    (came one t ∧ last one ∧ mdBarrier ((v one).mdesc (d one)) = true) ∧
    (came two t ∧ last two ∧ mdBarrier ((v two).mdesc (d two)) = false) ∧
    (came gone t ∧ (v gone).stoppable (d gone) = false ∧ ¬last gone) ∧
    (came late r ∧ (d late).phase ≠ .active) := by
  decide +kernel

theorem test_link_messages_hypotheses :
    let inl := fun (q e n ep : Nat) => leBytes 32 (q + 256 * e + 65536 * n + 2 ^ 24 * ep)
    let t := fun (kind q e n ep : Nat) => txn kind 0 0 (inl q e n ep) []
    let ok := fun (x : Txn) => (arrivedAt x).takeTxn 95 x.kind = some (x, 15)
    let post := t 8 143 128 62 0
    let old := t 8 143 128 1 15
    let lost := t 8 0 0 1 0
    let reset := t 9 143 1 0 15
    let ack := t 0x0A 143 2 0 15
    let s := arrivedAt post
    let a := (arrivedAt ack).updSq 143 (fun x => { x with inflight := [opOf 0 (.linkCancel 2 [15]) .working] })
    let order : Txn := { kind := 0x10, inl := leBytes 24 (2 ^ 64) }
    let on := { t 1 0 0 0 0 with hops := [0, 95] }
    let off := { t 1 0 0 0 0 with hops := [0, 96], hopIndex := 1 }
    let astray := { t 1 0 0 0 0 with destSeat := 1 }
    (ok post ∧ s.owner 143 = some 15 ∧ inlSquare post = 143 ∧ inlEntry post = 0 ∧ inlSem post = true ∧
      (s.entry 143 0).owns true = true ∧ (s.entry 143 0).epoch = inlEpoch post ∧ rd post.inl 2 1 = 62 ∧
      (s.entry 143 0).sem true + 62 ≤ (s.entry 143 0).depth) ∧
    (ok old ∧ inlSquare old = 143 ∧ inlEntry old = 0 ∧ (s.entry 143 0).epoch ≠ inlEpoch old) ∧
    (ok lost ∧ s.owner (inlSquare lost) ≠ some 15) ∧
    (ok reset ∧ inlSquare reset = 143 ∧ (s.entry 143 (inlEntry reset)).isProducer = true) ∧
    (a.takeTxn 95 0x0A = some (ack, 15) ∧ inlSquare ack = 143 ∧ (a.entry 143 (inlEntry ack)).isConsumer = true ∧
      (a.sq 143).cancelOp (inlEntry ack) .working = some (opOf 0 (.linkCancel 2 [15]) .working)) ∧
    ok (t 0x0B 0 0 0 0) ∧
    ((arrivedAt order).link 95).arrived = order :: [] ∧ (orderedMsgs order).length = 1 ∧ (∀ m ∈ orderedMsgs order, tableMsgOk m = true) ∧
    (∀ x ∈ [on, off, astray], ((arrivedAt x).link 95).arrived = x :: [] ∧ ((arrivedAt x).link 95).slotPart x.keySlot = some 15) ∧
    nextHop on = some 0 ∧ nextHop off = some 96 ∧ nextHop astray = none ∧ astray.destSeat ≠ ((arrivedAt astray).part 15).seat := by
  decide +kernel

theorem test_link_control_hypotheses :
    let c := fun (l : List (Nat × Nat)) => ({ kind := 0x11, inl := leBytes 80 (fields l) } : Txn)
    let hi := fun (v : Nat) => c [(0, 1), (8, v)]
    let s := arrivedAt (hi 1)
    let time := c [(0, 4), (64, 2000), (128, 1500)]
    let ts := linked { arrived := [time], ownTime := 1 }
    let sr := c [(0, 5), (8, 33), (16, 32)]
    let ss := linked { arrived := [sr], txLanes := [28, 29, 30, 33] }
    let sa := c [(0, 6), (32, 4095)]
    let as_ := linked { arrived := [sa], swapTx := some { lane := 31, spare := 33, atSeq := none } }
    let ll := c [(0, 7), (8, 31)]
    let ls := linked { arrived := [ll], txLanes := [28, 29, 30, 31] }
    let names := fun (x : State) (t : Txn) (sub : Nat) => (x.link 95).arrived = t :: [] ∧ t.kind = 0x11 ∧ rd t.inl 0 1 = sub
    (names s (hi 1) 1 ∧ min (s.service.maxima.getD 3 0) (rd (hi 1).inl 1 1) = 1) ∧
    (names (arrivedAt (hi 0)) (hi 0) 1 ∧ min (s.service.maxima.getD 3 0) (rd (hi 0).inl 1 1) = 0) ∧
    names (arrivedAt (c [(0, 2)])) (c [(0, 2)]) 2 ∧
    (names (arrivedAt (c [(0, 3), (8, 1)])) (c [(0, 3), (8, 1)]) 3 ∧ names (arrivedAt (c [(0, 3), (8, 16)])) (c [(0, 3), (8, 16)]) 3 ∧
      s.partOfTable 9 = none ∧ s.partOfTable 0 = some 15) ∧
    (names ts time 4 ∧ (ts.link 95).ownTime ≠ 0 ∧ rd time.inl 16 8 ≠ 0 ∧ ts.timeSource ≠ 95 ∧
      ({ ts with timeSource := 95 } : State).timeSource = 95) ∧
    ((s.link 95).up = true ∧ (s.link 0).up = false) ∧
    (names ss sr 5 ∧ (ss.link 95).txLanes.contains (rd sr.inl 1 1) = true) ∧
    (names as_ sa 6 ∧ (as_.link 95).swapTx.isSome = true) ∧
    (names ls ll 7 ∧ (ls.link 95).txLanes.contains (rd ll.inl 1 1) = true ∧ (ls.link 95).swapTx = none ∧
      lowSpare (ls.group 11).sparesTx = some 32) ∧
    names (arrivedAt (c [(0, 8)])) (c [(0, 8)]) 8 := by
  decide +kernel

theorem test_time_hypotheses :
    let time : Txn := { kind := 0x11, inl := leBytes 80 (fields [(0, 4), (64, 2000), (128, 1500)]) }
    let s := { linked { arrived := [time], ownTime := 1 } with timeSource := 0xFF }
    let set := { s with power := { s.power with epochSet := true } }
    (s.link 95).arrived = time :: [] ∧ (s.link 95).ownTime ≠ 0 ∧ (s.timeSource = 0xFF ∧ s.power.epochSet = false) ∧
      (set.timeSource ≠ 95 ∧ set.power.epochSet = true) := by
  decide +kernel

theorem test_link_lanes_hypotheses_1 :
    let s := linked { rxLanes := [28, 29, 30, 31] }
    let w := linked { rxLanes := [28, 29, 30, 31], swapRx := some { lane := 31, spare := 32, atSeq := none } }
    let n := s.updGroup 11 (fun g => { g with sparesRx := [] })
    let m := linked { retrainMap := some (2, [28, 29, 30, 31], [28, 29, 30, 31]) }
    ((s.link 95).up = true ∧ (s.link 95).rxLanes.getD 3 noLane ≠ noLane ∧ s.noExchange 11 (fun y => y.swapRx) = true ∧
      lowSpare (s.group 11).sparesRx = some 32 ∧ (s.link 95).swapRx = none) ∧
    ((w.link 95).up = true ∧ (w.link 95).swapRx = some { lane := 31, spare := 32, atSeq := none }) ∧
    (lowSpare (n.group 11).sparesRx = none ∧ (n.link 95).up = true) ∧ (m.link 95).retrainMap.isSome = true ∧
    (∀ ch < 8, (s.channel (.link 95) ch).phase ≠ .active) := by
  decide +kernel

theorem test_link_lanes_hypotheses_2 :
    ∃ r t, Received ((hosted 1 {}).updLink 95 (fun x => { x with state := 2 })) r t ∧ r.index = 0x4100 + 95 ∧ r.sub = 7 ∧ reqValue r = 1 ∧
      (t.link 95).retrainHold = false ∧ t.linkParts 95 = [] ∧ (∀ p < 16, retrainCause 95 ∉ (t.part p).ownHold) ∧
      (t.link 95).retrainMap = none :=
  ⟨_, _, got _ 1 0x415F 7 [1] (by decide +kernel), by decide +kernel⟩

theorem test_link_lanes_hypotheses_3 :
    let s := fun (n : Nat) => linked { rxLanes := [28, 29, 30, 31], swapThreshold := 5, corrected := [(31, 0, 2), (30, 0, 9), (31, 0, n)] }
    let out := linked { movers := [(7, { phase := .active, partition := 15 })] }
    let back := { linked { movers := [(7, { phase := .active, partition := 15, transfer := some 0 })] } with
      parts := [(15, { runState := .running, book := book (linkSection ++ [(0x143, 2)]) })] }
    let errors := fun (x : State) => (x.link 95).laneErrors x.now 31
    ((s 3).link 95).swapThreshold ≤ errors (s 3) ∧ errors (s 2) < ((s 2).link 95).swapThreshold ∧
    (((s 3).link 95).up = true ∧ (s 3).noExchange 11 (fun y => y.swapRx) = true ∧ lowSpare ((s 3).group 11).sparesRx = some 32) ∧
    (out.farSide (.link 95) 7 ≠ 2 ∧ ∀ k < 8, k ≠ 7 → (out.channel (.link 95) k).phase ≠ .active) ∧
    (back.farSide (.link 95) 7 = 2 ∧ (back.channel (.link 95) 7).phase = .active) ∧ (out.link 95).retrainMap = none := by
  decide +kernel

/-- A codeword whose last information symbol alone is not zero, with its parity symbols. -/
def endWord (w : List Nat) : List Nat := List.replicate 257 0 ++ w

/-- A frame with header 0 whose flits are zero but for their last four bytes, chosen so that the Crc field is zero too: those bytes and the
parity symbols were worked out by hand from R337 and Table LNK-4. -/
def zeroFrame : RawFrame :=
  [endWord [512, 1023, 27, 444, 144, 794, 421, 969, 185, 210, 122, 685, 259, 16, 529],
   endWord [302, 858, 749, 403, 385, 239, 1, 649, 72, 477, 480, 95, 83, 974, 347],
   endWord [841, 11, 932, 41, 490, 459, 648, 842, 773, 7, 446, 636, 35, 58, 501],
   endWord [744, 637, 619, 312, 431, 672, 500, 674, 604, 853, 843, 230, 132, 277, 170]]

theorem gfMul_zero (x : Nat) : gfMul 0 x = 0 := by
  have h : ∀ (n b : Nat), gfMulFrom 0 b n = 0 := by
    intro n
    induction n with
    | zero => intro b; rfl
    | succ n ih => intro b; unfold gfMulFrom; rw [ih]; simp [gfX]
  exact h 10 _

theorem gfEval_endWord (w : List Nat) (x : Nat) : gfEval (endWord w) x = gfEval w x := by
  have h : ∀ n, (List.replicate n 0).foldl (fun a c => gfMul a x ^^^ c) 0 = 0 := by
    intro n
    induction n with
    | zero => rfl
    | succ n ih => rw [List.replicate_succ, List.foldl_cons, gfMul_zero]; exact ih
  unfold gfEval endWord
  rw [List.foldl_append, h]

theorem endWord_decodes (w : List Nat) (hl : w.length = 15)
    (hs : ((List.range 14).all fun i => decide (gfEval w (gfPow 2 i) = 0)) = true) : frameDecode (endWord w) = some (endWord w, 0) := by
  have e : (endWord w).length = 272 := by simp [endWord, hl]
  have z : ((frameSyndromes (endWord w)).all fun x => decide (x = 0)) = true := by
    rw [← hs]; simp only [frameSyndromes, List.all_map, gfEval_endWord]; rfl
  unfold frameDecode
  simp only [e, ne_eq, not_true_eq_false, if_false, z, if_true]

theorem test_frame_decodes : decodeFrame zeroFrame = some (zeroFrame, 0) := by
  have h : ∀ w ∈ zeroFrame, frameDecode w = some (w, 0) := by
    intro w hw
    simp only [zeroFrame, List.mem_cons, List.not_mem_nil, or_false] at hw
    obtain rfl | rfl | rfl | rfl := hw <;> exact endWord_decodes _ (by decide) (by decide +kernel)
  have e : zeroFrame.map frameDecode = zeroFrame.map (fun w => some (w, 0)) := List.map_congr_left h
  have l : zeroFrame.length = 4 := rfl
  unfold decodeFrame
  rw [e]
  simp [l, List.filterMap_map, Function.comp_def]

def blankFrame : RawFrame := List.replicate 4 (endWord (List.replicate 15 0))

theorem test_blank_frame_decodes : decodeFrame blankFrame = some (blankFrame, 0) := by
  have h : ∀ w ∈ blankFrame, frameDecode w = some (w, 0) := by
    intro w hw
    obtain rfl := List.eq_of_mem_replicate hw
    exact endWord_decodes _ rfl (by decide +kernel)
  have e : blankFrame.map frameDecode = blankFrame.map (fun w => some (w, 0)) := List.map_congr_left h
  have l : blankFrame.length = 4 := rfl
  unfold decodeFrame
  rw [e]
  simp [l, List.filterMap_map, Function.comp_def]

theorem test_blank_frame_refused : frameCrcOk (frameBytes blankFrame) = false := by decide +kernel

theorem test_link_frames_hypotheses :
    let h := rd (frameBytes zeroFrame) 0 10
    let x := (linked {}).link 95
    let base := (List.range 4).map (fun i => 4 * (95 % 8) + i)
    let rep : LaneReport := { working := base, grounded := [], shorted := [] }
    let peer : PeerReport := { version := 1, chainOk := true, signatureOk := true, serial := 1, link := 0, roundTrip := 5 }
    let s := (linked {}).updLink 95 (fun _ => { state := 1 })
    let kept := fun (n : Nat) => linked { retained := [⟨4095, [], n, 0⟩] }
    let again := fun (n : Nat) => ((kept n).link 95).retained.map (fun g => if g.seq = 4095 then { g with sends := g.sends + 1 } else g)
    (frameCrcOk (frameBytes zeroFrame) = true ∧ hdrReserved h = 0 ∧ hdrNakValid h = false ∧ hdrIdle h = false ∧ hdrSeq h = x.rxSeq ∧ x.heldFrames = [] ∧ x.hears = true) ∧
    decodeFrame [] = none ∧
    ((s.link 95).state = 1 ∧ (s.link 95).stream = [] ∧ (s.link 95).retained = [] ∧ (∀ c ∈ base, rep.working.contains c = true) ∧
      min (s.service.maxima.getD 3 0) peer.version ≠ 0 ∧ min (s.service.maxima.getD 3 0) 0 = 0) ∧
    (∀ n ∈ [14, 15], ((kept n).link 95).retained = ⟨4095, [], n, 0⟩ :: [] ∧ ((kept n).link 95).up = true) ∧
    ((∀ g ∈ again 14, g.sends < 16) ∧ (∃ g ∈ again 15, 16 ≤ g.sends) ∧ (kept 15).timeSource ≠ 95) ∧
    (((linked {}).link 0).up = false ∧ ((linked {}).link 95).retained = [] ∧ ((linked {}).link 0).hears = false) ∧
    (((linked {}).group 11).cable = false ∧ State.reset.ioOn = false ∧ (linked {}).ioOn = true) ∧
    ((linked {}).slotId = 0 ∧ (linked {}).coordinatorSilent = false ∧ (linked {}).power.state ≠ .off) := by
  decide +kernel

/-! ### Aslet -/

def asleted (x : Aslet) : State := { power := { state := .active }, aslet := { x with state := 2, version := 2 } }

theorem leBytes_length (n v : Nat) : (leBytes n v).length = n := by
  induction n generalizing v with
  | zero => rfl
  | succ n ih => simp [leBytes, ih]

/-- A frame of low-rate mode that is zero but for the first three symbols of each codeword. -/
def padded (heads : List (List Nat)) : RawFrame := heads.map (fun h => h ++ List.replicate 255 0)

/-- One with header fields 0 but for its Crc: its flits are zero but for the first four bytes, chosen so that the rest does not change the CRC. -/
def lowHeads : List (List Nat) :=
  [[0, 0, 604], [0, 0, 855], [0, 0, 227], [0, 0, 1], [768, 0, 0], [1023, 0, 0], [1023, 0, 0], [1023, 0, 0], [0, 0, 0], [0, 0, 0], [0, 0, 0],
   [0, 0, 0], [0, 0, 0], [0, 0, 0], [0, 0, 0], [0, 0, 0]]
def lowFrame : RawFrame := padded lowHeads

/-- One whose header has reserved bits. -/
def oddHeads : List (List Nat) := List.replicate 8 [0, 0, 0] ++ List.replicate 8 [1, 0, 0]
def oddFrame : RawFrame := padded oddHeads

def lowValue : Nat := 0x4E3D5E5C000000000000000000000000000000000000000000000000000000000000FFFFFFFF000000000000

theorem low_zero (heads : List (List Nat)) (hh : ∀ x ∈ heads, x.length = 3) (n k : Nat) (h : 3 ≤ k) :
    ((padded heads).getD n []).getD k 0 = 0 := by
  have e : ∀ w ∈ padded heads, w.getD k 0 = 0 := by
    intro w hw
    obtain ⟨x, hx, rfl⟩ := List.mem_map.mp hw
    have l : x.length = 3 := hh x hx
    rw [List.getD_append_right _ _ _ _ (by omega)]
    rw [List.getD_eq_getElem?_getD, List.getElem?_replicate]
    split <;> rfl
  by_cases c : n < (padded heads).length
  · rw [List.getD_eq_getElem _ _ c]; exact e _ (List.getElem_mem c)
  · rw [List.getD_eq_default _ _ (Nat.le_of_not_lt c)]; rfl

theorem leBytes_append (a b v : Nat) : leBytes (a + b) v = leBytes a v ++ leBytes b (v / 256 ^ a) := by
  induction a generalizing v with
  | zero => simp [leBytes]
  | succ a ih =>
    rw [Nat.add_right_comm, leBytes, ih, leBytes, List.cons_append, Nat.div_div_eq_div_mul, Nat.pow_succ, Nat.mul_comm (256 ^ a)]

theorem leBytes_zero (n : Nat) : leBytes n 0 = List.replicate n 0 := by
  induction n with
  | zero => rfl
  | succ n ih => rw [leBytes, Nat.zero_div, ih]; rfl

/-- The number that the first 48 symbols of a frame spell. -/
def headValue (frame : RawFrame) : Nat := (interleaveInfo frame 48).foldr (fun x a => x % 1024 + 1024 * a) 0

theorem padded_bytes (heads : List (List Nat)) (l : heads.length = 16) (hh : ∀ x ∈ heads, x.length = 3)
    (hv : headValue (padded heads) / 256 ^ 44 = 0) :
    asletBytes (padded heads) = leBytes 44 (headValue (padded heads)) ++ List.replicate 5116 0 := by
  have z : ∀ n, (List.replicate n 0).foldr (fun x a => x % 1024 + 1024 * a) 0 = 0 := by
    intro n
    induction n with
    | zero => rfl
    | succ n ih => rw [List.replicate_succ, List.foldr_cons, ih]
  have l' : (padded heads).length = 16 := by simp [padded, l]
  have e : interleaveInfo (padded heads) 4128 = (interleaveInfo (padded heads) 48) ++ List.replicate 4080 0 := by
    have t : ∀ k ∈ (List.range 4080).map (48 + ·),
        ((padded heads).getD (k % (padded heads).length) []).getD (k / (padded heads).length) 0 = 0 := by
      intro k hk
      obtain ⟨i, -, rfl⟩ := List.mem_map.mp hk
      exact low_zero _ hh _ _ (by rw [l']; omega)
    have d : List.range 4128 = List.range 48 ++ (List.range 4080).map (48 + ·) := List.range_add (n := 48) (m := 4080)
    unfold interleaveInfo
    rw [d, List.map_append, List.map_congr_left t, List.map_const', List.length_map, List.length_range]
  unfold asletBytes symbolsToBytes
  rw [e, List.foldr_append, z, show (5160 : Nat) = 44 + 5116 from rfl, leBytes_append]
  unfold headValue at hv ⊢
  rw [hv, leBytes_zero]

theorem low_bytes : asletBytes lowFrame = leBytes 44 lowValue ++ List.replicate 5116 0 := by
  have v : headValue (padded lowHeads) = lowValue := by decide +kernel
  rw [lowFrame, padded_bytes _ rfl (by decide) (by rw [v]; decide +kernel), v]

theorem padded_decodes (heads : List (List Nat)) (l : heads.length = 16) (w : ((padded heads).all fun w => decide (w.length = 258)) = true) :
    asletDecode true (padded heads) = some (padded heads) := by
  have l' : (padded heads).length = 16 := by simp [padded, l]
  unfold asletDecode
  simp only [l', ne_eq, not_true_eq_false, if_false, if_true, w]

theorem low_decodes : asletDecode true lowFrame = some lowFrame := padded_decodes _ rfl (by decide +kernel)
theorem test_odd_frame_decodes : asletDecode true oddFrame = some oddFrame := padded_decodes _ rfl (by decide +kernel)

theorem crc_zeros (n : Nat) : (List.replicate n (0 : Byte)).foldl crc32Byte 0 = 0 := by
  induction n with
  | zero => rfl
  | succ n ih => rw [List.replicate_succ, List.foldl_cons]; exact ih

theorem rd_front (a l : List Byte) (off n : Nat) (h : off + n ≤ a.length) : rd (a ++ l) off n = rd a off n := by
  unfold rd
  rw [List.drop_append_of_le_length (by omega), List.take_append_of_le_length (by rw [List.length_drop]; omega)]

/-- The frame's bytes, whatever the number of zeros that follow. -/
theorem low_crc (n : Nat) : let b := leBytes 44 lowValue ++ List.replicate n 0
    crc32 (b.take 6 ++ b.drop 40) = 0xFFFFFFFF ∧ rd b 0 10 = 0xFFFFFFFF <<< 48 ∧ rd b 10 30 = 0 := by
  have l : (leBytes 44 lowValue).length = 44 := leBytes_length _ _
  have f : ((leBytes 44 lowValue).take 6 ++ (leBytes 44 lowValue).drop 40).foldl crc32Byte 0xFFFFFFFF = 0 := by decide +kernel
  have g : rd (leBytes 44 lowValue) 0 10 = 0xFFFFFFFF <<< 48 ∧ rd (leBytes 44 lowValue) 10 30 = 0 := by decide +kernel
  intro b
  refine ⟨?_, ?_, ?_⟩
  · rw [List.take_append_of_le_length (by rw [l]; decide), List.drop_append_of_le_length (by rw [l]; decide), ← List.append_assoc]
    unfold crc32
    rw [List.foldl_append, f, crc_zeros, Nat.zero_xor]
  · rw [rd_front _ _ _ _ (by rw [l]; decide), g.1]
  · rw [rd_front _ _ _ _ (by rw [l]; decide), g.2]

theorem test_odd_frame_refused : asletFrameOk (asletBytes oddFrame) = false := by
  have h : rd (asletBytes oddFrame) 10 30 ≠ 0 := by
    rw [oddFrame, padded_bytes _ rfl (by decide) (by decide +kernel), rd_front _ _ _ _ (by rw [leBytes_length]; decide)]
    decide +kernel
  simp [asletFrameOk, h]

theorem test_aslet_frame : asletFrameOk (asletBytes lowFrame) = true ∧ hdrNakValid (rd (asletBytes lowFrame) 0 10) = false ∧
    hdrIdle (rd (asletBytes lowFrame) 0 10) = false ∧ hdrSeq (rd (asletBytes lowFrame) 0 10) = 0 := by
  obtain ⟨h1, h2, h3⟩ := low_crc 5116
  unfold asletFrameOk
  rw [low_bytes, h1, h2, h3]
  decide +kernel

theorem test_aslet_link_hypotheses :
    let rep := fun (l : List Nat) => ({ working := l, grounded := [], shorted := [] } : LaneReport)
    let c := fun (sub len : Nat) => ({ kind := 7, status := sub, length := len } : AsletTxn)
    let kept := fun (n : Nat) => asleted { retained := [⟨4095, [], n, 0⟩] }
    let again := fun (n : Nat) => (kept n).aslet.retained.map (fun g => if g.seq = 4095 then { g with sends := g.sends + 1 } else g)
    let asleep := { asleted {} with power := { state := .active, sleepEntry := true } }
    (State.ioOn (asleted {}) = true ∧ chooseWidth (rep [0, 1, 2]) = none ∧ chooseWidth (rep (List.range 16)) = some (16, false) ∧
      chooseWidth (rep (List.range' 1 15)) = some (8, true) ∧ chooseWidth (rep [0, 1, 2, 3, 15]) = some (4, false)) ∧
    (let a : Aslet := { state := 1, lowRate := true };
      a.hears = true ∧ asletDecode a.lowRate [] = none ∧ a.rxSeq = 0 ∧ a.heldFrames = []) ∧
    ({ state := 1 } : Aslet).up = false ∧
    (∀ n ∈ [14, 15], (kept n).aslet.retained = ⟨4095, [], n, 0⟩ :: [] ∧ (kept n).aslet.up = true) ∧
    ((∀ g ∈ again 14, g.sends < 16) ∧ (∃ g ∈ again 15, 16 ≤ g.sends) ∧ (asleted {}).aslet.retained = []) ∧
    ((∀ f ∈ (kept 14).aslet.retained, f.sends + 1 < 16) ∧ (∃ f ∈ (kept 15).aslet.retained, 16 ≤ f.sends + 1)) ∧
    ((rep [0, 1, 2]).working.contains 0 = true ∧ (rep (List.range' 1 15)).working.contains 0 = false ∧ State.reset.ioOn = false ∧
      State.reset.aslet.hears = false) ∧
    (asleted { arrived := [c 2 5] }).aslet.arrived = c 2 5 :: [] ∧
    (∀ len ∈ [4, 8, 16], (asleted { arrived := [c 2 len] }).aslet.arrived = c 2 len :: [] ∧ (c 2 len).kind = 7 ∧ (c 2 len).status = 2) ∧
    (∀ sub ∈ [1, 3, 4], (asleted { arrived := [c sub 0] }).aslet.arrived = c sub 0 :: [] ∧ (c sub 0).kind = 7 ∧ (c sub 0).status = sub) ∧
    (asleep.aslet.arrived = [] ∧ asleep.power.sleepEntry = true ∧ asleep.hostIdle = true ∧ asleep.aslet.sleepAsked = false ∧
      asleep.aslet.up = true ∧ asleep.aslet.lane0 = true ∧ asleep.aslet.lowRate = false ∧ (asleted { lane0 := false }).aslet.lane0 = false ∧
      (∀ l < 96, (asleep.link l).state = 0) ∧ ∃ l, l < 96 ∧ ((asleep.updLink 95 (fun x => { x with state := 2 })).link l).state ≠ 0) ∧
    ((asleted { sleepAsked := true }).aslet.sleepAsked = true ∧ (asleted {}).power.sleepEntry = false) := by
  decide +kernel

theorem test_aslet_transactions_hypotheses :
    let t := fun (kind len addr ch status : Nat) (data : List Byte) =>
      ({ kind := kind, tag := 9, channel := ch, address := addr, length := len, status := status, data := data } : AsletTxn)
    let pends := fun (want : AsletWant) (x : AsletTxn) => ((asleted { pend := [⟨9, 31, want, 64, 128⟩], arrived := [x] }).updChannel .host 31
      (fun c => { c with phase := .active, partition := 15 }))
    let out := (pends .recordWrite (t 4 0 0 0 0 [])).updChannel .host 31 (fun c => { c with trailerOut := some (64, [1]) })
    let frame := List.replicate 1 1 ++ List.replicate 31 (1 : Byte)
    (∀ k ∈ [1, 2, 3, 4, 5, 6], (asleted { arrived := [t k 1 0 0 0 []] }).aslet.arrived = t k 1 0 0 0 [] :: []) ∧
    asletMaxBytes 2 = 8192 ∧ 8192 < (t 2 8193 0 0 0 []).length ∧ 4096 < (t 2 1 4096 0 0 []).address + (t 2 1 4096 0 0 []).length ∧
    (t 2 1 4095 0 0 []).address + (t 2 1 4095 0 0 []).length ≤ 4096 ∧
    (asleted {}).aslet.pending 9 = none ∧
    (∀ w ∈ [AsletWant.trailers, .record, .recordWrite, .trailerWrite], (pends w (t 3 2 0 0 0 [1, 2])).aslet.pending 9 = some ⟨9, 31, w, 64, 128⟩) ∧
    ((pends .record (t 3 0 0 0 1 [])).stoppable ((pends .record (t 3 0 0 0 1 [])).channel .host 31) = true) ∧
    ((out.channel .host 31).trailerOut = some (64, [1]) ∧
      ((out.updAslet (fun x => { x with arrived := [] })).dropPend 9).aslet.waits 31 = false) ∧
    ((pends .recordWrite (t 4 0 0 0 0 [])).channel .host 31).trailerOut = none ∧
    ((t 5 32 0 16 0 frame).length ≤ (t 5 32 0 16 0 frame).data.length ∧ hostFrameKind (rd frame 1 1) = true) ∧
    ((t 5 31 0 16 0 frame).length < 32 ∧ hostFrameKind (rd (List.replicate 32 0) 1 1) = false) ∧
    ((t 5 0 0 17 0 []).channel = 17 ∧ (t 5 4097 0 0 0 []).length = 4097) := by
  decide +kernel

/-! ### Security -/

theorem leNat_leBytes (n v : Nat) : leNat (leBytes n v) = v % 256 ^ n := by
  induction n generalizing v with
  | zero => simp [leBytes, leNat, Nat.mod_one]
  | succ n ih =>
    have h := Nat.mod_mul (x := v) (a := 256) (b := 256 ^ n)
    rw [Nat.pow_succ, Nat.mul_comm (256 ^ n) 256, h, leBytes, leNat, ih, BitVec.toNat_ofNat]

/-- A blob for partition 15 that verifies under the wrap key of a session whose prk is 0. -/
def blobRest : List Byte := leBytes 112 (5 + 15 * 2 ^ 64)
def blobKey : BitVec 288 := Config.hkdfExpand 0 (textBytes "wrap")
def blob : List Byte :=
  leBytes 16 (Config.gcmTag blobKey 5 (blobRest.take 48) (gcmApply blobKey 5 0 (slice blobRest 48 32))).toNat ++ blobRest

theorem blob_drop (n : Nat) : blob.drop (16 + n) = blobRest.drop n := by
  unfold blob
  rw [List.drop_append, leBytes_length, List.drop_eq_nil_of_le (by rw [leBytes_length]; omega)]
  simp

theorem blob_fields : rd blob 0x10 8 = 5 ∧ rd blob 0x18 1 = 15 ∧ rd blob 0x19 7 = 0 ∧ rd blob 0x34 12 = 0 ∧ rd blob 0x60 32 = 0 ∧
    slice blob 0x10 48 = blobRest.take 48 ∧ slice blob 0x40 32 = slice blobRest 48 32 := by
  have h : ∀ a, 16 ≤ a → blob.drop a = blobRest.drop (a - 16) := fun a ha => by
    rw [← blob_drop (a - 16), Nat.add_sub_cancel' ha]
  unfold rd slice
  rw [h 0x10 (by decide), h 0x18 (by decide), h 0x19 (by decide), h 0x34 (by decide), h 0x60 (by decide), h 0x40 (by decide)]
  decide +kernel

theorem blob_reserved : blobReservedOk blob = true := by
  unfold blobReservedOk
  obtain ⟨-, h2, h3, h4, h5, -⟩ := blob_fields
  rw [h2, h3, h4, h5]; rfl

theorem blob_opens (x : Session) (hp : x.prk = 0) (hw : x.wrapSeq = none) : ∃ k, openBlob x 15 blob = some k := by
  obtain ⟨h1, h2, -, -, -, h6, h7⟩ := blob_fields
  have h : rd blob 0 16 = (Config.gcmTag blobKey 5 (blobRest.take 48) (gcmApply blobKey 5 0 (slice blobRest 48 32))).toNat := by
    unfold rd blob
    rw [List.drop_zero, List.take_left' (leBytes_length _ _), leNat_leBytes]
    exact Nat.mod_eq_of_lt (BitVec.isLt _)
  refine Option.isSome_iff_exists.mp ?_
  unfold openBlob
  rw [hp, hw]
  simp only [h1, h2, h6, h7, h, blobKey, decide_true, Bool.and_self, if_true, Option.isSome_some]

theorem test_placement_hypotheses :
    (∃ r t, Received (hosted 0 { bytes := bookArea, bounceLen := 2 }) r t ∧ reqNames6 r 0x02 3 = true ∧ reqPart r = 15 ∧ reqValue r = 1 ∧
      1 ≤ (t.part 15).bytes ∧ (t.part 15).bytes ≤ bookArea ∧ (t.part 15).placing = false ∧ (t.part 15).delivering = false ∧ (t.part 15).runState = .empty ∧
      (t.part 15).bounceLen ≠ 0 ∧ r.session = 0 ∧ (t.session 0).isSome = true) ∧
    (∃ r t, Received (hosted 17 { bytes := 1, bounceLen := 2, bounceKeys := some 0 }) r t ∧ reqNames6 r 0x02 3 = true ∧
      reqPart r = 15 ∧ reqValue r = 1 ∧ (t.part 15).bytes = 1 ∧ r.session ≠ 0 ∧ (t.part 15).bounceKeys.isSome = true) ∧
    (((hosted 0 { placing := true, bytes := 1, image := [0] }).part 15).placing = true) :=
  ⟨⟨_, _, got _ 0 0x6F02 3 [1] (by decide +kernel), by decide +kernel⟩,
   ⟨_, _, got _ 17 0x6F02 3 [1] (by decide +kernel), by decide +kernel⟩, by decide +kernel⟩

theorem test_wrapped_key_hypotheses :
    (∃ r t k, Received (hosted 17 {}) r t ∧ reqKeys r 0x10 = true ∧ reqKeysPart r = 15 ∧ blobReservedOk r.payload = true ∧
      (t.part 15).delivering = false ∧ (t.session r.session).bind (fun z => openBlob z 15 r.payload) = some k) ∧
    (∃ r t, Received (hosted 17 {}) r t ∧ reqKeys r 0x10 = true ∧ reqKeysPart r = 15 ∧ blobReservedOk r.payload = true ∧
      (t.part 15).delivering = false ∧ (t.session r.session).bind (fun z => openBlob z 15 r.payload) = none) := by
  refine ⟨?_, ⟨_, _, got _ 17 0x703F 0x10 (List.replicate 128 0) (by decide +kernel), by decide +kernel⟩⟩
  obtain ⟨k, hk⟩ := blob_opens { carrier := .mgmt 0, version := 2, prk := 0, binding := 0, rxSeq := 8 } rfl rfl
  exact ⟨_, _, k, got _ 17 0x703F 0x10 blob (by decide +kernel), rfl, rfl, blob_reserved, rfl, hk⟩

theorem test_delivery_hypotheses :
    (∃ r t, Received (hosted 17 { runState := .stopped, weightKey := some 0, weightTarget := List.replicate 24 0, bounceLen := 2 }) r t ∧
      reqKeys r 0x12 = true ∧ reqKeysPart r = 15 ∧ reqValue r = 1 ∧ (t.part 15).delivering = false ∧ (t.part 15).placing = false ∧
      (t.part 15).runState = .stopped ∧ (t.part 15).weightKey.isSome = true ∧ (t.part 15).weightTarget.length = 24 ∧
      rd (t.part 15).weightTarget 0x10 8 = (t.part 15).weightImageId ∧ (t.part 15).bounceLen ≠ 0) ∧
    (let s := (hosted 17 { delivering := true, weightImageBytes := 4096, weightSeq := 1 }).updChannel .host 31 (fun c => { c with phase := .active });
      (s.part 15).delivering = true ∧ (s.part 15).weightImageBytes ≤ 4096 * (s.part 15).weightSeq ∧ (s.channel .host 31).phase = .active) :=
  ⟨⟨_, _, got _ 17 0x703F 0x12 [1] (by decide +kernel), by decide +kernel⟩, by decide +kernel⟩

/-- An Operator's ClientHello of version 2, and a frame before a session. -/
def hello : List Byte := leBytes 160 (1 + 2 * 2 ^ 16)
/-- A Tenant's, of partition 15, which has no anchor. -/
def tenantHello : List Byte := leBytes 160 (2 + 15 * 2 ^ 8 + 2 * 2 ^ 16)
def early (sub : Nat) (payload : List Byte) : Req :=
  { blank with index := 0x7020, sub := sub, length := payload.length, payload := payload }

/-- The module with a handshake under way. -/
def greeted (b : List Byte) : State := (hosted 17 {}).putHandshake (.mgmt 0) (some { clientHello := b, serverHello := [], secret := 0, startedAt := 5 })

theorem test_sessions_hypotheses :
    (∃ r t, Received (hosted 17 {}) r t ∧ reqNames r 0x7020 1 = true ∧ roleOn r.payload r.carrier = true ∧ helloVersion r.payload ≠ 0 ∧
      helloRangeOk r.payload = true ∧ t.sec.entropyFailed = false) ∧
    (∃ r t, Received (greeted hello) r t ∧ reqNames r 0x7020 3 = true ∧ (t.handshake r.carrier).isSome = true ∧
      t.chainGood hello r.carrier (finishChain r.payload 200) = true) ∧
    (∃ r t, Received (greeted tenantHello) r t ∧ reqNames r 0x7020 3 = true ∧ (t.handshake r.carrier).isSome = true ∧
      t.chainGood tenantHello r.carrier (finishChain r.payload 200) = false) ∧
    (∃ r t, Received (hosted 17 {}) r t ∧ reqNames r 0x7010 1 = true ∧ (t.session r.session).isSome = true ∧
      rd r.payload 0x30 1 = r.session - 2 ∧ rd r.payload 0x31 15 = 0 ∧ t.service.activation ≠ 1) ∧
    (hosted 17 {}).power.state ≠ .off :=
  ⟨⟨early 1 hello, _, ⟨by decide +kernel, rfl, by decide +kernel⟩, by decide +kernel⟩,
   ⟨early 3 [], _, ⟨by decide +kernel, rfl, by decide +kernel⟩, by decide +kernel⟩,
   ⟨early 3 [], _, ⟨by decide +kernel, rfl, by decide +kernel⟩, by decide +kernel⟩,
   ⟨_, _, got _ 17 0x7010 1 (leBytes 64 (15 * 2 ^ 384)) (by decide +kernel), by decide +kernel⟩, by decide⟩

theorem test_sessions_unsigned :
    ∃ r t h, Received (greeted hello) r t ∧ reqNames r 0x7020 3 = true ∧ t.handshake r.carrier = some h ∧
      t.chainGood h.clientHello r.carrier (finishChain r.payload 200) = true ∧ h.signed r.payload 200 96 = false :=
  ⟨early 3 [], _, { clientHello := hello, serverHello := [], secret := 0, startedAt := 5 },
   ⟨by decide +kernel, rfl, by decide +kernel⟩, by decide +kernel, rfl, by decide +kernel, by simp [Handshake.signed, early]⟩

theorem test_rotation_hypotheses :
    (let s := hosted 0 { rotateInterval := 1, curKey := some 4 };
      (s.part 15).rotateInterval ≠ 0 ∧ s.rotationCode 15 = 0) ∧
    (∃ r t, Received (hosted 0 { curKey := some 4 }) r t ∧ reqKeys r 2 = true ∧ reqKeysPart r = 15 ∧ reqValue r = 1 ∧
      t.rotationCode 15 = 0) ∧
    (let s := hosted 0 { prevKey := some 3 };
      (s.part 15).prevKey.isSome = true ∧ (s.part 15).sweepState ≠ 1) ∧
    (let s := hosted 0 { prevKey := some 3, sweepState := 1 };
      (s.part 15).prevKey.isSome = true ∧ (s.part 15).sweepState = 1) :=
  ⟨by decide +kernel, ⟨_, _, got _ 0 0x703F 2 [1] (by decide +kernel), by decide +kernel⟩, by decide +kernel, by decide +kernel⟩

/-! ### Ulyan -/

/-- A frame of a session that is admitted. -/
def opens (s : State) (n : Nat) : Bool :=
  s.reachable && (match s.session n with
    | some x => decide (x.rxSeq ≤ 7) && x.last.isEmpty && decide (x.carrier = .mgmt 0)
    | none => false)

theorem admitted (s : State) (kind n idx sub : Nat) (payload : List Byte) (h : opens s n = true) :
    s.admitFrame (frame s kind (untagged n idx sub payload)) kind = (heard s n, true) := by
  simp only [opens, Bool.and_eq_true] at h
  cases hs : s.session n with
  | none => simp [hs] at h
  | some x =>
    simp only [hs, Bool.and_eq_true, decide_eq_true_eq, List.isEmpty_iff] at h
    exact admit_frame s kind n idx sub payload x h.1 hs h.2.1.1 h.2.1.2 h.2.2

/-- The Operator's session with a shadow. -/
def shadowed (l : List ((Nat × Nat) × List Byte)) (x : Partition) : State :=
  (hosted 0 x).updSession 0 (fun y => { y with shadow := l })

/-- The Operator's session, and a self-test result longer than a frame. -/
def tested : State := { hosted 0 {} with service := { ({} : Service) with selfTestResult := List.replicate 2000 0 } }

theorem test_object_requests_hypotheses_1 :
    (∃ r t, (hosted 0 {}).admitFrame r kRead = (t, true) ∧ t.judgeForm r false r.payload.length = 0 ∧
      (t.readObject (reqWho r) r.carrier r.index r.sub).length + 48 ≤ frameLimit r.carrier ∧ r.sealed = true) ∧
    (∃ r t, (hosted 0 {}).admitFrame r kRead = (t, true) ∧ t.judgeForm r false r.payload.length ≠ 0) ∧
    (∃ r t, tested.admitFrame r kRead = (t, true) ∧ t.judgeForm r false r.payload.length = 0 ∧
      frameLimit r.carrier < (t.readObject (reqWho r) r.carrier r.index r.sub).length + 48) :=
  ⟨⟨_, _, admitted _ kRead 0 0x1001 1 [] (by decide +kernel), by decide +kernel⟩,
   ⟨_, _, admitted _ kRead 0 0x1001 1 [0] (by decide +kernel), by decide +kernel⟩,
   ⟨_, _, admitted _ kRead 0 0x8200 1 [] (by decide +kernel), by decide +kernel⟩⟩

theorem test_object_requests_hypotheses_2 :
    (∃ r t, Received (hosted 0 {}) r t ∧ hasRow r = false ∧ t.plainCheck r = 0 ∧ t.transferBusy r = false ∧ isStaged r = true ∧
      (t.session r.session).isSome = true) ∧
    (∃ r t, Received (hosted 0 {}) r t ∧ hasRow r = false ∧ t.plainCheck r = 0 ∧ t.transferBusy r = false ∧ isStaged r = false ∧
      reqNames6 r 2 1 = true) ∧
    (∃ r t, Received (hosted 0 {}) r t ∧ hasRow r = false ∧ t.plainCheck r = 0 ∧ t.transferBusy r = false ∧ isStaged r = false ∧
      reqNames6 r 2 2 = true) ∧
    (∀ e ∈ [(0x1001, 1, 63), (0x3010, 4, 7), (0x3210, 4, 3)], ∃ r t, Received (hosted 0 {}) r t ∧ r.index = e.1 ∧ r.sub = e.2.1 ∧
      isFlags r.index r.sub = true ∧ reqValue r = e.2.2 ∧ reqValue r < 2 ^ flagBits r.index) ∧
    (∀ e ∈ [(0x1001, 2, 48), (0x3200, 3, 8), (0x415F, 9, 48), (0x8000, 8, 8)], ∃ r t, Received (hosted 0 {}) r t ∧ r.index = e.1 ∧
      isCounter r.index r.sub = true ∧ ∀ b ∈ r.payload, b = 0) :=
  ⟨⟨_, _, got _ 0 0x7000 6 [] (by decide +kernel), by decide +kernel⟩,
   ⟨_, _, got _ 0 0x6F02 1 (List.replicate 8 0xFF) (by decide +kernel), by decide +kernel⟩,
   ⟨_, _, got _ 0 0x6F02 2 (List.replicate 8 0) (by decide +kernel), by decide +kernel⟩,
   fun e h => ⟨_, _, got _ 0 e.1 e.2.1 [BitVec.ofNat 8 e.2.2, 0, 0, 0] (by revert e; decide +kernel), by revert e; decide +kernel⟩,
   fun e h => ⟨_, _, got _ 0 e.1 e.2.1 (List.replicate e.2.2 0) (by revert e; decide +kernel), by revert e; decide +kernel⟩⟩

/-- The Operator's session with a transfer. -/
def transferring (z : SegTransfer) : State := (hosted 0 {}).putTransfer 0 z

def aTransfer (write : Bool) : SegTransfer :=
  { request := untagged 0 0x7000 6 [], write := write, total := 3, segBytes := 2, data := if write then [] else [1, 2, 3], next := 0
    acked := 0, lastFrame := 5, lastSent := 5 }

theorem test_segment_starts_hypotheses :
    (∃ r t, (hosted 0 {}).admitFrame r kSegStart = (t, true) ∧ t.segCheck r = 0 ∧ segWrites r = true) ∧
    (∃ r t, (hosted 0 {}).admitFrame r kSegStart = (t, true) ∧ t.segCheck r = 0 ∧ segWrites r = false) :=
  ⟨⟨_, _, admitted _ kSegStart 0 0x7000 6 (leBytes 16 (48 + 1 * 2 ^ 64 + 1 * 2 ^ 96)) (by decide +kernel), by decide +kernel⟩,
   ⟨_, _, admitted _ kSegStart 0 0x8200 1 (leBytes 16 (1184 * 2 ^ 64)) (by decide +kernel), by decide +kernel⟩⟩

theorem test_segments_hypotheses :
    (∃ s r t z, State.writing s r = some z ∧ s.admitFrame r kSegData = (t, true) ∧ r.rsv = 0 ∧ r.length = r.payload.length ∧
      s.lastSegment r = none ∧ r.code = z.next ∧ z.sizeOk r.payload.length = true) ∧
    (∃ s r t z v, State.writing s r = some z ∧ s.admitFrame r kSegData = (t, true) ∧ r.rsv = 0 ∧ r.length = r.payload.length ∧
      s.lastSegment r = some v ∧ hasRow (wholeWrite r v) = false) ∧
    (∃ s r t z, State.admitFrame s r kSegAck = (t, true) ∧ r.rsv = 0 ∧ r.payload = [] ∧ t.inTransfer r = some z ∧ z.write = false ∧
      r.code < z.next ∧ z.count ≤ max z.acked (r.code + 1)) ∧
    (∃ s r t z, State.admitFrame s r kSegAck = (t, true) ∧ r.rsv = 0 ∧ r.payload = [] ∧ t.inTransfer r = some z ∧ z.write = false ∧
      r.code < z.next ∧ max z.acked (r.code + 1) < z.count) ∧
    (∃ s r t z, State.admitFrame s r kSegCancel = (t, true) ∧ r.rsv = 0 ∧ r.payload = [] ∧ t.inTransfer r = some z) ∧
    ((transferring { aTransfer false with next := 2 }).transfer 0 = some { aTransfer false with next := 2 } ∧ (aTransfer false).write = false) :=
  ⟨⟨transferring (aTransfer true), _, _, _, by rfl, admitted _ kSegData 0 0x7000 6 [1, 2] (by decide +kernel), by decide +kernel⟩,
   ⟨transferring { aTransfer true with total := 2 }, _, _, _, [1, 2], by rfl, admitted _ kSegData 0 0x7000 6 [1, 2] (by decide +kernel),
     by decide +kernel⟩,
   ⟨transferring { aTransfer false with segBytes := 3, next := 1 }, _, _, _, admitted _ kSegAck 0 0x7000 6 [] (by decide +kernel),
     by rfl, by rfl, by rfl, by decide +kernel⟩,
   ⟨transferring { aTransfer false with next := 2 }, _, _, _, admitted _ kSegAck 0 0x7000 6 [] (by decide +kernel),
     by rfl, by rfl, by rfl, by decide +kernel⟩,
   ⟨transferring (aTransfer true), _, _, _, admitted _ kSegCancel 0 0x7000 6 [] (by decide +kernel), by rfl, by rfl, by rfl⟩,
   by decide +kernel⟩

theorem test_event_frames_hypotheses :
    (∃ r t, (hosted 0 {}).admitFrame r kEventAck = (t, true) ∧ r.rsv = 0 ∧ r.payload.length = 4 ∧ r.sealed = true ∧
      (t.session r.session).isSome = true) ∧
    (∃ r t, (hosted 0 {}).admitFrame r kClose = (t, true) ∧ r.rsv = 0 ∧ r.payload = [] ∧ r.sealed = true) ∧
    (let s := (hosted 0 {}).updSession 0 (fun y => { y with unacked := [(1, ⟨5, 0x70, 0x33, none, [], []⟩)] });
      ∀ x ∈ s.session 0, x.unacked ≠ [] ∧ 0 < eventBatch x) ∧ ∀ x ∈ (hosted 0 {}).session 0, x.unacked = [] :=
  ⟨⟨_, _, admitted _ kEventAck 0 0 0 [0xFF, 0xFF, 0xFF, 0xFF] (by decide +kernel), by decide +kernel⟩,
   ⟨_, _, admitted _ kClose 0 0 0 [] (by decide +kernel), by decide +kernel⟩, by decide +kernel, by decide +kernel⟩

theorem test_commit_hypotheses_1 :
    (∃ r t, Received (hosted 0 {}) r t ∧ (t.session r.session).any (fun x => x.committing.isNone) = true ∧ reqNames r 0x2F00 1 = true ∧
      reqByteIs r 1 = true) ∧
    (∃ r t, Received (hosted 0 {}) r t ∧ reqNames r 0x2F00 1 = true ∧ reqByteIs r 2 = true) ∧
    (let s := hosted 0 {};
     let d : PendingCommit := { session := 0, part := some 15, at_ := 9, set := [], request := blank };
     let u := s.updSec (fun c => { c with commits := [d] });
      u.sec.commits.find? (fun y => decide (y.session = 0)) = some d) :=
  ⟨⟨_, _, got _ 0 0x2F00 1 [1] (by decide +kernel), by decide +kernel⟩,
   ⟨_, _, got _ 0 0x2F00 1 [2] (by decide +kernel), by decide +kernel⟩, by decide +kernel⟩

theorem test_commit_hypotheses_2 :
    (∃ r t x, Received (shadowed [((0x3020, 5), [20])] {}) r t ∧ t.session r.session = some x ∧ reqNames r 0x2F00 3 = true ∧
      reqByteIs r 1 = true ∧ (t.checkSet x.shadow).code ≠ 0) ∧
    (∃ r t x, Received (shadowed [((0x3000, 2), [7])] {}) r t ∧ t.session r.session = some x ∧ (t.checkSet x.shadow).code = 0 ∧
      (t.updSession r.session (fun y => { y with check := t.checkSet x.shadow })).initDone x.shadow = true ∧
      (t.updSession r.session (fun y => { y with check := t.checkSet x.shadow })).runningIn x.shadow = none) ∧
    (∃ r t x, Received (shadowed [((0x703F, 8), [0, 0, 0, 0])] { runState := .running, book := book [] }) r t ∧
      t.session r.session = some x ∧ (t.checkSet x.shadow).code = 0 ∧
      (t.updSession r.session (fun y => { y with check := t.checkSet x.shadow })).initDone x.shadow = true ∧
      (t.updSession r.session (fun y => { y with check := t.checkSet x.shadow })).runningIn x.shadow = some 15) :=
  ⟨⟨_, _, _, got _ 0 0x2F00 3 [1] (by decide +kernel), by rfl, by decide +kernel⟩,
   ⟨_, _, _, got _ 0 0x2F00 3 [1] (by decide +kernel), by rfl, by decide +kernel⟩,
   ⟨_, _, _, got _ 0 0x2F00 3 [1] (by decide +kernel), by rfl, by decide +kernel⟩⟩

/-- A page map of one readable page of a stack. -/
theorem test_pages_to_initialise_hypotheses :
    ∃ r t x, Received (shadowed [((0x2010, 0x20), leBytes 16 (2 ^ 64 + 2 ^ 26 + 4))] {}) r t ∧ t.session r.session = some x ∧
      reqNames r 0x2F00 3 = true ∧ reqByteIs r 1 = true ∧ (t.checkSet x.shadow).code = 0 ∧
      (t.updSession r.session (fun y => { y with check := t.checkSet x.shadow })).initDone x.shadow = false :=
  ⟨_, _, _, got _ 0 0x2F00 3 [1] (by decide +kernel), by rfl, by decide +kernel⟩

/-! ### Power and temperature -/

/-- The Operator's session in a power state. -/
def inPower (x : Power) : State := { hosted 0 {} with power := x }

theorem test_power_hypotheses :
    (∀ st ∈ [PowerState.standby, .ready, .active, .sleep], ∃ r t, Received (inPower { state := st }) r t ∧ isPowerCommand r 3 = true ∧
      t.power.sleepEntry = false ∧ t.power.state = st ∧ t.training = false ∧ t.power.padHeld = 0 ∧ t.power.selfTested = false) ∧
    (∀ st ∈ [PowerState.ready, .active], ∃ r t, Received (inPower { state := st }) r t ∧ isPowerCommand r 4 = true ∧
      t.power.state = st ∧ t.training = false ∧ t.power.padHeld = 0 ∧ t.busyParts = false) ∧
    (∀ a ∈ [({} : Aslet), { state := 2 }], ∃ r t, Received { inPower { state := .standby } with aslet := a } r t ∧
      isPowerCommand r 5 = true ∧ t.power.state = .standby ∧ t.power.sleepEntry = false ∧ t.hostIdle = true ∧ t.aslet.sleepAsked = false ∧
      t.aslet = a ∧ t.aslet.lane0 = true) ∧
    (∃ r t, Received (inPower { state := .ready, padHeld := 0x3FF0 }) r t ∧ reqNames r 0x3100 2 = true ∧ reqValue r < 2 ^ 14 ∧
      clearBits (reqValue r) (domainsOn t.power.state) = 0 ∧ reqValue r = 0x3FF0) ∧
    (∀ source < 3, (inPower { wakeSources := 7 }).power.wakeSources.testBit source = true ∧
      (inPower { wakeSources := 0 }).power.wakeSources.testBit source = false) :=
  ⟨fun st h => ⟨_, _, got _ 0 0x3000 1 [3] (by revert st; decide +kernel), by revert st; decide +kernel⟩,
   fun st h => ⟨_, _, got _ 0 0x3000 1 [4] (by revert st; decide +kernel), by revert st; decide +kernel⟩,
   fun a h => ⟨_, _, got _ 0 0x3000 1 [5] (by revert a; decide +kernel), by revert a; decide +kernel⟩,
   ⟨_, _, got _ 0 0x3100 2 [0xF0, 0x3F, 0, 0] (by decide +kernel), by decide +kernel⟩, by decide⟩

theorem test_power_hypotheses_2 :
    (∀ k ∈ [true, false], ∃ r t, Received (inPower { state := .standby, sleepEntry := k }) r t ∧ isPowerCommand r 3 = true ∧
      t.power.state = .standby ∧ t.power.sleepEntry = k) ∧
    (∃ r t, Received (inPower { state := .standby }) r t ∧ isPowerCommand r 4 = true ∧ t.power.state = .standby) ∧
    (∃ r t, Received (inPower { state := .sleep }) r t ∧ isPowerCommand r 5 = true ∧ t.power.state = .sleep) ∧
    (∃ r t, Received ((inPower { state := .standby }).updLink 95 (fun x => { x with state := 2 })) r t ∧ isPowerCommand r 5 = true ∧
      t.power.sleepEntry = false ∧ t.hostIdle = true ∧ t.aslet.up = false ∧ (t.link 95).state ≠ 0) ∧
    (∃ r t, Received { inPower { state := .standby } with aslet := { ({} : Aslet) with state := 2, lowRate := true } } r t ∧
      isPowerCommand r 5 = true ∧ t.hostIdle = true ∧ t.aslet.lowRate = true ∧ ∀ l < 96, (t.link l).state = 0) ∧
    (∃ r t, Received ((inPower { state := .standby }).updChannel .host 31 (fun c => { c with phase := .active })) r t ∧
      isPowerCommand r 5 = true ∧ t.hostIdle = false) :=
  ⟨fun k h => ⟨_, _, got _ 0 0x3000 1 [3] (by revert k; decide +kernel), by revert k; decide +kernel⟩,
   ⟨_, _, got _ 0 0x3000 1 [4] (by decide +kernel), by decide +kernel⟩, ⟨_, _, got _ 0 0x3000 1 [5] (by decide +kernel), by decide +kernel⟩,
   ⟨_, _, got _ 0 0x3000 1 [5] (by decide +kernel), by decide +kernel⟩, ⟨_, _, got _ 0 0x3000 1 [5] (by decide +kernel), by decide +kernel⟩,
   ⟨_, _, got _ 0 0x3000 1 [5] (by decide +kernel), by decide +kernel⟩⟩

/-- FP32 words: 44, 60, 58, 61, 3200, 3201, 3099, 40, 41, 95, 100 and 0. -/
def w44 : Word := 0x42300000
def w60 : Word := 0x42700000
def w61 : Word := 0x42740000
def w3201 : Word := 0x45481000
def w3099 : Word := 0x4541B000

theorem test_supply_hypotheses :
    atLeast w44 44 = true ∧ above w60 60 = false ∧ above w60 58 = true ∧ above w61 60 = true ∧ above w61 58 = true ∧
    above w3201 3200 = true ∧ below w3099 3100 = true ∧ below w3201 3100 = false ∧ State.reset.power.state = .off ∧
    (inPower { state := .active }).power.state ≠ .off ∧ (inPower { state := .active }).power.limited = false := by
  decide +kernel

theorem test_temperature_hypotheses :
    atLeast 0x42C80000 ((zoneThresholds 31).getD 3 0) = true ∧ atLeast 0x42C70000 ((zoneThresholds 31).getD 3 0) = false ∧
    atLeast 0x42D20000 ((zoneThresholds 35).getD 3 0) = true ∧ atLeast 0x42D10000 ((zoneThresholds 35).getD 3 0) = false ∧
    newLevel 0 0 0 = 0 ∧ newLevel 0 0 0x42BE0000 = 3 ∧ above 0x42200000 40 = false ∧ above 0x42240000 40 = true ∧
    (inPower { state := .active }).power.state = .active := by
  decide +kernel

/-! ### Start-up and live service -/

theorem test_start_up_hypotheses :
    (let s := inPower { state := .boot };
      s.power.state = .boot ∧ s.service.active ≤ 1) ∧
    (∃ r t, Received (hosted 1 {}) r t ∧ reqNames r 0x8200 2 = true ∧ reqValue r = 1 ∧ t.service.selfTest ≠ 1 ∧ t.busyParts = false ∧
      t.power.state = .active) ∧
    ({ hosted 0 {} with service := { ({} : Service) with selfTest := 1 } } : State).service.selfTest = 1 ∧
    (∃ r t, Received (hosted 1 {}) r t ∧ reqSquare r 0x0F = true ∧ t.arrayCode r = 0) ∧
    (∃ r t, Received (hosted 1 {}) r t ∧ reqSquare r 0x10 = true ∧ t.arrayCode r = 0 ∧ t.beyondRepair (r.index - 0x9000) = false) ∧
    (∃ r t, Received { hosted 1 {} with phys := [(143, { testRows := [1, 2, 3], fuses := (List.range 4).map (fun k => (k, 0xFF)) })] } r t ∧ reqSquare r 0x10 = true ∧ t.arrayCode r = 0 ∧
      t.beyondRepair (r.index - 0x9000) = true) :=
  ⟨by decide, ⟨_, _, got _ 1 0x8200 2 [1] (by decide +kernel), by decide +kernel⟩, rfl,
   ⟨_, _, got _ 1 0x9093 0x0F [1] (by decide +kernel), by decide +kernel⟩,
   ⟨_, _, got _ 1 0x9093 0x10 [1] (by decide +kernel), by decide +kernel⟩,
   ⟨_, _, got _ 1 0x908F 0x10 [1] (by decide +kernel), by decide +kernel⟩⟩

/-- An image waits in slot 1. -/
def imaged (activation : Nat) : State :=
  { hosted 0 {} with service := { ({} : Service) with images := [(1, { state := 3 })], activation := activation } }

theorem test_activation_hypotheses :
    (∃ r t, Received (imaged 0) r t ∧ reqNames r 0x1F52 1 = true ∧ t.service.activation ≠ 1) ∧
    (∃ r t, Received (imaged 3) r t ∧ reqNames r 0x1F53 0 = true ∧ reqValue r = 1 ∧ t.service.activation ≠ 1 ∧
      (t.image (1 - t.service.active)).state = 3) ∧
    ((imaged 1).service.activation = 1 ∧ (imaged 1).moduleHeld 5 = true ∧ (imaged 1).now ≤ (imaged 1).activationFrom + 20000000) :=
  ⟨⟨_, _, got _ 0 0x1F52 1 [1] (by decide +kernel), by decide +kernel⟩,
   ⟨_, _, got _ 0 0x1F53 0 [1] (by decide +kernel), by decide +kernel⟩, by decide +kernel⟩

theorem test_square_migration_hypotheses :
    let s := (work [] 0).updSq 143 (fun x => { x with overran := true })
    let f := s.updPhys 147 (fun x => { x with testPassed := true })
    let m := fun (h : Bool) => (work [] 0).putMigration 3 (some { square := 143, target := some 147, holding := h })
    let bad := (m true).updSq 143 (fun x => { x with lsErr := [(0, 2)] })
    ((s.sq 143).wantsReserve = true ∧ s.migration (sqDie 143) = none ∧ s.power.state = .active) ∧
    (s.reserveFree (reserveOf 143) = false ∨ f.reserveFree (reserveOf 143) = true) ∧
    ((m false).migration 3 = some { square := 143, target := some 147, holding := false } ∧ (m false).defersMigration = false) ∧
    ((m true).migration 3 = some { square := 143, target := some 147, holding := true } ∧ (m true).moduleHeld (squareHold 3) = true ∧
      ((m true).sq 143).badValue = false ∧ (m true).holdLong (squareHold 3) = false ∧ (bad.sq 143).badValue = true) := by
  decide +kernel

/-! ### The spec's worked examples -/

/-- spec/02, the example after R48: 1.005859375 rounded to BF16 stochastically under two Dice words, and to nearest. -/
theorem test_stochastic_rounding :
    fmtBF16.out (.dice 0x2A5F1E03) (dec32 0x3F80C000) = 0x3F80 ∧ fmtBF16.out (.dice 0x50000000) (dec32 0x3F80C000) = 0x3F81 ∧
    fmtBF16.out .nearest (dec32 0x3F80C000) = 0x3F81 := by decide +kernel

/-- The published answer of Philox-4x32-10 to an all-zero counter and key (R49). -/
theorem test_philox : philoxFrom 10 0 0 0 0 0 0 = [0x6627E8D5, 0xE169C58D, 0xBC57AC4C, 0x9B00DBD8] := by decide +kernel

/-- spec/02, the example after R51: element 1,000,003 at step 7 takes word 3 of counter 0x0000_0700_0003_D090. -/
theorem test_dice_counter : diceWord 0 0 7 1000003 = (philoxFrom 10 0x3D090 0x700 0 0 0 0).getD 3 0 := by decide +kernel

/-- spec/02, the example after R56: one group of an MXFP8 E4M3 product. -/
theorem test_matrix_group :
    let a := [0x3C, 0xC0, 0x36, 0x01]
    let b := [0x40, 0x38, 0x30, 0x38]
    (groupStep 4 4 (fun k => decElem 3 (a.getD k 0)) (fun k => decElem 3 (b.getD k 0)) (fun _ => mxScale 0x7F + mxScale 0x80)
      (0x4B800000, 0) 0).1 = 0x4B800001 := by decide +kernel

/-- spec/09, the example after R238: a SUM scan of four elements, and the reduction of the same row. -/
theorem test_scan :
    let xs := [0x4B800000, 0x3F800000, 0x3F800000, 0x3F800000]
    (scanStrip 0 none (xs.map (fun (x : Nat) => some (x, 0)))).1 = [0x4B800000, 0x4B800000, 0x4B800001, 0x4B800001].map some ∧
    rowSum (xs.map some) = some 0x4B800001 := by decide +kernel

/-- spec/10, the example of SMAX: (m, s) of rows A, B and C under both policies. -/
theorem test_soft_maximum :
    let row := fun (contained : Bool) (l : List (Option Nat)) =>
      let z := l.map (fun x => smPos contained 1 0x3F800000 x)
      smFinish (smStatsOf false (z.map (fun x => if x.present then some x.z else none)))
    let a := [some 0x3F800000, some 0x3F800000, none, none]
    let b := [some 0x7F800000, some 0x3F800000, some 0x7F800000, some 0xC0000000]
    let c := [none, none, none, none]
    row false a = (0x3F800000, 0x40000000) ∧ row true a = (0x3F800000, 0x40000000) ∧
    row false b = (0x7F800000, 0x7FC00000) ∧ row true b = (0x7F7F0000, 0x40000000) ∧
    row false c = (0xFF800000, 0) ∧ row true c = (0xFF7F0000, 0x40800000) := by decide +kernel

/-- spec/10, the example of ROW_STATS: mean and rstd of two rows with no pivot, and of the first with PivotSrc 0b10. -/
theorem test_row_statistics :
    let eps := 0x35800000
    let two := [some 0x3F8009C4, some 0x3F8009C4]
    let three := [some 0x3F800001, some 0x3F800001, some 0x3F800001]
    (rsSums 0 two).s2 = 0x40001389 ∧ (rsFinish false false 0x3F8009C4 eps (rsSums 0x3F8009C4 two)).1 = 0x3F8009C4 ∧
    (rsFinish false false 0x3F8009C4 eps (rsSums 0x3F8009C4 two)).2.1 = 0x44800000 ∧
    (rsFinish false false 0 eps (rsSums 0 three)).2.1 = 0x44800000 ∧
    (rsFinish false false 0 eps (rsSums 0 three)).2.2.1 = true := by decide +kernel

/-- spec/12, the example after R301: the place of physical address 0x012_3456_7000, and the stack of the next chunk. -/
theorem test_address_map :
    paStack 0x01234567000 = 31 ∧ paChannel 0x01234567000 = 8 ∧ paRow 0x01234567000 = 0x2468 ∧ paByte 0x01234567000 = 0 ∧
    paStack 0x01234568000 = 2 ∧ paChannel 0x01234568000 = 8 ∧ placeAddress 31 8 0x2468 0 = 0x01234567000 := by decide +kernel

/-! ### Clauses of single rules -/

/-- Two operations in flight, the second issued after the first. -/
def behind (a b : Op) : State :=
  (work [] 0).updSq 143 (fun x => { x with inflight := [a, b], nextOp := 7 })

theorem test_array_config_hypotheses :
    let c := opOf (record 0x11 [(64, 1)]) .arrayConfig .waiting
    let m := opOf (record 0x10 [(64, 1), (80, 1)]) .matmul .working
    let last := fun (o : Op) => { o with id := 6 }
    let early := behind m (last c)
    let late := behind c (last m)
    (((flying c true).sq 143).op 5 = some c ∧ c.isConfig = true ∧ ((flying c true).sq 143).matrixBefore c = []) ∧
    ((early.sq 143).op 6 = some (last c) ∧ (early.sq 143).matrixBefore (last c) = [m]) ∧
    ((late.sq 143).op 6 = some (last m) ∧ m.isMatmul = true ∧ (late.sq 143).matrixBefore (last m) = [c]) := by
  decide +kernel

theorem test_combine_hypotheses :
    let t := (work [] 0).poolTensor 15 1 0
    ((List.range (t.size 2)).mapM (fun k => (work [] 0).localElem 143 15 0x3B 1 (t.at (0 + k * 1)) 32)).toOption.isSome = true := by
  decide +kernel

theorem test_step_begins_hypotheses :
    let s := gating [(0x28, 1)] {}
    let m := holding { vote := none } false
    let v := holding { vote := some aVote } true
    let own := fun (s : State) => s.updSq 143 (fun y => { y with owner := some 15 })
    ((s.part 15).planIndex 0 = 0 ∧ (s.part 15).gateStuck = false ∧ bookSquares (s.part 15).book ≠ []) ∧
    ((own m).owner 143 = some 15 ∧ (m.part 15).vote = none ∧ 2 ≤ (m.upsetSector 64 0xFFFFFFFFFFFF).outcome 15 64) ∧
    ((own v).owner 143 = some 15 ∧ (v.part 15).vote ≠ none ∧ 2 ≤ (v.upsetSector 64 0xFFFFFFFFFFFF).outcome 15 64) := by
  decide +kernel

theorem test_step_refusals_hypotheses :
    (∃ r t, Received (hosted 0 { runState := .running }) r t ∧ reqPart r = 15 ∧ reqNames6 r 0x20 2 = true ∧
      (t.part 15).runState = .running) ∧
    (∃ r t, Received (hosted 0 { runState := .draining, gateStuck := true }) r t ∧ reqPart r = 15 ∧ reqNames6 r 0x20 5 = true ∧
      reqValue r = 0 ∧ (t.part 15).runState ≠ .held) ∧
    (∃ r t, Received (hosted 0 { runState := .faulted, restoreNeeded := true }) r t ∧ reqPart r = 15 ∧ reqNames6 r 0x20 6 = true ∧
      reqValue r = 0 ∧ (t.part 15).runState ≠ .held) :=
  ⟨⟨_, _, got _ 0 0x6F20 2 (List.replicate 8 0) (by decide +kernel), by decide +kernel⟩,
   ⟨_, _, got _ 0 0x6F20 5 [0] (by decide +kernel), by decide +kernel⟩,
   ⟨_, _, got _ 0 0x6F20 6 [0] (by decide +kernel), by decide +kernel⟩⟩

theorem test_hot_zone_hypotheses :
    let s := { holding { rho := 100, kappa := 200 } false with now := 1000, thermal := { level := [(31, 2)] } }
    let big : TokenReq := { who := 15, traffic := .stack 31 64 64 }
    (s.memDie 7).waiting = [] ∧ s.hotFor big.traffic = true ∧ trafficOnDie big.traffic 7 = true ∧ ((s.refill 7).memDie 7).reserved big = false := by
  decide +kernel

theorem test_part_of_a_sector : ∃ i, i < 64 ∧ ∀ w ∈ ([(0, 1, 0)] : List (Nat × Byte × Byte)), w.1 ≠ i := ⟨63, by decide, by decide⟩

end Sys2Proof.Tests
end

section
/-!
PROOFS. Records that no chapter defines and segments without TURN_END (R93, R98): what an operation fault does (R117, R119), and
the two commands that commit one.
-/

namespace Sys2Proof.Machine

open Sys2Proof

/-! ### Players under a freeze -/

@[simp] theorem State.updChannel_player (s : State) (m : MoverId) (c : Nat) (g : Channel → Channel) (q pl : Nat) :
    (s.updChannel m c g).player q pl = s.player q pl := by
  cases m with
  | square k =>
    simp only [State.updChannel, State.player, State.sq_updSq]
    split
    next h => rw [h]; rfl
    next => rfl
  | host => rfl
  | link l => rfl

@[simp] theorem State.abortChannel_player (s : State) (m : MoverId) (c n q pl : Nat) :
    (s.abortChannel m c n).player q pl = s.player q pl := by
  unfold State.abortChannel; split <;> simp

/-- A freeze stops the issue of every Player through its partition, and changes no Player (R119). -/
@[simp] theorem State.freezeBut_player (s : State) (p c : Nat) (o : Option (MoverId × Nat)) (q pl : Nat) :
    (s.freezeBut p c o).player q pl = s.player q pl := by
  unfold State.freezeBut
  split
  · rfl
  · exact (foldl_keeps (fun t => t.player q pl) _ _ (fun t x => by split <;> simp)).trans rfl

/-! ### The operation fault (R117) -/

/-- The faulting Player stops, and stays at its record. -/
theorem State.opFault_player (s : State) (q pl detail : Nat) (loc : List (LocKind × Nat)) :
    (s.opFault q pl detail loc).player q pl = { s.player q pl with stopped := true } := by
  simp [State.opFault, State.player_updPlayer]

theorem State.opFault_frozen (s : State) (q pl detail : Nat) (loc : List (LocKind × Nat)) :
    ((s.opFault q pl detail loc).part (s.partOf q)).frozen = true := State.freezeBut_frozen ..

/-- Event 0x30 names the Square, the Player, the record and the further places of the fault. -/
theorem State.opFault_events (s : State) (q pl detail : Nat) (loc : List (LocKind × Nat)) :
    (s.opFault q pl detail loc).events = withEvent s.events ⟨s.now, 0x30, detail, some (s.partOf q),
      [(.square, q), (.player, pl), (.record, (s.player q pl).pc)] ++ loc, []⟩ := by
  simp [State.opFault, State.raise_events, State.updPlayer]

/-! ### The two commands -/

theorem exec_undefinedOpcode_faults {s : State} {q pl : Nat} {r : Rec} (hu : playerOk q pl = true)
    (hr : s.candidate q pl = some r) (ho : definedOpcodes.contains (recOpcode r) = false) :
    exec (.undefinedOpcode q pl) s = .next (s.opFault q pl 0x01 []) := by
  change execUndefinedOpcode q pl s = _
  simp only [execUndefinedOpcode, hr, ho, hu, onUnit, if_true, Bool.false_eq_true, if_false]

theorem exec_segmentEndWithoutTurnEnd_faults {s : State} {q pl : Nat} (hu : playerOk q pl = true)
    (hi : s.issuing q pl = true) (hn : s.nextRecord q pl = none) :
    exec (.segmentEndWithoutTurnEnd q pl) s = .next (s.opFault q pl 0x09 []) := by
  change execSegmentEndWithoutTurnEnd q pl s = _
  simp only [execSegmentEndWithoutTurnEnd, hi, hn, hu, onUnit, Option.isNone_none, Bool.and_self, if_true]

/-- Settles O12: each command is the operation fault of its detail, and an operation fault stops the Player at its record, names it and
freezes the partition. -/
theorem badRecordsFault : Obligations.BadRecordsFault := by
  unfold Obligations.BadRecordsFault
  intro s q pl hq hpl _
  have hu : playerOk q pl = true := by simp [playerOk, hq, hpl]
  refine ⟨fun r hr ho => ?undefined, fun hi hn => ?segmentEnd⟩
  case undefined =>
    exact ⟨_, exec_undefinedOpcode_faults hu hr ho, by rw [s.opFault_player], by rw [s.opFault_player],
      s.opFault_frozen .., s.opFault_events ..⟩
  case segmentEnd =>
    exact ⟨_, exec_segmentEndWithoutTurnEnd_faults hu hi hn, by rw [s.opFault_player], by rw [s.opFault_player],
      s.opFault_frozen .., s.opFault_events ..⟩

end Sys2Proof.Machine
end

section
/-!
PROOFS. The issue of an operation that holds a place (R89, R91, R200): what a record's waits and decrements leave of the state, and
what stands in flight afterwards.
-/

namespace Sys2Proof.Machine

open Sys2Proof

/-! ### What a record takes at issue -/

/-- A reading of the state that neither an entry of the Square's chain nor a Player's wait slots can change is kept by all that
issue takes (R89). -/
theorem State.taken_keeps {β : Type} (g : State → β) (s : State) (q pl : Nat) (r : Rec)
    (hentry : ∀ t e f, g (State.updEntry t q e f) = g t)
    (hslots : ∀ t (h : Tab Nat → Tab Nat), g (State.updPlayer t q pl (fun P => { P with slots := h P.slots })) = g t) :
    g (s.taken q pl r) = g s := by
  unfold State.taken State.takeNeeds State.takeWaits
  dsimp only
  exact (foldl_keeps g _ _ (fun t i => hslots t (fun c => Tab.upd 0 c i (fun n => n - 1)))).trans
    ((foldl_keeps g _ _ (fun t n => hentry t _ _)).trans (foldl_keeps g _ _ (fun t n => hentry t _ _)))

/-- Issue takes from Squares only. -/
theorem State.taken_frame (s : State) (q pl : Nat) (r : Rec) : { s.taken q pl r with squares := s.squares } = s :=
  State.taken_keeps (fun t => { t with squares := s.squares }) s q pl r (fun _ _ _ => rfl) (fun _ _ => rfl)

/-- In a Square, issue changes the chain entries and the Players only. -/
theorem State.taken_sq (s : State) (q pl : Nat) (r : Rec) (k : Nat) :
    { (s.taken q pl r).sq k with chain := (s.sq k).chain, players := (s.sq k).players } = s.sq k := by
  refine State.taken_keeps
    (fun t => { t.sq k with chain := (s.sq k).chain, players := (s.sq k).players }) s q pl r (fun t e f => ?_) (fun t h => ?_)
  · simp only [State.updEntry, State.sq_updSq]
    split
    next hk => rw [hk]; rfl
    next => rfl
  · simp only [State.updPlayer, State.sq_updSq]
    split
    next hk => rw [hk]; rfl
    next => rfl

/-- Of a Player, issue changes the wait slots only. -/
theorem State.taken_player (s : State) (q pl : Nat) (r : Rec) (n : Nat) :
    { (s.taken q pl r).player q n with slots := (s.player q n).slots } = s.player q n := by
  refine State.taken_keeps (fun t => { t.player q n with slots := (s.player q n).slots }) s q pl r (fun t e f => ?_) (fun t h => ?_)
  · simp only [State.updEntry, State.player, State.sq_updSq_same]; rfl
  · simp only [State.player_updPlayer]
    split
    next hn => rw [hn]
    next => rfl

@[simp] theorem State.taken_dram (s : State) (q pl : Nat) (r : Rec) : (s.taken q pl r).dram = s.dram :=
  (congrArg State.dram (s.taken_frame q pl r) :)
@[simp] theorem State.taken_nextOp (s : State) (q pl : Nat) (r : Rec) (k : Nat) : ((s.taken q pl r).sq k).nextOp = (s.sq k).nextOp :=
  (congrArg Square.nextOp (s.taken_sq q pl r k) :)
@[simp] theorem State.taken_inflight (s : State) (q pl : Nat) (r : Rec) (k : Nat) :
    ((s.taken q pl r).sq k).inflight = (s.sq k).inflight := (congrArg Square.inflight (s.taken_sq q pl r k) :)
@[simp] theorem State.taken_claims (s : State) (q pl : Nat) (r : Rec) (k : Nat) : ((s.taken q pl r).sq k).claims = (s.sq k).claims :=
  (congrArg Square.claims (s.taken_sq q pl r k) :)
@[simp] theorem State.taken_acc (s : State) (q pl : Nat) (r : Rec) (k : Nat) : ((s.taken q pl r).sq k).acc = (s.sq k).acc :=
  (congrArg Square.acc (s.taken_sq q pl r k) :)
@[simp] theorem State.taken_ls (s : State) (q pl : Nat) (r : Rec) (k : Nat) : ((s.taken q pl r).sq k).ls = (s.sq k).ls :=
  (congrArg Square.ls (s.taken_sq q pl r k) :)
@[simp] theorem State.taken_pc (s : State) (q pl : Nat) (r : Rec) (n : Nat) : ((s.taken q pl r).player q n).pc = (s.player q n).pc :=
  (congrArg Player.pc (s.taken_player q pl r n) :)
@[simp] theorem State.taken_vl (s : State) (q pl : Nat) (r : Rec) (n : Nat) : ((s.taken q pl r).player q n).vl = (s.player q n).vl :=
  (congrArg Player.vl (s.taken_player q pl r n) :)
@[simp] theorem State.taken_indexReg (s : State) (q pl : Nat) (r : Rec) (n i : Nat) :
    (s.taken q pl r).indexReg q n i = s.indexReg q n i :=
  (congrArg (fun P => Tab.get 0 P.index i) (s.taken_player q pl r n) :)

/-! ### What stands in flight after issue -/

section
variable (s : State) (q pl : Nat) (r : Rec) (kind : OpKind) (phase : OpPhase) (operands : List Rec) (index : Nat) (slots : List Nat)
  (reads writes : Nat)

/-- The Square that issues an operation, but for its Players: the operation stands last in flight, with its claims. -/
theorem State.issueOp_sq :
    { (s.issueOp q pl r kind phase operands index slots reads writes).sq q with players := (s.sq q).players } =
      { s.sq q with
        inflight := (s.sq q).inflight ++ [{ id := (s.sq q).nextOp, player := pl, record := (s.player q pl).pc, kind := kind
                                            phase := phase, bits := r, operands := operands, index := index
                                            vl := (s.player q pl).vl, slots := slots, readsMask := reads, writesMask := writes }]
        nextOp := (s.sq q).nextOp + 1
        claims := (s.sq q).claims ++ slots.map (fun k => (k, (s.sq q).nextOp)) } := by
  simp only [State.issueOp, State.advance, State.updPlayer, State.sq_updSq_same, Square.updPlayer]

theorem State.issueOp_player : (s.issueOp q pl r kind phase operands index slots reads writes).player q pl =
    (s.player q pl).advance (1 + operands.length) := by
  rw [State.issueOp, State.advance, State.player_updPlayer, if_pos rfl, State.player, State.sq_updSq_same]
  rfl

theorem State.issueOp_dram : (s.issueOp q pl r kind phase operands index slots reads writes).dram = s.dram := rfl

theorem State.issueOp_acc : ((s.issueOp q pl r kind phase operands index slots reads writes).sq q).acc = (s.sq q).acc :=
  (congrArg Square.acc (s.issueOp_sq q pl r kind phase operands index slots reads writes) :)

theorem State.issueOp_ls : ((s.issueOp q pl r kind phase operands index slots reads writes).sq q).ls = (s.sq q).ls :=
  (congrArg Square.ls (s.issueOp_sq q pl r kind phase operands index slots reads writes) :)

/-- An operation that takes its record's needs and then a place is issued. -/
theorem State.taken_issueOp_issued :
    Issued s ((s.taken q pl r).issueOp q pl r kind phase operands index slots reads writes) q pl r kind phase operands index slots := by
  have hsq := (s.taken q pl r).issueOp_sq q pl r kind phase operands index slots reads writes
  have hnext := congrArg Square.nextOp hsq
  have hclaims := congrArg Square.claims hsq
  have hflight := congrArg Square.inflight hsq
  simp only [State.taken_nextOp, State.taken_claims, State.taken_inflight, State.taken_pc, State.taken_vl] at hnext hclaims hflight
  exact ⟨hnext, hclaims, State.issueOp_player .., _, hflight, rfl, rfl, rfl, rfl, rfl, rfl, rfl, rfl, rfl, rfl, rfl, rfl⟩

end

/-! ### An operation in flight by its number -/

theorem Square.op_of_inflight_singleton {x : Square} {o : Op} (h : x.inflight = [o]) : x.op o.id = some o := by
  simp [Square.op, h]

/-- An update that keeps the operation's number is found under it. -/
theorem Square.op_updOp (x : Square) (id : Nat) (f : Op → Op) (hf : ∀ o, (f o).id = o.id) :
    (x.updOp id f).op id = (x.op id).map f := by
  unfold Square.updOp Square.op
  induction x.inflight with
  | nil => rfl
  | cons o l ih => by_cases h : o.id = id <;> simp [h, hf, ih]

end Sys2Proof.Machine
end

section
/-!
PROOFS. The matrix array (chapter 07): issue of MATMUL and ARRAY_CONFIG, the order that an ARRAY_CONFIG sets between the matrix
operations around it, and what a stream reads (R186).
-/

namespace Sys2Proof.Machine

open Sys2Proof

/-! ### When an ARRAY_CONFIG takes effect -/

section
variable {s : State} {q : Nat} {o : Op}

/-- Behind a matrix operation in flight, an ARRAY_CONFIG waits. -/
theorem State.tryConfig_behind (ho : (s.sq q).op o.id = some o) (hb : (s.sq q).matrixBefore o ≠ []) : s.tryConfig q o.id = s := by
  simp [State.tryConfig, ho, hb]

/-- With no earlier matrix operation in flight, a waiting ARRAY_CONFIG sets the mode and is done. -/
theorem State.tryConfig_first (ho : (s.sq q).op o.id = some o) (hc : o.isConfig = true) (hp : o.phase = .waiting)
    (hb : (s.sq q).matrixBefore o = []) : s.tryConfig q o.id =
      (s.updSq q (fun x => { x with chainMode := recBit o.bits 64 })).updOp q o.id (fun y => { y with phase := .done }) := by
  simp [State.tryConfig, ho, hc, hp, hb]

/-- The Square in which an ARRAY_CONFIG has taken effect. -/
theorem State.tryConfig_first_sq (ho : (s.sq q).op o.id = some o) (hc : o.isConfig = true) (hp : o.phase = .waiting)
    (hb : (s.sq q).matrixBefore o = []) : (s.tryConfig q o.id).sq q =
      { (s.sq q).updOp o.id (fun y => { y with phase := .done }) with chainMode := recBit o.bits 64 } := by
  rw [State.tryConfig_first ho hc hp hb, State.updOp, State.sq_updSq_same, State.sq_updSq_same]
  rfl

/-- The ARRAY_CONFIG that has taken effect is done. -/
theorem State.tryConfig_first_op (ho : (s.sq q).op o.id = some o) (hc : o.isConfig = true) (hp : o.phase = .waiting)
    (hb : (s.sq q).matrixBefore o = []) : ((s.tryConfig q o.id).sq q).op o.id = some { o with phase := .done } := by
  have hop := (s.sq q).op_updOp o.id (fun y => { y with phase := .done }) (fun _ => rfl)
  rw [ho] at hop
  rw [State.tryConfig_first_sq ho hc hp hb]
  exact hop

end

/-- An ARRAY_CONFIG is tried on its own Square only. -/
theorem State.tryConfig_other (s : State) {q k : Nat} (id : Nat) (hk : k ≠ q) : (s.tryConfig q id).sq k = s.sq k := by
  unfold State.tryConfig State.updOp
  split
  · split
    · rw [State.sq_updSq, if_neg hk.symm, State.sq_updSq, if_neg hk.symm]
    · rfl
  · rfl

/-- An operation alone in flight has no matrix operation before it. -/
theorem Square.matrixBefore_singleton {x : Square} {o : Op} (h : x.inflight = [o]) : x.matrixBefore o = [] := by
  simp [Square.matrixBefore, h]

/-! ### Streams behind an ARRAY_CONFIG -/

theorem Op.not_isMatmul_of_isConfig {e : Op} (h : e.isConfig = true) : e.isMatmul = false := by
  simp only [Op.isConfig, decide_eq_true_eq] at h
  simp [Op.isMatmul, h]

/-- No stream is ready behind an ARRAY_CONFIG in flight. -/
theorem Square.streamReady_behind_config {x : Square} {o e : Op} (he : e ∈ x.matrixBefore o) (hc : e.isConfig = true) :
    x.streamReady o = false := by
  have hall : (x.matrixBefore o).all (fun e => e.isMatmul && decide (mmPacking e.bits = x.packing)) = false :=
    List.all_eq_false.2 ⟨e, he, by simp [Op.not_isMatmul_of_isConfig hc]⟩
  simp [Square.streamReady, hall]

theorem State.tryStream_not_ready {s : State} {q : Nat} {o : Op} (ho : (s.sq q).op o.id = some o)
    (hr : (s.sq q).streamReady o = false) : s.tryStream q o.id = s := by
  simp [State.tryStream, ho, hr]

/-! ### What a stream reads

Of its Square a stream reads the owner, Local Store, the feed injectors and Accumulator Memory: an update that keeps these keeps its
sums and flags.
-/

section
variable {s : State} {q : Nat} {f : Square → Square} (howner : (f (s.sq q)).owner = (s.sq q).owner) (hls : (f (s.sq q)).ls = (s.sq q).ls)
  (hfeed : (f (s.sq q)).feedErr = (s.sq q).feedErr) (hacc : (f (s.sq q)).acc = (s.sq q).acc)

include howner

theorem State.owner_updSq (k : Nat) : (s.updSq q f).owner k = s.owner k := by
  simp only [State.owner, State.sq_updSq]
  split
  next hk => rw [← hk, howner]
  next => rfl

theorem State.translate_updSq (p va : Nat) (write : Bool) : (s.updSq q f).translate p va write = s.translate p va write := by
  have hwalk : (s.updSq q f).walk p va = s.walk p va := rfl
  simp only [State.translate, hwalk, State.owner_updSq howner]

theorem State.localBytes_updSq (p detail pool : Nat) (write : Bool) (at_ : Nat × Nat) (bits : Nat) :
    (s.updSq q f).localBytes q p detail pool write at_ bits = s.localBytes q p detail pool write at_ bits := by
  simp only [State.localBytes, State.localOffset, State.translate_updSq howner]

include hls

theorem State.localElem_updSq (p detail pool : Nat) (at_ : Nat × Nat) (bits : Nat) :
    (s.updSq q f).localElem q p detail pool at_ bits = s.localElem q p detail pool at_ bits := by
  have hbyte : (f (s.sq q)).lsByte = (s.sq q).lsByte := by funext off; simp only [Square.lsByte, hls]
  simp only [State.localElem, State.localBytes_updSq howner, State.sq_updSq_same, hbyte]

theorem State.mmOperand_updSq (p pool side : Nat) (t sc : Tensor) (trans : Bool) (flip : Nat → Nat) :
    (s.updSq q f).mmOperand q p pool side t sc trans flip = s.mmOperand q p pool side t sc trans flip := by
  simp only [State.mmOperand, State.readLocal, State.localElem_updSq howner hls]

include hfeed

theorem State.mmData_updSq (p : Nat) (r : Rec) (x : MmTensors) : (s.updSq q f).mmData q p r x = s.mmData q p r x := by
  simp only [State.mmData, State.mmOperand_updSq howner hls, State.sq_updSq_same, Square.feedFlip, hfeed]

include hacc

theorem State.mmStream_updSq (r : Rec) (x : MmTensors) : (s.updSq q f).mmStream q r x = s.mmStream q r x := by
  simp only [State.mmStream, State.partOf, State.owner_updSq howner, State.mmData_updSq howner hls hfeed, State.sq_updSq_same,
    Square.accRead, hacc]

end

/-! ### The two commands -/

theorem exec_matmul_issues {s : State} {q pl : Nat} {r : Rec} (hi : IssuesNow s q pl r 0x10)
    (hc : matmulCheck q pl (s.takeWaits q pl r) r = none) :
    exec (.matmul q pl) s = .next (((s.taken q pl r).issueOp q pl r .matmul .waiting []
      (if mmShiftEnable r then s.indexReg q pl (mmIndexReg r) else 0) [mmSlot r] 0 0).tryStream q (s.sq q).nextOp) := by
  change execMatmul q pl s = _
  rw [execMatmul, playerOp_acts hi rfl hc]
  simp only [State.taken_nextOp, State.taken_indexReg]

theorem exec_arrayConfig_issues {s : State} {q pl : Nat} {r : Rec} (hi : IssuesNow s q pl r 0x11)
    (hb : recBodyOk r (bitsAt 64 1) = true) :
    exec (.arrayConfig q pl) s = .next (((s.taken q pl r).issueOp q pl r .arrayConfig .waiting [] 0 [] 0 0).tryConfig q
      (s.sq q).nextOp) := by
  change execArrayConfig q pl s = _
  rw [execArrayConfig, playerOp_acts hi rfl (by rw [bodyCheck, if_pos hb])]
  simp only [State.taken_nextOp]

/-- An ARRAY_CONFIG issued with nothing in flight takes effect at once. -/
theorem tryConfig_of_issued_alone {s u : State} {q pl : Nat} {r : Rec} (hu : Issued s u q pl r .arrayConfig .waiting [] 0 [])
    (he : (s.sq q).inflight = []) :
    ((u.tryConfig q (s.sq q).nextOp).sq q).chainMode = recBit r 64 ∧
      ((u.tryConfig q (s.sq q).nextOp).sq q).inflight.map (fun o => (o.id, o.phase)) = [((s.sq q).nextOp, .done)] := by
  obtain ⟨-, -, -, o, hflight, hid, -, -, hkind, hphase, hbits, -⟩ := hu
  rw [he, List.nil_append] at hflight
  have hsq := State.tryConfig_first_sq (Square.op_of_inflight_singleton hflight) (by simp [Op.isConfig, hkind]) hphase
    (Square.matrixBefore_singleton hflight)
  rw [← hid, hsq]
  exact ⟨by rw [hbits], by simp [Square.updOp, hflight]⟩

/-- Settles O13: both commands issue their operation and then try it; whether an ARRAY_CONFIG or a stream behind one proceeds turns on
the matrix operations issued before it; and a stream does not read the mode. -/
theorem arrayIssue : Obligations.ArrayIssue := by
  unfold Obligations.ArrayIssue
  intro s q pl r
  refine ⟨fun hi hc => ?matmul, fun hi hb => ?arrayConfig, fun o ho hc hp => ⟨?behind, fun hb => ?first⟩,
    fun o e ho _ he hc => ?stream, fun b x => ?sums⟩
  case matmul =>
    exact ⟨_, exec_matmul_issues hi hc, s.taken_issueOp_issued .., (State.issueOp_dram ..).trans (s.taken_dram ..),
      (State.issueOp_acc ..).trans (s.taken_acc ..), (State.issueOp_ls ..).trans (s.taken_ls ..)⟩
  case arrayConfig =>
    have hu := s.taken_issueOp_issued q pl r .arrayConfig .waiting [] 0 [] 0 0
    exact ⟨_, exec_arrayConfig_issues hi hb, hu, tryConfig_of_issued_alone hu⟩
  case behind => exact State.tryConfig_behind ho
  case first =>
    exact ⟨by rw [State.tryConfig_first_sq ho hc hp hb], State.tryConfig_first_op ho hc hp hb,
      fun k hk => s.tryConfig_other o.id hk⟩
  case stream =>
    have hr := Square.streamReady_behind_config he hc
    exact ⟨hr, State.tryStream_not_ready ho hr⟩
  case sums => exact State.mmStream_updSq rfl rfl rfl rfl r x

end Sys2Proof.Machine
end

section
/-!
PROOFS. Accumulator Memory and mask registers (chapter 08, R233): what a fill of a region and a write of a mask register leave, what
ACC_STORE keeps of the Accumulator Memory, and how the sequential combination of partials composes (R206, R207).
-/

namespace Sys2Proof.Machine

open Sys2Proof

/-! ### Accumulator Memory under writes -/

theorem Square.accRead_accWrite (x : Square) (i v j : Nat) :
    (x.accWrite i v).accRead j = if i = j then v % 2 ^ 32 else x.accRead j := by
  unfold Square.accWrite Square.accRead
  rw [Mem.read_write]
  split
  · exact BitVec.toNat_ofNat v 32
  · rfl

/-- One value written to a list of elements stands there, and every other element is as before. -/
theorem Square.accRead_accWriteAll_fill (x : Square) (is : List Nat) (v j : Nat) :
    (x.accWriteAll (is.map (fun i => (i, v)))).accRead j = if j ∈ is then v % 2 ^ 32 else x.accRead j := by
  unfold Square.accWriteAll
  induction is generalizing x with
  | nil => rfl
  | cons i is ih =>
    rw [List.map_cons, List.foldl_cons, ih, Square.accRead_accWrite]
    by_cases hj : j ∈ is <;> simp [hj, eq_comm]

/-- A reading of a Square that no step of a fold changes is kept by the fold. -/
theorem Square.foldl_keeps {α β : Type} (g : Square → β) {f : Square → α → Square} (l : List α) (x : Square)
    (h : ∀ y a, g (f y a) = g y) : g (l.foldl f x) = g x := by
  induction l generalizing x with
  | nil => rfl
  | cons a l ih => rw [List.foldl_cons, ih, h]

theorem Square.accWriteAll_ls (x : Square) (ws : List (Nat × Nat)) : (x.accWriteAll ws).ls = x.ls :=
  Square.foldl_keeps Square.ls ws x (fun _ _ => rfl)

/-- An element write in Local Store leaves Accumulator Memory. -/
theorem Square.putElem_acc (x : Square) (w : ElemWrite) : (x.putElem w).acc = x.acc :=
  Square.foldl_keeps Square.acc _ x (fun _ _ => rfl)

theorem State.putElems_acc (s : State) (q : Nat) (ws : List ElemWrite) : ((s.putElems q ws).sq q).acc = (s.sq q).acc := by
  rw [State.putElems, State.sq_updSq_same]
  exact Square.foldl_keeps Square.acc ws (s.sq q) Square.putElem_acc

/-- An update that keeps a reading of its Square keeps it in every Square. -/
theorem State.updSq_keeps {β : Type} (g : Square → β) (s : State) (q k : Nat) {f : Square → Square} (h : ∀ x, g (f x) = g x) :
    g ((s.updSq q f).sq k) = g (s.sq k) := by
  rw [State.sq_updSq]
  split
  next hk => rw [h, hk]
  next => rfl

theorem State.dataError_sq (s : State) (p : Nat) (va : Option Nat) (latch : Bool) (k : Nat) :
    (s.dataError p va latch).sq k = s.sq k := rfl

/-- An error met in a store of a Square is counted and reported; no element of Accumulator Memory changes (R199). -/
theorem State.storeError_acc (s : State) (q kind k : Nat) : ((s.storeError q kind).sq k).acc = (s.sq k).acc := by
  unfold State.storeError
  dsimp only
  split
  · rw [State.raise_sq, State.updSq_keeps Square.acc]
    exact fun _ => rfl
  · have hcount : ((s.updSq q (fun x => { x with hwTimes := x.hwTimes ++ [s.now] })).sq k).acc = (s.sq k).acc := by
      rw [State.updSq_keeps Square.acc]
      exact fun _ => rfl
    split
    · rw [State.dataError_sq, State.raise_sq, hcount]
    · rw [State.raise_sq, hcount]

theorem State.touchAcc_acc (s : State) (q : Nat) (is : List Nat) (k : Nat) : ((s.touchAcc q is).sq k).acc = (s.sq k).acc := by
  refine foldl_keeps (fun t => (t.sq k).acc) _ s (fun t e => ?_)
  dsimp only
  split
  · rw [State.updSq_keeps Square.acc, State.storeError_acc]
    exact fun _ => rfl
  · exact t.storeError_acc q e.2 k

/-! ### Runs over the elements of a region -/

theorem foldl_untilStep_of_ok {α : Type} {f : Nat → Except RunFault α} {g : Nat → α} (h : ∀ k, f k = .ok (g k)) (l : List Nat)
    (done : List α) : l.foldl (untilStep f) (done, none) = ((l.map g).reverse ++ done, none) := by
  induction l generalizing done with
  | nil => rfl
  | cons k l ih =>
    have hstep : untilStep f (done, none) k = (g k :: done, none) := by simp only [untilStep, h]
    rw [List.foldl_cons, hstep, ih, List.map_cons, List.reverse_cons, List.append_assoc, List.singleton_append]

/-- A run that never fails gives every element's value. -/
theorem runUntil_of_ok {α : Type} {f : Nat → Except RunFault α} {g : Nat → α} (h : ∀ k, f k = .ok (g k)) (n : Nat) :
    runUntil f n = ((List.range n).map g, none) := by
  simp only [runUntil, foldl_untilStep_of_ok h, List.append_nil, List.reverse_reverse]

theorem orAll_of_all_zero {l : List Nat} (h : ∀ x ∈ l, x = 0) : orAll l = 0 := by
  unfold orAll
  induction l with
  | nil => rfl
  | cons x l ih =>
    obtain ⟨rfl, hl⟩ := List.forall_mem_cons.1 h
    exact ih hl

/-- The slot elements of a record's region, in row-major order. -/
def accRegion (r : Rec) : List Nat := (List.range (accCount r)).map (accElem r)

theorem mem_accRegion {r : Rec} {e : Nat} : e ∈ accRegion r ↔ ∃ n, n < accCount r ∧ accElem r n = e := by
  simp [accRegion]

theorem accElem_mem_accRegion {r : Rec} {n : Nat} (h : n < accCount r) : accElem r n ∈ accRegion r :=
  mem_accRegion.2 ⟨n, h, rfl⟩

/-- A value written to every element of a record's region. -/
def State.fillRegion (s : State) (q : Nat) (r : Rec) (v : Nat) : State :=
  s.updSq q (fun x => x.accWriteAll ((accRegion r).map (fun i => (i, v))))

theorem State.fillRegion_accRead (s : State) (q : Nat) (r : Rec) (v e : Nat) :
    ((s.fillRegion q r v).sq q).accRead e = if e ∈ accRegion r then v % 2 ^ 32 else (s.sq q).accRead e := by
  rw [State.fillRegion, State.sq_updSq_same, Square.accRead_accWriteAll_fill]

theorem State.fillRegion_ls (s : State) (q : Nat) (r : Rec) (v : Nat) : ((s.fillRegion q r v).sq q).ls = (s.sq q).ls := by
  rw [State.fillRegion, State.sq_updSq_same, Square.accWriteAll_ls]

theorem State.fillRegion_dram (s : State) (q : Nat) (r : Rec) (v : Nat) : (s.fillRegion q r v).dram = s.dram := rfl

/-! ### ACC_LOAD and ACC_STORE -/

theorem accConstant_lt (r : Rec) : accConstant r < 2 ^ 32 := Nat.mod_lt _ (by decide)

/-- ACC_LOAD of a constant fills its region, with no flag and no fault (R203). -/
theorem accLoadRun_constant {o : Op} (h : accMode o.bits = 0) (s : State) (q : Nat) :
    accLoadRun s q o = { state := s.fillRegion q o.bits (accConstant o.bits), flags := 0, fault := none } := by
  have hrun := fun t => runUntil_of_ok (f := s.accLoadValue q (s.partOf q) o.bits t) (g := fun _ => (accConstant o.bits, 0))
    (fun k => by rw [State.accLoadValue, if_pos h]) (accCount o.bits)
  have hflags : orAll (((List.range (accCount o.bits)).map (fun _ => (accConstant o.bits, 0))).map (·.2)) = 0 :=
    orAll_of_all_zero (by simp)
  have hzip : ∀ n, (List.range n).zip ((List.range n).map (fun _ => (accConstant o.bits, 0))) =
      (List.range n).map (fun k => (k, (accConstant o.bits, 0))) := fun n => by
    rw [← List.map_prod_left_eq_zip]
  simp only [accLoadRun, hrun, hflags, h, if_true, List.length_map, List.length_range, hzip]
  simp only [State.fillRegion, accRegion, List.map_map, Function.comp_def]

/-- ACC_STORE without Clear leaves Accumulator Memory. -/
theorem accStoreRun_acc {o : Op} (h : accClear o.bits = false) (s : State) (q : Nat) :
    ((accStoreRun s q o).state.sq q).acc = (s.sq q).acc := by
  simp only [accStoreRun, h, Bool.false_and, Bool.false_eq_true, if_false, State.touchAcc_acc, State.putElems_acc]

/-- ACC_STORE with Clear that no fault stops ends with zeros written to its region (R204). -/
theorem accStoreRun_clears {s : State} {q : Nat} {o : Op} (hf : (accStoreRun s q o).fault = none) (hc : accClear o.bits = true) :
    ∃ u : State, (accStoreRun s q o).state = u.fillRegion q o.bits 0 := by
  simp only [accStoreRun] at hf ⊢
  simp only [hf, hc, Option.isNone_none, Bool.and_self, if_true]
  exact ⟨_, by rw [State.fillRegion, accRegion, List.map_map]; rfl⟩

/-! ### MASK_OP -/

section
variable (s : State) (q pl m : Nat) (v : BitVec 65536) (words : Nat)

theorem State.putMask_mask : ((s.putMask q pl m v words).player q pl).mask m = v := by
  have hplayer : (s.putMask q pl m v words).player q pl =
      (s.updPlayer q pl (fun P => { P with masks := Mem.write 0 P.masks m v })).player q pl :=
    State.updSq_keeps (fun x => x.player pl) _ q q (fun _ => rfl)
  rw [hplayer, State.player_updPlayer, if_pos rfl]
  exact (Mem.read_write 0 _ m m v).trans (if_pos rfl)

/-- In its Square, the write of a mask register changes the Players and the parity of their mask registers only. -/
theorem State.putMask_sq :
    { (s.putMask q pl m v words).sq q with players := (s.sq q).players, maskErr := (s.sq q).maskErr } = s.sq q := by
  rw [State.putMask, State.updPlayer, State.sq_updSq_same, State.sq_updSq_same]
  rfl

theorem State.putMask_other {k : Nat} (h : k ≠ q) : (s.putMask q pl m v words).sq k = s.sq k := by
  rw [State.putMask, State.sq_updSq, if_neg h.symm, State.updPlayer, State.sq_updSq, if_neg h.symm]

end

/-- MASK_OP action 0 (R233). -/
theorem maskOpRun_clear {o : Op} (h : moAction o.bits = 0) (s : State) (q : Nat) :
    maskOpRun s q o = { state := s.putMask q o.player (moMask o.bits) 0, flags := 0, fault := none } := by
  rw [maskOpRun, h]; rfl

/-- MASK_OP action 1 (R233). -/
theorem maskOpRun_setFirst {o : Op} (h : moAction o.bits = 1) (s : State) (q : Nat) :
    maskOpRun s q o =
      { state := s.putMask q o.player (moMask o.bits) (BitVec.ofNat 65536 (2 ^ min (moArg o.bits) o.vl - 1))
        flags := 0, fault := none } := by
  simp only [maskOpRun, h]

/-! ### Sequential combination -/

/-- An FP32 code with a NaN made canonical (R46). -/
def canonNan32 (w : Nat) : Nat := if isNan32 w then nan32 else w

theorem isNan32_iff {w : Nat} : isNan32 w = true ↔ dec32 w = .nan := by
  unfold isNan32 Val.isNan
  cases dec32 w <;> simp

/-- A sum with a NaN in front is the canonical NaN. -/
theorem add32_of_isNan32 {a : Nat} (h : isNan32 a = true) (b : Nat) : add32 a b = nan32 := by
  have hdec : fmtFP32.dec a = .nan := isNan32_iff.1 h
  rw [add32, FpFmt.add, hdec]
  rfl

theorem add32_canonNan32 (a b : Nat) : add32 (canonNan32 a) b = add32 a b := by
  unfold canonNan32
  split
  next h => rw [add32_of_isNan32 h, add32_of_isNan32 (by decide)]
  next => rfl

theorem canonNan32_idem (a : Nat) : canonNan32 (canonNan32 a) = canonNan32 a := by
  by_cases h : isNan32 a = true
  · rw [canonNan32, canonNan32, if_pos h, if_pos (by decide)]
  · rw [canonNan32, canonNan32, if_neg h, if_neg h]

/-- A sum in order does not see whether a NaN in front was made canonical before. -/
theorem canonNan32_foldl_add32 (ys : List Nat) (a : Nat) :
    canonNan32 (ys.foldl add32 (canonNan32 a)) = canonNan32 (ys.foldl add32 a) := by
  cases ys with
  | nil => exact canonNan32_idem a
  | cons y ys => rw [List.foldl_cons, List.foldl_cons, add32_canonNan32]

/-- The terms of an element are added in order, and a NaN is written canonical (R206). -/
theorem combineTerms_cons (a : Nat) (r : List Nat) : (combineTerms (a :: r)).1 = canonNan32 (r.foldl add32 a) := by
  have hsum : (r.foldl combineStep (a, if isNan32 a then 4 else 0)).1 = r.foldl add32 a :=
    (List.foldl_hom Prod.fst (g₁ := combineStep) (g₂ := add32) (fun _ _ => rfl)).symm
  rw [← hsum]
  rfl

/-- Terms combined first and the rest after them give the bits of one sum of all (R207). -/
theorem combineTerms_append {xs : List Nat} (h : xs ≠ []) (ys : List Nat) :
    (combineTerms (xs ++ ys)).1 = (combineTerms ((combineTerms xs).1 :: ys)).1 := by
  obtain ⟨a, r, rfl⟩ := List.exists_cons_of_ne_nil h
  calc (combineTerms (a :: r ++ ys)).1
      = canonNan32 (ys.foldl add32 (r.foldl add32 a)) := by rw [List.cons_append, combineTerms_cons, List.foldl_append]
    _ = canonNan32 (ys.foldl add32 (canonNan32 (r.foldl add32 a))) := (canonNan32_foldl_add32 ys _).symm
    _ = (combineTerms ((combineTerms (a :: r)).1 :: ys)).1 := by rw [combineTerms_cons, combineTerms_cons]

/-- Element n of ACC_COMBINE where its partials can be read: its own value first with Include, then the partials. -/
theorem State.accCombineValue_of_parts {s : State} {q p : Nat} {r : Rec} {t : Tensor} {n : Nat} {parts : List Nat}
    (h : (List.range (t.size 2)).mapM (fun k => s.localElem q p 0x3B (accDesc r) (t.at (n + k * accCount r)) 32) = .ok parts) :
    s.accCombineValue q p r t n =
      .ok (combineTerms ((if recBit r 80 then [(s.sq q).accRead (accElem r n)] else []) ++ parts)) := by
  rw [State.accCombineValue, h]
  rfl

/-- Settles O20: the operations on Accumulator Memory are fills of the region or leave it, MASK_OP is one write of a mask register, and
partials are combined by a sum in order, which composes. -/
theorem accumulatorAndMasks : Obligations.AccumulatorAndMasks := by
  unfold Obligations.AccumulatorAndMasks
  intro s q o
  refine ⟨fun hm _ => ?load, fun ha => ?clearMask, fun ha => ?setMask, fun hf hc _ n hn => ?clear, fun hc => accStoreRun_acc hc s q,
    fun a _ => combineTerms_cons a [], fun a b hn => ?two, fun xs ys hx => combineTerms_append hx ys,
    fun p t n parts => State.accCombineValue_of_parts⟩
  case load =>
    rw [accLoadRun_constant hm]
    refine ⟨rfl, rfl, fun n hn => ?_, fun e he => ?_, State.fillRegion_ls .., State.fillRegion_dram ..⟩
    · rw [State.fillRegion_accRead, if_pos (accElem_mem_accRegion hn), Nat.mod_eq_of_lt (accConstant_lt o.bits)]
    · rw [State.fillRegion_accRead, if_neg]
      intro hmem
      obtain ⟨n, hn, rfl⟩ := mem_accRegion.1 hmem
      exact he n hn rfl
  case clearMask =>
    rw [maskOpRun_clear ha]
    exact ⟨rfl, State.putMask_mask ..⟩
  case setMask =>
    rw [maskOpRun_setFirst ha]
    have hsq := s.putMask_sq q o.player (moMask o.bits) (BitVec.ofNat 65536 (2 ^ min (moArg o.bits) o.vl - 1)) 2048
    refine ⟨rfl, fun i hi => ?_, (congrArg Square.acc hsq :), (congrArg Square.ls hsq :),
      fun k hk => State.putMask_other _ _ _ _ _ _ hk⟩
    rw [State.putMask_mask, BitVec.getLsbD_ofNat, Nat.testBit_two_pow_sub_one, decide_eq_true hi, Bool.true_and]
  case clear =>
    obtain ⟨u, hu⟩ := accStoreRun_clears hf hc
    rw [hu, State.fillRegion_accRead, if_pos (accElem_mem_accRegion hn), Nat.zero_mod]
  case two =>
    rw [combineTerms_cons, List.foldl_cons, List.foldl_nil, canonNan32, if_neg (by simp [hn])]

end Sys2Proof.Machine
end

section
/-!
PROOFS. The training step (chapter 11): the boundary that begins a step, and how an uncorrectable error reaches the error latch of its
partition (R271).
-/

namespace Sys2Proof.Machine

open Sys2Proof

/-! ### The gate words -/

theorem Square.lsByte_lsWrite (x : Square) (off a : Nat) (l : List Byte) :
    (x.lsWrite off l).lsByte a = if off ≤ a ∧ a < off + l.length then l.getD (a - off) 0 else x.lsByte a :=
  Mem.read_writeAll 0 x.ls off a l

/-- A Square with +0 in the FP32 word at an offset of its Local Store. -/
def Square.zeroWord (off : Nat) (x : Square) : Square := x.lsWrite off [0, 0, 0, 0]

theorem Square.zeroWord_lsByte (off a : Nat) (x : Square) :
    (x.zeroWord off).lsByte a = if off ≤ a ∧ a < off + 4 then 0 else x.lsByte a := by
  rw [Square.zeroWord, Square.lsByte_lsWrite]
  refine if_congr Iff.rfl ?_ rfl
  rcases a - off with _ | _ | _ | _ | k <;> rfl

/-- The word at an offset is +0 in each of a list of Squares. -/
def State.zeroWords (s : State) (off : Nat) (qs : List Nat) : State := qs.foldl (fun t q => t.updSq q (Square.zeroWord off)) s

theorem State.zeroWords_lsByte (s : State) (off : Nat) (qs : List Nat) (q a : Nat) :
    ((s.zeroWords off qs).sq q).lsByte a = if q ∈ qs ∧ off ≤ a ∧ a < off + 4 then 0 else (s.sq q).lsByte a := by
  unfold State.zeroWords
  induction qs generalizing s with
  | nil => simp
  | cons k qs ih =>
    rw [List.foldl_cons, ih, State.sq_updSq]
    by_cases hk : k = q
    · subst hk
      rw [if_pos rfl, Square.zeroWord_lsByte]
      by_cases ha : off ≤ a ∧ a < off + 4 <;> simp [ha]
    · simp [hk, Ne.symm hk]

theorem State.zeroWords_player (s : State) (off : Nat) (qs : List Nat) (q k : Nat) :
    (s.zeroWords off qs).player q k = s.player q k :=
  foldl_keeps (fun t => t.player q k) qs s (fun t j => t.updSq_keeps (fun x => x.player k) j q (fun _ => rfl))

/-- Zeroed words change Squares only. -/
theorem State.zeroWords_frame (s : State) (off : Nat) (qs : List Nat) : { s.zeroWords off qs with squares := s.squares } = s :=
  foldl_keeps (fun t => { t with squares := s.squares }) (f := fun t q => t.updSq q (Square.zeroWord off)) qs s (fun _ _ => rfl)

theorem State.zeroWords_part (s : State) (off : Nat) (qs : List Nat) (k : Nat) : (s.zeroWords off qs).part k = s.part k :=
  (congrArg (fun t => t.part k) (s.zeroWords_frame off qs) :)

/-! ### The boundary that begins a step -/

theorem State.beginStep_eq (s : State) (p : Nat) (g : List Byte) :
    s.beginStep p g = (s.zeroWords (gateWord g) (bookSquares (s.part p).book)).updPart p (fun x =>
      { x with errorLatch := false, vote := none, childVotes := [], voteSent := false, decision := none, stepOpen := false
               inStep := true }) := rfl

theorem State.beginStep_lsByte (s : State) (p : Nat) (g : List Byte) (q a : Nat) : ((s.beginStep p g).sq q).lsByte a =
    if q ∈ bookSquares (s.part p).book ∧ gateWord g ≤ a ∧ a < gateWord g + 4 then 0 else (s.sq q).lsByte a :=
  s.zeroWords_lsByte (gateWord g) _ q a

theorem State.beginStep_player (s : State) (p : Nat) (g : List Byte) (q k : Nat) : (s.beginStep p g).player q k = s.player q k :=
  s.zeroWords_player (gateWord g) _ q k

theorem State.beginStep_dram (s : State) (p : Nat) (g : List Byte) : (s.beginStep p g).dram = s.dram :=
  (congrArg State.dram (s.zeroWords_frame (gateWord g) _) :)

theorem State.beginStep_events (s : State) (p : Nat) (g : List Byte) : (s.beginStep p g).events = s.events :=
  (congrArg State.events (s.zeroWords_frame (gateWord g) _) :)

theorem State.beginStep_part (s : State) (p : Nat) (g : List Byte) : (s.beginStep p g).part p =
    { s.part p with errorLatch := false, vote := none, childVotes := [], voteSent := false, decision := none, stepOpen := false
                    inStep := true } := by
  rw [State.beginStep_eq, State.part_updPart_same, State.zeroWords_part]

theorem State.beginStep_otherParts (s : State) (p : Nat) (g : List Byte) : OtherParts s (s.beginStep p g) p := fun k hk => by
  rw [State.beginStep_eq, State.part_updPart, if_neg hk.symm, State.zeroWords_part]

/-- The end of a checkpoint changes its partition's checkpoint counters only. -/
theorem State.checkpointDone_part (s : State) (p : Nat) :
    { (s.checkpointDone p).part p with lastCheckpointStep := (s.part p).lastCheckpointStep
                                       lastCheckpointBatch := (s.part p).lastCheckpointBatch, ckpt := (s.part p).ckpt } = s.part p := by
  rw [State.checkpointDone, State.part_updPart_same]
  split
  next => rfl
  next => rfl

theorem State.checkpointDone_book (s : State) (p : Nat) : ((s.checkpointDone p).part p).book = (s.part p).book :=
  (congrArg Partition.book (s.checkpointDone_part p) :)

theorem State.checkpointDone_restoreNeeded (s : State) (p : Nat) :
    ((s.checkpointDone p).part p).restoreNeeded = (s.part p).restoreNeeded :=
  (congrArg Partition.restoreNeeded (s.checkpointDone_part p) :)

theorem State.checkpointDone_stepCounter (s : State) (p : Nat) :
    ((s.checkpointDone p).part p).stepCounter = (s.part p).stepCounter :=
  (congrArg Partition.stepCounter (s.checkpointDone_part p) :)

theorem State.checkpointDone_otherParts (s : State) (p : Nat) : OtherParts s (s.checkpointDone p) p := fun k hk => by
  rw [State.checkpointDone, State.part_updPart, if_neg hk.symm]

/-- Checkpoint Turns follow the gate Turn: the first Turn of the plan is none. -/
theorem isCheckpointTurn_zero (b : List Byte) : isCheckpointTurn b 0 = false := by
  unfold isCheckpointTurn
  split
  next => simp
  next => rfl

/-- With the gate not stuck, the first Turn of the plan begins a step. -/
theorem State.planEnter_first {s : State} {p n : Nat} (g : List Byte) (gi : Nat) (hi : (s.part p).planIndex n = 0)
    (hg : (s.part p).gateStuck = false) : s.planEnter p n g gi = (s.checkpointDone p).beginStep p g := by
  simp [State.planEnter, hi, hg, isCheckpointTurn_zero]

/-! ### The error latch -/

/-- The error latch after an uncorrectable error: set until the vote is formed, as it was from then on (R271). -/
def Partition.latchAfterError (x : Partition) : Bool := x.errorLatch || x.vote.isNone

theorem Partition.latchAfterError_unvoted {x : Partition} (h : x.vote = none) : x.latchAfterError = true := by
  simp [Partition.latchAfterError, h]

theorem Partition.latchAfterError_voted {x : Partition} (h : x.vote ≠ none) : x.latchAfterError = x.errorLatch := by
  simp [Partition.latchAfterError, h]

theorem State.dataError_errorLatch (s : State) (p : Nat) (va : Option Nat) :
    ((s.dataError p va true).part p).errorLatch = (s.part p).latchAfterError := by
  simp only [State.dataError, State.part_updPart_same, Bool.true_and, Partition.latchAfterError]

/-! ### What meets an uncorrectable error -/

@[simp] theorem State.countRead_part (s : State) (st phys kind k : Nat) : (s.countRead st phys kind).part k = s.part k := rfl

@[simp] theorem State.startMigration_part (s : State) (die st ch k : Nat) : (s.startMigration die st ch).part k = s.part k := by
  unfold State.startMigration
  dsimp only
  split
  next => exact State.raise_part ..
  next => rfl

@[simp] theorem State.triggerMigration_part (s : State) (st ch k : Nat) : (s.triggerMigration st ch).part k = s.part k := by
  unfold State.triggerMigration
  dsimp only
  split
  · rfl
  · split
    · exact State.startMigration_part ..
    · rfl

/-- Table MEM-8 has two outcomes that deliver no data: uncorrectable and Tag mismatch. -/
theorem State.outcome_fails {s : State} {who pa : Nat} (h : 2 ≤ s.outcome who pa) : s.outcome who pa = 2 ∨ s.outcome who pa = 3 := by
  have hle : s.outcome who pa ≤ 3 := by
    unfold State.outcome
    dsimp only
    split_ifs <;> decide
  omega

theorem State.storeError_errorLatch {s : State} {q p : Nat} (h : s.owner q = some p) :
    ((s.storeError q 2).part p).errorLatch = (s.part p).latchAfterError := by
  simp [State.storeError, h, State.dataError_errorLatch]

theorem State.readEffects_errorLatch {s : State} {p pa : Nat} (hp : p ≠ deviceOwner) (h : 2 ≤ s.outcome p pa) (pools : List Nat) :
    ((s.readEffects p pa (some p) true pools).part p).errorLatch = (s.part p).latchAfterError := by
  rcases State.outcome_fails h with ho | ho <;> simp [State.readEffects, ho, hp, State.dataError_errorLatch]

/-- A write that leaves a byte of its sector out reads the sector first (R305): an error there reaches the latch. -/
theorem State.writeBytes_errorLatch {s : State} {p pa i : Nat} {ws : List (Nat × Byte × Byte)} (hp : p ≠ deviceOwner)
    (h : 2 ≤ s.outcome p (pa / 64 * 64)) (hi : i < 64) (hw : ∀ w ∈ ws, w.1 ≠ i) (pools : List Nat) :
    ((s.writeBytes p pa (some p) ws pools).part p).errorLatch = (s.part p).latchAfterError := by
  have hnone : ws.filter (fun w => decide (w.1 = i)) = [] := List.filter_eq_nil_iff.2 (fun w hm => by simpa using hw w hm)
  have hpart : (List.range 64).all (fun i =>
      decide ((ws.filter (fun w => decide (w.1 = i))).foldl (fun a w => a &&& w.2.2) (0xFF : Byte) = 0)) = false :=
    List.all_eq_false.2 ⟨i, List.mem_range.2 hi, by rw [hnone]; decide⟩
  simp only [State.writeBytes, hpart, Bool.false_eq_true, if_false, hp]
  rcases State.outcome_fails h with ho | ho <;> simp [ho, State.dataError_errorLatch]

/-- A partition is not the device owner. -/
theorem ne_deviceOwner_of_partition {p : Nat} (h : p < 16) : p ≠ deviceOwner := Nat.ne_of_lt h

/-- Settles O30: the first Turn of the plan is the beginning of a step after the end of a checkpoint; each of the three accesses that
meet an uncorrectable error leaves the error latch as `Partition.latchAfterError` says. -/
theorem stepBegins : Obligations.StepBegins := by
  unfold Obligations.StepBegins
  intro s p n gi g
  refine ⟨fun hi hg => ?begins, fun hv => ⟨fun q ho => ?store, fun pa hp h => ?read, fun pa ws hp h ⟨i, hlt, hw⟩ => ?write⟩,
    fun hv => ⟨fun q ho => ?storeVoted, fun pa hp h => ?readVoted⟩⟩
  case begins =>
    have hpart := (s.checkpointDone p).beginStep_part p g
    have hbyte := (s.checkpointDone p).beginStep_lsByte p g
    rw [State.checkpointDone_book] at hbyte
    rw [State.planEnter_first g gi hi hg]
    refine ⟨fun q hq i hlt => ?zero, fun q a hout => ?elsewhere, fun q k => State.beginStep_player .., by rw [hpart], by rw [hpart],
      by rw [hpart], by rw [hpart, s.checkpointDone_restoreNeeded], by rw [hpart, s.checkpointDone_stepCounter], fun k hk => ?parts,
      State.beginStep_dram .., State.beginStep_events ..⟩
    case zero => rw [hbyte, if_pos ⟨hq, by omega, by omega⟩]
    case elsewhere =>
      have hnot : ¬(q ∈ bookSquares (s.part p).book ∧ gateWord g ≤ a ∧ a < gateWord g + 4) := fun ⟨hq, hlo, hhi⟩ =>
        hout.elim (fun hne => hne hq) (by omega)
      exact (hbyte q a).trans (if_neg hnot)
    case parts => rw [State.beginStep_otherParts _ p g k hk, s.checkpointDone_otherParts p k hk]
  case store => rw [State.storeError_errorLatch ho, Partition.latchAfterError_unvoted hv]
  case read => rw [State.readEffects_errorLatch (ne_deviceOwner_of_partition hp) h, Partition.latchAfterError_unvoted hv]
  case write => rw [State.writeBytes_errorLatch (ne_deviceOwner_of_partition hp) h hlt hw, Partition.latchAfterError_unvoted hv]
  case storeVoted => rw [State.storeError_errorLatch ho, Partition.latchAfterError_voted hv]
  case readVoted => rw [State.readEffects_errorLatch (ne_deviceOwner_of_partition hp) h, Partition.latchAfterError_voted hv]

end Sys2Proof.Machine
end

section
/-!
PROOFS. Status flags (R422): what FLAG_CLEAR leaves of each mask of flags, and what a set of a flag of 1001 leaves and counts
(R434; log 8).
-/

namespace Sys2Proof.Machine

open Sys2Proof

/-! ### Clearing flags -/

@[simp] theorem testBit_clearBits (flags v i : Nat) : (clearBits flags v).testBit i = (flags.testBit i && !v.testBit i) := by
  rw [clearBits, Nat.testBit_and, Nat.testBit_xor]
  cases flags.testBit i
  case false => rfl
  case true => rw [Bool.true_and, Bool.true_and, Bool.true_xor]

/-- A reading of the state that neither the three masks of flags nor the list of 1001:04 can change is kept by a clear. -/
theorem State.clearFlags_keeps {β : Type} (g : State → β) (s : State) (idx v : Nat)
    (hstatus : ∀ n l, g { s with statusFlags := n, defaulted := l } = g s)
    (hsupply : ∀ n, g (s.updPower (fun x => { x with supplyFlags := n })) = g s)
    (hcoolant : ∀ n, g (s.updThermal (fun x => { x with coolantFlags := n })) = g s) : g (s.clearFlags idx v) = g s := by
  unfold State.clearFlags
  split
  next => exact hstatus ..
  next =>
    split
    next => exact hsupply ..
    next => exact hcoolant ..

@[simp] theorem State.clearFlags_parts (s : State) (idx v : Nat) : (s.clearFlags idx v).parts = s.parts :=
  s.clearFlags_keeps _ idx v (fun _ _ => rfl) (fun _ => rfl) (fun _ => rfl)

@[simp] theorem State.clearFlags_squares (s : State) (idx v : Nat) : (s.clearFlags idx v).squares = s.squares :=
  s.clearFlags_keeps _ idx v (fun _ _ => rfl) (fun _ => rfl) (fun _ => rfl)

@[simp] theorem State.clearFlags_dram (s : State) (idx v : Nat) : (s.clearFlags idx v).dram = s.dram :=
  s.clearFlags_keeps _ idx v (fun _ _ => rfl) (fun _ => rfl) (fun _ => rfl)

@[simp] theorem State.clearFlags_flagEvents (s : State) (idx v : Nat) : (s.clearFlags idx v).flagEvents = s.flagEvents :=
  s.clearFlags_keeps _ idx v (fun _ _ => rfl) (fun _ => rfl) (fun _ => rfl)

/-- The status flags of the module are at 1001. With bit 5 the list 1001:04 empties (R434). -/
theorem State.clearFlags_status (s : State) (v : Nat) : s.clearFlags 0x1001 v =
    { s with statusFlags := clearBits s.statusFlags v, defaulted := if v.testBit 5 then [] else s.defaulted } := rfl

/-- The supply flags are at 3010. -/
theorem State.clearFlags_supply (s : State) (v : Nat) :
    s.clearFlags 0x3010 v = s.updPower (fun x => { x with supplyFlags := clearBits x.supplyFlags v }) := rfl

/-- The coolant flags are at 3210. -/
theorem State.clearFlags_coolant (s : State) (v : Nat) :
    s.clearFlags 0x3210 v = s.updThermal (fun x => { x with coolantFlags := clearBits x.coolantFlags v }) := rfl

/-- A received FLAG_CLEAR whose value fits its object clears the flags written 1 and is answered with 0. -/
theorem exec_flagClear_clears {s t : State} {r : Req} (hr : Received s r t) (hf : isFlags r.index r.sub = true)
    (hv : reqValue r < 2 ^ flagBits r.index) :
    exec (.flagClear r) s = .next ((t.clearFlags r.index (reqValue r)).reply r 0) := by
  obtain ⟨hw, ha, hform⟩ := hr
  change execFlagClear r s = _
  rw [execFlagClear, if_pos hf, State.command_runs hw ha hform (if_pos hv)]

/-! ### Setting a flag -/

theorem State.testBit_setFlag (s : State) (i j : Nat) :
    (s.setFlag i).statusFlags.testBit j = (s.statusFlags.testBit j || decide (i = j)) := by
  simp only [State.setFlag, Nat.testBit_or, Nat.one_shiftLeft, Nat.testBit_two_pow]

/-- A set is counted also where the flag is already 1 (log 8). -/
theorem State.setFlag_count (s : State) (i j : Nat) : Tab.get 0 (s.setFlag i).flagEvents j =
    if i = j then satAdd (Tab.get 0 s.flagEvents i) 1 else Tab.get 0 s.flagEvents j :=
  Tab.get_upd 0 s.flagEvents i j (fun n => satAdd n 1)

/-- Settles O52: a received FLAG_CLEAR leaves each mask of flags as `clearBits` has it and all else as it was; a set puts its own bit to 1
and counts, whatever the flag was. -/
theorem flagsClear : Obligations.FlagsClear := by
  unfold Obligations.FlagsClear
  intro s t r v
  refine ⟨fun hr hf hv => ⟨t.clearFlags r.index v, exec_flagClear_clears hr hf hv, t.clearFlags_parts .., t.clearFlags_squares ..,
    t.clearFlags_dram .., t.clearFlags_flagEvents .., fun hi => ?status, fun hi => ?supply, fun hi => ?coolant⟩,
    fun u i => ⟨?sets, ?counts, fun j hj => ⟨?keepsFlag, ?keepsCount⟩⟩⟩
  case status =>
    rw [hi, State.clearFlags_status]
    exact ⟨rfl, rfl, testBit_clearBits _ _⟩
  case supply =>
    rw [hi, State.clearFlags_supply]
    exact ⟨rfl, testBit_clearBits _ _⟩
  case coolant =>
    rw [hi, State.clearFlags_coolant]
    exact ⟨rfl, testBit_clearBits _ _⟩
  case sets => rw [State.testBit_setFlag, decide_eq_true rfl, Bool.or_true]
  case counts => rw [State.setFlag_count, if_pos rfl]
  case keepsFlag => rw [State.testBit_setFlag, decide_eq_false hj.symm, Bool.or_false]
  case keepsCount => rw [State.setFlag_count, if_neg hj.symm]

end Sys2Proof.Machine
end

section
/-!
PROOFS. The step: what every command leaves of the queue, the time and the invariant (`Goes`, command by command), and what a step and
a nanosecond on an empty queue do (R412; log 1).
-/

namespace Sys2Proof.Machine

open Sys2Proof

/-! ### Shapes that several commands share -/

theorem Goes.ite {s0 a b : State} {c : Prop} [Decidable c] (ha : Goes s0 a) (hb : Goes s0 b) : Goes s0 (if c then a else b) := by
  split
  · exact ha
  · exact hb

theorem State.pushSegments_goes {s0 s : State} (n k : Nat) (hg : Goes s0 s) : Goes s0 (s.pushSegments n k) := by
  induction n generalizing s with
  | zero => exact hg
  | succ n ih =>
    unfold State.pushSegments
    split
    · exact hg
    split
    · exact ih (State.putTransfer_goes _ _ (State.sendSeg_goes _ _ _ _ hg))
    · exact hg

theorem Goes.dram_empty {s0 s : State} {d : Dram} (h : Goes s0 s) (hd : d.cells = []) : Goes s0 { s with dram := d } :=
  h.trans ⟨rfl, le_rfl, fun i => ⟨i.1, by rw [hd]; rfl, i.2.2⟩⟩

/-! ### The commands, in the order of the arms of `exec` -/

theorem execSemWait_goes (q pl : Nat) (s : State) : OutGoes s (execSemWait q pl s) :=
  playerOp_goes _ _ _ _ _ _ (fun _ _ h => State.atIssue_goes _ _ _ _ h) (Goes.refl s)

theorem execSemPost_goes (q pl : Nat) (s : State) : OutGoes s (execSemPost q pl s) := by
  refine playerOp_goes _ _ _ _ _ _ (fun _ _ h => ?_) (Goes.refl s)
  repeat' first
    | with_reducible exact h | with_reducible assumption | with_reducible apply State.atIssue_goes
    | with_reducible apply State.post_goes

theorem execSlotWait_goes (q pl : Nat) (s : State) : OutGoes s (execSlotWait q pl s) :=
  playerOp_goes _ _ _ _ _ _ (fun _ _ h => State.atIssue_goes _ _ _ _ h) (Goes.refl s)

theorem execFence_goes (q pl : Nat) (s : State) : OutGoes s (execFence q pl s) :=
  playerOp_goes _ _ _ _ _ _ (fun _ _ h => State.atIssue_goes _ _ _ _ h) (Goes.refl s)

theorem execPlayerStart_goes (q pl : Nat) (s : State) : OutGoes s (execPlayerStart q pl s) := by
  refine playerOp_goes _ _ _ _ _ _ (fun _ _ h => ?_) (Goes.refl s)
  repeat' first
    | with_reducible exact h | with_reducible assumption | with_reducible apply State.atIssue_goes
    | with_reducible apply State.updPlayer_goes

theorem execTurnEnd_goes (q pl : Nat) (s : State) : OutGoes s (execTurnEnd q pl s) := by
  refine playerOp_goes _ _ _ _ _ _ (fun _ _ h => ?_) (Goes.refl s)
  repeat' first
    | with_reducible exact h | with_reducible assumption | with_reducible apply State.atIssue_goes
    | with_reducible apply State.park_goes

theorem execLinkCancel_goes (q pl : Nat) (s : State) : OutGoes s (execLinkCancel q pl s) := by
  refine playerOp_goes _ _ _ _ _ _ (fun _ _ h => ?_) (Goes.refl s)
  dsimp only
  repeat' first
    | with_reducible exact h | with_reducible assumption | with_reducible apply State.cancelChannel_goes
    | with_reducible apply State.issueOp_goes | with_reducible apply State.updEntry_goes
    | with_reducible refine Goes.foldl _ ?_ ?_ | (intro _)

theorem execLoop_goes (q pl : Nat) (s : State) : OutGoes s (execLoop q pl s) := by
  refine playerOp_goes _ _ _ _ _ _ (fun _ _ h => ?_) (Goes.refl s)
  dsimp only
  repeat' first
    | with_reducible exact h | with_reducible assumption | with_reducible apply State.atIssue_goes
    | with_reducible apply State.count_goes | with_reducible apply State.updPlayer_goes

theorem execSetIndex_goes (q pl : Nat) (s : State) : OutGoes s (execSetIndex q pl s) := by
  refine playerOp_goes _ _ _ _ _ _ (fun _ _ h => ?_) (Goes.refl s)
  repeat' first
    | with_reducible exact h | with_reducible assumption | with_reducible apply State.atIssue_goes
    | with_reducible apply State.updPlayer_goes

theorem execSegmentEndWithoutTurnEnd_goes (q pl : Nat) (s : State) : OutGoes s (execSegmentEndWithoutTurnEnd q pl s) := by
  refine OutGoes.onUnit _ ?_
  repeat' first
    | with_reducible exact Goes.refl s | with_reducible assumption | with_reducible apply State.opFault_goes | split

theorem execOperationComplete_goes (q op : Nat) (s : State) : OutGoes s (execOperationComplete q op s) := by
  refine OutGoes.onUnit _ ?_
  dsimp only
  repeat' first
    | with_reducible exact Goes.refl s | with_reducible assumption | with_reducible apply State.arrayProgress_goes
    | with_reducible apply State.complete_goes | with_reducible apply State.updSq_goes
    | with_reducible apply State.vectorProgress_goes | (intro x hx; exact hx) | split

theorem execScoreboardSlotAccess_goes (q op : Nat) (s : State) : OutGoes s (execScoreboardSlotAccess q op s) := by
  refine OutGoes.onUnit _ ?_
  repeat' first
    | with_reducible exact Goes.refl s | with_reducible assumption | with_reducible apply State.arrayProgress_goes
    | with_reducible apply State.runDrain_goes | with_reducible apply State.runStream_goes
    | with_reducible apply State.updOp_goes | with_reducible apply State.vectorProgress_goes | split

theorem execMatmul_goes (q pl : Nat) (s : State) : OutGoes s (execMatmul q pl s) := by
  refine playerOp_goes _ _ _ _ _ _ (fun _ _ h => ?_) (Goes.refl s)
  dsimp only
  repeat' first
    | with_reducible exact h | with_reducible assumption | with_reducible apply State.issueOp_goes
    | with_reducible apply State.tryStream_goes

theorem execMatmulDrain_goes (q op : Nat) (s : State) : OutGoes s (execMatmulDrain q op s) := by
  refine OutGoes.onUnit _ ?_
  repeat' first
    | with_reducible exact Goes.refl s | with_reducible assumption | with_reducible apply State.arrayProgress_goes
    | with_reducible apply State.holdOp_goes | with_reducible apply State.runDrain_goes | split

theorem execPackingChange_goes (q : Nat) (s : State) : OutGoes s (execPackingChange q s) := by
  refine OutGoes.onUnit _ ?_
  repeat' first
    | with_reducible exact Goes.refl s | with_reducible assumption | with_reducible apply State.arrayProgress_goes
    | with_reducible apply State.updSq_goes | (intro x hx; exact hx) | split

theorem execArrayConfig_goes (q pl : Nat) (s : State) : OutGoes s (execArrayConfig q pl s) := by
  refine playerOp_goes _ _ _ _ _ _ (fun _ _ h => ?_) (Goes.refl s)
  dsimp only
  repeat' first
    | with_reducible exact h | with_reducible assumption | with_reducible apply State.issueOp_goes
    | with_reducible apply State.tryConfig_goes

theorem execAccLoad_goes (q pl : Nat) (s : State) : OutGoes s (execAccLoad q pl s) :=
  playerOp_goes _ _ _ _ _ _ (fun _ _ h => State.issueVector_goes _ _ _ _ _ _ _ _ h) (Goes.refl s)

theorem execAccStore_goes (q pl : Nat) (s : State) : OutGoes s (execAccStore q pl s) :=
  playerOp_goes _ _ _ _ _ _ (fun _ _ h => State.issueVector_goes _ _ _ _ _ _ _ _ h) (Goes.refl s)

theorem execAccCombine_goes (q pl : Nat) (s : State) : OutGoes s (execAccCombine q pl s) :=
  playerOp_goes _ _ _ _ _ _ (fun _ _ h => State.issueVector_goes _ _ _ _ _ _ _ _ h) (Goes.refl s)

theorem execVectorQueueStart_goes (q : Nat) (s : State) : OutGoes s (execVectorQueueStart q s) := by
  refine OutGoes.onUnit _ ?_
  repeat' first
    | with_reducible exact Goes.refl s | with_reducible assumption | with_reducible apply State.updSq_goes
    | with_reducible apply State.vectorProgress_goes | (intro x hx; exact hx)

theorem execVsetLength_goes (q pl : Nat) (s : State) : OutGoes s (execVsetLength q pl s) := by
  refine playerOp_goes _ _ _ _ _ _ (fun _ _ h => ?_) (Goes.refl s)
  dsimp only
  repeat' first
    | with_reducible exact h | with_reducible assumption | with_reducible apply State.atIssue_goes
    | with_reducible apply State.updPlayer_goes

theorem execVrun_goes (q pl : Nat) (s : State) : OutGoes s (execVrun q pl s) :=
  playerOp_goes _ _ _ _ _ _ (fun _ _ h => State.issueVector_goes _ _ _ _ _ _ _ _ h) (Goes.refl s)

theorem execMaskOp_goes (q pl : Nat) (s : State) : OutGoes s (execMaskOp q pl s) :=
  playerOp_goes _ _ _ _ _ _ (fun _ _ h => State.issueVector_goes _ _ _ _ _ _ _ _ h) (Goes.refl s)

theorem execVreduce_goes (q pl : Nat) (s : State) : OutGoes s (execVreduce q pl s) :=
  playerOp_goes _ _ _ _ _ _ (fun _ _ h => State.issueVector_goes _ _ _ _ _ _ _ _ h) (Goes.refl s)

theorem execVscan_goes (q pl : Nat) (s : State) : OutGoes s (execVscan q pl s) :=
  playerOp_goes _ _ _ _ _ _ (fun _ _ h => State.issueVector_goes _ _ _ _ _ _ _ _ h) (Goes.refl s)

theorem execLutLoad_goes (q pl : Nat) (s : State) : OutGoes s (execLutLoad q pl s) :=
  playerOp_goes _ _ _ _ _ _ (fun _ _ h => State.issueVector_goes _ _ _ _ _ _ _ _ h) (Goes.refl s)

theorem execLutSwap_goes (q pl : Nat) (s : State) : OutGoes s (execLutSwap q pl s) :=
  playerOp_goes _ _ _ _ _ _ (fun _ _ h => State.issueVector_goes _ _ _ _ _ _ _ _ h) (Goes.refl s)

theorem execVblock_goes (q pl : Nat) (s : State) : OutGoes s (execVblock q pl s) :=
  playerOp_goes _ _ _ _ _ _ (fun _ _ h => State.issueVector_goes _ _ _ _ _ _ _ _ h) (Goes.refl s)

theorem execSmax_goes (q pl : Nat) (s : State) : OutGoes s (execSmax q pl s) :=
  playerOp_goes _ _ _ _ _ _ (fun _ _ h => State.issueVector_goes _ _ _ _ _ _ _ _ h) (Goes.refl s)

theorem execRowStats_goes (q pl : Nat) (s : State) : OutGoes s (execRowStats q pl s) :=
  playerOp_goes _ _ _ _ _ _ (fun _ _ h => State.issueVector_goes _ _ _ _ _ _ _ _ h) (Goes.refl s)

theorem execMoverStart_goes (q pl : Nat) (s : State) : OutGoes s (execMoverStart q pl s) := by
  refine playerOp_goes _ _ _ _ _ _ (fun _ _ h => ?_) (Goes.refl s)
  dsimp only
  repeat' first
    | with_reducible exact h | with_reducible assumption | with_reducible apply State.issueOp_goes
    | with_reducible apply State.startChain_goes

theorem execMoverAbort_goes (q pl : Nat) (s : State) : OutGoes s (execMoverAbort q pl s) := by
  refine playerOp_goes _ _ _ _ _ _ (fun _ _ h => ?_) (Goes.refl s)
  dsimp only
  repeat' first
    | with_reducible exact h | with_reducible assumption | with_reducible apply State.abortChannel_goes
    | with_reducible apply State.issueOp_goes | with_reducible refine Goes.foldl _ ?_ ?_ | split | (intro _)

theorem execMoverCancel_goes (q pl : Nat) (s : State) : OutGoes s (execMoverCancel q pl s) := by
  refine playerOp_goes _ _ _ _ _ _ (fun _ _ h => ?_) (Goes.refl s)
  dsimp only
  repeat' first
    | with_reducible exact h | with_reducible assumption | with_reducible apply State.cancelChannel_goes
    | with_reducible apply State.issueOp_goes | with_reducible refine Goes.foldl _ ?_ ?_ | split | (intro _)

theorem execDescriptorCurrent_goes (m : MoverId) (ch : Nat) (s : State) : OutGoes s (execDescriptorCurrent m ch s) := by
  refine OutGoes.onUnit _ ?_
  dsimp only
  repeat' first
    | with_reducible exact Goes.refl s | with_reducible assumption | with_reducible apply State.activate_goes
    | with_reducible apply State.active_goes | with_reducible apply State.moverFault_goes
    | with_reducible apply State.updChannel_goes | split

theorem execPacingMet_goes (m : MoverId) (ch : Nat) (s : State) : OutGoes s (execPacingMet m ch s) := by
  refine OutGoes.onUnit _ ?_
  dsimp only
  repeat' first
    | with_reducible exact Goes.refl s | with_reducible assumption | with_reducible apply State.activate_goes
    | with_reducible apply State.reach_goes | split

theorem execMoverBurst_goes (m : MoverId) (ch : Nat) (s : State) : OutGoes s (execMoverBurst m ch s) := by
  refine OutGoes.onUnit _ ?_
  repeat' first
    | with_reducible exact Goes.refl s | with_reducible assumption | with_reducible apply State.moverBurst_goes

theorem execDescriptorComplete_goes (m : MoverId) (ch : Nat) (s : State) : OutGoes s (execDescriptorComplete m ch s) := by
  refine OutGoes.onUnit _ ?_
  dsimp only
  repeat' first
    | with_reducible exact Goes.refl s | with_reducible assumption | with_reducible apply State.active_goes
    | with_reducible apply State.channelEnded_goes | with_reducible apply State.endChannel_goes
    | with_reducible apply State.moverPost_goes | with_reducible apply State.moverReport_goes
    | with_reducible apply State.moverSlot_goes | with_reducible apply State.updChannel_goes | split

theorem execMoverAbortEnd_goes (m : MoverId) (ch : Nat) (s : State) : OutGoes s (execMoverAbortEnd m ch s) := by
  refine OutGoes.onUnit _ ?_
  dsimp only
  repeat' first
    | with_reducible exact Goes.refl s | with_reducible assumption | with_reducible apply State.active_goes
    | with_reducible apply State.addSlot_goes | with_reducible apply State.channelEnded_goes
    | with_reducible apply State.endChannel_goes | with_reducible apply State.moverReport_goes | split

theorem execMoverCancelEnd_goes (m : MoverId) (ch : Nat) (s : State) : OutGoes s (execMoverCancelEnd m ch s) := by
  refine OutGoes.onUnit _ ?_
  dsimp only
  repeat' first
    | with_reducible exact Goes.refl s | with_reducible assumption | with_reducible apply State.active_goes
    | with_reducible apply State.channelEnded_goes | with_reducible apply State.endChannel_goes
    | with_reducible apply State.moverReport_goes | split

theorem execSemaphorePostMessage_goes (msg : FabricMsg) (s : State) : OutGoes s (execSemaphorePostMessage msg s) :=
  match msg with
  | .post _ _ _ _ _ _ _ =>
    OutGoes.onUnit _ (State.onFabric_goes _ _ _ _ (fun _ h => State.arrivePost_goes _ _ _ _ _ _ h) (Goes.refl s))
  | .reset _ _ _ _ _ _ => OutGoes.next (Goes.refl s)
  | .resetAck _ _ _ _ _ => OutGoes.next (Goes.refl s)

theorem execLinkCancelChannelsReported_goes (q entry : Nat) (s : State) : OutGoes s (execLinkCancelChannelsReported q entry s) := by
  refine OutGoes.onUnit _ ?_
  repeat' first
    | with_reducible exact Goes.refl s | with_reducible assumption | with_reducible apply State.resetRing_goes | split

theorem execLinkResetMessage_goes (msg : FabricMsg) (s : State) : OutGoes s (execLinkResetMessage msg s) := by
  cases msg with
  | reset src q e epoch fromQ fromE =>
    refine OutGoes.onUnit _ (State.onFabric_goes _ _ _ _ (fun t h => ?_) (Goes.refl s))
    have hr := State.arriveReset_goes src q e epoch h
    exact Goes.ite (hr.mk rfl) hr
  | post => exact OutGoes.next (Goes.refl s)
  | resetAck => exact OutGoes.next (Goes.refl s)

theorem execLinkResetAcknowledged_goes (msg : FabricMsg) (s : State) : OutGoes s (execLinkResetAcknowledged msg s) :=
  match msg with
  | .resetAck _ _ _ _ _ =>
    OutGoes.onUnit _ (State.onFabric_goes _ _ _ _ (fun _ h => State.arriveResetAck_goes _ _ _ h) (Goes.refl s))
  | .post _ _ _ _ _ _ _ => OutGoes.next (Goes.refl s)
  | .reset _ _ _ _ _ _ => OutGoes.next (Goes.refl s)

theorem execStalemateTimeout_goes (p : Nat) (s : State) : OutGoes s (execStalemateTimeout p s) := by
  refine OutGoes.onUnit _ ?_
  dsimp only
  repeat' first
    | with_reducible exact Goes.refl s | with_reducible assumption | with_reducible apply State.freeze_goes
    | with_reducible apply State.raise_goes | with_reducible apply State.reach_goes | split

theorem execTurnBoundary_goes (p : Nat) (s : State) : OutGoes s (execTurnBoundary p s) := by
  refine OutGoes.onUnit _ ?_
  dsimp only
  repeat' first
    | with_reducible exact Goes.refl s | with_reducible assumption | with_reducible apply State.boundary_goes
    | with_reducible apply State.reach_goes | split

theorem execTransferRepeat_goes (m : MoverId) (ch : Nat) (s : State) : OutGoes s (execTransferRepeat m ch s) := by
  refine OutGoes.onUnit _ ?_
  dsimp only
  repeat' first
    | with_reducible exact Goes.refl s | with_reducible assumption | with_reducible apply State.nextRepeat_goes
    | with_reducible apply State.post_goes | with_reducible apply State.updChannel_goes
    | with_reducible refine Goes.foldl _ ?_ ?_ | split | (intro _)

theorem execLateWorkEnd_goes (p : Nat) (s : State) : OutGoes s (execLateWorkEnd p s) := by
  refine OutGoes.onUnit _ ?_
  dsimp only
  repeat' first
    | with_reducible exact Goes.refl s | with_reducible assumption | with_reducible apply State.releaseHold_goes
    | with_reducible apply State.runTurn_goes | with_reducible apply State.updPart_goes | with_reducible apply State.updSq_goes
    | with_reducible refine Goes.foldl _ ?_ ?_ | (intro x hx; exact hx) | split | (intro _)

theorem execOverrunTimeout_goes (p : Nat) (s : State) : OutGoes s (execOverrunTimeout p s) := by
  refine OutGoes.onUnit _ ?_
  dsimp only
  repeat' first
    | with_reducible exact Goes.refl s | with_reducible assumption | with_reducible apply State.enterFaulted_goes
    | with_reducible apply State.raise_goes | with_reducible apply State.reach_goes | split

theorem execJoinReceived_goes (l : Nat) (s : State) : OutGoes s (execJoinReceived l s) := by
  refine OutGoes.onUnit _ ?_
  split
  next => exact Goes.refl s
  next t m ht =>
    have h : Goes s t := State.takeTable_goes ht (Goes.refl s)
    split
    · exact h.mk rfl
    · exact State.meetJoin_goes _ _ _ h

theorem execStartReceived_goes (l : Nat) (s : State) : OutGoes s (execStartReceived l s) := by
  refine OutGoes.onUnit _ ?_
  split
  next => exact Goes.refl s
  next t m ht =>
    have h : Goes s t := State.takeTable_goes ht (Goes.refl s)
    split
    · exact h
    split
    · exact h
    · exact State.flood_goes _ _ _ (State.updPart_goes _ _ (State.remember_goes _ _ h))

theorem execTableStartInstant_goes (p : Nat) (s : State) : OutGoes s (execTableStartInstant p s) := by
  refine OutGoes.onUnit _ ?_
  dsimp only
  repeat' first
    | with_reducible exact Goes.refl s | with_reducible assumption | with_reducible apply State.boundary_goes
    | with_reducible apply State.reach_goes | with_reducible apply State.reply_goes | with_reducible apply State.updPart_goes
    | with_reducible refine Goes.foldl _ ?_ ?_ | split | (intro _)

theorem execHoldReceived_goes (l : Nat) (s : State) : OutGoes s (execHoldReceived l s) := by
  refine OutGoes.onUnit _ ?_
  split
  next => exact Goes.refl s
  next t m ht =>
    have h : Goes s t := State.takeTable_goes ht (Goes.refl s)
    split
    · exact h
    split
    · exact h
    · exact State.takeHold_goes _ _ _ _ (State.flood_goes _ _ _ (State.remember_goes _ _ h))

theorem execReleaseReceived_goes (l : Nat) (s : State) : OutGoes s (execReleaseReceived l s) := by
  refine OutGoes.onUnit _ ?_
  split
  next => exact Goes.refl s
  next t m ht =>
    have h : Goes s t := State.takeTable_goes ht (Goes.refl s)
    split
    · exact h
    split
    · exact h
    · exact State.updPart_goes _ _ (State.holdEvent_goes _ _ _ _ (State.flood_goes _ _ _ (State.remember_goes _ _ h)))

theorem execTableResume_goes (p : Nat) (s : State) : OutGoes s (execTableResume p s) := by
  refine OutGoes.onUnit _ ?_
  dsimp only
  repeat' first
    | with_reducible exact Goes.refl s | with_reducible assumption | with_reducible apply State.boundary_goes
    | with_reducible apply State.reach_goes | with_reducible apply State.updPart_goes | split

theorem execTurnMarkReceived_goes (l : Nat) (s : State) : OutGoes s (execTurnMarkReceived l s) := by
  refine OutGoes.onUnit _ ?_
  split
  next => exact Goes.refl s
  next t m ht =>
    have h : Goes s t := State.takeTable_goes ht (Goes.refl s)
    split
    · exact h
    dsimp only
    split
    · exact h
    have h0 := fun p => State.rememberOn_goes p l m h
    split
    · exact Goes.ite (State.releaseHold_goes _ _ _ (State.updPart_goes _ _ (h0 _))) (State.updPart_goes _ _ (h0 _))
    · exact Goes.ite (State.requestHold_goes _ _ (State.raise_goes _ _ _ _ _ (State.updPart_goes _ _ (h0 _))))
        (State.updPart_goes _ _ (h0 _))

theorem execLengthReceived_goes (l : Nat) (s : State) : OutGoes s (execLengthReceived l s) := by
  refine OutGoes.onUnit _ ?_
  split
  next => exact Goes.refl s
  next t m ht =>
    have h : Goes s t := State.takeTable_goes ht (Goes.refl s)
    split
    · exact h
    split
    · exact State.count_goes _ h
    split
    · exact h
    · exact State.takeLength_goes _ _ (State.flood_goes _ _ _ (State.remember_goes _ _ h))

theorem execTimeSourceLost_goes (s : State) : OutGoes s (execTimeSourceLost s) := by
  refine OutGoes.next ?_
  repeat' first
    | with_reducible exact Goes.refl s | with_reducible assumption | with_reducible apply State.raise_goes | split | (intro _)
    | with_reducible refine Goes.mk ?_ rfl

theorem execLoad_goes (r : Req) (s : State) : OutGoes s (execLoad r s) := by
  refine runCommand_goes _ _ _ _ (fun _ h => ?_) (Goes.refl s)
  dsimp only
  repeat' first
    | with_reducible exact h | with_reducible assumption | with_reducible apply State.load_goes
    | with_reducible apply State.reply_goes

theorem execArm_goes (r : Req) (s : State) : OutGoes s (execArm r s) := by
  refine runCommand_goes _ _ _ _ (fun _ h => ?_) (Goes.refl s)
  dsimp only
  repeat' first
    | with_reducible exact h | with_reducible assumption | with_reducible apply State.active_goes
    | with_reducible apply State.arm_goes | with_reducible apply State.raise_goes | with_reducible apply State.reply_goes
    | split

theorem execRun_goes (r : Req) (s : State) : OutGoes s (execRun r s) := by
  refine runCommand_goes _ _ _ _ (fun _ h => ?_) (Goes.refl s)
  dsimp only
  repeat' first
    | with_reducible exact h | with_reducible assumption | with_reducible apply State.flood_goes
    | with_reducible apply State.remember_goes | with_reducible apply State.updPart_goes

theorem execHold_goes (r : Req) (s : State) : OutGoes s (execHold r s) := by
  refine runCommand_goes _ _ _ _ (fun _ h => ?_) (Goes.refl s)
  repeat' first
    | with_reducible exact h | with_reducible assumption | with_reducible apply State.reply_goes
    | with_reducible apply State.requestHold_goes

theorem execRelease_goes (r : Req) (s : State) : OutGoes s (execRelease r s) := by
  refine runCommand_goes _ _ _ _ (fun _ h => ?_) (Goes.refl s)
  repeat' first
    | with_reducible exact h | with_reducible assumption | with_reducible apply State.releaseHold_goes
    | with_reducible apply State.reply_goes

theorem execStop_goes (r : Req) (s : State) : OutGoes s (execStop r s) := by
  refine runCommand_goes _ _ _ _ (fun _ h => ?_) (Goes.refl s)
  dsimp only
  repeat' first
    | with_reducible exact h | with_reducible assumption | with_reducible apply State.dropTableKeys_goes
    | with_reducible apply State.haltSquares_goes | with_reducible apply State.refuseRuns_goes
    | with_reducible apply State.reply_goes | with_reducible apply State.updPart_goes

theorem execUnload_goes (r : Req) (s : State) : OutGoes s (execUnload r s) := by
  refine runCommand_goes _ _ _ _ (fun _ h => ?_) (Goes.refl s)
  dsimp only
  repeat' first
    | with_reducible exact h | with_reducible assumption | with_reducible apply State.dropTableKeys_goes
    | with_reducible apply State.haltSquares_goes | with_reducible apply State.reply_goes
    | with_reducible apply State.updPart_goes

theorem execGateVote_goes (p : Nat) (s : State) : OutGoes s (execGateVote p s) := by
  refine OutGoes.onUnit _ ?_
  dsimp only
  repeat' first
    | with_reducible exact Goes.refl s | with_reducible assumption | with_reducible apply State.castVote_goes
    | with_reducible apply State.reach_goes | with_reducible apply State.updPart_goes | split

theorem execGateVoteReceived_goes (p : Nat) (s : State) : OutGoes s (execGateVoteReceived p s) := by
  refine OutGoes.onUnit _ ?_
  split
  next => exact Goes.refl s
  next t l m ht =>
    have h : Goes s t := State.takeGate_goes ht (Goes.refl s)
    split
    · exact State.count_goes _ h
    split
    · exact h
    split
    · exact State.castVote_goes _ _ (State.updPart_goes _ _ h)
    · exact h

theorem execGateDecisionReceived_goes (p : Nat) (s : State) : OutGoes s (execGateDecisionReceived p s) := by
  refine OutGoes.onUnit _ ?_
  split
  next => exact Goes.refl s
  next t l m ht =>
    have h : Goes s t := State.takeGate_goes ht (Goes.refl s)
    split
    · exact State.count_goes _ h
    split
    · exact h
    split
    · exact State.takeDecision_goes _ _ _ h
    · exact h

theorem execGateStuckWrite_goes (r : Req) (s : State) : OutGoes s (execGateStuckWrite r s) := by
  refine OutGoes.next ?_
  dsimp only
  repeat' first
    | with_reducible exact Goes.refl s | with_reducible assumption | with_reducible apply State.command_goes
    | with_reducible apply State.reply_goes | with_reducible apply State.updPart_goes | split | (intro _)

theorem execStepCounterWrite_goes (r : Req) (s : State) : OutGoes s (execStepCounterWrite r s) := by
  refine OutGoes.next ?_
  dsimp only
  repeat' first
    | with_reducible exact Goes.refl s | with_reducible assumption | with_reducible apply State.applyAdvances_goes
    | with_reducible apply State.command_goes | with_reducible apply State.reply_goes | with_reducible apply State.updPart_goes
    | split | (intro _)

theorem execRestoreNeededWrite_goes (r : Req) (s : State) : OutGoes s (execRestoreNeededWrite r s) := by
  refine OutGoes.next ?_
  dsimp only
  repeat' first
    | with_reducible exact Goes.refl s | with_reducible assumption | with_reducible apply State.command_goes
    | with_reducible apply State.reply_goes | with_reducible apply State.updPart_goes | split | (intro _)

theorem execMemoryRead_goes (owner pa : Nat) (upset : BitVec 580) (s : State) : OutGoes s (execMemoryRead owner pa upset s) := by
  refine OutGoes.onUnit _ ?_
  repeat' first
    | with_reducible exact Goes.refl s | with_reducible assumption | with_reducible apply State.readSector_goes
    | with_reducible apply State.upsetSector_goes | split

theorem execMemoryWrite_goes (owner pa : Nat) (bytes : List Byte) (upset : BitVec 580) (s : State) :
    OutGoes s (execMemoryWrite owner pa bytes upset s) := by
  refine OutGoes.onUnit _ ?_
  dsimp only
  repeat' first
    | with_reducible exact Goes.refl s | with_reducible assumption | with_reducible apply State.chargeStack_goes
    | with_reducible apply State.settleLost_goes | with_reducible apply State.upsetSector_goes
    | with_reducible apply State.writeBytes_goes | split

theorem execRegulatorAdmit_goes (die : Nat) (r : TokenReq) (s : State) : OutGoes s (execRegulatorAdmit die r s) := by
  refine OutGoes.onUnit _ ?_
  repeat' first
    | with_reducible exact Goes.refl s | with_reducible assumption | with_reducible apply State.charge_goes

theorem execRefresh_goes (st ch : Nat) (s : State) : OutGoes s (execRefresh st ch s) := by
  refine OutGoes.onUnit _ ?_
  dsimp only
  repeat' first
    | with_reducible exact Goes.refl s | with_reducible assumption | with_reducible apply State.reach_goes
    | with_reducible apply State.updStack_goes

theorem execStackTemperatureSample_goes (st : Nat) (reading : Word) (s : State) :
    OutGoes s (execStackTemperatureSample st reading s) := by
  refine OutGoes.onUnit _ ?_
  repeat' first
    | with_reducible exact Goes.refl s | with_reducible assumption | with_reducible apply State.active_goes
    | with_reducible apply State.judgeZone_goes | with_reducible apply State.ready_goes
    | with_reducible apply State.updStack_goes | split

theorem execPatrolScrub_goes (st ch sector : Nat) (upset : BitVec 580) (s : State) :
    OutGoes s (execPatrolScrub st ch sector upset s) := by
  refine OutGoes.onUnit _ ?_
  dsimp only
  repeat' first
    | with_reducible exact Goes.refl s | with_reducible assumption | with_reducible apply State.chargeStack_goes
    | with_reducible apply State.scrubDevice_goes | with_reducible apply State.scrub_goes
    | with_reducible apply State.upsetSector_goes | split

theorem execPageInitialisation_goes (p page : Nat) (s : State) : OutGoes s (execPageInitialisation p page s) := by
  refine OutGoes.onUnit _ ?_
  repeat' first
    | with_reducible exact Goes.refl s | with_reducible assumption | with_reducible apply State.chargePage_goes
    | with_reducible apply State.initPage_goes | with_reducible apply State.updPart_goes | split

theorem execMigrateRequest_goes (r : Req) (s : State) : OutGoes s (execMigrateRequest r s) := by
  refine OutGoes.next ?_
  dsimp only
  repeat' first
    | with_reducible exact Goes.refl s | with_reducible assumption | with_reducible apply State.command_goes
    | with_reducible apply State.reply_goes | with_reducible apply State.triggerMigration_goes | split | (intro _)

theorem execMigrationSpareTrained_goes (die : Nat) (s : State) : OutGoes s (execMigrationSpareTrained die s) := by
  refine OutGoes.onUnit _ ?_
  repeat' first
    | with_reducible exact Goes.refl s | with_reducible assumption | with_reducible apply State.updMemDie_goes | split

theorem execMigrationCopyComplete_goes (die : Nat) (s : State) : OutGoes s (execMigrationCopyComplete die s) := by
  refine OutGoes.onUnit _ ?_
  repeat' first
    | with_reducible exact Goes.refl s | with_reducible assumption | with_reducible apply State.awaitHold_goes
    | with_reducible apply State.copyTo_goes | split

theorem execMigrationSwitch_goes (die : Nat) (s : State) : OutGoes s (execMigrationSwitch die s) := by
  refine OutGoes.onUnit _ ?_
  repeat' first
    | with_reducible exact Goes.refl s | with_reducible assumption | with_reducible apply State.switchChannel_goes | split

theorem execMigrationOldChannelTest_goes (die : Nat) (passed : Bool) (s : State) :
    OutGoes s (execMigrationOldChannelTest die passed s) := by
  refine OutGoes.onUnit _ ?_
  dsimp only
  repeat' first
    | with_reducible exact Goes.refl s | with_reducible assumption | with_reducible apply State.migrationDone_goes
    | with_reducible apply State.raise_goes | with_reducible apply State.updStack_goes | split

theorem execMigrationSwitchTimeout_goes (die : Nat) (s : State) : OutGoes s (execMigrationSwitchTimeout die s) := by
  refine OutGoes.onUnit _ ?_
  dsimp only
  repeat' first
    | with_reducible exact Goes.refl s | with_reducible assumption | with_reducible apply State.migrationDone_goes
    | with_reducible apply State.raise_goes | with_reducible apply State.reach_goes
    | with_reducible apply State.releaseModule_goes | with_reducible apply State.updMemDie_goes
    | with_reducible apply State.updStack_goes | split

theorem execMigrationRetry_goes (die : Nat) (s : State) : OutGoes s (execMigrationRetry die s) := by
  refine OutGoes.onUnit _ ?_
  repeat' first
    | with_reducible exact Goes.refl s | with_reducible assumption | with_reducible apply State.awaitHold_goes
    | with_reducible apply State.reach_goes | split

theorem execLinkTraining_goes (l : Nat) (rx tx : LaneReport) (peer : PeerReport) (s : State) :
    OutGoes s (execLinkTraining l rx tx peer s) := by
  refine OutGoes.onUnit _ ?_
  dsimp only
  repeat' first
    | with_reducible exact Goes.refl s | with_reducible assumption | with_reducible apply State.count_goes
    | with_reducible apply State.endTraining_goes | with_reducible apply State.linkEvent_goes
    | with_reducible apply State.settleLink_goes | with_reducible apply State.takeLanes_goes
    | with_reducible apply State.updLink_goes | split

theorem execLinkFrameReceived_goes (l : Nat) (frame : RawFrame) (s : State) : OutGoes s (execLinkFrameReceived l frame s) := by
  refine OutGoes.onUnit _ ?_
  dsimp only
  repeat' first
    | with_reducible exact Goes.refl s | with_reducible assumption | with_reducible apply State.count_goes
    | with_reducible apply State.goodFrame_goes | with_reducible apply State.sendNak_goes
    | with_reducible apply State.updLink_goes | split

theorem execLinkAckTimeout_goes (l : Nat) (s : State) : OutGoes s (execLinkAckTimeout l s) := by
  refine OutGoes.onUnit _ ?_
  repeat' first
    | with_reducible exact Goes.refl s | with_reducible assumption | with_reducible apply State.resendFrame_goes | split

theorem execLinkWrite_goes (l : Nat) (s : State) : OutGoes s (execLinkWrite l s) := by
  refine onTxn_goes _ _ _ (fun _ _ _ h => ?_) (Goes.refl s)
  repeat' first
    | with_reducible exact h | with_reducible assumption | with_reducible apply State.storeTrain_goes

theorem execLinkRead_goes (l : Nat) (s : State) : OutGoes s (execLinkRead l s) := by
  refine onTxn_goes _ _ _ (fun _ _ _ h => ?_) (Goes.refl s)
  dsimp only
  repeat' first
    | with_reducible exact h | with_reducible assumption | with_reducible apply State.chargeAll_goes
    | with_reducible apply State.refuseTxn_goes | with_reducible apply State.replyTxn_goes
    | with_reducible apply State.settleLost_goes | with_reducible apply State.touchVas_goes | split

theorem execLinkReadResp_goes (l : Nat) (s : State) : OutGoes s (execLinkReadResp l s) := by
  refine onTxn_goes _ _ _ (fun _ _ _ h => ?_) (Goes.refl s)
  dsimp only
  repeat' first
    | with_reducible exact h | with_reducible assumption | with_reducible apply State.active_goes
    | with_reducible apply State.dropTag_goes | with_reducible apply State.readArrived_goes
    | with_reducible apply State.refusedAtSender_goes | split

theorem execLinkWriteAck_goes (l : Nat) (s : State) : OutGoes s (execLinkWriteAck l s) := by
  refine onTxn_goes _ _ _ (fun _ _ _ h => ?_) (Goes.refl s)
  dsimp only
  repeat' first
    | with_reducible exact h | with_reducible assumption | with_reducible apply State.dropTag_goes
    | with_reducible apply State.refusedAtSender_goes | split

theorem execLinkPartial_goes (l : Nat) (s : State) : OutGoes s (execLinkPartial l s) := by
  refine onTxn_goes _ _ _ (fun _ _ _ h => ?_) (Goes.refl s)
  repeat' first
    | with_reducible exact h | with_reducible assumption | with_reducible apply State.storeTrain_goes

theorem execGradSign_goes (l : Nat) (s : State) : OutGoes s (execGradSign l s) := by
  refine onTxn_goes _ _ _ (fun _ _ _ h => ?_) (Goes.refl s)
  dsimp only
  repeat' first
    | with_reducible exact h | with_reducible assumption | with_reducible apply State.badTrain_goes
    | with_reducible apply State.storeTrain_goes | split

theorem execGradTopk_goes (l : Nat) (s : State) : OutGoes s (execGradTopk l s) := by
  refine onTxn_goes _ _ _ (fun _ _ _ h => ?_) (Goes.refl s)
  dsimp only
  repeat' first
    | with_reducible exact h | with_reducible assumption | with_reducible apply State.badTrain_goes
    | with_reducible apply State.storeTrain_goes | split

theorem execLinkSemPost_goes (l : Nat) (s : State) : OutGoes s (execLinkSemPost l s) :=
  onTxn_goes _ _ _ (fun _ _ _ h => State.atSquare_goes _ _ _ (State.arrivePost_goes _ _ _ _ _ _ h) h) (Goes.refl s)

theorem execLinkReset_goes (l : Nat) (s : State) : OutGoes s (execLinkReset l s) := by
  refine onTxn_goes _ _ _ (fun u p t h => State.atSquare_goes _ _ _ ?_ h) (Goes.refl s)
  have hr := State.arriveReset_goes p (inlSquare t) (inlEntry t) (inlEpoch t) h
  dsimp only
  split
  · exact State.sendSeat_goes _ _ _ hr
  · exact hr

theorem execLinkResetAck_goes (l : Nat) (s : State) : OutGoes s (execLinkResetAck l s) :=
  onTxn_goes _ _ _ (fun _ _ _ h => State.atSquare_goes _ _ _ (State.arriveResetAck_goes _ _ _ h) h) (Goes.refl s)

theorem execGateTransaction_goes (l : Nat) (s : State) : OutGoes s (execGateTransaction l s) := by
  refine onTxn_goes _ _ _ (fun _ _ _ h => ?_) (Goes.refl s)
  repeat' first
    | with_reducible exact h | with_reducible assumption | with_reducible apply State.updPart_goes

theorem execOrdered_goes (l : Nat) (s : State) : OutGoes s (execOrdered l s) := by
  refine OutGoes.onUnit _ ?_
  repeat' first
    | with_reducible exact Goes.refl s | with_reducible assumption | with_reducible apply State.count_goes
    | with_reducible apply State.popTxn_goes | with_reducible apply State.updLink_goes
    | with_reducible refine Goes.foldl _ ?_ ?_ | split | (intro _)

theorem execRouteForward_goes (l : Nat) (s : State) : OutGoes s (execRouteForward l s) := by
  refine OutGoes.onUnit _ ?_
  dsimp only
  repeat' first
    | with_reducible exact Goes.refl s | with_reducible assumption | with_reducible apply State.active_goes
    | with_reducible apply State.chargeAll_goes | with_reducible apply State.count_goes | with_reducible apply State.popTxn_goes
    | with_reducible apply State.sendTxn_goes | split

theorem execHello_goes (l : Nat) (s : State) : OutGoes s (execHello l s) := by
  refine onCtrl_goes _ _ _ (fun _ _ h => ?_) (Goes.refl s)
  dsimp only
  repeat' first
    | with_reducible exact h | with_reducible assumption | with_reducible apply State.linkRefused_goes
    | with_reducible apply State.updLink_goes | split

theorem execIdentity_goes (l : Nat) (s : State) : OutGoes s (execIdentity l s) := by
  refine onCtrl_goes _ _ _ (fun _ _ h => ?_) (Goes.refl s)
  repeat' first
    | with_reducible exact h | with_reducible assumption | with_reducible apply State.linkRefused_goes
    | with_reducible apply State.updLink_goes | split

theorem execKeyshare_goes (l : Nat) (s : State) : OutGoes s (execKeyshare l s) := by
  refine onCtrl_goes _ _ _ (fun _ _ h => ?_) (Goes.refl s)
  dsimp only
  repeat' first
    | with_reducible exact h | with_reducible assumption | with_reducible apply State.installKey_goes
    | with_reducible apply State.linkRefused_goes | with_reducible apply State.offerKey_goes
    | with_reducible apply State.takeStream_goes | with_reducible apply State.updLink_goes | split

theorem execTime_goes (l : Nat) (s : State) : OutGoes s (execTime l s) := by
  refine onCtrl_goes _ _ _ (fun _ _ h => ?_) (Goes.refl s)
  dsimp only
  repeat' first
    | with_reducible exact h | with_reducible assumption | with_reducible apply State.reach_goes
    | with_reducible apply State.trip_goes | with_reducible apply State.updLink_goes | with_reducible apply State.updPower_goes
    | split | (intro _) | with_reducible refine Goes.mk ?_ rfl

theorem execTimeSend_goes (l : Nat) (s : State) : OutGoes s (execTimeSend l s) := by
  refine OutGoes.onUnit _ ?_
  repeat' first
    | with_reducible exact Goes.refl s | with_reducible assumption | with_reducible apply State.sendTxn_goes
    | with_reducible apply State.updLink_goes | split

theorem execSwapReq_goes (l : Nat) (s : State) : OutGoes s (execSwapReq l s) := by
  refine onCtrl_goes _ _ _ (fun _ _ h => ?_) (Goes.refl s)
  dsimp only
  repeat' first
    | with_reducible exact h | with_reducible assumption | with_reducible apply State.updGroup_goes
    | with_reducible apply State.updLink_goes | split

theorem execSwapAt_goes (l : Nat) (s : State) : OutGoes s (execSwapAt l s) := by
  refine onCtrl_goes _ _ _ (fun _ _ h => ?_) (Goes.refl s)
  repeat' first
    | with_reducible exact h | with_reducible assumption | with_reducible apply State.updLink_goes | split

theorem execLaneLost_goes (l : Nat) (s : State) : OutGoes s (execLaneLost l s) := by
  refine onCtrl_goes _ _ _ (fun _ _ h => ?_) (Goes.refl s)
  dsimp only
  repeat' first
    | with_reducible exact h | with_reducible assumption | with_reducible apply State.count_goes
    | with_reducible apply State.laneFails_goes | with_reducible apply State.linkEvent_goes
    | with_reducible apply State.updGroup_goes | with_reducible apply State.updLink_goes | split

theorem execAssign_goes (l : Nat) (s : State) : OutGoes s (execAssign l s) := by
  refine onCtrl_goes _ _ _ (fun _ _ h => ?_) (Goes.refl s)
  dsimp only
  repeat' first
    | with_reducible exact h | with_reducible assumption | with_reducible apply State.updGroup_goes
    | with_reducible apply State.updLink_goes

theorem execLaneSwapThreshold_goes (l lane : Nat) (s : State) : OutGoes s (execLaneSwapThreshold l lane s) := by
  refine OutGoes.onUnit _ ?_
  dsimp only
  repeat' first
    | with_reducible exact Goes.refl s | with_reducible assumption | with_reducible apply State.sendTxn_goes
    | with_reducible apply State.updGroup_goes | with_reducible apply State.updLink_goes | split

theorem execLaneSpareAdapted_goes (l : Nat) (s : State) : OutGoes s (execLaneSpareAdapted l s) := by
  refine OutGoes.onUnit _ ?_
  dsimp only
  repeat' first
    | with_reducible exact Goes.refl s | with_reducible assumption | with_reducible apply State.sendTxn_goes
    | with_reducible apply State.updLink_goes | split

theorem execLaneLossOfLock_goes (l lane : Nat) (s : State) : OutGoes s (execLaneLossOfLock l lane s) := by
  refine OutGoes.onUnit _ ?_
  dsimp only
  repeat' first
    | with_reducible exact Goes.refl s | with_reducible assumption | with_reducible apply State.count_goes
    | with_reducible apply State.laneFails_goes | with_reducible apply State.linkEvent_goes
    | with_reducible apply State.loseLane_goes | with_reducible apply State.sendTxn_goes
    | with_reducible apply State.timeLost_goes | with_reducible apply State.updLink_goes | split

theorem execRetrainRequest_goes (r : Req) (s : State) : OutGoes s (execRetrainRequest r s) := by
  refine OutGoes.next ?_
  dsimp only
  repeat' first
    | with_reducible exact Goes.refl s | with_reducible assumption | with_reducible apply State.beginRetrain_goes
    | with_reducible apply State.command_goes | with_reducible apply State.reply_goes
    | with_reducible apply State.requestHold_goes | with_reducible apply State.updLink_goes
    | with_reducible refine Goes.foldl _ ?_ ?_ | split | (intro _)

theorem execTrainWindowOpen_goes (l : Nat) (s : State) : OutGoes s (execTrainWindowOpen l s) := by
  refine OutGoes.onUnit _ ?_
  dsimp only
  repeat' first
    | with_reducible exact Goes.refl s | with_reducible assumption | with_reducible apply State.moverBurst_goes
    | with_reducible apply State.updLink_goes | with_reducible refine Goes.foldl _ ?_ ?_ | split | (intro _)

theorem execCablePresent_goes (g : Nat) (s : State) : OutGoes s (execCablePresent g s) := by
  refine OutGoes.onUnit _ ?_
  dsimp only
  repeat' first
    | with_reducible exact Goes.refl s | with_reducible assumption | with_reducible apply State.updGroup_goes
    | with_reducible apply State.updLink_goes | with_reducible refine Goes.foldl _ ?_ ?_ | split | (intro _)

theorem execCableRemoved_goes (g : Nat) (s : State) : OutGoes s (execCableRemoved g s) := by
  refine OutGoes.onUnit _ ?_
  dsimp only
  repeat' first
    | with_reducible exact Goes.refl s | with_reducible assumption | with_reducible apply State.linkFall_goes
    | with_reducible apply State.updGroup_goes | with_reducible apply State.updLink_goes
    | with_reducible refine Goes.foldl _ ?_ ?_ | split | (intro _)

theorem execManagementBeaconConflict_goes (s : State) : OutGoes s (execManagementBeaconConflict s) := by
  refine OutGoes.next ?_
  repeat' first
    | with_reducible exact Goes.refl s | with_reducible assumption | with_reducible apply State.raise_goes | split | (intro _)
    | with_reducible refine Goes.mk ?_ rfl

theorem execAsletTraining_goes (lanes : LaneReport) (peerVersion : Nat) (s : State) :
    OutGoes s (execAsletTraining lanes peerVersion s) := by
  refine OutGoes.next ?_
  dsimp only
  repeat' first
    | with_reducible exact Goes.refl s | with_reducible assumption | with_reducible apply State.asletEvent_goes
    | with_reducible apply State.asletFall_goes | with_reducible apply State.asletSettle_goes | split

theorem execAsletFrameReceived_goes (frame : RawFrame) (s : State) : OutGoes s (execAsletFrameReceived frame s) := by
  refine OutGoes.next ?_
  repeat' first
    | with_reducible exact Goes.refl s | with_reducible assumption | with_reducible apply State.asletGood_goes
    | with_reducible apply State.updAslet_goes | split

theorem execAsletAckTimeout_goes (s : State) : OutGoes s (execAsletAckTimeout s) := by
  refine OutGoes.next ?_
  repeat' first
    | with_reducible exact Goes.refl s | with_reducible assumption | with_reducible apply State.asletResend_goes | split

theorem execAsletHostWrite_goes (s : State) : OutGoes s (execAsletHostWrite s) := by
  refine onAslet_goes _ _ (fun _ _ h => ?_) (Goes.refl s)
  repeat' first
    | with_reducible exact h | with_reducible assumption | with_reducible apply State.asletSend_goes
    | with_reducible apply State.count_goes

theorem execAsletRead_goes (s : State) : OutGoes s (execAsletRead s) := by
  refine onAslet_goes _ _ (fun _ _ h => ?_) (Goes.refl s)
  repeat' first
    | with_reducible exact h | with_reducible assumption | with_reducible apply State.asletSend_goes | split

theorem execAsletReadResp_goes (s : State) : OutGoes s (execAsletReadResp s) := by
  refine onAslet_goes _ _ (fun _ _ h => ?_) (Goes.refl s)
  dsimp only
  repeat' first
    | with_reducible exact h | with_reducible assumption | with_reducible apply State.dropPend_goes
    | with_reducible apply State.hostRefused_goes | with_reducible apply State.updChannel_goes | split

theorem execAsletWriteAck_goes (s : State) : OutGoes s (execAsletWriteAck s) := by
  refine onAslet_goes _ _ (fun _ _ h => ?_) (Goes.refl s)
  dsimp only
  repeat' first
    | with_reducible exact h | with_reducible assumption | with_reducible apply State.dropPend_goes
    | with_reducible apply State.hostRefused_goes | with_reducible apply State.trailerDue_goes | split

theorem execMessage_goes (s : State) : OutGoes s (execMessage s) := by
  refine onAslet_goes _ _ (fun _ _ h => ?_) (Goes.refl s)
  dsimp only
  repeat' first
    | with_reducible exact h | with_reducible assumption | with_reducible apply State.count_goes
    | with_reducible apply State.updAslet_goes | split

theorem execCredit_goes (s : State) : OutGoes s (execCredit s) := by
  refine onAslet_goes _ _ (fun _ _ h => ?_) (Goes.refl s)
  repeat' first
    | with_reducible exact h | with_reducible assumption | with_reducible apply State.updAslet_goes

theorem execWidth_goes (s : State) : OutGoes s (execWidth s) := by
  refine onAsletCtrl_goes _ _ _ (fun _ _ h => ?_) (Goes.refl s) (Goes.refl s)
  repeat' first
    | with_reducible exact h | with_reducible assumption | with_reducible apply State.count_goes
    | with_reducible apply State.updAslet_goes | split

theorem execAsletHello_goes (s : State) : OutGoes s (execAsletHello s) := by
  refine onAsletCtrl_goes _ _ _ (fun _ _ h => ?_) (Goes.refl s) (Goes.refl s)
  dsimp only
  repeat' first
    | with_reducible exact h | with_reducible assumption | with_reducible apply State.asletFall_goes
    | with_reducible apply State.updAslet_goes | split

theorem execSleepReq_goes (s : State) : OutGoes s (execSleepReq s) :=
  onAsletCtrl_goes _ _ _ (fun _ _ h => h) (State.sleepStep_goes (Goes.refl s)) (Goes.refl s)

theorem execSleepAck_goes (s : State) : OutGoes s (execSleepAck s) := by
  refine onAsletCtrl_goes _ _ _ (fun _ _ h => ?_) (Goes.refl s) (Goes.refl s)
  repeat' first
    | with_reducible exact h | with_reducible assumption | with_reducible apply State.updAslet_goes

theorem execWakeBurst_goes (s : State) : OutGoes s (execWakeBurst s) := by
  refine OutGoes.next ?_
  repeat' first
    | with_reducible exact Goes.refl s | with_reducible assumption | with_reducible apply State.tripSource_goes

theorem execPlace_goes (r : Req) (s : State) : OutGoes s (execPlace r s) := by
  refine OutGoes.next ?_
  dsimp only
  repeat' first
    | with_reducible exact Goes.refl s | with_reducible assumption | with_reducible apply State.command_goes
    | with_reducible apply State.reply_goes | with_reducible apply State.startService_goes
    | with_reducible apply State.updPart_goes | split | (intro _)

theorem execPlaceComplete_goes (p : Nat) (ok : Bool) (s : State) : OutGoes s (execPlaceComplete p ok s) := by
  refine OutGoes.onUnit _ ?_
  dsimp only
  repeat' first
    | with_reducible exact Goes.refl s | with_reducible assumption | with_reducible apply State.raise_goes
    | with_reducible apply State.stopService_goes | with_reducible apply State.updPart_goes | split

theorem execClientHello_goes (r : Req) (s : State) : OutGoes s (execClientHello r s) := by
  refine OutGoes.next ?_
  dsimp only
  repeat' first
    | with_reducible exact Goes.refl s | with_reducible assumption | with_reducible apply State.commandWith_goes
    | with_reducible apply State.putHandshake_goes | with_reducible apply State.reply_goes | split | (intro _)
    | with_reducible refine Goes.mk ?_ rfl

theorem execClientFinish_goes (r : Req) (chainBytes signatureBytes : Nat) (s : State) :
    OutGoes s (execClientFinish r chainBytes signatureBytes s) := by
  refine OutGoes.next ?_
  dsimp only
  repeat' first
    | with_reducible exact Goes.refl s | with_reducible assumption | with_reducible apply State.commandWith_goes
    | with_reducible apply State.openSession_goes | with_reducible apply State.putHandshake_goes
    | with_reducible apply State.raise_goes | with_reducible apply State.reply_goes | split | (intro _)

theorem execHandshakeTimeout_goes (c : Carrier) (s : State) : OutGoes s (execHandshakeTimeout c s) := by
  refine OutGoes.next ?_
  repeat' first
    | with_reducible exact Goes.refl s | with_reducible assumption | with_reducible apply State.putHandshake_goes
    | with_reducible apply State.reach_goes | split

theorem execReportRequest_goes (r : Req) (s : State) : OutGoes s (execReportRequest r s) := by
  refine OutGoes.next ?_
  dsimp only
  repeat' first
    | with_reducible exact Goes.refl s | with_reducible assumption | with_reducible apply State.commandWith_goes
    | with_reducible apply State.reply_goes | with_reducible apply State.updSession_goes | split | (intro _)

theorem execWrappedKey_goes (r : Req) (s : State) : OutGoes s (execWrappedKey r s) := by
  refine OutGoes.next ?_
  dsimp only
  repeat' first
    | with_reducible exact Goes.refl s | with_reducible assumption | with_reducible apply State.commandWith_goes
    | with_reducible apply State.raise_goes | with_reducible apply State.reply_goes | with_reducible apply State.updPart_goes
    | with_reducible apply State.updSession_goes | split | (intro _)

theorem execDeliver_goes (r : Req) (s : State) : OutGoes s (execDeliver r s) := by
  refine OutGoes.next ?_
  dsimp only
  repeat' first
    | with_reducible exact Goes.refl s | with_reducible assumption | with_reducible apply State.command_goes
    | with_reducible apply State.reply_goes | with_reducible apply State.startService_goes
    | with_reducible apply State.updPart_goes | split | (intro _)

theorem execDeliveryComplete_goes (p : Nat) (ok : Bool) (s : State) : OutGoes s (execDeliveryComplete p ok s) := by
  refine OutGoes.onUnit _ ?_
  dsimp only
  repeat' first
    | with_reducible exact Goes.refl s | with_reducible assumption | with_reducible apply State.active_goes
    | with_reducible apply State.raise_goes | with_reducible apply State.stopService_goes
    | with_reducible apply State.updPart_goes | split

theorem execRotateRequest_goes (r : Option Req) (p : Nat) (s : State) : OutGoes s (execRotateRequest r p s) :=
  match r with
  | none => OutGoes.onUnit _ (Goes.ite (State.startRotation_goes _ (Goes.refl s)) (Goes.refl s))
  | some _ => OutGoes.next (Goes.ite (Goes.refl s) (State.command_goes _ _ _
      (fun _ h => State.reply_goes _ _ (State.startRotation_goes _ h)) (Goes.refl s)))

theorem execRotationDiesConfirmed_goes (p : Nat) (s : State) : OutGoes s (execRotationDiesConfirmed p s) := by
  refine OutGoes.onUnit _ ?_
  dsimp only
  repeat' first
    | with_reducible exact Goes.refl s | with_reducible assumption | with_reducible apply State.updPart_goes | split

theorem execRotationSweepDone_goes (p : Nat) (unreadable : List (Nat × Bool)) (s : State) :
    OutGoes s (execRotationSweepDone p unreadable s) := by
  refine OutGoes.onUnit _ ?_
  dsimp only
  repeat' first
    | with_reducible exact Goes.refl s | with_reducible assumption | with_reducible apply State.chargeSweep_goes
    | with_reducible apply State.raise_goes | with_reducible apply State.rekey_goes
    | with_reducible apply State.sweepFailed_goes | with_reducible apply State.updPart_goes
    | with_reducible refine Goes.foldl _ ?_ ?_ | split | (intro _)

theorem execEntropyFailure_goes (s : State) : OutGoes s (execEntropyFailure s) := by
  refine OutGoes.next ?_
  repeat' first
    | with_reducible exact Goes.refl s | with_reducible assumption | with_reducible apply State.enterSafe_goes
    | with_reducible apply State.raise_goes | with_reducible apply State.updSec_goes | split

theorem execReadReq_goes (r : Req) (s : State) : OutGoes s (execReadReq r s) := by
  refine OutGoes.next ?_
  dsimp only
  repeat' first
    | with_reducible exact Goes.refl s | with_reducible assumption | with_reducible apply State.admitFrame_goes
    | with_reducible apply State.answer_goes | split

theorem execWriteReq_goes (r : Req) (s : State) : OutGoes s (execWriteReq r s) := by
  refine OutGoes.next ?_
  dsimp only
  repeat' first
    | with_reducible exact Goes.refl s | with_reducible assumption | with_reducible apply State.command_goes
    | with_reducible apply State.plainWrite_goes | with_reducible apply State.reply_goes | split | (intro _)

theorem execSegStart_goes (r : Req) (s : State) : OutGoes s (execSegStart r s) := by
  refine OutGoes.next ?_
  have h := State.admitFrame_goes r kSegStart (Goes.refl s)
  dsimp only
  split
  · exact h
  split
  · exact State.answer_goes _ _ _ _ h
  · exact State.pushSegments_goes _ _ (State.putTransfer_goes _ _ h)

theorem execSegData_goes (r : Req) (s : State) : OutGoes s (execSegData r s) := by
  refine OutGoes.next ?_
  dsimp only
  repeat' first
    | with_reducible exact Goes.refl s | with_reducible assumption | with_reducible apply State.admitFrame_goes
    | with_reducible apply State.dropTransfer_goes | with_reducible apply State.judged_goes
    | with_reducible apply State.plainWrite_goes | with_reducible apply State.putTransfer_goes
    | with_reducible apply State.reply_goes | with_reducible apply State.sendSeg_goes | split | (intro _)

theorem execSegAck_goes (r : Req) (s : State) : OutGoes s (execSegAck r s) := by
  refine OutGoes.next ?_
  have h := State.admitFrame_goes r kSegAck (Goes.refl s)
  dsimp only
  split
  · exact h
  split
  · exact h
  split
  · exact h
  split
  · exact State.sendSeg_goes _ _ _ _ (State.dropTransfer_goes _ h)
  · exact State.pushSegments_goes _ _ (State.putTransfer_goes _ _ h)

theorem execSegCancel_goes (r : Req) (s : State) : OutGoes s (execSegCancel r s) := by
  refine OutGoes.next ?_
  dsimp only
  repeat' first
    | with_reducible exact Goes.refl s | with_reducible assumption | with_reducible apply State.admitFrame_goes
    | with_reducible apply State.dropTransfer_goes | split

theorem execSegmentResendTimeout_goes (k : Nat) (s : State) : OutGoes s (execSegmentResendTimeout k s) := by
  refine OutGoes.next ?_
  dsimp only
  repeat' first
    | with_reducible exact Goes.refl s | with_reducible assumption | with_reducible apply State.putTransfer_goes
    | with_reducible apply State.reach_goes | with_reducible apply State.sendSeg_goes | split

theorem execSegmentTransferAbandon_goes (k : Nat) (s : State) : OutGoes s (execSegmentTransferAbandon k s) := by
  refine OutGoes.next ?_
  repeat' first
    | with_reducible exact Goes.refl s | with_reducible assumption | with_reducible apply State.dropTransfer_goes
    | with_reducible apply State.reach_goes | split

theorem execEventAck_goes (r : Req) (s : State) : OutGoes s (execEventAck r s) := by
  refine OutGoes.next ?_
  dsimp only
  repeat' first
    | with_reducible exact Goes.refl s | with_reducible assumption | with_reducible apply State.admitFrame_goes
    | with_reducible apply State.updSession_goes | split

theorem execEventResend_goes (sess : Nat) (s : State) : OutGoes s (execEventResend sess s) := by
  refine OutGoes.next ?_
  repeat' first
    | with_reducible exact Goes.refl s | with_reducible assumption | with_reducible apply State.sendFrame_goes | split

theorem execClose_goes (r : Req) (s : State) : OutGoes s (execClose r s) := by
  refine OutGoes.next ?_
  dsimp only
  repeat' first
    | with_reducible exact Goes.refl s | with_reducible assumption | with_reducible apply State.admitFrame_goes
    | with_reducible apply State.endSession_goes | with_reducible apply State.raise_goes | split

theorem execCheck_goes (r : Req) (s : State) : OutGoes s (execCheck r s) := by
  refine OutGoes.next ?_
  dsimp only
  repeat' first
    | with_reducible exact Goes.refl s | with_reducible assumption | with_reducible apply State.beginInit_goes
    | with_reducible apply State.command_goes | with_reducible apply State.reply_goes
    | with_reducible apply State.updSession_goes | split | (intro _)

theorem execCheckDiscard_goes (r : Req) (s : State) : OutGoes s (execCheckDiscard r s) := by
  refine OutGoes.next ?_
  repeat' first
    | with_reducible exact Goes.refl s | with_reducible assumption | with_reducible apply State.command_goes
    | with_reducible apply State.reply_goes | with_reducible apply State.updSession_goes | split | (intro _)

theorem execCommit_goes (r : Req) (s : State) : OutGoes s (execCommit r s) := by
  refine OutGoes.next ?_
  dsimp only
  repeat' first
    | with_reducible exact Goes.refl s | with_reducible assumption | with_reducible apply State.applySet_goes
    | with_reducible apply State.beginInit_goes | with_reducible apply State.command_goes
    | with_reducible apply State.reply_goes | with_reducible apply State.updSec_goes
    | with_reducible apply State.updSession_goes | split | (intro _)

theorem execCommitApply_goes (sess : Nat) (s : State) : OutGoes s (execCommitApply sess s) := by
  refine OutGoes.next ?_
  dsimp only
  repeat' first
    | with_reducible exact Goes.refl s | with_reducible assumption | with_reducible apply State.finishCommit_goes
    | with_reducible apply State.reach_goes | split

theorem execFlagClear_goes (r : Req) (s : State) : OutGoes s (execFlagClear r s) := by
  refine OutGoes.next ?_
  repeat' first
    | with_reducible exact Goes.refl s | with_reducible assumption | with_reducible apply State.clearFlags_goes
    | with_reducible apply State.command_goes | with_reducible apply State.reply_goes | split | (intro _)

theorem execCounterClear_goes (r : Req) (s : State) : OutGoes s (execCounterClear r s) := by
  refine OutGoes.next ?_
  repeat' first
    | with_reducible exact Goes.refl s | with_reducible assumption | with_reducible apply State.clearCounter_goes
    | with_reducible apply State.commandWith_goes | with_reducible apply State.reply_goes | split | (intro _)

theorem execPowerActive_goes (r : Req) (s : State) : OutGoes s (execPowerActive r s) := by
  refine OutGoes.next ?_
  dsimp only
  repeat' first
    | with_reducible exact Goes.refl s | with_reducible assumption | with_reducible apply State.boot_goes
    | with_reducible apply State.command_goes | with_reducible apply State.goActive_goes | with_reducible apply State.ready_goes
    | with_reducible apply State.reply_goes | with_reducible apply State.trip_goes | split | (intro _)

theorem execPowerStandby_goes (r : Req) (s : State) : OutGoes s (execPowerStandby r s) := by
  refine OutGoes.next ?_
  repeat' first
    | with_reducible exact Goes.refl s | with_reducible assumption | with_reducible apply State.active_goes
    | with_reducible apply State.command_goes | with_reducible apply State.goStandby_goes
    | with_reducible apply State.ready_goes | with_reducible apply State.reply_goes | split | (intro _)

theorem execPowerSleep_goes (r : Req) (s : State) : OutGoes s (execPowerSleep r s) := by
  refine OutGoes.next ?_
  dsimp only
  repeat' first
    | with_reducible exact Goes.refl s | with_reducible assumption | with_reducible apply State.command_goes
    | with_reducible apply State.reply_goes | with_reducible apply State.sleepStep_goes
    | with_reducible apply State.updPower_goes | split | (intro _)

theorem execPadRelease_goes (r : Req) (s : State) : OutGoes s (execPadRelease r s) := by
  refine OutGoes.next ?_
  dsimp only
  repeat' first
    | with_reducible exact Goes.refl s | with_reducible assumption | with_reducible apply State.command_goes
    | with_reducible apply State.reply_goes | with_reducible apply State.trainLinks_goes
    | with_reducible apply State.updAslet_goes | with_reducible apply State.updPower_goes | split | (intro _)

theorem execWakeSource_goes (source : Nat) (s : State) : OutGoes s (execWakeSource source s) := by
  refine OutGoes.onUnit _ ?_
  repeat' first
    | with_reducible exact Goes.refl s | with_reducible assumption | with_reducible apply State.tripSource_goes

theorem execInputValid_goes (volts : Word) (s : State) : OutGoes s (execInputValid volts s) := by
  refine OutGoes.next ?_
  dsimp only
  repeat' first
    | with_reducible exact Goes.refl s | with_reducible assumption | with_reducible apply State.boot_goes
    | with_reducible apply State.updPower_goes | split

theorem execInputLow_goes (s : State) : OutGoes s (execInputLow s) := by
  refine OutGoes.next ?_
  repeat' first
    | with_reducible exact Goes.refl s | with_reducible assumption | with_reducible apply State.raise_goes | split

theorem execInputLost_goes (s : State) : OutGoes s (execInputLost s) := by
  refine OutGoes.next ?_
  repeat' first
    | with_reducible exact Goes.refl s | with_reducible assumption | with_reducible apply State.goOff_goes

theorem execInputOvervoltage_goes (volts : Word) (lasted : Nat) (s : State) : OutGoes s (execInputOvervoltage volts lasted s) := by
  refine OutGoes.next ?_
  dsimp only
  repeat' first
    | with_reducible exact Goes.refl s | with_reducible assumption | with_reducible apply State.flagSupply_goes
    | with_reducible apply State.goOff_goes | with_reducible apply State.raise_goes | with_reducible apply State.updPower_goes
    | split

theorem execInputReversed_goes (s : State) : OutGoes s (execInputReversed s) := by
  refine OutGoes.next ?_
  repeat' first
    | with_reducible exact Goes.refl s | with_reducible assumption | with_reducible apply State.goOff_goes
    | with_reducible apply State.updPower_goes

theorem execPowerLimit_goes (watts : Word) (s : State) : OutGoes s (execPowerLimit watts s) := by
  refine OutGoes.next ?_
  dsimp only
  repeat' first
    | with_reducible exact Goes.refl s | with_reducible assumption | with_reducible apply State.raise_goes
    | with_reducible apply State.setDomain_goes | with_reducible apply State.updPower_goes
    | with_reducible refine Goes.foldl _ ?_ ?_ | split | (intro _)

theorem execPowerLimitEnd_goes (watts : Word) (s : State) : OutGoes s (execPowerLimitEnd watts s) := by
  refine OutGoes.next ?_
  dsimp only
  repeat' first
    | with_reducible exact Goes.refl s | with_reducible assumption | with_reducible apply State.updPower_goes | split

theorem execRailShutdown_goes (rail : Nat) (s : State) : OutGoes s (execRailShutdown rail s) := by
  refine OutGoes.onUnit _ ?_
  dsimp only
  repeat' first
    | with_reducible exact Goes.refl s | with_reducible assumption | with_reducible apply State.enterSafe_goes
    | with_reducible apply State.flagSupply_goes | with_reducible apply State.goOff_goes | with_reducible apply State.raise_goes
    | with_reducible apply State.updPower_goes | split

theorem execAonBrownout_goes (s : State) : OutGoes s (execAonBrownout s) := by
  refine OutGoes.next ?_
  repeat' first
    | with_reducible exact Goes.refl s | with_reducible assumption | with_reducible apply State.boot_goes
    | with_reducible apply State.goOff_goes | with_reducible apply State.setFlag_goes | split

theorem execJunctionTemperatureSample_goes (die : Nat) (reading : Word) (s : State) :
    OutGoes s (execJunctionTemperatureSample die reading s) := by
  refine OutGoes.onUnit _ ?_
  repeat' first
    | with_reducible exact Goes.refl s | with_reducible assumption | with_reducible apply State.active_goes
    | with_reducible apply State.judgeZone_goes | with_reducible apply State.updThermal_goes | split

theorem execCoolantInletHigh_goes (reading : Word) (s : State) : OutGoes s (execCoolantInletHigh reading s) := by
  refine OutGoes.next ?_
  dsimp only
  repeat' first
    | with_reducible exact Goes.refl s | with_reducible assumption | with_reducible apply State.raise_goes
    | with_reducible apply State.updThermal_goes | split

theorem execCoolantFlowLow_goes (outlet power : Word) (s : State) : OutGoes s (execCoolantFlowLow outlet power s) := by
  refine OutGoes.next ?_
  dsimp only
  repeat' first
    | with_reducible exact Goes.refl s | with_reducible assumption | with_reducible apply State.raise_goes
    | with_reducible apply State.updPower_goes | with_reducible apply State.updThermal_goes | split

theorem execFirmwareVerified_goes (passA passB : Bool) (s : State) : OutGoes s (execFirmwareVerified passA passB s) := by
  refine OutGoes.next ?_
  dsimp only
  repeat' first
    | with_reducible exact Goes.refl s | with_reducible assumption | with_reducible apply State.active_goes
    | with_reducible apply State.boot_goes | with_reducible apply State.enterSafe_goes
    | with_reducible apply State.markImage_goes | with_reducible apply State.ready_goes | split

theorem execSelfTestRequest_goes (r : Req) (s : State) : OutGoes s (execSelfTestRequest r s) := by
  refine OutGoes.next ?_
  repeat' first
    | with_reducible exact Goes.refl s | with_reducible assumption | with_reducible apply State.active_goes
    | with_reducible apply State.command_goes | with_reducible apply State.reply_goes
    | with_reducible apply State.startSelfTest_goes | split | (intro _)

theorem execSelfTestEnd_goes (failures : List (Nat × Nat)) (s : State) : OutGoes s (execSelfTestEnd failures s) := by
  refine OutGoes.next ?_
  dsimp only
  repeat' first
    | with_reducible exact Goes.refl s | with_reducible assumption | with_reducible apply State.clearTested_goes
    | with_reducible apply State.noteTested_goes | with_reducible apply State.placeFailed_goes
    | with_reducible apply State.updService_goes | with_reducible refine Goes.foldl _ ?_ ?_ | split | (intro _)

theorem execStageImage_goes (r : Req) (signatureOk : Bool) (maxima : List Nat) (s : State) :
    OutGoes s (execStageImage r signatureOk maxima s) := by
  refine OutGoes.next ?_
  dsimp only
  repeat' first
    | with_reducible exact Goes.refl s | with_reducible assumption | with_reducible apply State.active_goes
    | with_reducible apply State.commandWith_goes | with_reducible apply State.putImage_goes
    | with_reducible apply State.reply_goes | with_reducible apply State.updService_goes | split | (intro _)

theorem execActivate_goes (r : Req) (s : State) : OutGoes s (execActivate r s) := by
  refine OutGoes.next ?_
  repeat' first
    | with_reducible exact Goes.refl s | with_reducible assumption | with_reducible apply State.active_goes
    | with_reducible apply State.command_goes | with_reducible apply State.holdModule_goes
    | with_reducible apply State.reply_goes | with_reducible apply State.updService_goes | split | (intro _)

theorem execActivationHeld_goes (verified : Bool) (s : State) : OutGoes s (execActivationHeld verified s) := by
  refine OutGoes.next ?_
  dsimp only
  repeat' first
    | with_reducible exact Goes.refl s | with_reducible assumption | with_reducible apply State.abandonActivation_goes
    | with_reducible apply State.active_goes | with_reducible apply State.markImage_goes | with_reducible apply State.reach_goes
    | with_reducible apply State.switchImage_goes | with_reducible apply State.updService_goes | split

theorem execActivationTimeout_goes (s : State) : OutGoes s (execActivationTimeout s) := by
  refine OutGoes.next ?_
  repeat' first
    | with_reducible exact Goes.refl s | with_reducible assumption | with_reducible apply State.abandonActivation_goes
    | with_reducible apply State.reach_goes | split

theorem execSquareMigrationTrigger_goes (q : Nat) (passed : Bool) (s : State) :
    OutGoes s (execSquareMigrationTrigger q passed s) := by
  refine OutGoes.onUnit _ ?_
  dsimp only
  repeat' first
    | with_reducible exact Goes.refl s | with_reducible assumption | with_reducible apply State.active_goes
    | with_reducible apply State.noteTested_goes | with_reducible apply State.putMigration_goes
    | with_reducible apply State.updSq_goes | (intro x hx; exact hx) | split

theorem execSquareMigrationTestPassed_goes (die : Nat) (s : State) : OutGoes s (execSquareMigrationTestPassed die s) := by
  refine OutGoes.onUnit _ ?_
  repeat' first
    | with_reducible exact Goes.refl s | with_reducible assumption | with_reducible apply State.active_goes
    | with_reducible apply State.holdModule_goes | with_reducible apply State.putMigration_goes | split

theorem execSquareMigrationCopy_goes (die : Nat) (uncorrectable : Bool) (s : State) :
    OutGoes s (execSquareMigrationCopy die uncorrectable s) := by
  refine OutGoes.onUnit _ ?_
  dsimp only
  repeat' first
    | with_reducible exact Goes.refl s | with_reducible assumption | with_reducible apply State.active_goes
    | with_reducible apply State.moveSquare_goes | with_reducible apply State.putMigration_goes
    | with_reducible apply State.releaseModule_goes | split

theorem execArrayTestRequest_goes (r : Req) (rows cols : List Nat) (s : State) : OutGoes s (execArrayTestRequest r rows cols s) := by
  refine OutGoes.next ?_
  repeat' first
    | with_reducible exact Goes.refl s | with_reducible assumption | with_reducible apply State.command_goes
    | with_reducible apply State.noteArray_goes | with_reducible apply State.reply_goes | split | (intro _)

theorem execArrayRepairRequest_goes (r : Req) (rows cols : List Nat) (s : State) :
    OutGoes s (execArrayRepairRequest r rows cols s) := by
  refine OutGoes.next ?_
  repeat' first
    | with_reducible exact Goes.refl s | with_reducible assumption | with_reducible apply State.command_goes
    | with_reducible apply State.repair_goes | with_reducible apply State.reply_goes | split | (intro _)

theorem execUndefinedOpcode_goes (q pl : Nat) (s : State) : OutGoes s (execUndefinedOpcode q pl s) := by
  refine OutGoes.onUnit _ ?_
  repeat' first
    | with_reducible exact Goes.refl s | with_reducible assumption | with_reducible apply State.opFault_goes | split

theorem execMemoryTrainingComplete_goes (failing : List (Nat × Nat)) (s : State) :
    OutGoes s (execMemoryTrainingComplete failing s) := by
  refine OutGoes.next ?_
  have h1 := State.updPower_goes (fun x => { x with memTraining := false }) (Goes.refl s)
  split
  · exact Goes.refl s
  dsimp only
  split
  · exact h1
  · exact Goes.dram_empty (Goes.foldl _ (fun t e ht => State.updStack_goes _ _ ht)
      (Goes.foldl _ (fun t e ht => State.updStack_goes _ _ ht) h1)) rfl

theorem execTimeSourceRestored_goes (s : State) : OutGoes s (execTimeSourceRestored s) := by
  refine OutGoes.next ?_
  repeat' first
    | with_reducible exact Goes.refl s | with_reducible assumption | (intro _) | with_reducible refine Goes.mk ?_ rfl

theorem execPlannedRetrainTimeout_goes (l : Nat) (s : State) : OutGoes s (execPlannedRetrainTimeout l s) := by
  refine OutGoes.onUnit _ ?_
  dsimp only
  repeat' first
    | with_reducible exact Goes.refl s | with_reducible assumption | with_reducible apply State.reach_goes
    | with_reducible apply State.releaseModule_goes | with_reducible apply State.updLink_goes | split

theorem exec_goes (i : Instr) (s : State) : OutGoes s (exec i s) :=
  match i with
  | .semWait q pl => execSemWait_goes q pl s
  | .semPost q pl => execSemPost_goes q pl s
  | .slotWait q pl => execSlotWait_goes q pl s
  | .fence q pl => execFence_goes q pl s
  | .playerStart q pl => execPlayerStart_goes q pl s
  | .turnEnd q pl => execTurnEnd_goes q pl s
  | .linkCancel q pl => execLinkCancel_goes q pl s
  | .loop q pl => execLoop_goes q pl s
  | .setIndex q pl => execSetIndex_goes q pl s
  | .segmentEndWithoutTurnEnd q pl => execSegmentEndWithoutTurnEnd_goes q pl s
  | .operationComplete q op => execOperationComplete_goes q op s
  | .scoreboardSlotAccess q op => execScoreboardSlotAccess_goes q op s
  | .matmul q pl => execMatmul_goes q pl s
  | .matmulDrain q op => execMatmulDrain_goes q op s
  | .packingChange q => execPackingChange_goes q s
  | .arrayConfig q pl => execArrayConfig_goes q pl s
  | .accLoad q pl => execAccLoad_goes q pl s
  | .accStore q pl => execAccStore_goes q pl s
  | .accCombine q pl => execAccCombine_goes q pl s
  | .vectorQueueStart q => execVectorQueueStart_goes q s
  | .vsetLength q pl => execVsetLength_goes q pl s
  | .vrun q pl => execVrun_goes q pl s
  | .maskOp q pl => execMaskOp_goes q pl s
  | .vreduce q pl => execVreduce_goes q pl s
  | .vscan q pl => execVscan_goes q pl s
  | .lutLoad q pl => execLutLoad_goes q pl s
  | .lutSwap q pl => execLutSwap_goes q pl s
  | .vblock q pl => execVblock_goes q pl s
  | .smax q pl => execSmax_goes q pl s
  | .rowStats q pl => execRowStats_goes q pl s
  | .moverStart q pl => execMoverStart_goes q pl s
  | .moverAbort q pl => execMoverAbort_goes q pl s
  | .moverCancel q pl => execMoverCancel_goes q pl s
  | .descriptorCurrent m ch => execDescriptorCurrent_goes m ch s
  | .pacingMet m ch => execPacingMet_goes m ch s
  | .moverBurst m ch => execMoverBurst_goes m ch s
  | .descriptorComplete m ch => execDescriptorComplete_goes m ch s
  | .moverAbortEnd m ch => execMoverAbortEnd_goes m ch s
  | .moverCancelEnd m ch => execMoverCancelEnd_goes m ch s
  | .semaphorePostMessage msg => execSemaphorePostMessage_goes msg s
  | .linkCancelChannelsReported q entry => execLinkCancelChannelsReported_goes q entry s
  | .linkResetMessage msg => execLinkResetMessage_goes msg s
  | .linkResetAcknowledged msg => execLinkResetAcknowledged_goes msg s
  | .stalemateTimeout p => execStalemateTimeout_goes p s
  | .turnBoundary p => execTurnBoundary_goes p s
  | .transferRepeat m ch => execTransferRepeat_goes m ch s
  | .lateWorkEnd p => execLateWorkEnd_goes p s
  | .overrunTimeout p => execOverrunTimeout_goes p s
  | .joinReceived l => execJoinReceived_goes l s
  | .startReceived l => execStartReceived_goes l s
  | .tableStartInstant p => execTableStartInstant_goes p s
  | .holdReceived l => execHoldReceived_goes l s
  | .releaseReceived l => execReleaseReceived_goes l s
  | .tableResume p => execTableResume_goes p s
  | .turnMarkReceived l => execTurnMarkReceived_goes l s
  | .lengthReceived l => execLengthReceived_goes l s
  | .timeSourceLost => execTimeSourceLost_goes s
  | .load r => execLoad_goes r s
  | .arm r => execArm_goes r s
  | .run r => execRun_goes r s
  | .hold r => execHold_goes r s
  | .release r => execRelease_goes r s
  | .stop r => execStop_goes r s
  | .unload r => execUnload_goes r s
  | .gateVote p => execGateVote_goes p s
  | .gateVoteReceived p => execGateVoteReceived_goes p s
  | .gateDecisionReceived p => execGateDecisionReceived_goes p s
  | .gateStuckWrite r => execGateStuckWrite_goes r s
  | .stepCounterWrite r => execStepCounterWrite_goes r s
  | .restoreNeededWrite r => execRestoreNeededWrite_goes r s
  | .memoryRead owner pa upset => execMemoryRead_goes owner pa upset s
  | .memoryWrite owner pa bytes upset => execMemoryWrite_goes owner pa bytes upset s
  | .regulatorAdmit die t => execRegulatorAdmit_goes die t s
  | .refresh st ch => execRefresh_goes st ch s
  | .stackTemperatureSample st reading => execStackTemperatureSample_goes st reading s
  | .patrolScrub st ch sector upset => execPatrolScrub_goes st ch sector upset s
  | .pageInitialisation p page => execPageInitialisation_goes p page s
  | .migrateRequest r => execMigrateRequest_goes r s
  | .migrationSpareTrained die => execMigrationSpareTrained_goes die s
  | .migrationCopyComplete die => execMigrationCopyComplete_goes die s
  | .migrationSwitch die => execMigrationSwitch_goes die s
  | .migrationOldChannelTest die passed => execMigrationOldChannelTest_goes die passed s
  | .migrationSwitchTimeout die => execMigrationSwitchTimeout_goes die s
  | .migrationRetry die => execMigrationRetry_goes die s
  | .linkTraining l rx tx peer => execLinkTraining_goes l rx tx peer s
  | .linkFrameReceived l frame => execLinkFrameReceived_goes l frame s
  | .linkAckTimeout l => execLinkAckTimeout_goes l s
  | .linkWrite l => execLinkWrite_goes l s
  | .linkRead l => execLinkRead_goes l s
  | .linkReadResp l => execLinkReadResp_goes l s
  | .linkWriteAck l => execLinkWriteAck_goes l s
  | .linkPartial l => execLinkPartial_goes l s
  | .gradSign l => execGradSign_goes l s
  | .gradTopk l => execGradTopk_goes l s
  | .linkSemPost l => execLinkSemPost_goes l s
  | .linkReset l => execLinkReset_goes l s
  | .linkResetAck l => execLinkResetAck_goes l s
  | .gateTransaction l => execGateTransaction_goes l s
  | .ordered l => execOrdered_goes l s
  | .routeForward l => execRouteForward_goes l s
  | .hello l => execHello_goes l s
  | .identity l => execIdentity_goes l s
  | .keyshare l => execKeyshare_goes l s
  | .time l => execTime_goes l s
  | .timeSend l => execTimeSend_goes l s
  | .swapReq l => execSwapReq_goes l s
  | .swapAt l => execSwapAt_goes l s
  | .laneLost l => execLaneLost_goes l s
  | .assign l => execAssign_goes l s
  | .laneSwapThreshold l lane => execLaneSwapThreshold_goes l lane s
  | .laneSpareAdapted l => execLaneSpareAdapted_goes l s
  | .laneLossOfLock l lane => execLaneLossOfLock_goes l lane s
  | .retrainRequest r => execRetrainRequest_goes r s
  | .trainWindowOpen l => execTrainWindowOpen_goes l s
  | .cablePresent g => execCablePresent_goes g s
  | .cableRemoved g => execCableRemoved_goes g s
  | .managementBeaconConflict => execManagementBeaconConflict_goes s
  | .asletTraining lanes peerVersion => execAsletTraining_goes lanes peerVersion s
  | .asletFrameReceived frame => execAsletFrameReceived_goes frame s
  | .asletAckTimeout => execAsletAckTimeout_goes s
  | .asletHostWrite => execAsletHostWrite_goes s
  | .asletRead => execAsletRead_goes s
  | .asletReadResp => execAsletReadResp_goes s
  | .asletWriteAck => execAsletWriteAck_goes s
  | .message => execMessage_goes s
  | .credit => execCredit_goes s
  | .width => execWidth_goes s
  | .asletHello => execAsletHello_goes s
  | .sleepReq => execSleepReq_goes s
  | .sleepAck => execSleepAck_goes s
  | .wakeBurst => execWakeBurst_goes s
  | .place r => execPlace_goes r s
  | .placeComplete p ok => execPlaceComplete_goes p ok s
  | .clientHello r => execClientHello_goes r s
  | .clientFinish r chainBytes signatureBytes => execClientFinish_goes r chainBytes signatureBytes s
  | .handshakeTimeout c => execHandshakeTimeout_goes c s
  | .reportRequest r => execReportRequest_goes r s
  | .wrappedKey r => execWrappedKey_goes r s
  | .deliver r => execDeliver_goes r s
  | .deliveryComplete p ok => execDeliveryComplete_goes p ok s
  | .rotateRequest r p => execRotateRequest_goes r p s
  | .rotationDiesConfirmed p => execRotationDiesConfirmed_goes p s
  | .rotationSweepDone p unreadable => execRotationSweepDone_goes p unreadable s
  | .entropyFailure => execEntropyFailure_goes s
  | .readReq r => execReadReq_goes r s
  | .writeReq r => execWriteReq_goes r s
  | .segStart r => execSegStart_goes r s
  | .segData r => execSegData_goes r s
  | .segAck r => execSegAck_goes r s
  | .segCancel r => execSegCancel_goes r s
  | .segmentResendTimeout sess => execSegmentResendTimeout_goes sess s
  | .segmentTransferAbandon sess => execSegmentTransferAbandon_goes sess s
  | .eventAck r => execEventAck_goes r s
  | .eventResend sess => execEventResend_goes sess s
  | .close r => execClose_goes r s
  | .check r => execCheck_goes r s
  | .checkDiscard r => execCheckDiscard_goes r s
  | .commit r => execCommit_goes r s
  | .commitApply sess => execCommitApply_goes sess s
  | .flagClear r => execFlagClear_goes r s
  | .counterClear r => execCounterClear_goes r s
  | .powerActive r => execPowerActive_goes r s
  | .powerStandby r => execPowerStandby_goes r s
  | .powerSleep r => execPowerSleep_goes r s
  | .padRelease r => execPadRelease_goes r s
  | .wakeSource source => execWakeSource_goes source s
  | .inputValid volts => execInputValid_goes volts s
  | .inputLow => execInputLow_goes s
  | .inputLost => execInputLost_goes s
  | .inputOvervoltage volts lasted => execInputOvervoltage_goes volts lasted s
  | .inputReversed => execInputReversed_goes s
  | .powerLimit watts => execPowerLimit_goes watts s
  | .powerLimitEnd watts => execPowerLimitEnd_goes watts s
  | .railShutdown rail => execRailShutdown_goes rail s
  | .aonBrownout => execAonBrownout_goes s
  | .junctionTemperatureSample die reading => execJunctionTemperatureSample_goes die reading s
  | .coolantInletHigh reading => execCoolantInletHigh_goes reading s
  | .coolantFlowLow outlet power => execCoolantFlowLow_goes outlet power s
  | .firmwareVerified passA passB => execFirmwareVerified_goes passA passB s
  | .selfTestRequest r => execSelfTestRequest_goes r s
  | .selfTestEnd failures => execSelfTestEnd_goes failures s
  | .stageImage r signatureOk maxima => execStageImage_goes r signatureOk maxima s
  | .activate r => execActivate_goes r s
  | .activationHeld verified => execActivationHeld_goes verified s
  | .activationTimeout => execActivationTimeout_goes s
  | .squareMigrationTrigger q passed => execSquareMigrationTrigger_goes q passed s
  | .squareMigrationTestPassed die => execSquareMigrationTestPassed_goes die s
  | .squareMigrationCopy die uncorrectable => execSquareMigrationCopy_goes die uncorrectable s
  | .arrayTestRequest r rows cols => execArrayTestRequest_goes r rows cols s
  | .arrayRepairRequest r rows cols => execArrayRepairRequest_goes r rows cols s
  | .undefinedOpcode q pl => execUndefinedOpcode_goes q pl s
  | .memoryTrainingComplete failing => execMemoryTrainingComplete_goes failing s
  | .timeSourceRestored => execTimeSourceRestored_goes s
  | .plannedRetrainTimeout l => execPlannedRetrainTimeout_goes l s

/-! ### The step -/

theorem step_of_empty {s : State} (h : s.pending = []) : step s = .next s.tick := by rw [step, h]

theorem step_of_cons {s : State} {c : Instr} {rest : List Instr} (h : s.pending = c :: rest) :
    step s = exec c { s with pending := rest } := by rw [step, h]

/-- A step goes from the state with the queue's rest. -/
theorem step_goes {s t : State} (h : step s = .next t) : Goes { s with pending := s.pending.tail } t := by
  cases hp : s.pending with
  | nil =>
    have hs : ({ s with pending := [] } : State) = s := congrArg (fun l => ({ s with pending := l } : State)) hp.symm
    rw [step_of_empty hp] at h
    rw [List.tail_nil, hs, ← Host.Outcome.next.inj h]
    exact State.tick_goes (Goes.refl s)
  | cons c rest =>
    rw [step_of_cons hp] at h
    exact exec_goes c _ t h

/-- Settles O4: a step goes from the state with the queue's rest, of which the invariant does not speak. -/
theorem stepKeepsInvariant : Obligations.StepKeepsInvariant := by
  unfold Obligations.StepKeepsInvariant
  intro s t hs hstep
  obtain ⟨-, -, hinv⟩ := step_goes hstep
  exact hinv hs

/-! ### What goes on at the end of a nanosecond does not move the time -/

@[simp] theorem State.admitReq_now (s : State) (die : Nat) (r : TokenReq × Nat) (path : Bool) :
    (s.admitReq die r path).now = s.now := by
  unfold State.admitReq
  dsimp only
  split <;> rfl

@[simp] theorem State.serve_now (s : State) (die : Nat) : (s.serve die).now = s.now := by
  unfold State.serve
  induction (s.memDie die).waiting.length generalizing s with
  | zero => rfl
  | succ n ih =>
    unfold State.serveFrom
    split
    · rw [ih, State.admitReq_now]
    · rfl

@[simp] theorem State.fill_now (s : State) (die dt : Nat) : (s.fill die dt).now = s.now := rfl

@[simp] theorem State.refill_now (s : State) (die : Nat) : (s.refill die).now = s.now := by
  unfold State.refill
  induction s.now - (s.memDie die).filledAt generalizing s with
  | zero => rfl
  | succ n ih =>
    unfold State.passFrom
    split
    · rfl
    · rw [ih, State.serve_now, State.fill_now]

@[simp] theorem State.serveWaiting_now (s : State) : s.serveWaiting.now = s.now := by
  refine foldl_keeps State.now _ s (fun t d => ?_)
  split
  · rfl
  · rw [State.serve_now, State.refill_now]

@[simp] theorem State.reportCopied_now (s : State) (st ch old lo hi : Nat) : (s.reportCopied st ch old lo hi).now = s.now := by
  refine foldl_keeps State.now _ s (fun t e => ?_)
  dsimp only
  split
  · exact State.raise_now ..
  · exact State.raise_now ..

@[simp] theorem State.copyTo_now (s : State) (die hi : Nat) : (s.copyTo die hi).now = s.now := State.reportCopied_now ..

@[simp] theorem State.copyOn_now (s : State) : s.copyOn.now = s.now := by
  refine foldl_keeps State.now _ s (fun t d => ?_)
  unfold State.copyDue
  dsimp only
  split
  · exact State.copyTo_now ..
  · rfl

@[simp] theorem State.setRails_now (s : State) (lo hi v : Nat) : (s.setRails lo hi v).now = s.now := rfl

@[simp] theorem State.railsFor_now (s : State) (st : PowerState) : (s.railsFor st).now = s.now := by
  cases st <;> simp only [State.railsFor, State.setRails_now]

@[simp] theorem State.toPower_now (s : State) (st : PowerState) : (s.toPower st).now = s.now := by
  rw [State.toPower, State.raise_now, State.railsFor_now, State.updPower_now]

@[simp] theorem State.sleepStep_now (s : State) : s.sleepStep.now = s.now := by
  unfold State.sleepStep
  split
  · rfl
  split
  · split <;> rfl
  split
  · rfl
  · exact State.toPower_now ..

theorem State.tick_now (s : State) : s.tick.now = s.now + 1 := by
  rw [State.tick, State.sleepStep_now, State.copyOn_now, State.serveWaiting_now]

/-- Settles O5: a step goes from the state with the queue's rest; a tick adds its nanosecond and nothing of it moves the time further. -/
theorem stepKeepsTime : Obligations.StepKeepsTime := by
  unfold Obligations.StepKeepsTime
  refine ⟨fun s t hstep => ?_, fun s hp => ⟨s.tick, ?_, s.tick_now⟩⟩
  · obtain ⟨hpending, hnow, -⟩ := step_goes hstep
    exact ⟨hnow, hpending⟩
  · exact step_of_empty hp

/-- Settles O1: it is the second branch of `step`. -/
theorem stepRunsFront : Obligations.StepRunsFront := by
  unfold Obligations.StepRunsFront
  intro s c rest
  rfl

/-- Settles O2: reset is the state of defaults, so every table reads as its default. -/
theorem resetIsOff : Obligations.ResetIsOff := by
  unfold Obligations.ResetIsOff
  exact ⟨rfl, rfl, rfl, rfl, rfl, rfl, fun _ => rfl, fun _ => ⟨rfl, rfl⟩, fun _ => ⟨rfl, rfl, rfl⟩, fun _ => rfl, rfl⟩

/-- Settles O3: the history and every store are empty after reset. -/
theorem resetKeepsInvariant : Obligations.ResetKeepsInvariant := by
  unfold Obligations.ResetKeepsInvariant
  exact ⟨Nat.zero_le _, rfl, fun _ => ⟨rfl, rfl, rfl⟩⟩


end Sys2Proof.Machine
end

section
/-!
PROOFS. Players (chapter 04): which commands of a missing unit stop (log 7), what issue takes (R89), and the operations that execute at
issue (R96, R97, R113, VSET_LENGTH).
-/

namespace Sys2Proof.Machine

open Sys2Proof

/-! ### Commands of a unit -/

theorem onUnit_next {b : Bool} (h : b = true) (t : State) : onUnit b t = .next t := if_pos h

theorem onUnit_fault {b : Bool} (h : b = false) (t : State) : onUnit b t = .fault .noSuchUnit := by rw [onUnit, h]; rfl

theorem playerOk_iff {q pl : Nat} : playerOk q pl = true ↔ q < 144 ∧ pl < 16 := by simp [playerOk]

/-- Settles O6: each of these commands is `onUnit` of whether its unit exists. -/
theorem unitsDecide : Obligations.UnitsDecide := by
  unfold Obligations.UnitsDecide
  intro s q pl op p l
  have hbelow : ∀ {n b : Nat}, n < b → decide (n < b) = true := fun h => decide_eq_true h
  have habove : ∀ {n b : Nat}, b ≤ n → decide (n < b) = false := fun h => decide_eq_false (Nat.not_lt.2 h)
  refine ⟨fun h => ?player, fun h => ?noPlayer, fun h => ⟨⟨_, onUnit_next (hbelow h) _⟩, _, onUnit_next (hbelow h) _⟩,
    fun h => ⟨onUnit_fault (habove h) _, onUnit_fault (habove h) _⟩,
    fun h => ⟨⟨_, onUnit_next (hbelow h) _⟩, _, onUnit_next (hbelow h) _⟩,
    fun h => ⟨onUnit_fault (habove h) _, onUnit_fault (habove h) _⟩,
    fun h => ⟨⟨_, onUnit_next (hbelow h) _⟩, _, onUnit_next (hbelow h) _⟩,
    fun h => ⟨onUnit_fault (habove h) _, onUnit_fault (habove h) _⟩⟩
  case player =>
    have hu := playerOk_iff.2 h
    exact ⟨⟨_, onUnit_next hu _⟩, ⟨_, onUnit_next hu _⟩, ⟨_, onUnit_next hu _⟩, ⟨_, onUnit_next hu _⟩, ⟨_, onUnit_next hu _⟩⟩
  case noPlayer =>
    have hu : playerOk q pl = false := Bool.eq_false_iff.2 (fun hu => h (playerOk_iff.1 hu))
    exact ⟨onUnit_fault hu _, onUnit_fault hu _, onUnit_fault hu _, onUnit_fault hu _, onUnit_fault hu _⟩

/-! ### What issue takes -/

theorem Entry.sem_setSem (x : Entry) (a b : Bool) (n : Nat) : (x.setSem a n).sem b = if a = b then n else x.sem b := by
  cases a <;> cases b <;> rfl

@[simp] theorem Entry.sem_setWaiter (x : Entry) (a b : Bool) (w : Waiter) : (x.setWaiter a w).sem b = x.sem b := by
  cases a <;> rfl

/-- Decrements of a list of needs, one after another, take their sum from each semaphore. -/
theorem State.sem_foldl_decrements (l : List (Nat × Bool × Nat)) (s : State) (q e : Nat) (sem : Bool) :
    ((l.foldl (fun t n => t.updEntry q n.1 (fun y => y.setSem n.2.1 (y.sem n.2.1 - n.2.2))) s).entry q e).sem sem =
      (s.entry q e).sem sem -
        ((l.filter (fun n => decide (n.1 = e) && decide (n.2.1 = sem))).map (fun n => n.2.2)).sum := by
  induction l generalizing s with
  | nil => rfl
  | cons n l ih =>
    rw [List.foldl_cons, ih, State.entry_updEntry]
    by_cases he : n.1 = e
    · by_cases hm : n.2.1 = sem
      · simp [he, hm, Entry.sem_setSem, Nat.sub_sub]
      · simp [he, hm, Entry.sem_setSem]
    · simp [he]

/-- A decrement of 1 for each slot of a list without repetition. -/
theorem State.slots_foldl_decrements (l : List Nat) (hl : l.Nodup) (s : State) (q pl i : Nat) :
    Tab.get 0 ((l.foldl (fun t i => t.updPlayer q pl (fun P => { P with slots := Tab.upd 0 P.slots i (fun c => c - 1) })) s).player
      q pl).slots i = Tab.get 0 (s.player q pl).slots i - if l.contains i then 1 else 0 := by
  induction l generalizing s with
  | nil => rfl
  | cons k l ih =>
    obtain ⟨hk, hl⟩ := List.nodup_cons.1 hl
    rw [List.foldl_cons, ih hl, State.player_updPlayer, if_pos rfl, Tab.get_upd]
    by_cases hi : k = i
    · subst hi; simp [hk]
    · simp [hi, Ne.symm hi]

theorem bitsOf_nodup (mask n : Nat) : (bitsOf mask n).Nodup := List.nodup_range.filter _

theorem State.updEntry_player (s : State) (q e : Nat) (f : Entry → Entry) (k n : Nat) : (s.updEntry q e f).player k n = s.player k n :=
  s.updSq_keeps (fun x => x.player n) q k (fun _ => rfl)

theorem State.updPlayer_entry (s : State) (q pl : Nat) (f : Player → Player) (k e : Nat) : (s.updPlayer q pl f).entry k e = s.entry k e :=
  s.updSq_keeps (fun x => x.entry e) q k (fun _ => rfl)

theorem State.takeWaits_player (s : State) (q pl : Nat) (r : Rec) (k n : Nat) : (s.takeWaits q pl r).player k n = s.player k n :=
  foldl_keeps (fun t => t.player k n) _ s (fun t _ => t.updEntry_player ..)

theorem State.takeWaits_sem (s : State) (q pl : Nat) (r : Rec) (e : Nat) (sem : Bool) :
    ((s.takeWaits q pl r).entry q e).sem sem = (s.entry q e).sem sem := by
  refine foldl_keeps (fun t => (t.entry q e).sem sem) _ s (fun t m => ?_)
  rw [State.entry_updEntry]
  split
  next h => rw [Entry.sem_setWaiter, h]
  next => rfl

theorem State.taken_sem (s : State) (q pl : Nat) (r : Rec) (e : Nat) (sem : Bool) :
    ((s.taken q pl r).entry q e).sem sem = (s.entry q e).sem sem - needAt r e sem := by
  have hslots := foldl_keeps (fun t => (t.entry q e).sem sem) (bitsOf (recSlotMask r) 16)
    ((recNeeds r).foldl (fun t n => t.updEntry q n.1 (fun y => y.setSem n.2.1 (y.sem n.2.1 - n.2.2))) (s.takeWaits q pl r))
    (fun t i => congrArg (fun y => Entry.sem y sem) (t.updPlayer_entry q pl
      (fun P => { P with slots := Tab.upd 0 P.slots i (fun c => c - 1) }) q e))
  exact hslots.trans ((State.sem_foldl_decrements ..).trans (by rw [State.takeWaits_sem, needAt]))

theorem State.taken_slots (s : State) (q pl : Nat) (r : Rec) (i : Nat) : Tab.get 0 ((s.taken q pl r).player q pl).slots i =
    Tab.get 0 (s.player q pl).slots i - if (bitsOf (recSlotMask r) 16).contains i then 1 else 0 := by
  have hneeds := foldl_keeps (fun t => t.player q pl) (recNeeds r) (s.takeWaits q pl r)
    (f := fun t n => t.updEntry q n.1 (fun y => y.setSem n.2.1 (y.sem n.2.1 - n.2.2))) (fun t n => t.updEntry_player ..)
  refine (State.slots_foldl_decrements _ (bitsOf_nodup _ _) ..).trans ?_
  rw [hneeds, State.takeWaits_player]

/-- Issue takes from its own Square only. -/
theorem State.taken_otherSq (s : State) (q pl : Nat) (r : Rec) {k : Nat} (hk : k ≠ q) : (s.taken q pl r).sq k = s.sq k :=
  s.taken_keeps (fun t => t.sq k) q pl r (fun t _ _ => (t.sq_updSq ..).trans (if_neg hk.symm))
    (fun t _ => (t.sq_updSq ..).trans (if_neg hk.symm))

/-- Issue takes wait slots of its own Player only. -/
theorem State.taken_otherPlayer (s : State) (q pl : Nat) (r : Rec) {k : Nat} (hk : k ≠ pl) :
    (s.taken q pl r).player q k = s.player q k :=
  s.taken_keeps (fun t => t.player q k) q pl r (fun t _ _ => t.updEntry_player ..)
    (fun t _ => (t.player_updPlayer ..).trans (if_neg hk.symm))

@[simp] theorem State.taken_parts (s : State) (q pl : Nat) (r : Rec) : (s.taken q pl r).parts = s.parts :=
  (congrArg State.parts (s.taken_frame q pl r) :)
@[simp] theorem State.taken_events (s : State) (q pl : Nat) (r : Rec) : (s.taken q pl r).events = s.events :=
  (congrArg State.events (s.taken_frame q pl r) :)
@[simp] theorem State.taken_fabric (s : State) (q pl : Nat) (r : Rec) : (s.taken q pl r).fabric = s.fabric :=
  (congrArg State.fabric (s.taken_frame q pl r) :)

/-- Settles O7: the needs are taken one by one, each wait slot of the mask once. -/
theorem issueTakesNeeds : Obligations.IssueTakesNeeds := by
  unfold Obligations.IssueTakesNeeds
  intro s q pl r
  exact ⟨s.taken_sem q pl r, s.taken_slots q pl r, fun k hk => s.taken_otherSq q pl r hk, fun k hk => s.taken_otherPlayer q pl r hk,
    s.taken_pc q pl r pl, s.taken_parts q pl r, s.taken_dram q pl r, s.taken_events q pl r⟩

/-! ### SEM_WAIT, SLOT_WAIT, FENCE -/

theorem bodyCheck_none {r : Rec} {mask : Nat} (h : recBodyOk r mask = true) (s : State) : bodyCheck mask s r = none := if_pos h

theorem State.atIssue_taken (s : State) (q pl : Nat) (r : Rec) (u : State) :
    (s.taken q pl r).atIssue q pl r u = (u.advance q pl 1).postAndSlot q pl r (s.player q pl).pc := by
  rw [State.atIssue, State.taken_pc]

/-- Settles O8: the three operations do nothing at issue but what every operation does that executes at issue. -/
theorem waitsComplete : Obligations.WaitsComplete := by
  unfold Obligations.WaitsComplete
  intro s q pl r
  refine ⟨fun hi hlo hhi hb => ?semWait, fun hi hm hb => ?slotWait, fun hi hb => ?fence⟩
  case semWait =>
    change execSemWait q pl s = _
    rw [execSemWait, playerOp_acts hi (if_pos ⟨hlo, hhi⟩) (bodyCheck_none hb _), State.atIssue_taken]
  case slotWait =>
    change execSlotWait q pl s = _
    rw [execSlotWait, playerOp_acts hi (if_neg hm) (bodyCheck_none hb _), State.atIssue_taken]
  case fence =>
    change execFence q pl s = _
    rw [execFence, playerOp_acts hi rfl (bodyCheck_none hb _), State.atIssue_taken]

/-! ### SEM_POST -/

theorem State.taken_owner (s : State) (q pl : Nat) (r : Rec) (k : Nat) : (s.taken q pl r).owner k = s.owner k :=
  (congrArg Square.owner (s.taken_sq q pl r k) :)

theorem State.taken_partOf (s : State) (q pl : Nat) (r : Rec) : (s.taken q pl r).partOf q = s.partOf q := by
  rw [State.partOf, State.taken_owner, State.partOf]

theorem State.taken_part (s : State) (q pl : Nat) (r : Rec) (p : Nat) : (s.taken q pl r).part p = s.part p := by
  rw [State.part, State.taken_parts, State.part]

/-- What the check of a SEM_POST leaves: the entry is in use, and its own semaphore has room. -/
theorem semPostCheck_none {s : State} {q pl : Nat} {r : Rec} (h : semPostCheck q pl (s.takeWaits q pl r) r = none) :
    let x := (s.taken q pl r).entry q (semEntry r)
    x.depth ≠ 0 ∧ (x.owns (semSem r) = true → x.sem (semSem r) + semCount r ≤ x.depth) := by
  unfold semPostCheck at h
  change (if _ then _ else if _ then _ else
    if ((s.taken q pl r).entry q (semEntry r)).depth = 0 then _ else
    if ((s.taken q pl r).entry q (semEntry r)).owns (semSem r) && decide (((s.taken q pl r).entry q (semEntry r)).depth <
      ((s.taken q pl r).entry q (semEntry r)).sem (semSem r) + semCount r) then _ else _) = none at h
  split at h
  · cases h
  split at h
  · cases h
  split at h
  · cases h
  next hd =>
    refine ⟨hd, fun ho => ?_⟩
    rw [ho, Bool.true_and] at h
    split at h
    · cases h
    next hlt => exact Nat.not_lt.1 (fun hlt' => hlt (decide_eq_true hlt'))

/-- A post to a semaphore of the Square's own that has room raises it and changes no other entry; no message leaves. -/
theorem State.applyPost_room {s : State} {p q e : Nat} {sem : Bool} {n : Nat}
    (h : (s.entry q e).sem sem + n ≤ (s.entry q e).depth) :
    ((s.applyPost p q e sem n).entry q e).sem sem = (s.entry q e).sem sem + n ∧ (s.applyPost p q e sem n).fabric = s.fabric ∧
      ∀ k, k ≠ e → (s.applyPost p q e sem n).entry q k = s.entry q k := by
  have hrise : ∀ k, ((s.active p).updEntry q e (fun y => y.setSem sem (y.sem sem + n))).entry q k =
      if e = k then (s.entry q e).setSem sem ((s.entry q e).sem sem + n) else s.entry q k := fun k => State.entry_updEntry ..
  have hres : ∀ k, (s.applyPost p q e sem n).entry q k =
      if e = k then (s.entry q e).setSem sem ((s.entry q e).sem sem + n) else s.entry q k := fun k => by
    simp only [State.applyPost, if_pos h]
    split
    · exact hrise k
    · exact hrise k
  refine ⟨by rw [hres, if_pos rfl, Entry.sem_setSem, if_pos rfl], ?_, fun k hk => by rw [hres, if_neg hk.symm]⟩
  simp only [State.applyPost, if_pos h]
  split <;> rfl

/-- Settles O9: the post that the check has let pass is made to the Square's own semaphore, or a message of it leaves. -/
theorem semPostCompletes : Obligations.SemPostCompletes := by
  unfold Obligations.SemPostCompletes
  intro s q pl r hi hc
  obtain ⟨hd, hroom⟩ := semPostCheck_none hc
  refine ⟨(s.taken q pl r).post q (semEntry r) (semSem r) (semCount r), ?exec, ?own, ?fabric, ?link⟩
  case exec =>
    change execSemPost q pl s = _
    rw [execSemPost, playerOp_acts hi rfl hc, State.atIssue_taken]
  case own =>
    intro ho
    have hpost := State.applyPost_room (p := s.partOf q) (hroom ho)
    rw [State.post, if_neg hd, if_pos ho, State.taken_partOf]
    rwa [State.taken_fabric] at hpost
  case fabric =>
    intro ho hseat
    simp only [State.post, if_neg hd, ho, Bool.false_eq_true, if_false, State.taken_partOf, State.taken_part, hseat, if_true,
      State.taken_fabric]
  case link =>
    intro ho hseat
    simp only [State.post, if_neg hd, ho, Bool.false_eq_true, if_false, State.taken_partOf, State.taken_part, if_neg hseat]

end Sys2Proof.Machine
end

section
/-!
PROOFS. The control operations of a Player (R96, R97, R219): PLAYER_START, LOOP, SET_INDEX, VSET_LENGTH, TURN_END, and where a Player
stands after each pass of a loop; LINK_CANCEL (R113, Table SQP-6).
-/

namespace Sys2Proof.Machine

open Sys2Proof

/-! ### Loops (R97) -/

theorem Player.advance_outside {P : Player} (h : P.loops = []) (n : Nat) :
    (P.advance n).pc = P.pc + n ∧ (P.advance n).index = P.index := by
  simp [Player.advance, h, leaveLoops]

theorem Player.advance_nextPass {P : Player} {f : LoopFrame} {rest : List LoopFrame} {n : Nat} (h : P.loops = f :: rest)
    (hend : P.pc + n = f.last + 1) (hpass : f.pass + 1 < f.count) : P.advance n =
      { P with pc := f.first, loops := { f with pass := f.pass + 1 } :: rest, index := Tab.put P.index f.reg (f.pass + 1) } := by
  simp only [Player.advance, h, leaveLoops, if_pos hend, if_pos hpass]

theorem Player.advance_lastPass {P : Player} {f : LoopFrame} {n : Nat} (h : P.loops = [f]) (hend : P.pc + n = f.last + 1)
    (hpass : f.count ≤ f.pass + 1) : P.advance n = { P with pc := f.last + 1, loops := [] } := by
  simp only [Player.advance, h, hend, leaveLoops, if_true, if_neg (Nat.not_lt.2 hpass)]

theorem Player.advance_inBody {P : Player} {f : LoopFrame} {rest : List LoopFrame} {n : Nat} (h : P.loops = f :: rest)
    (hin : P.pc + n ≠ f.last + 1) : P.advance n = { P with pc := P.pc + n } := by
  simp only [Player.advance, h, leaveLoops, if_neg hin]

@[simp] theorem State.taken_loops (s : State) (q pl : Nat) (r : Rec) (n : Nat) :
    ((s.taken q pl r).player q n).loops = (s.player q n).loops := (congrArg Player.loops (s.taken_player q pl r n) :)

/-! ### The operations -/

theorem exec_playerStart {s : State} {q pl : Nat} {r : Rec} (hi : IssuesNow s q pl r 0x64)
    (hc : playerStartCheck q (s.takeWaits q pl r) r = none) :
    exec (.playerStart q pl) s = .next ((((s.taken q pl r).updPlayer q (recBits r 64 4) (fun P =>
      P.start (recBytes r 12 4))).advance q pl 1).postAndSlot q pl r (s.player q pl).pc) := by
  change execPlayerStart q pl s = _
  rw [execPlayerStart, playerOp_acts hi rfl hc, State.atIssue_taken]

theorem exec_loop {s : State} {q pl : Nat} {r : Rec} (hi : IssuesNow s q pl r 0x78)
    (hc : loopCheck q pl (s.takeWaits q pl r) r = none) :
    exec (.loop q pl) s = .next ((((s.taken q pl r).updPlayer q pl (fun P =>
      { P with loops := ⟨recBits r 64 2, (s.player q pl).pc + 1, (s.player q pl).pc + recBytes r 16 4, recBytes r 12 4, 0⟩ :: P.loops
               index := Tab.put P.index (recBits r 64 2) 0 })).advance q pl 1).postAndSlot q pl r (s.player q pl).pc) := by
  change execLoop q pl s = _
  rw [execLoop, playerOp_acts hi rfl hc]
  simp only [State.atIssue_taken, State.taken_pc]

theorem exec_setIndex {s : State} {q pl : Nat} {r : Rec} (hi : IssuesNow s q pl r 0x79)
    (hb : recBodyOk r (bitsAt 64 2 ||| bytesAt 12 4) = true) :
    exec (.setIndex q pl) s = .next ((((s.taken q pl r).updPlayer q pl (fun P =>
      { P with index := Tab.put P.index (recBits r 64 2) (recBytes r 12 4) })).advance q pl 1).postAndSlot q pl r
        (s.player q pl).pc) := by
  change execSetIndex q pl s = _
  rw [execSetIndex, playerOp_acts hi rfl (bodyCheck_none hb _), State.atIssue_taken]

/-- Settles O10: each operation is one update of a Player, and where a Player goes on is read off its innermost loop. -/
theorem playerControlCompletes : Obligations.PlayerControlCompletes := by
  unfold Obligations.PlayerControlCompletes
  intro s q pl r
  refine ⟨fun hi hc => ?start, fun hi hc => ?loop, fun hi hb => ?setIndex, fun P n f rest => ⟨fun h => Player.advance_outside h n,
    fun h hend hpass => ?nextPass, fun h hend hpass => ?lastPass, fun h hin => ?inBody⟩⟩
  case start =>
    refine ⟨_, exec_playerStart hi hc, ?_⟩
    simp only [State.player_updPlayer, if_true]
    exact ⟨rfl, rfl, fun _ => rfl, rfl, fun k hk => if_neg hk.symm⟩
  case loop =>
    refine ⟨_, exec_loop hi hc, ?_⟩
    simp only [State.player_updPlayer, if_true, State.taken_loops]
    exact ⟨Tab.get_put_same .., trivial⟩
  case setIndex =>
    refine ⟨_, exec_setIndex hi hb, ?_⟩
    simp only [State.player_updPlayer, if_true]
    refine ⟨Tab.get_put_same .., fun i hne => ?_⟩
    rw [Tab.get_put, if_neg hne.symm]
    exact s.taken_indexReg q pl r pl i
  case nextPass =>
    rw [Player.advance_nextPass h hend hpass]
    exact ⟨rfl, Tab.get_put_same .., rfl⟩
  case lastPass =>
    rw [Player.advance_lastPass h hend hpass]
    exact ⟨rfl, rfl, rfl⟩
  case inBody =>
    rw [Player.advance_inBody h hin]
    exact ⟨rfl, rfl⟩

theorem exec_vsetLength {s : State} {q pl : Nat} {r : Rec} (hi : IssuesNow s q pl r 0x20)
    (hc : vsetLengthCheck (s.takeWaits q pl r) r = none) :
    exec (.vsetLength q pl) s = .next ((((s.taken q pl r).updPlayer q pl (fun P =>
      { P with vl := (if recBit r 128 then
          min (recBytes r 8 4) (recBytes r 12 4 - s.indexReg q pl (recBits r 129 2) * recBytes r 8 4)
            else recBytes r 8 4) })).advance q pl 1).postAndSlot q pl r (s.player q pl).pc) := by
  change execVsetLength q pl s = _
  rw [execVsetLength, playerOp_acts hi rfl hc]
  simp only [State.atIssue_taken, State.taken_indexReg]

/-- Settles O19: VSET_LENGTH is one update of VL. -/
theorem vsetLengthCompletes : Obligations.VsetLengthCompletes := by
  unfold Obligations.VsetLengthCompletes
  intro s q pl r hi hc
  refine ⟨_, exec_vsetLength hi hc, ?_⟩
  simp only [State.player_updPlayer, if_true]
  refine ⟨fun he => by rw [he]; rfl, fun he => by rw [he]; rfl, fun k hk => if_neg hk.symm, ?_⟩
  rw [State.updPlayer, State.sq_updSq_same]
  exact s.taken_acc q pl r q

/-! ### TURN_END -/

theorem Square.allParked_iff {x : Square} : x.allParked = true ↔ ∀ k, k < 16 → (x.player k).running = false := by
  simp [Square.allParked]

/-- A Player parked, outside every loop. -/
def State.parked (s : State) (q pl : Nat) : State := s.updPlayer q pl (fun P => { P with running := false, loops := [] })

theorem State.parked_player (s : State) (q pl k : Nat) : (s.parked q pl).player q k =
    if pl = k then { s.player q pl with running := false, loops := [] } else s.player q k := State.player_updPlayer ..

theorem State.park_all {s : State} {q pl : Nat} (h : ((s.parked q pl).sq q).allParked = true) :
    s.park q pl = (s.parked q pl).updSq q (fun x => { x with endedAt := some s.now }) := if_pos h

theorem State.park_some {s : State} {q pl : Nat} (h : ((s.parked q pl).sq q).allParked = false) : s.park q pl = s.parked q pl :=
  if_neg (Bool.eq_false_iff.1 h)

/-- Parking changes its Square's Players and the instant at which the Square ended the Turn. -/
theorem State.park_keeps {β : Type} (g : State → β) (s : State) (q pl : Nat)
    (hplayer : ∀ f, g (s.updPlayer q pl f) = g s)
    (hended : ∀ t n, g (State.updSq t q (fun x => { x with endedAt := n })) = g t) : g (s.park q pl) = g s := by
  unfold State.park
  dsimp only
  split
  · rw [hended, hplayer]
  · exact hplayer _

theorem State.park_frame (s : State) (q pl : Nat) : { s.park q pl with squares := s.squares } = s :=
  s.park_keeps (fun t => { t with squares := s.squares }) q pl (fun _ => rfl) (fun _ _ => rfl)

theorem State.park_player (s : State) (q pl k : Nat) : (s.park q pl).player q k =
    if pl = k then { s.player q pl with running := false, loops := [] } else s.player q k := by
  rw [← State.parked_player]
  unfold State.park
  dsimp only
  split
  · exact State.updSq_keeps (fun x => x.player k) _ q q (fun _ => rfl)
  · rfl

theorem State.park_otherSq (s : State) (q pl : Nat) {k : Nat} (hk : k ≠ q) : (s.park q pl).sq k = s.sq k :=
  s.park_keeps (fun t => t.sq k) q pl (fun _ => (s.sq_updSq ..).trans (if_neg hk.symm))
    (fun t _ => (t.sq_updSq ..).trans (if_neg hk.symm))

/-- With every other Player parked, the Square has ended the Turn at this instant (R67). -/
theorem State.park_endedAt_last {s : State} {q pl : Nat} (h : ∀ k, k < 16 → k ≠ pl → (s.player q k).running = false) :
    ((s.park q pl).sq q).endedAt = some s.now := by
  have hall : ((s.parked q pl).sq q).allParked = true := Square.allParked_iff.2 (fun k hk => by
    change ((s.parked q pl).player q k).running = false
    rw [State.parked_player]
    split
    next => rfl
    next hne => exact h k hk (Ne.symm hne))
  rw [State.park_all hall, State.sq_updSq_same]

/-- With another Player running, the Turn goes on. -/
theorem State.park_endedAt_running {s : State} {q pl k : Nat} (hk : k < 16) (hne : k ≠ pl) (hr : (s.player q k).running = true) :
    ((s.park q pl).sq q).endedAt = (s.sq q).endedAt := by
  have hsome : ((s.parked q pl).sq q).allParked = false := Bool.eq_false_iff.2 (fun hall => by
    have hparked := Square.allParked_iff.1 hall k hk
    change ((s.parked q pl).player q k).running = false at hparked
    rw [State.parked_player, if_neg hne.symm, hr] at hparked
    cases hparked)
  rw [State.park_some hsome, State.parked, State.updPlayer, State.sq_updSq_same]
  rfl

theorem exec_turnEnd {s : State} {q pl : Nat} {r : Rec} (hi : IssuesNow s q pl r 0x65) (hb : recBodyOk r 0 = true) :
    exec (.turnEnd q pl) s =
      .next ((((s.taken q pl r).advance q pl 1).postAndSlot q pl r (s.player q pl).pc).park q pl) := by
  change execTurnEnd q pl s = _
  rw [execTurnEnd, playerOp_acts hi rfl (bodyCheck_none hb _), State.atIssue_taken]

/-! ### LINK_CANCEL -/

/-- An update of the chain, the slots or the Players of Squares reads as before where neither channels nor descriptors change. -/
theorem State.taken_channel (s : State) (q pl : Nat) (r : Rec) (m : MoverId) (ch : Nat) :
    (s.taken q pl r).channel m ch = s.channel m ch := by
  have hf := s.taken_frame q pl r
  cases m with
  | square k => exact (congrArg (fun x => Tab.get {} (Square.mover x) ch) (s.taken_sq q pl r k) :)
  | host => exact (congrArg (fun t => t.channel .host ch) hf :)
  | link l => exact (congrArg (fun t => t.channel (.link l) ch) hf :)

theorem State.stoppable_of_parts {s t : State} (h : t.parts = s.parts) (c : Channel) : t.stoppable c = s.stoppable c := by
  simp only [State.stoppable, State.chainEnds, State.part, h]

theorem State.taken_cancelTargets (s : State) (q pl : Nat) (r : Rec) (mask : Nat) :
    (s.taken q pl r).cancelTargets q mask = s.cancelTargets q mask := by
  simp only [State.cancelTargets, State.taken_channel, State.stoppable_of_parts (s.taken_parts q pl r)]

/-- An entry without its counts and waiters. -/
def Entry.settled (x : Entry) : Entry := { x with full := 0, empty := 0, waiterF := none, waiterE := none }

@[simp] theorem Entry.settled_setSem (x : Entry) (sem : Bool) (n : Nat) : (x.setSem sem n).settled = x.settled := by
  cases sem <;> rfl

@[simp] theorem Entry.settled_setWaiter (x : Entry) (sem : Bool) (w : Waiter) : (x.setWaiter sem w).settled = x.settled := by
  cases sem <;> rfl

theorem State.updEntry_settled (s : State) (q e k : Nat) {f : Entry → Entry} (hf : ∀ x, (f x).settled = x.settled) :
    ((s.updEntry q e f).entry q k).settled = (s.entry q k).settled := by
  rw [State.entry_updEntry]
  split
  next h => rw [hf, h]
  next => rfl

/-- Waiting changes the waiters of entries only. -/
theorem State.takeWaits_settled (s : State) (q pl : Nat) (r : Rec) (e : Nat) :
    ((s.takeWaits q pl r).entry q e).settled = (s.entry q e).settled :=
  foldl_keeps (fun t => (t.entry q e).settled) _ s (fun t n => t.updEntry_settled q n.1 e (fun x => x.settled_setWaiter ..))

/-- Of an entry, issue changes counts and waiters only. -/
theorem State.taken_settled (s : State) (q pl : Nat) (r : Rec) (e : Nat) :
    ((s.taken q pl r).entry q e).settled = (s.entry q e).settled := by
  have hneeds := foldl_keeps (fun t => (t.entry q e).settled) (recNeeds r) (s.takeWaits q pl r)
    (f := fun t n => t.updEntry q n.1 (fun y => y.setSem n.2.1 (y.sem n.2.1 - n.2.2)))
    (fun t n => t.updEntry_settled q n.1 e (fun x => x.settled_setSem ..))
  have hslots := fun u : State => foldl_keeps (fun t => (t.entry q e).settled) (bitsOf (recSlotMask r) 16) u
    (f := fun t i => t.updPlayer q pl (fun P => { P with slots := Tab.upd 0 P.slots i (fun c => c - 1) }))
    (fun t i => congrArg Entry.settled (t.updPlayer_entry ..))
  exact (hslots _).trans (hneeds.trans (s.takeWaits_settled q pl r e))

theorem State.taken_depth (s : State) (q pl : Nat) (r : Rec) (e : Nat) : ((s.taken q pl r).entry q e).depth = (s.entry q e).depth :=
  (congrArg Entry.depth (s.taken_settled q pl r e) :)
theorem State.taken_isLocal (s : State) (q pl : Nat) (r : Rec) (e : Nat) :
    ((s.taken q pl r).entry q e).isLocal = (s.entry q e).isLocal := (congrArg Entry.isLocal (s.taken_settled q pl r e) :)
theorem State.taken_consumer (s : State) (q pl : Nat) (r : Rec) (e : Nat) :
    ((s.taken q pl r).entry q e).consumer = (s.entry q e).consumer := (congrArg Entry.consumer (s.taken_settled q pl r e) :)
theorem State.taken_epoch (s : State) (q pl : Nat) (r : Rec) (e : Nat) : ((s.taken q pl r).entry q e).epoch = (s.entry q e).epoch :=
  (congrArg Entry.epoch (s.taken_settled q pl r e) :)
theorem State.taken_producerChannels (s : State) (q pl : Nat) (r : Rec) (e : Nat) :
    ((s.taken q pl r).entry q e).producerChannels = (s.entry q e).producerChannels :=
  (congrArg Entry.producerChannels (s.taken_settled q pl r e) :)

theorem linkCancelCheck_none {s : State} {q pl : Nat} {r : Rec} (hb : recBodyOk r (bitsAt 64 7) = true)
    (hd : (s.entry q (semEntry r)).depth ≠ 0)
    (hc : (s.entry q (semEntry r)).isLocal = true ∨ (s.entry q (semEntry r)).consumer = true) :
    linkCancelCheck q (s.takeWaits q pl r) r = none := by
  have hset := s.takeWaits_settled q pl r (semEntry r)
  have hdepth : ((s.takeWaits q pl r).entry q (semEntry r)).depth = (s.entry q (semEntry r)).depth := (congrArg Entry.depth hset :)
  have hlocal : ((s.takeWaits q pl r).entry q (semEntry r)).isLocal = (s.entry q (semEntry r)).isLocal :=
    (congrArg Entry.isLocal hset :)
  have hcons : ((s.takeWaits q pl r).entry q (semEntry r)).consumer = (s.entry q (semEntry r)).consumer :=
    (congrArg Entry.consumer hset :)
  simp only [linkCancelCheck, hb, hdepth, hlocal, hcons, hd]
  rcases hc with hc | hc <;> simp [hc]

/-! ### Stopping the channels of a Square -/

/-- Of a list of channels of a Square, each that can still stop enters a phase: what an abort and a cancellation of channels do. -/
def State.stopAll (s : State) (q : Nat) (to_ : ChPhase) (l : List Nat) : State :=
  l.foldl (fun u ch => if u.stoppable (u.channel (.square q) ch) then u.updChannel (.square q) ch (fun c => { c with phase := to_ })
    else u) s

theorem State.cancelAll_eq_stopAll (s : State) (q n : Nat) (l : List Nat) :
    l.foldl (fun u ch => u.cancelChannel (.square q) ch n) s = s.stopAll q (.cancelling n) l := rfl

theorem State.abortAll_eq_stopAll (s : State) (q n : Nat) (l : List Nat) :
    l.foldl (fun u ch => u.abortChannel (.square q) ch n) s = s.stopAll q (.aborting n) l := rfl

/-- No abort and no cancellation reaches a channel in this phase. -/
def ChPhase.stops (to_ : ChPhase) : Prop := ∀ (s : State) (c : Channel), s.stoppable { c with phase := to_ } = false

theorem ChPhase.stops_cancelling (n : Nat) : ChPhase.stops (.cancelling n) := fun _ _ => rfl

theorem ChPhase.stops_aborting (n : Nat) : ChPhase.stops (.aborting n) := fun _ _ => rfl

/-- A reading of the state that no channel of the Square can change is kept where channels are stopped. -/
theorem State.stopAll_keeps {β : Type} (g : State → β) (s : State) (q : Nat) (to_ : ChPhase) (l : List Nat)
    (h : ∀ t ch f, g (State.updChannel t (.square q) ch f) = g t) : g (s.stopAll q to_ l) = g s := by
  refine foldl_keeps g l s (fun t ch => ?_)
  split
  · exact h ..
  · rfl

/-- Of a list of channels, those that can still stop are stopped, and no other channel changes. -/
theorem State.stopAll_channel (l : List Nat) (s : State) (q : Nat) {to_ : ChPhase} (hto : to_.stops) (ch : Nat) :
    (s.stopAll q to_ l).channel (.square q) ch =
      if ch ∈ l ∧ s.stoppable (s.channel (.square q) ch) = true then { s.channel (.square q) ch with phase := to_ }
      else s.channel (.square q) ch := by
  induction l generalizing s with
  | nil => simp [State.stopAll]
  | cons k l ih =>
    have hparts : (s.stopAll q to_ [k]).parts = s.parts :=
      s.stopAll_keeps State.parts q to_ [k] (fun t ch f => State.updChannel_parts ..)
    have hcons : s.stopAll q to_ (k :: l) = (s.stopAll q to_ [k]).stopAll q to_ l := rfl
    rw [hcons, ih, State.stoppable_of_parts hparts]
    simp only [State.stopAll, List.foldl_cons, List.foldl_nil]
    by_cases hs : s.stoppable (s.channel (.square q) k) = true
    · by_cases hk : ch = k
      · subst hk; simp [hs, hto s]
      · simp [hs, State.channel_updChannel, hk]
    · by_cases hk : ch = k
      · subst hk; simp [hs]
      · simp [hs, hk]

/-- Of the Square, stopping its channels changes the channels only. -/
theorem State.stopAll_sq (s : State) (q : Nat) (to_ : ChPhase) (l : List Nat) (k : Nat) :
    { (s.stopAll q to_ l).sq k with mover := (s.sq k).mover } = s.sq k :=
  s.stopAll_keeps (fun t => { t.sq k with mover := (s.sq k).mover }) q to_ l (fun t ch f => by
    simp only [State.updChannel, State.sq_updSq]
    split
    next h => rw [h]
    next => rfl)

theorem State.stopAll_frame (s : State) (q : Nat) (to_ : ChPhase) (l : List Nat) : { s.stopAll q to_ l with squares := s.squares } = s :=
  s.stopAll_keeps (fun t => { t with squares := s.squares }) q to_ l (fun _ _ _ => rfl)

theorem State.stopAll_otherSq (s : State) (q : Nat) (to_ : ChPhase) (l : List Nat) {k : Nat} (hk : k ≠ q) :
    (s.stopAll q to_ l).sq k = s.sq k :=
  s.stopAll_keeps (fun t => t.sq k) q to_ l (fun t _ _ => (t.sq_updSq ..).trans (if_neg hk.symm))

/-! ### The operation of LINK_CANCEL -/

section
variable (s : State) (q pl : Nat) (r : Rec) (kind : OpKind) (phase : OpPhase) (operands : List Rec) (index : Nat) (slots : List Nat)
  (reads writes : Nat)

/-- An operation takes its place in a Square that differs from the Square at issue in its chain and its channels only. -/
theorem State.issueOp_issued {v : State} (hv : { v.sq q with mover := (s.sq q).mover, chain := (s.sq q).chain } =
      { (s.taken q pl r).sq q with mover := (s.sq q).mover, chain := (s.sq q).chain }) :
    Issued s (v.issueOp q pl r kind phase operands index slots reads writes) q pl r kind phase operands index slots := by
  have hsq := v.issueOp_sq q pl r kind phase operands index slots reads writes
  have hnext := congrArg Square.nextOp hsq
  have hclaims := congrArg Square.claims hsq
  have hflight := congrArg Square.inflight hsq
  have hplayer : ∀ n, v.player q n = (s.taken q pl r).player q n := fun n => (congrArg (fun x => Square.player x n) hv :)
  have hn : (v.sq q).nextOp = (s.sq q).nextOp := (congrArg Square.nextOp hv :).trans (s.taken_nextOp ..)
  have hc : (v.sq q).claims = (s.sq q).claims := (congrArg Square.claims hv :).trans (s.taken_claims ..)
  have hf : (v.sq q).inflight = (s.sq q).inflight := (congrArg Square.inflight hv :).trans (s.taken_inflight ..)
  simp only [hn, hc, hf, hplayer, State.taken_pc, State.taken_vl] at hnext hclaims hflight
  refine ⟨hnext, hclaims, ?_, _, hflight, rfl, rfl, rfl, rfl, rfl, rfl, rfl, rfl, rfl, rfl, rfl, rfl⟩
  rw [State.issueOp_player, hplayer]

/-- In its Square the issue of an operation changes the Players, what is in flight and the claims. -/
theorem State.issueOp_keeps {β : Type} (g : State → β) (hplace : ∀ x c n, g (s.updSq q (fun y =>
    { y with inflight := x, claims := c, nextOp := n })) = g s) (hplayer : ∀ t f, g (State.updPlayer t q pl f) = g t) :
    g (s.issueOp q pl r kind phase operands index slots reads writes) = g s :=
  (hplayer _ _).trans (hplace ..)

end

/-- Steps 1 and 2 of Table SQP-6: the channels cancelled, the epoch of the entry one on. -/
def State.cancelLink (s : State) (q e : Nat) (l : List Nat) : State :=
  (s.stopAll q (.cancelling 0x07) l).updEntry q e (fun y => { y with epoch := (y.epoch + 1) % 16 })

theorem exec_linkCancel {s : State} {q pl : Nat} {r : Rec} (hi : IssuesNow s q pl r 0x66)
    (hc : linkCancelCheck q (s.takeWaits q pl r) r = none) :
    let chs := s.cancelTargets q (s.entry q (semEntry r)).producerChannels
    exec (.linkCancel q pl) s = .next (((s.taken q pl r).cancelLink q (semEntry r) chs).issueOp q pl r
      (.linkCancel (semEntry r) chs) .waiting [] 0 [] 0 0) := by
  dsimp only
  change execLinkCancel q pl s = _
  rw [execLinkCancel, playerOp_acts hi rfl hc]
  simp only [State.taken_cancelTargets, State.taken_producerChannels, State.cancelLink, State.cancelAll_eq_stopAll]

section
variable (s : State) (q e : Nat) (l : List Nat)

theorem State.cancelLink_sq : { (s.cancelLink q e l).sq q with mover := (s.sq q).mover, chain := (s.sq q).chain } = s.sq q := by
  rw [State.cancelLink, State.updEntry, State.sq_updSq_same]
  exact (congrArg (fun x => { x with chain := (s.sq q).chain }) (s.stopAll_sq q (.cancelling 0x07) l q) :)

theorem State.cancelLink_frame : { s.cancelLink q e l with squares := s.squares } = s := s.stopAll_frame q (.cancelling 0x07) l

theorem State.cancelLink_otherSq {k : Nat} (hk : k ≠ q) : (s.cancelLink q e l).sq k = s.sq k := by
  rw [State.cancelLink, State.updEntry, State.sq_updSq, if_neg hk.symm, s.stopAll_otherSq q (.cancelling 0x07) l hk]

theorem State.cancelLink_entry (k : Nat) : (s.cancelLink q e l).entry q k =
    if e = k then { s.entry q e with epoch := ((s.entry q e).epoch + 1) % 16 } else s.entry q k := by
  have hw : ∀ k, (s.stopAll q (.cancelling 0x07) l).entry q k = s.entry q k := fun k =>
    (congrArg (fun x => Square.entry x k) (s.stopAll_sq q (.cancelling 0x07) l q) :)
  rw [State.cancelLink, State.entry_updEntry, hw, hw]

theorem State.cancelLink_channel (ch : Nat) : (s.cancelLink q e l).channel (.square q) ch =
    if ch ∈ l ∧ s.stoppable (s.channel (.square q) ch) = true then { s.channel (.square q) ch with phase := .cancelling 0x07 }
    else s.channel (.square q) ch := by
  rw [← State.stopAll_channel l s q (ChPhase.stops_cancelling 0x07)]
  simp only [State.cancelLink, State.channel, State.updEntry, State.sq_updSq_same]
  rfl

end

section
variable (v : State) (q pl : Nat) (r : Rec) (kind : OpKind) (phase : OpPhase) (operands : List Rec) (index : Nat) (slots : List Nat)
  (reads writes : Nat)

theorem State.issueOp_frame : { v.issueOp q pl r kind phase operands index slots reads writes with squares := v.squares } = v := rfl

theorem State.issueOp_otherSq {k : Nat} (hk : k ≠ q) :
    (v.issueOp q pl r kind phase operands index slots reads writes).sq k = v.sq k := by
  rw [State.issueOp, State.advance, State.updPlayer, State.sq_updSq, if_neg hk.symm, State.sq_updSq, if_neg hk.symm]

theorem State.issueOp_entry (e : Nat) : (v.issueOp q pl r kind phase operands index slots reads writes).entry q e = v.entry q e :=
  (congrArg (fun x => Square.entry x e) (v.issueOp_sq q pl r kind phase operands index slots reads writes) :)

theorem State.issueOp_channel (ch : Nat) :
    (v.issueOp q pl r kind phase operands index slots reads writes).channel (.square q) ch = v.channel (.square q) ch :=
  (congrArg (fun x => Tab.get {} (Square.mover x) ch) (v.issueOp_sq q pl r kind phase operands index slots reads writes) :)

end

theorem State.mem_cancelTargets {s : State} {q mask ch : Nat} (h : ch ∈ s.cancelTargets q mask) :
    s.stoppable (s.channel (.square q) ch) = true := (List.mem_filter.1 h).2

/-- Settles O11: TURN_END parks after what every operation does at issue; LINK_CANCEL issues its operation after the cancellation, which
reaches each channel of its list because each can still stop. -/
theorem turnEndAndCancel : Obligations.TurnEndAndCancel := by
  unfold Obligations.TurnEndAndCancel
  intro s q pl r
  refine ⟨fun hi hb => ?turnEnd, fun hi hb hd hc => ?linkCancel⟩
  case turnEnd =>
    intro u
    have hf := u.park_frame q pl
    refine ⟨_, exec_turnEnd hi hb, by rw [u.park_player, if_pos rfl], fun k hk => by rw [u.park_player, if_neg hk.symm],
      fun k hk => u.park_otherSq q pl hk, State.park_endedAt_last, fun ⟨k, hk, hne, hr⟩ => State.park_endedAt_running hk hne hr,
      (congrArg State.now hf :), (congrArg State.parts hf :), (congrArg State.dram hf :), (congrArg State.events hf :),
      (congrArg State.fabric hf :), ⟨(congrArg State.links hf :), (congrArg State.groups hf :)⟩, (congrArg State.power hf :),
      (congrArg State.thermal hf :), (congrArg State.service hf :), (congrArg State.timeSource hf :), (congrArg State.holdover hf :)⟩
  case linkCancel =>
    intro u e chs
    have hsq := u.cancelLink_sq q e chs
    have hf : { u.cancelLink q e chs with squares := s.squares } = s :=
      (congrArg (fun t => { t with squares := s.squares }) (u.cancelLink_frame q e chs) :).trans (s.taken_frame q pl r)
    refine ⟨_, exec_linkCancel hi (linkCancelCheck_none hb hd hc), State.issueOp_issued _ _ _ _ _ _ _ _ _ _ _ ?issued, ?entry,
      fun k hk => ?otherEntry, fun ch => ?channel, fun k hk => ?otherSq, ?acc, ?ls, (congrArg State.parts hf :),
      (congrArg State.dram hf :), (congrArg State.events hf :), (congrArg State.fabric hf :),
      ⟨(congrArg State.links hf :), (congrArg State.groups hf :)⟩, (congrArg State.power hf :),
      (congrArg State.thermal hf :), (congrArg State.service hf :), (congrArg State.timeSource hf :), (congrArg State.holdover hf :)⟩
    case issued => exact (congrArg (fun x => { x with mover := (s.sq q).mover, chain := (s.sq q).chain }) hsq :)
    case entry => rw [State.issueOp_entry, State.cancelLink_entry, if_pos rfl, State.taken_epoch]
    case otherEntry => rw [State.issueOp_entry, State.cancelLink_entry, if_neg hk.symm]
    case channel =>
      rw [State.issueOp_channel, State.cancelLink_channel, State.taken_channel, State.stoppable_of_parts (s.taken_parts q pl r)]
      exact if_congr ⟨fun h => h.1, fun h => ⟨h, State.mem_cancelTargets h⟩⟩ rfl rfl
    case otherSq => rw [State.issueOp_otherSq _ _ _ _ _ _ _ _ _ _ _ hk, State.cancelLink_otherSq _ _ _ _ hk, s.taken_otherSq q pl r hk]
    case acc => exact (State.issueOp_acc ..).trans ((congrArg Square.acc hsq :).trans (s.taken_acc ..))
    case ls => exact (State.issueOp_ls ..).trans ((congrArg Square.ls hsq :).trans (s.taken_ls ..))

end Sys2Proof.Machine
end

section
/-!
PROOFS. The matrix array (chapter 07): what meeting errors of a Square's stores leaves (R104, R190, R199), what a stream and a drain
write (R170, R178), and the commands that drain, change the packing and make a held access (R180, R200).
-/

namespace Sys2Proof.Machine

open Sys2Proof

/-! ### Errors met in a Square's stores -/

/-- A Square without the marks of its errors: what parity and codes do not match, and the counts of it. -/
def Square.unmarked (x : Square) : Square :=
  { x with corrected := 0, hwTimes := [], lsErr := [], accErr := [], feedErr := [], drainErr := [] }

/-- A reading of the state that changes neither with the error marks of a Square, nor with a partition, nor with an event. -/
structure KeptByErrors {β : Type} (q : Nat) (g : State → β) : Prop where
  sq : ∀ t f, (∀ x, (f x).unmarked = x.unmarked) → g (State.updSq t q f) = g t
  part : ∀ t p f, g (State.updPart t p f) = g t
  raise : ∀ t c d p l a, g (State.raise t c d p l a) = g t

namespace KeptByErrors

variable {β : Type} {q : Nat} {g : State → β} (h : KeptByErrors q g)

include h

theorem storeError (s : State) (k : Nat) : g (s.storeError q k) = g s := by
  have hhit : g ((s.updSq q (fun x => { x with hwTimes := x.hwTimes ++ [s.now] })).raise 0x41 (Config.openDetail 0x41) (s.owner q)
      [(.square, q)] []) = g s := (h.raise ..).trans (h.sq _ _ (fun _ => rfl))
  unfold State.storeError
  dsimp only
  split
  · exact (h.raise ..).trans (h.sq _ _ (fun _ => rfl))
  · split
    · exact (h.part ..).trans hhit
    · exact hhit

theorem touchLs (s : State) (offs : List Nat) : g (s.touchLs q offs) = g s := by
  refine foldl_keeps g _ s (fun t e => ?_)
  dsimp only
  split
  · refine (h.sq _ _ ?_).trans (h.storeError t e.2)
    exact fun _ => rfl
  · exact h.storeError t e.2

theorem touchTensor (s : State) (p : Nat) (t : Tensor) (n : Nat) : g (s.touchTensor q p t n) = g s := by
  unfold State.touchTensor State.touchElems
  split
  · rfl
  · exact h.touchLs ..

theorem touchAcc (s : State) (is : List Nat) : g (s.touchAcc q is) = g s := by
  refine foldl_keeps g _ s (fun t e => ?_)
  dsimp only
  split
  · refine (h.sq _ _ ?_).trans (h.storeError t e.2)
    exact fun _ => rfl
  · exact h.storeError t e.2

theorem feedMet (s : State) (r : Rec) (x : MmTensors) : g (s.feedMet q r x) = g s := by
  unfold State.feedMet
  dsimp only
  split
  · rfl
  · exact (foldl_keeps g _ _ (fun t _ => h.storeError t 2)).trans (h.sq _ _ (fun _ => rfl))

theorem drainMet (s : State) (sums : List (Nat × Word)) : g (s.drainMet q sums) = g s := by
  unfold State.drainMet
  dsimp only
  split
  · rfl
  · exact (foldl_keeps g _ _ (fun t _ => h.storeError t 2)).trans (h.sq _ _ (fun _ => rfl))

end KeptByErrors

theorem keptByErrors_unmarked (q k : Nat) : KeptByErrors q (fun t => (t.sq k).unmarked) where
  sq t f hf := by
    rw [State.sq_updSq]
    split
    next hk => rw [hf, hk]
    next => rfl
  part _ _ _ := rfl
  raise t c d p l a := by rw [State.raise_sq]

theorem keptByErrors_otherSq {q k : Nat} (hk : k ≠ q) : KeptByErrors q (fun t => t.sq k) where
  sq t f _ := by rw [State.sq_updSq, if_neg hk.symm]
  part _ _ _ := rfl
  raise t c d p l a := State.raise_sq ..

theorem keptByErrors_dram (q : Nat) : KeptByErrors q (fun t => t.dram) where
  sq _ _ _ := rfl
  part _ _ _ := rfl
  raise _ _ _ _ _ _ := State.raise_dram ..

/-! ### The stream -/

/-- A stream changes its operation, the error marks of its Square, and nothing else of the Square. -/
theorem State.runStream_unmarked {s : State} {q : Nat} {o : Op} {sums : List (Nat × Word)} {flags : Nat}
    (h : s.mmStream q o.bits (s.mmTensors (s.partOf q) o.bits o.index) = .ok (sums, flags)) :
    ((s.runStream q o).sq q).unmarked = ((s.sq q).updOp o.id (fun y =>
      { y with phase := .working, held := false, sums := sums, flags := flags })).unmarked := by
  have hk := keptByErrors_unmarked q q
  have hop : ((s.updOp q o.id (fun y => { y with phase := .working, held := false, sums := sums, flags := flags })).sq q).unmarked =
      ((s.sq q).updOp o.id (fun y => { y with phase := .working, held := false, sums := sums, flags := flags })).unmarked := by
    rw [State.updOp, State.sq_updSq_same]
  rw [← hop]
  unfold State.runStream
  simp only [h]
  have hacc : ∀ (c : Bool) u is, ((if c = true then State.touchAcc u q is else u).sq q).unmarked = (u.sq q).unmarked := fun c u is => by
    split
    · exact hk.touchAcc u is
    · rfl
  split
  · exact hacc ..
  split
  · exact (hk.touchTensor ..).trans ((hk.touchTensor ..).trans ((hk.touchTensor ..).trans ((hk.touchTensor ..).trans
      ((hk.feedMet ..).trans (hacc ..)))))
  · exact (hk.touchTensor ..).trans ((hk.touchTensor ..).trans ((hk.feedMet ..).trans (hacc ..)))

/-! ### The drain -/

/-- Writes to elements without repetition: each value at its element, and every other element as before. -/
theorem Square.accRead_accWriteAll {ws : List (Nat × Nat)} (hw : (ws.map (·.1)).Nodup) (x : Square) :
    (∀ e v, (e, v) ∈ ws → (x.accWriteAll ws).accRead e = v % 2 ^ 32) ∧
      ∀ e, e ∉ ws.map (·.1) → (x.accWriteAll ws).accRead e = x.accRead e := by
  unfold Square.accWriteAll
  induction ws generalizing x with
  | nil => exact ⟨fun _ _ h => (List.not_mem_nil h).elim, fun _ _ => rfl⟩
  | cons w ws ih =>
    rw [List.map_cons] at hw
    obtain ⟨hnot, hw⟩ := List.nodup_cons.1 hw
    obtain ⟨hin, hout⟩ := ih hw (x.accWrite w.1 w.2)
    refine ⟨fun e v hm => ?_, fun e hm => ?_⟩
    · rcases List.mem_cons.1 hm with rfl | hm
      · rw [List.foldl_cons, hout _ hnot, Square.accRead_accWrite, if_pos rfl]
      · exact hin e v hm
    · rw [List.map_cons, List.mem_cons, not_or] at hm
      rw [List.foldl_cons, hout e hm.2, Square.accRead_accWrite, if_neg (Ne.symm hm.1)]

theorem drainedSums_elements (err : List (Nat × Word)) (sums : List (Nat × Word)) :
    (drainedSums err sums).map (·.1) = sums.map (·.1) := by
  unfold drainedSums
  split
  · rfl
  · rw [List.map_map]
    refine List.map_congr_left (fun y _ => ?_)
    simp only [Function.comp_apply]
    split
    · split <;> rfl
    · rfl

/-- A drain that overwrites, without scales, delivers the sum itself (R170). -/
theorem drainValue_plain {r : Rec} (h : mmDrain r = 0) (old c : Nat) : drainValue r false old c = (c, 0) := by
  simp [drainValue, h]

/-- The Square after a plain drain: what the column's path delivers stands in the slot. -/
theorem State.runDrain_plain {s : State} {q : Nat} {o : Op} (hd : mmDrain o.bits = 0)
    (hf : fp8Tensor ((s.mmTensors (s.partOf q) o.bits o.index).a.fmt % 32) = false) : s.runDrain q o =
      ((s.drainMet q o.sums).updSq q (fun z => z.accWriteAll ((drainedSums (s.sq q).drainErr o.sums).map (fun y =>
        (y.1, y.2.toNat))))).updOp q o.id (fun y =>
          { y with phase := .done, held := false
                   flags := (drainedSums (s.sq q).drainErr o.sums).foldl (fun f _ => f ||| 0) o.flags, sums := [] }) := by
  have h1 : ¬ mmDrain o.bits = 1 := by rw [hd]; decide
  simp only [State.runDrain, hf, Bool.false_and, if_neg h1, drainValue_plain hd, List.map_map, Function.comp_def, List.foldl_map]

theorem Square.accRead_of_unmarked {x y : Square} (h : x.unmarked = y.unmarked) (e : Nat) : x.accRead e = y.accRead e :=
  (congrArg (fun z => Square.accRead z e) h :)

theorem State.runDrain_sq {s : State} {q : Nat} {o : Op} (hd : mmDrain o.bits = 0)
    (hf : fp8Tensor ((s.mmTensors (s.partOf q) o.bits o.index).a.fmt % 32) = false) (e : Nat) : ((s.runDrain q o).sq q).accRead e =
      (((s.drainMet q o.sums).sq q).accWriteAll ((drainedSums (s.sq q).drainErr o.sums).map (fun y =>
        (y.1, y.2.toNat)))).accRead e := by
  rw [State.runDrain_plain hd hf, State.updOp, State.sq_updSq_same, State.sq_updSq_same]
  rfl

/-- Settles O14: a stream changes its operation and error marks; a plain drain is one write of the delivered sums. -/
theorem streamAndDrain : Obligations.StreamAndDrain := by
  unfold Obligations.StreamAndDrain
  intro s q o
  refine ⟨fun sums flags h => ?stream, fun hd hf hn => ?drain⟩
  case stream =>
    have hu := State.runStream_unmarked h
    exact ⟨(congrArg Square.acc hu :), (congrArg Square.ls hu :), (congrArg Square.inflight hu :)⟩
  case drain =>
    have helems : ((drainedSums (s.sq q).drainErr o.sums).map (fun y => (y.1, y.2.toNat))).map (·.1) = o.sums.map (·.1) := by
      rw [List.map_map]
      exact drainedSums_elements ..
    have hmet := (keptByErrors_unmarked q q).drainMet s o.sums
    obtain ⟨hin, hout⟩ := Square.accRead_accWriteAll (helems ▸ hn) ((s.drainMet q o.sums).sq q)
    refine ⟨fun e w hm => ?_, fun e hm => ?_, ?_, ?_, fun k hk => ?_⟩
    · rw [State.runDrain_sq hd hf, hin e w.toNat (List.mem_map.2 ⟨(e, w), hm, rfl⟩), Nat.mod_eq_of_lt w.isLt]
    · rw [State.runDrain_sq hd hf, hout e (helems ▸ hm), Square.accRead_of_unmarked hmet]
    · rw [State.runDrain_plain hd hf, State.updOp, State.sq_updSq_same, State.sq_updSq_same]
      exact (Square.accWriteAll_ls _ _).trans (congrArg Square.ls hmet :)
    · rw [State.runDrain_plain hd hf]
      exact (keptByErrors_dram q).drainMet s o.sums
    · rw [State.runDrain_plain hd hf, State.updOp, State.sq_updSq, if_neg hk.symm, State.sq_updSq, if_neg hk.symm]
      exact (keptByErrors_otherSq hk).drainMet s o.sums

/-! ### The commands -/

theorem Square.id_of_op {x : Square} {id : Nat} {o : Op} (h : x.op id = some o) : o.id = id := by
  simpa using List.find?_some h

theorem Square.op_updOp_of {x : Square} {id : Nat} {o : Op} (h : x.op id = some o) {f : Op → Op} (hf : ∀ o, (f o).id = o.id) :
    (x.updOp id f).op id = some (f o) := by
  rw [Square.op_updOp x id f hf, h]; rfl

/-- Settles O15: each command is read off the conditions of its branch. -/
theorem drainsAndPacking : Obligations.DrainsAndPacking := by
  unfold Obligations.DrainsAndPacking
  intro s q op k o hq
  have hu : decide (q < 144) = true := decide_eq_true hq
  refine ⟨fun ho hm hp hh ht => ⟨fun hs => ?drains, fun hs => ?held⟩, fun hw => ?packing, fun ho hh => ⟨fun hs => ?waits,
    fun hs => ⟨fun hm hp => ?streams, fun hm hp => ?drainsHeld, fun hm hv => ?vector⟩⟩⟩
  case drains =>
    change execMatmulDrain q op s = _
    simp [execMatmulDrain, ho, hm, hp, hh, ht, hs, onUnit_next hu]
  case held =>
    refine ⟨s.holdOp q op, ?_, ?_⟩
    · change execMatmulDrain q op s = _
      simp [execMatmulDrain, ho, hm, hp, hh, ht, hs, onUnit_next hu]
    · rw [State.holdOp, State.sq_updSq_same]
      exact ⟨rfl, rfl, (Square.op_updOp_of ho (f := fun o => { o with held := true }) (fun _ => rfl) :)⟩
  case packing =>
    refine ⟨s.updSq q (fun x => { x with packing := k }), ?_, ?_⟩
    · change execPackingChange q s = _
      simp only [execPackingChange, hw, onUnit_next hu]
    · rw [State.sq_updSq_same]
      exact ⟨rfl, rfl, rfl, fun j hj => by rw [State.sq_updSq, if_neg hj.symm]⟩
  case waits =>
    change execScoreboardSlotAccess q op s = _
    simp [execScoreboardSlotAccess, ho, hh, hs, onUnit_next hu]
  case streams =>
    change execScoreboardSlotAccess q op s = _
    simp [execScoreboardSlotAccess, ho, hh, hs, hm, hp, onUnit_next hu]
  case drainsHeld =>
    change execScoreboardSlotAccess q op s = _
    simp [execScoreboardSlotAccess, ho, hh, hs, hm, hp, onUnit_next hu]
  case vector =>
    refine ⟨s.updOp q op (fun y => { y with held := false }), ?_, ?_⟩
    · change execScoreboardSlotAccess q op s = _
      simp [execScoreboardSlotAccess, ho, hh, hs, hm, hv, onUnit_next hu]
    · rw [State.updOp, State.sq_updSq_same]
      exact ⟨rfl, Square.op_updOp_of ho (fun _ => rfl), rfl⟩

end Sys2Proof.Machine
end

section
/-!
PROOFS. Operations that hold a place (R91, R99, R200) and the vector queue (R216, R242, Table VEC-12): what completes, what is issued into
the queue, and what its head does.
-/

namespace Sys2Proof.Machine

open Sys2Proof

/-! ### Completion (R99) -/

/-- An operation out of flight, its claims released, its flags recorded where no fault stopped it; its POST and SLOT are still to come. -/
def State.retired (s : State) (q : Nat) (o : Op) : State :=
  let t := (s.updSq q (fun x => x.retire o.id)).active (s.partOf q)
  if o.faulted then t else t.addFlags q o.player o.flags

theorem State.complete_eq (s : State) (q : Nat) (o : Op) : s.complete q o =
    if o.faulted then s.retired q o else (s.retired q o).postAndSlot q o.player o.bits o.record := by
  unfold State.complete State.retired
  dsimp only
  split <;> rfl

/-- In its Square, retirement changes what is in flight and the sticky words of the Players. -/
theorem State.retired_sq (s : State) (q : Nat) (o : Op) :
    { (s.retired q o).sq q with players := (s.sq q).players } = (s.sq q).retire o.id := by
  have hretire : (s.updSq q (fun x => x.retire o.id)).sq q = (s.sq q).retire o.id := State.sq_updSq_same ..
  unfold State.retired
  dsimp only
  split
  · exact (congrArg (fun x => { x with players := (s.sq q).players }) hretire :)
  · rw [State.addFlags, State.updPlayer, State.sq_updSq_same]
    exact (congrArg (fun x => { x with players := (s.sq q).players }) hretire :)

theorem State.retired_sticky (s : State) (q : Nat) (o : Op) : ((s.retired q o).player q o.player).sticky =
    (s.player q o.player).sticky ||| (if o.faulted then 0 else BitVec.ofNat 32 o.flags) := by
  have hretire : ((s.updSq q (fun x => x.retire o.id)).active (s.partOf q)).player q o.player = s.player q o.player :=
    s.updSq_keeps (fun x => x.player o.player) q q (f := fun x => x.retire o.id) (fun _ => rfl)
  unfold State.retired
  dsimp only
  split
  · rw [hretire]; exact BitVec.or_zero.symm
  · rw [State.addFlags, State.player_updPlayer, if_pos rfl, hretire]

theorem State.retired_otherSq (s : State) (q : Nat) (o : Op) {k : Nat} (hk : k ≠ q) : (s.retired q o).sq k = s.sq k := by
  have hretire : (s.updSq q (fun x => x.retire o.id)).sq k = s.sq k := by rw [State.sq_updSq, if_neg hk.symm]
  unfold State.retired
  dsimp only
  split
  · exact hretire
  · rw [State.addFlags, State.updPlayer, State.sq_updSq, if_neg hk.symm]
    exact hretire

theorem State.retired_dram (s : State) (q : Nat) (o : Op) : (s.retired q o).dram = s.dram := by
  unfold State.retired
  dsimp only
  split <;> rfl

theorem exec_operationComplete {s : State} {q op : Nat} {o : Op} (hq : q < 144) (ho : (s.sq q).op op = some o)
    (hp : o.phase = .done) :
    exec (.operationComplete q op) s = .next (((s.complete q o).arrayProgress q).vectorProgress q) := by
  change execOperationComplete q op s = _
  simp only [execOperationComplete, ho, hp, if_true, onUnit_next (decide_eq_true hq)]

/-- Settles O16: completion retires the operation, then makes its POST and SLOT where no fault stopped it. -/
theorem operationCompletes : Obligations.OperationCompletes := by
  unfold Obligations.OperationCompletes
  intro s q op o hq ho hp
  have hsq := s.retired_sq q o
  refine ⟨s.retired q o, ?_, (congrArg Square.inflight hsq :), (congrArg Square.claims hsq :), s.retired_sticky q o,
    (congrArg Square.acc hsq :), (congrArg Square.ls hsq :), s.retired_dram q o, fun k hk => s.retired_otherSq q o hk⟩
  rw [exec_operationComplete hq ho hp, State.complete_eq]

/-! ### Issue into the queue -/

/-- The operation issued, and its number last in the queue; nothing has started yet. -/
def State.queued (s : State) (q pl : Nat) (r : Rec) (operands : List Rec) (index : Nat) (slots : List Nat) (reads writes : Nat) : State :=
  (s.issueOp q pl r .vector .waiting operands index slots reads writes).updSq q (fun x =>
    { x with vqueue := x.vqueue ++ [(s.sq q).nextOp] })

section
variable (s : State) (q pl : Nat) (r : Rec) (operands : List Rec) (index : Nat) (slots : List Nat) (reads writes : Nat)

theorem State.taken_queued_sq :
    { ((s.taken q pl r).queued q pl r operands index slots reads writes).sq q with vqueue := (s.sq q).vqueue } =
      { ((s.taken q pl r).issueOp q pl r .vector .waiting operands index slots reads writes).sq q with
        vqueue := (s.sq q).vqueue } := by
  rw [State.queued, State.sq_updSq_same]

theorem State.taken_queued_issued : Issued s ((s.taken q pl r).queued q pl r operands index slots reads writes) q pl r .vector .waiting
    operands index slots := by
  have hsq := s.taken_queued_sq q pl r operands index slots reads writes
  obtain ⟨hnext, hclaims, hplayer, o, hflight, hrest⟩ :=
    s.taken_issueOp_issued q pl r .vector .waiting operands index slots reads writes
  exact ⟨(congrArg Square.nextOp hsq :).trans hnext, (congrArg Square.claims hsq :).trans hclaims,
    (congrArg (fun x => Square.player x pl) hsq :).trans hplayer, o, (congrArg Square.inflight hsq :).trans hflight, hrest⟩

theorem State.taken_queued_vqueue : (((s.taken q pl r).queued q pl r operands index slots reads writes).sq q).vqueue =
    (s.sq q).vqueue ++ [(s.sq q).nextOp] := by
  have hissue := congrArg Square.vqueue ((s.taken q pl r).issueOp_sq q pl r .vector .waiting operands index slots reads writes)
  have htaken := congrArg Square.vqueue (s.taken_sq q pl r q)
  rw [State.queued, State.sq_updSq_same, State.taken_nextOp]
  exact congrArg (· ++ _) (hissue.trans htaken)

/-- What issue into the queue leaves: the operation in flight and last in the queue, the Square's stores and memory as they were. -/
theorem exec_queued {c : Instr} {opcode : Nat} {chk : State → Rec → Option IssueFault} {act : State → Rec → State}
    (hexec : exec c s = playerOp s q pl opcode noPre chk act) (hi : IssuesNow s q pl r opcode)
    (hc : chk (s.takeWaits q pl r) r = none)
    (hact : act (s.taken q pl r) r = (s.taken q pl r).issueVector q pl r operands index slots reads writes) :
    ∃ u : State, exec c s = .next (u.vectorProgress q) ∧ Issued s u q pl r .vector .waiting operands index slots ∧
      (u.sq q).vqueue = (s.sq q).vqueue ++ [(s.sq q).nextOp] ∧ (u.sq q).acc = (s.sq q).acc ∧ (u.sq q).ls = (s.sq q).ls ∧
      u.dram = s.dram := by
  have hsq := s.taken_queued_sq q pl r operands index slots reads writes
  exact ⟨_, hexec.trans ((playerOp_acts hi rfl hc).trans (congrArg _ hact)), s.taken_queued_issued .., s.taken_queued_vqueue ..,
    (congrArg Square.acc hsq :).trans ((State.issueOp_acc ..).trans (s.taken_acc ..)),
    (congrArg Square.ls hsq :).trans ((State.issueOp_ls ..).trans (s.taken_ls ..)), s.taken_dram ..⟩

end

theorem State.taken_record (s : State) (q pl : Nat) (r : Rec) (i : Nat) : ((s.taken q pl r).sq q).record i = (s.sq q).record i :=
  (congrArg (fun x => Square.record x i) (s.taken_sq q pl r q) :)

/-- Settles O17: each operation that passes its checks is one issue into the queue, with what its record names. -/
theorem vectorIssue : Obligations.VectorIssue := by
  unfold Obligations.VectorIssue
  intro s q pl r w id queued
  refine ⟨fun hi hc => ?vrun, fun hi hc => ?maskOp, fun hi hc => ?lutLoad, fun hi hb => ?lutSwap, fun hi hc => ?vblock,
    fun hi hc => ?vreduce, fun hi hc => ?vscan, fun hi hc => ?smax, fun hi hc => ?rowStats, fun hi hc => ?accLoad,
    fun hi hc => ?accStore, fun hi hc => ?accCombine⟩
  case vrun =>
    refine exec_queued s q pl r _ _ _ (progReads (elemOps r (vrunOperands s q pl r)))
      (progWrites (elemOps r (vrunOperands s q pl r))) rfl hi hc ?_
    simp only [State.taken_pc, State.taken_record, State.taken_indexReg]
    rfl
  case maskOp => exact exec_queued s q pl r _ _ _ _ _ rfl hi hc rfl
  case lutLoad => exact exec_queued s q pl r _ _ _ _ _ rfl hi hc rfl
  case lutSwap => exact exec_queued s q pl r _ _ _ _ _ rfl hi (bodyCheck_none hb _) rfl
  case vblock => exact exec_queued s q pl r _ _ _ _ _ rfl hi hc rfl
  all_goals
    apply exec_queued (hexec := rfl) (hi := hi) (hc := hc)
    simp only [State.taken_indexReg]
    rfl

/-! ### The head of the queue -/

theorem exec_vectorQueueStart {s : State} {q : Nat} (hq : q < 144) :
    exec (.vectorQueueStart q) s = .next ((s.updSq q (fun x => { x with vbusy := none })).vectorProgress q) :=
  onUnit_next (decide_eq_true hq) _

/-- With one operation in the queue, progress is one try of the head. -/
theorem State.vectorProgress_single {s : State} {q id : Nat} (h : (s.sq q).vqueue = [id]) : s.vectorProgress q = s.startHead q := by
  rw [State.vectorProgress, h]; rfl

theorem Square.vectorHead_single {x : Square} {o : Op} (hb : x.vbusy = none) (hs : x.vstopped = false) (hv : x.vqueue = [o.id])
    (ho : x.op o.id = some o) : x.vectorHead = some o := by
  simp [Square.vectorHead, hb, hs, hv, ho]

/-- The lanes of a Square are free. -/
def Square.lanesFree (x : Square) : Square := { x with vbusy := none }

section
variable {s : State} {q : Nat} {o : Op}

theorem State.startHead_free (hv : (s.sq q).vqueue = [o.id]) (ho : (s.sq q).op o.id = some o) (hs : (s.sq q).vstopped = false)
    (hh : o.held = false) (hi : (s.sq q).interlocksOpen o = true) (hc : recOpcode o.bits ≠ 0x24) :
    (s.updSq q Square.lanesFree).startHead q = if (s.sq q).slotsFree o then (s.updSq q Square.lanesFree).runVector q o
      else (s.updSq q Square.lanesFree).holdOp q o.id := by
  have hfree : (s.updSq q Square.lanesFree).sq q = (s.sq q).lanesFree := State.sq_updSq_same ..
  have hhead : ((s.updSq q Square.lanesFree).sq q).vectorHead = some o := by
    rw [hfree]
    exact Square.vectorHead_single (x := (s.sq q).lanesFree) rfl hs hv ho
  have hopen : ((s.updSq q Square.lanesFree).sq q).interlocksOpen o = true := by rw [hfree]; exact hi
  have hslots : ((s.updSq q Square.lanesFree).sq q).slotsFree o = (s.sq q).slotsFree o := by rw [hfree]; rfl
  simp only [State.startHead, hhead, hopen, hslots, hh, if_neg hc, Bool.not_true, Bool.or_self, Bool.false_eq_true, if_false]

theorem exec_vectorQueueStart_head (hq : q < 144) (hv : (s.sq q).vqueue = [o.id]) (ho : (s.sq q).op o.id = some o)
    (hs : (s.sq q).vstopped = false) (hh : o.held = false) (hi : (s.sq q).interlocksOpen o = true) (hc : recOpcode o.bits ≠ 0x24) :
    exec (.vectorQueueStart q) s = .next (if (s.sq q).slotsFree o then (s.updSq q Square.lanesFree).runVector q o
      else (s.updSq q Square.lanesFree).holdOp q o.id) := by
  have hfree : ((s.updSq q Square.lanesFree).sq q).vqueue = [o.id] := by rw [State.sq_updSq_same]; exact hv
  rw [exec_vectorQueueStart hq, ← State.startHead_free hv ho hs hh hi hc, ← State.vectorProgress_single hfree]
  rfl

/-- The Square after a vector operation that no fault stopped. -/
theorem State.runVector_sq (hf : (vectorRun s q o).fault = none) : (s.runVector q o).sq q =
    ({ (vectorRun s q o).state.sq q with vqueue := ((vectorRun s q o).state.sq q).vqueue.filter (fun i => decide (i ≠ o.id))
                                         vbusy := some o.id } : Square).updOp o.id
      (fun y => { y with phase := .done, held := false, flags := (vectorRun s q o).flags, faulted := false }) := by
  simp only [State.runVector, hf, State.updOp, State.sq_updSq_same, Option.isSome_none]

/-- The Square after a LUT_SWAP that need not wait. -/
theorem State.runSwap_sq (h : (s.sq q).swapReady o = true) : (s.runSwap q o).sq q =
    (({ s.sq q with vqueue := (s.sq q).vqueue.filter (fun i => decide (i ≠ o.id)) } : Square).swapBanks (llQuads o.bits)).updOp o.id
      (fun y => { y with phase := .done }) := by
  simp only [State.runSwap, h, if_true, State.updOp, State.sq_updSq_same]

end

/-- An operation found under the number of an update has been updated. -/
theorem Square.mem_updOp {x : Square} {id : Nat} {f : Op → Op} {e : Op}
    (he : e ∈ (x.updOp id f).inflight) (hid : e.id = id) : ∃ y, e = f y := by
  obtain ⟨y, -, rfl⟩ := List.mem_map.1 he
  split at hid
  next h => exact ⟨y, by rw [if_pos h]⟩
  next h => exact absurd hid h

/-- Settles O18: freeing the lanes tries the head alone in the queue; what a running operation and a LUT_SWAP leave is read off their
Square. -/
theorem queueHeadStarts : Obligations.QueueHeadStarts := by
  unfold Obligations.QueueHeadStarts
  intro s q o free hq
  refine ⟨fun hv => ?empty, fun hv ho hs hh hi hc => ⟨fun hfree => ?runs, fun hfree => ?held⟩, fun hf => ?ran, fun hr => ?swapped⟩
  case empty =>
    have hnone : (free.sq q).vqueue = [] := by rw [State.sq_updSq_same]; exact hv
    rw [exec_vectorQueueStart hq, State.vectorProgress, hnone]
    rfl
  case runs => rw [exec_vectorQueueStart_head hq hv ho hs hh hi hc, if_pos hfree]; rfl
  case held => rw [exec_vectorQueueStart_head hq hv ho hs hh hi hc, if_neg (Bool.eq_false_iff.1 hfree)]; rfl
  case ran =>
    rw [State.runVector_sq hf]
    refine ⟨rfl, rfl, rfl, fun e he hid => ?_⟩
    obtain ⟨y, rfl⟩ := Square.mem_updOp (f := fun y =>
      { y with phase := .done, held := false, flags := (vectorRun s q o).flags, faulted := false }) he hid
    exact ⟨rfl, rfl, rfl⟩
  case swapped =>
    rw [State.runSwap_sq hr]
    exact ⟨rfl, rfl, rfl⟩

end Sys2Proof.Machine
end

section
/-!
PROOFS. What sending on a link leaves as it is (R338, R339, R345).
-/

namespace Sys2Proof.Machine

open Sys2Proof

/-- A link without what sending changes: what waits, what went out and is kept, its counts and its keys' counts. -/
def Link.unsent (x : Link) : Link := { x with txKeys := [], txSeq := 0, retained := [], out := [], foreign := (0, 0), waiting := [] }

theorem Link.sendFrames_unsent (slot : Nat) (l : List (List Byte)) (x : Link) : (x.sendFrames slot l).unsent = x.unsent := by
  induction l generalizing x with
  | nil => rfl
  | cons b l ih => exact ih _

theorem Link.emit_unsent (x : Link) (t : Txn) : (x.emit t).unsent = x.unsent := Link.sendFrames_unsent _ _ _

theorem Link.send_unsent (x : Link) (now : Nat) (t : Txn) : (x.send now t).unsent = x.unsent := by
  unfold Link.send
  split
  · rw [Link.emit_unsent]
    split
    · split <;> rfl
    · rfl
  · rfl

theorem Link.drain_unsent (x : Link) (now : Nat) : (x.drain now).unsent = x.unsent :=
  List.foldlRecOn x.waiting _ (motive := fun y : Link => y.unsent = x.unsent) rfl (fun y ih t _ => (y.send_unsent now t).trans ih)

/-! ### On the state -/

theorem State.sendTxn_link (s : State) (l : Nat) (t : Txn) (k : Nat) :
    (s.sendTxn l t).link k = if l = k then (s.link l).send s.now t else s.link k := by
  rw [State.sendTxn, State.link_updLink]

theorem State.sendTxn_frame (s : State) (l : Nat) (t : Txn) : { s.sendTxn l t with links := s.links } = s := rfl

/-- Of a link, sending changes only what waits, what went out and is kept, and the counts. -/
theorem State.sendTxn_unsent (s : State) (l : Nat) (t : Txn) (k : Nat) : ((s.sendTxn l t).link k).unsent = (s.link k).unsent := by
  rw [State.sendTxn_link]
  split
  next h => rw [Link.send_unsent, h]
  next => rfl

/-- A reading of the state that no transaction sent changes. -/
def KeptBySending {β : Type} (g : State → β) : Prop := ∀ s l t, g (State.sendTxn s l t) = g s

section
variable {β : Type} {g : State → β} (hg : KeptBySending g)
include hg

theorem KeptBySending.sendRoute (s : State) (p : Nat) (route : List Byte) (t : Txn) : g (s.sendRoute p route t) = g s := by
  rw [State.sendRoute]
  split
  · rfl
  · exact hg ..

theorem KeptBySending.sendSeat (s : State) (p seat : Nat) (t : Txn) : g (s.sendSeat p seat t) = g s := by
  unfold State.sendSeat
  split
  · exact hg.sendRoute ..
  · rfl

theorem KeptBySending.sendOrdered (s : State) (p l : Nat) (m : TableMsg) : g (s.sendOrdered p l m) = g s :=
  (hg _ _ _).trans (hg _ _ _)

end

theorem keptBySending_frame (a : Tab Link) : KeptBySending (fun t => { t with links := a }) := fun _ _ _ => rfl

theorem keptBySending_unsent (k : Nat) : KeptBySending (fun t => (t.link k).unsent) := fun s l t => s.sendTxn_unsent l t k

theorem keptBySending_channel (m : MoverId) (ch : Nat) : KeptBySending (fun t => t.channel m ch) := fun s l t => by
  cases m with
  | square q => rfl
  | host => rfl
  | link k => exact congrArg (fun x => Tab.get {} (Link.movers x) ch) (s.sendTxn_unsent l t k)

/-! ### Sending to the host -/

/-- The Aslet link without what sending changes. -/
def Aslet.unsent (x : Aslet) : Aslet :=
  { x with txSeq := 0, retained := [], credits := [], waiting := [], out := [], sentTxns := [] }

theorem Aslet.sendFrames_unsent (l : List (List Byte)) (x : Aslet) : (x.sendFrames l).unsent = x.unsent := by
  induction l generalizing x with
  | nil => rfl
  | cons b l ih => exact ih _

theorem Aslet.emit_unsent (x : Aslet) (t : AsletTxn) : (x.emit t).unsent = x.unsent := Aslet.sendFrames_unsent _ _

theorem Aslet.send_unsent (x : Aslet) (t : AsletTxn) : (x.send t).unsent = x.unsent := by
  unfold Aslet.send Aslet.spend
  split
  · rw [Aslet.emit_unsent]
    split <;> rfl
  · rfl

theorem Aslet.drain_unsent (x : Aslet) : x.drain.unsent = x.unsent :=
  List.foldlRecOn x.waiting _ (motive := fun y : Aslet => y.unsent = x.unsent) rfl (fun y ih t _ => (y.send_unsent t).trans ih)

/-- A reading of the state that no frame sent, no session's queue and no lost event changes: no event and no answer changes it. -/
structure KeptByFrames {β : Type} (g : State → β) : Prop where
  session : ∀ s n x, g (State.putSession s n x) = g s
  response : ∀ s l, g { s with responses := l } = g s
  tunnel : ∀ s t, g (State.updAslet s (fun a => a.send t)) = g s
  history : ∀ s l n, g { s with events := l, eventsRaised := n } = g s
  lost : ∀ s, g (State.count s 8) = g s
  lostFlag : ∀ s, g (State.setFlag s 4) = g s

namespace KeptByFrames

variable {β : Type} {g : State → β} (hg : KeptByFrames g)
include hg

theorem updSession (s : State) (n : Nat) (f : Session → Session) : g (s.updSession n f) = g s := by
  unfold State.updSession
  split
  · exact hg.session ..
  · rfl

theorem putFrame (s : State) (f : Response) (x : Option Session) : g (s.putFrame f x) = g s := by
  unfold State.putFrame
  dsimp only
  split
  · exact hg.response ..
  · exact (hg.tunnel ..).trans (hg.response ..)

theorem sendFrame (s : State) (n : Option Nat) (f : Response) : g (s.sendFrame n f) = g s := by
  unfold State.sendFrame
  split
  · exact hg.putFrame ..
  · exact (hg.updSession ..).trans (hg.putFrame ..)

theorem answer (s : State) (r : Req) (kind code : Nat) (v : List Byte) : g (s.answer r kind code v) = g s := by
  unfold State.answer
  dsimp only
  split
  · exact hg.sendFrame ..
  · exact (hg.updSession ..).trans (hg.sendFrame ..)

theorem reply (s : State) (r : Req) (code : Nat) : g (s.reply r code) = g s := hg.answer ..

theorem deliver (s : State) (e : Event) (n : Nat) : g (s.deliver e n) = g s := by
  unfold State.deliver
  split
  · rfl
  · dsimp only
    split
    · refine (hg.sendFrame ..).trans ((hg.updSession ..).trans ?_)
      split
      · rfl
      · exact (hg.sendFrame ..).trans (hg.updSession ..)
    · exact (hg.lostFlag _).trans ((hg.lost _).trans (hg.updSession ..))

/-- An event is delivered to the sessions and kept in the history, and nothing else. -/
theorem raise (s : State) (cls detail : Nat) (part : Option Nat) (loc : List (LocKind × Nat)) (arg : List Nat) :
    g (s.raise cls detail part loc arg) = g s := by
  unfold State.raise
  refine (foldl_keeps g _ _ (fun u x => ?_)).trans (hg.history ..)
  split
  · exact hg.deliver ..
  · rfl

end KeptByFrames

/-- Frames touch the Aslet link only where sending does. -/
theorem keptByFrames_aslet : KeptByFrames (fun t => t.aslet.unsent) where
  session _ _ _ := rfl
  response _ _ := rfl
  tunnel s t := s.aslet.send_unsent t
  history _ _ _ := rfl
  lost _ := rfl
  lostFlag _ := rfl

theorem keptByFrames_channel (m : MoverId) (ch : Nat) : KeptByFrames (fun t => t.channel m ch) where
  session s n x := by cases m <;> rfl
  response s l := by cases m <;> rfl
  tunnel s t := by
    cases m with
    | square q => rfl
    | host => exact congrArg (fun a => Tab.get {} (Aslet.movers a) ch) (s.aslet.send_unsent t)
    | link l => rfl
  history s l n := by cases m <;> rfl
  lost s := by cases m <;> rfl
  lostFlag s := by cases m <;> rfl

/-- The key store, the roots and the memory of the security engine stand: only the sessions take part in frames. -/
theorem keptByFrames_sec : KeptByFrames (fun t => { t.sec with sessions := [] }) where
  session _ _ _ := rfl
  response _ _ := rfl
  tunnel _ _ := rfl
  history _ _ _ := rfl
  lost _ := rfl
  lostFlag _ := rfl

/-- Counters but that of lost events stand. -/
theorem keptByFrames_counter {k : Nat} (hk : k ≠ 8) : KeptByFrames (fun t => Tab.get 0 t.counters k) where
  session _ _ _ := rfl
  response _ _ := rfl
  tunnel _ _ := rfl
  history _ _ _ := rfl
  lost s := Tab.get_upd_ne 0 s.counters hk.symm (fun n => satAdd n 1)
  lostFlag _ := rfl

theorem State.raise_channel (s : State) (cls detail : Nat) (part : Option Nat) (loc : List (LocKind × Nat)) (arg : List Nat)
    (m : MoverId) (ch : Nat) : (s.raise cls detail part loc arg).channel m ch = s.channel m ch := (keptByFrames_channel m ch).raise ..

theorem State.reply_channel (s : State) (r : Req) (code : Nat) (m : MoverId) (ch : Nat) :
    (s.reply r code).channel m ch = s.channel m ch := (keptByFrames_channel m ch).reply ..

end Sys2Proof.Machine
end

section
/-!
PROOFS. Mover operations and descriptors (R153, R158 to R166).
-/

namespace Sys2Proof.Machine

open Sys2Proof

/-! ### The operations of Table MOV-4 -/

theorem State.taken_busyIn (s : State) (q pl : Nat) (r : Rec) (mask : Nat) : (s.taken q pl r).busyIn q mask = s.busyIn q mask := by
  simp only [State.busyIn, State.taken_channel]

/-- Stopping a mask of channels of a Square, and the operation that waits for them. -/
def State.stopOp (s : State) (q pl : Nat) (r : Rec) (to_ : ChPhase) (kind : OpKind) : State :=
  let chs := s.busyIn q (recBytes r 8 2)
  ((s.taken q pl r).stopAll q to_ chs).issueOp q pl r kind (if chs.isEmpty then .done else .waiting) [] 0 [] 0 0

theorem exec_moverAbort {s : State} {q pl : Nat} {r : Rec} (hi : IssuesNow s q pl r 0x51) (hb : recBodyOk r (bytesAt 8 2) = true) :
    exec (.moverAbort q pl) s = .next (s.stopOp q pl r (.aborting 0x01) (.moverAbort (s.busyIn q (recBytes r 8 2)))) := by
  change execMoverAbort q pl s = _
  rw [execMoverAbort, playerOp_acts hi rfl (bodyCheck_none hb _)]
  simp only [State.taken_busyIn, State.abortAll_eq_stopAll, State.stopOp]

theorem exec_moverCancel {s : State} {q pl : Nat} {r : Rec} (hi : IssuesNow s q pl r 0x52) (hb : recBodyOk r (bytesAt 8 2) = true) :
    exec (.moverCancel q pl) s = .next (s.stopOp q pl r (.cancelling 0x06) (.moverCancel (s.busyIn q (recBytes r 8 2)))) := by
  change execMoverCancel q pl s = _
  rw [execMoverCancel, playerOp_acts hi rfl (bodyCheck_none hb _)]
  simp only [State.taken_busyIn, State.cancelAll_eq_stopAll, State.stopOp]

theorem exec_moverStart {s : State} {q pl : Nat} {r : Rec} (hi : IssuesNow s q pl r 0x50)
    (hc : moverStartCheck q (s.takeWaits q pl r) r = none) :
    let i : Int := if msShiftEnable r then (s.indexReg q pl (msIndexReg r) : Int) else 0
    exec (.moverStart q pl) s = .next (((s.taken q pl r).startChain (.square q) (msChannel r) (s.partOf q) (msFirst r)
      (i * recInt r 16) (i * recInt r 20) none 0).issueOp q pl r .moverStart .done [] 0 [] 0 0) := by
  dsimp only
  change execMoverStart q pl s = _
  rw [execMoverStart, playerOp_acts hi rfl hc]
  simp only [State.taken_partOf, State.taken_indexReg]

theorem State.stopOp_channel (s : State) (q pl : Nat) (r : Rec) {to_ : ChPhase} (hto : to_.stops) (kind : OpKind) (ch : Nat) :
    (s.stopOp q pl r to_ kind).channel (.square q) ch =
      if ch ∈ s.busyIn q (recBytes r 8 2) ∧ s.stoppable (s.channel (.square q) ch) = true then
        { s.channel (.square q) ch with phase := to_ }
      else s.channel (.square q) ch := by
  rw [State.stopOp, State.issueOp_channel, State.stopAll_channel _ _ _ hto, State.taken_channel,
    State.stoppable_of_parts (s.taken_parts q pl r)]

theorem State.stopOp_issued (s : State) (q pl : Nat) (r : Rec) (to_ : ChPhase) (kind : OpKind) :
    Issued s (s.stopOp q pl r to_ kind) q pl r kind (if (s.busyIn q (recBytes r 8 2)).isEmpty then .done else .waiting) [] 0 [] :=
  State.issueOp_issued _ _ _ _ _ _ _ _ _ _ _
    (congrArg (fun x => { x with mover := (s.sq q).mover, chain := (s.sq q).chain }) ((s.taken q pl r).stopAll_sq q to_ _ q) :)

/-- A stopping operation touches the Squares only. -/
theorem State.stopOp_frame (s : State) (q pl : Nat) (r : Rec) (to_ : ChPhase) (kind : OpKind) :
    { s.stopOp q pl r to_ kind with squares := s.squares } = s :=
  (congrArg (fun t => { t with squares := s.squares }) ((s.taken q pl r).stopAll_frame q to_ (s.busyIn q (recBytes r 8 2))) :).trans
    (s.taken_frame q pl r)

/-- What O21 says of a channel after the operation. -/
theorem State.stopOp_ends (s : State) (q pl : Nat) (r : Rec) {to_ : ChPhase} (hto : to_.stops) (kind : OpKind) (ch : Nat) :
    let c := s.channel (.square q) ch
    let e := (s.stopOp q pl r to_ kind).channel (.square q) ch
    e.phase = (if ch ∈ s.busyIn q (recBytes r 8 2) ∧ s.stoppable c = true then to_ else c.phase) ∧
      e.done = c.done ∧ e.status = c.status := by
  dsimp only
  rw [State.stopOp_channel s q pl r hto]
  split <;> exact ⟨rfl, rfl, rfl⟩

/-- Settles O21: MOVER_START starts its chain and MOVER_ABORT and MOVER_CANCEL stop the channels of their mask, then the operation takes
its place. -/
theorem moverOperations : Obligations.MoverOperations := by
  unfold Obligations.MoverOperations
  intro s q pl r ends phase
  refine ⟨fun hi hc => ?start, fun hi hb => ?abort, fun hi hb => ?cancel⟩
  case start =>
    let i : Int := if msShiftEnable r then (s.indexReg q pl (msIndexReg r) : Int) else 0
    let v := (s.taken q pl r).startChain (.square q) (msChannel r) (s.partOf q) (msFirst r) (i * recInt r 16) (i * recInt r 20) none 0
    have hsq : { v.sq q with mover := (s.sq q).mover } = { (s.taken q pl r).sq q with mover := (s.sq q).mover } := by
      simp only [v, State.startChain, State.updChannel, State.sq_updSq_same]
    have hf : { v with squares := s.squares } = s := s.taken_frame q pl r
    refine ⟨v.issueOp q pl r .moverStart .done [] 0 [] 0 0, exec_moverStart hi hc, State.issueOp_issued _ _ _ _ _ _ _ _ _ _ _ ?issued, ?channel⟩
    case issued => exact (congrArg (fun x => { x with chain := (s.sq q).chain }) hsq :)
    case channel =>
      have hch : v.channel (.square q) (msChannel r) = _ := (s.taken q pl r).channel_updChannel_same (.square q) (msChannel r) _
      have hother : OtherChannels (s.taken q pl r) v (.square q) (msChannel r) := State.updChannel_other _ _ _ _
      simp only [State.issueOp_channel, hch, State.taken_channel, true_and]
      refine ⟨rfl, rfl, fun ch hne => ?_, (congrArg State.dram hf :), (congrArg State.events hf :), ?acc, ?ls,
        fun k hk => ?otherSq⟩
      · exact (hother _ ch (by simp [hne])).trans (s.taken_channel ..)
      case acc => exact (State.issueOp_acc ..).trans ((congrArg Square.acc hsq :).trans (s.taken_acc ..))
      case ls => exact (State.issueOp_ls ..).trans ((congrArg Square.ls hsq :).trans (s.taken_ls ..))
      case otherSq =>
        exact (State.issueOp_otherSq _ _ _ _ _ _ _ _ _ _ _ hk).trans
          (((s.taken q pl r).sq_updSq ..).trans ((if_neg hk.symm).trans (s.taken_otherSq q pl r hk)))
  case abort =>
    have hf := s.stopOp_frame q pl r (.aborting 0x01) (.moverAbort (s.busyIn q (recBytes r 8 2)))
    exact ⟨_, exec_moverAbort hi hb, s.stopOp_ends q pl r (ChPhase.stops_aborting 1) _, s.stopOp_issued .., (congrArg State.dram hf :),
      (congrArg State.events hf :)⟩
  case cancel =>
    have hf := s.stopOp_frame q pl r (.cancelling 0x06) (.moverCancel (s.busyIn q (recBytes r 8 2)))
    exact ⟨_, exec_moverCancel hi hb, s.stopOp_ends q pl r (ChPhase.stops_cancelling 6) _, s.stopOp_issued .., (congrArg State.dram hf :),
      (congrArg State.events hf :)⟩

/-! ### A descriptor that becomes current -/

theorem exec_descriptorCurrent {s : State} {m : MoverId} {ch : Nat} (hm : moverHas m ch = true)
    (hp : (s.channel m ch).phase = .fetched) (hd : firstDescFault (s.mdUses (s.channel m ch).partition (s.mdesc (s.channel m ch))
      (s.channel m ch).srcShift (s.channel m ch).dstShift) = none) (hv : s.versionShort m ch = false) (hf : s.currentFault m ch = 0) :
    exec (.descriptorCurrent m ch) s = .next (if s.paced m ch then s.activate m ch
      else (s.updChannel m ch (fun y => { y with phase := .pacing })).active (s.channel m ch).partition) := by
  change execDescriptorCurrent m ch s = _
  rw [execDescriptorCurrent, onUnit_next hm]
  simp [hp, hd, hv, hf]

theorem exec_pacingMet {s : State} {m : MoverId} {ch : Nat} (hm : moverHas m ch = true) (hp : (s.channel m ch).phase = .pacing) :
    let d := s.mdesc (s.channel m ch)
    let x := s.part (s.channel m ch).partition
    exec (.pacingMet m ch) s = .next (if mdPaceKind d = 1 then (s.reach (x.turnStart x.turn + mdPaceArg d)).activate m ch
      else if s.paced m ch then s.activate m ch else s) := by
  dsimp only
  change execPacingMet m ch s = _
  rw [execPacingMet, onUnit_next hm]
  simp only [if_pos hp]

theorem State.activate_phase (s : State) (m : MoverId) (ch : Nat) :
    ((s.activate m ch).channel m ch).phase = if (s.channelOp m ch).count = 0 then .written else .active := by
  rw [State.activate, State.channel_updChannel_same]
  simp only [decide_eq_true_eq]

/-- What O22 says of everything but the phase of the channel and the partitions: they stand. -/
def OnlyPhase (s t : State) (m : MoverId) (ch : Nat) : Prop :=
  OtherChannels s t m ch ∧ t.dram = s.dram ∧ t.events = s.events ∧ t.sec = s.sec ∧ SameBoard s t ∧ t.groups = s.groups ∧
    t.fabric = s.fabric ∧ (t.channel m ch).desc = (s.channel m ch).desc ∧ (t.channel m ch).done = (s.channel m ch).done

theorem State.active_parts (s : State) (p : Nat) :
    (s.active p).parts = Tab.upd {} s.parts p (fun x => { x with lastActivity := s.now }) := rfl

/-- A new phase of a channel changes nothing else. -/
theorem State.setPhase_only (s : State) (m : MoverId) (ch : Nat) (to_ : ChPhase) :
    OnlyPhase s (s.updChannel m ch (fun c => { c with phase := to_ })) m ch := by
  refine ⟨s.updChannel_other m ch _, ?_, ?_, ?_, ⟨?_, ?_, ?_, ?_, ?_⟩, ?_, ?_, ?_, ?_⟩ <;> simp

/-- Settles O22: both commands end in `activate`, or in the wait for the pacing, and these set the phase of one channel. -/
theorem descriptorsBegin : Obligations.DescriptorsBegin := by
  unfold Obligations.DescriptorsBegin
  intro s m ch c d x begun only hm
  refine ⟨fun hp hd hv hf => ?current, fun hp hk => ?turnTimer, fun hp hk hpaced => ?count⟩
  case current =>
    cases hpaced : s.paced m ch
    case true =>
      exact ⟨_, (exec_descriptorCurrent hm hp hd hv hf).trans (congrArg Host.Outcome.next (if_pos hpaced)), s.setPhase_only m ch _,
        State.updChannel_now .., s.activate_phase m ch, State.updChannel_parts ..⟩
    case false =>
      obtain ⟨hothers, hrest⟩ := s.setPhase_only m ch .pacing
      refine ⟨_, (exec_descriptorCurrent hm hp hd hv hf).trans (congrArg Host.Outcome.next (if_neg (by simp [hpaced]))),
        ⟨hothers, hrest⟩, State.updChannel_now .., ?_, ?_⟩
      · exact (congrArg Channel.phase (s.channel_updChannel_same m ch _) :)
      · exact (State.active_parts ..).trans (by rw [State.updChannel_now, State.updChannel_parts]; rfl)
  case turnTimer =>
    refine ⟨_, (exec_pacingMet hm hp).trans (congrArg Host.Outcome.next (if_pos hk)), State.setPhase_only (s.reach _) m ch _,
      State.updChannel_parts ..,
      State.updChannel_now .., State.activate_phase (s.reach _) m ch⟩
  case count =>
    exact ⟨_, (exec_pacingMet hm hp).trans (congrArg Host.Outcome.next ((if_neg hk).trans (if_pos hpaced))), s.setPhase_only m ch _,
      State.updChannel_parts ..,
      State.updChannel_now .., s.activate_phase m ch⟩

/-! ### What faults and posts do to the channels -/

/-- A channel stands, or a freeze has begun its abort; an idle channel stands. -/
def Channel.MayAbort (c d : Channel) : Prop := d = c ∨ c.phase ≠ .idle ∧ ∃ n, d = { c with phase := .aborting n }

/-- From one state to another every channel stands, but for aborts that a freeze begins. -/
structure ChannelsStand (s t : State) : Prop where
  mayAbort : ∀ m ch, (s.channel m ch).MayAbort (t.channel m ch)

theorem Channel.MayAbort.trans {c d e : Channel} (h : c.MayAbort d) (k : d.MayAbort e) : c.MayAbort e := by
  rcases h with rfl | ⟨hc, n, rfl⟩
  · exact k
  · rcases k with rfl | ⟨-, m, rfl⟩
    · exact .inr ⟨hc, n, rfl⟩
    · exact .inr ⟨hc, m, rfl⟩

theorem Channel.MayAbort.completions {c d : Channel} (h : c.MayAbort d) : d.completions = c.completions := by
  rcases h with rfl | ⟨-, n, rfl⟩ <;> rfl

theorem Channel.MayAbort.eq_of_idle {c d : Channel} (h : c.MayAbort d) (hc : c.phase = .idle) : d = c :=
  h.resolve_right (fun k => k.1 hc)

theorem ChannelsStand.of_eq {s t : State} (h : ∀ m ch, t.channel m ch = s.channel m ch) : ChannelsStand s t :=
  ⟨fun m ch => .inl (h m ch)⟩

theorem ChannelsStand.refl (s : State) : ChannelsStand s s := .of_eq (fun _ _ => rfl)

theorem ChannelsStand.trans {s t u : State} (h : ChannelsStand s t) (k : ChannelsStand t u) : ChannelsStand s u :=
  ⟨fun m ch => (h.mayAbort m ch).trans (k.mayAbort m ch)⟩

theorem State.abortChannel_stand (s : State) (m : MoverId) (ch cause : Nat) : ChannelsStand s (s.abortChannel m ch cause) := by
  refine ⟨fun n k => ?_⟩
  unfold State.abortChannel
  split
  next h =>
    rw [State.channel_updChannel]
    split
    next hn =>
      rw [hn.1, hn.2]
      refine .inr ⟨fun hi => ?_, cause, rfl⟩
      simp [State.stoppable, hi] at h
    next => exact .inl rfl
  next => exact .inl rfl

theorem State.updPart_channel (s : State) (p : Nat) (f : Partition → Partition) (m : MoverId) (ch : Nat) :
    (s.updPart p f).channel m ch = s.channel m ch := by cases m <;> rfl

theorem State.freezeBut_stand (s : State) (p cause : Nat) (spare : Option (MoverId × Nat)) : ChannelsStand s (s.freezeBut p cause spare) := by
  unfold State.freezeBut
  split
  · exact .refl s
  · dsimp only
    refine List.foldlRecOn _ _ (motive := fun t => ChannelsStand s t) ?_ (fun t ht c _ => ht.trans ?_)
    · exact .of_eq fun m ch => (s.updPart p (fun x => { x with latePosts := 0 })).updPart_channel p _ m ch
    split
    · exact .refl t
    · exact t.abortChannel_stand ..

theorem State.placeFault_stand (s : State) (p detail : Nat) (loc : List (LocKind × Nat)) : ChannelsStand s (s.placeFault p detail loc) :=
  (ChannelsStand.of_eq (s.raise_channel 0x30 detail (some p) loc [] · ·)).trans (State.freezeBut_stand ..)

/-- A change of a Square outside its channels. -/
theorem State.updSq_channel (s : State) (q : Nat) {f : Square → Square} (hf : ∀ x, (f x).mover = x.mover) (m : MoverId) (ch : Nat) :
    (s.updSq q f).channel m ch = s.channel m ch := by
  cases m with
  | square k =>
    simp only [State.channel, State.sq_updSq]
    split
    next h => rw [hf, h]
    next => rfl
  | host => rfl
  | link l => rfl

theorem State.updPlayer_channel (s : State) (q pl : Nat) (f : Player → Player) (m : MoverId) (ch : Nat) :
    (s.updPlayer q pl f).channel m ch = s.channel m ch :=
  s.updSq_channel q (f := (·.updPlayer pl f)) (fun _ => rfl) m ch

theorem State.updEntry_channel (s : State) (q e : Nat) (f : Entry → Entry) (m : MoverId) (ch : Nat) :
    (s.updEntry q e f).channel m ch = s.channel m ch :=
  s.updSq_channel q (f := (·.updEntry e f)) (fun _ => rfl) m ch

theorem State.opFault_stand (s : State) (q pl detail : Nat) (loc : List (LocKind × Nat)) : ChannelsStand s (s.opFault q pl detail loc) :=
  (ChannelsStand.of_eq fun m ch => (State.raise_channel ..).trans (s.updPlayer_channel q pl
    (fun P => { P with stopped := true }) m ch)).trans (State.freezeBut_stand ..)

theorem State.addSlot_stand (s : State) (q pl slot : Nat) (source : List (LocKind × Nat)) : ChannelsStand s (s.addSlot q pl slot source) := by
  unfold State.addSlot
  split
  · exact .of_eq (s.updPlayer_channel q pl _ · ·)
  · exact s.opFault_stand ..

theorem State.applyPost_stand (s : State) (p q e : Nat) (sem : Bool) (n : Nat) : ChannelsStand s (s.applyPost p q e sem n) := by
  unfold State.applyPost
  dsimp only
  have ha : ∀ m ch, (s.active p).channel m ch = s.channel m ch := s.updPart_channel p _
  have he : ∀ m ch, ((s.active p).updEntry q e (fun y => y.setSem sem (y.sem sem + n))).channel m ch = s.channel m ch := fun m ch =>
    (State.updEntry_channel ..).trans (ha m ch)
  split
  · split
    · exact .of_eq fun m ch => (State.updPart_channel ..).trans (he m ch)
    · exact .of_eq he
  · exact (ChannelsStand.of_eq ha).trans (State.placeFault_stand ..)

theorem State.post_stand (s : State) (q e : Nat) (sem : Bool) (n : Nat) : ChannelsStand s (s.post q e sem n) := by
  unfold State.post
  dsimp only
  split
  · exact s.placeFault_stand ..
  · split
    · exact s.applyPost_stand ..
    · split
      · exact .of_eq fun m ch => by cases m <;> rfl
      · exact .of_eq fun m ch => (keptBySending_channel m ch).sendSeat ..

/-! ### The end of a descriptor -/

theorem State.addSlot_dram (s : State) (q pl slot : Nat) (source : List (LocKind × Nat)) : (s.addSlot q pl slot source).dram = s.dram := by
  unfold State.addSlot
  split
  · rfl
  · exact (State.freezeBut_dram ..).trans (State.raise_dram ..)

theorem State.active_channel (s : State) (p : Nat) (m : MoverId) (ch : Nat) : (s.active p).channel m ch = s.channel m ch :=
  s.updPart_channel ..

theorem State.channelEnded_channel (s : State) (m n : MoverId) (ch k : Nat) : (s.channelEnded m ch).channel n k = s.channel n k := by
  unfold State.channelEnded
  split
  · refine s.updSq_channel _ ?_ n k
    exact fun _ => rfl
  · rfl

theorem State.channelEnded_frame (s : State) (m : MoverId) (ch : Nat) : { s.channelEnded m ch with squares := s.squares } = s := by
  unfold State.channelEnded
  split <;> rfl

/-- The status record that a channel leaves (Table MOV-6). -/
def State.lastStatus (s : State) (m : MoverId) (ch state cause : Nat) : MoverStatus :=
  let c := s.channel m ch
  { endTime := s.now, turn := (s.part c.partition).turn, channel := ch, state := state, partition := c.partition, cause := cause
    descriptor := c.desc, residue := if state = 1 then 0 else s.mdTotal c.partition (s.mdesc c) - (c.done - c.unsent)
    faultAddress := if cause = 0x03 then c.faultAddress else 0 }

theorem State.endChannel_phase (s : State) (m : MoverId) (ch state cause : Nat) :
    ((s.endChannel m ch state cause).channel m ch).phase = .idle :=
  (congrArg Channel.phase (s.channel_updChannel_same m ch _) :)

theorem State.endChannel_status (s : State) (m : MoverId) (ch state cause : Nat) :
    ((s.endChannel m ch state cause).channel m ch).status = s.lastStatus m ch state cause :=
  (congrArg Channel.status (s.channel_updChannel_same m ch _) :)

theorem State.endChannel_completions (s : State) (m : MoverId) (ch state cause : Nat) :
    ((s.endChannel m ch state cause).channel m ch).completions = (s.channel m ch).completions :=
  (congrArg Channel.completions (s.channel_updChannel_same m ch _) :)

/-- DESCRIPTOR_COMPLETE after its count, wait slot, post and report: the end of the chain, or the next descriptor. -/
def State.nextDescriptor (s : State) (m : MoverId) (ch : Nat) (d : Rec) : State :=
  if (s.channel m ch).phase = .written then
    if mdNext d = mdEnd then (s.endChannel m ch 0x1 0x00).channelEnded m ch
    else s.updChannel m ch (fun y => { y with phase := .fetched, desc := mdNext d, done := 0, pos := 0, codes := [] })
  else s

/-- What DESCRIPTOR_COMPLETE counts. -/
def State.counted (s : State) (m : MoverId) (ch : Nat) : State :=
  (s.updChannel m ch (fun y => { y with completions := y.completions + 1 })).active (s.channel m ch).partition

/-- The wait slot, the post and the report of a descriptor (R161). -/
def State.told (s : State) (m : MoverId) (ch p desc : Nat) (d : Rec) : State :=
  let t := (s.moverSlot m ch d).moverPost m ch d
  if mdReport d then t.moverReport m ch 0x2F p desc else t

theorem exec_descriptorComplete {s : State} {m : MoverId} {ch : Nat} (hm : moverHas m ch = true)
    (hp : (s.channel m ch).phase = .written) (hb : mdBarrier (s.mdesc (s.channel m ch)) = true → s.answered m ch = true) :
    let c := s.channel m ch
    let d := s.mdesc c
    exec (.descriptorComplete m ch) s = .next (((s.counted m ch).told m ch c.partition c.desc d).nextDescriptor m ch d) := by
  dsimp only
  change execDescriptorComplete m ch s = _
  have hok : (decide ((s.channel m ch).phase = .written) && (!mdBarrier (s.mdesc (s.channel m ch)) || s.answered m ch)) = true := by
    cases h : mdBarrier (s.mdesc (s.channel m ch)) <;> simp_all
  rw [execDescriptorComplete, onUnit_next hm]
  simp only [hok, if_true]
  rfl

theorem State.counted_channel (s : State) (m : MoverId) (ch : Nat) :
    (s.counted m ch).channel m ch = { s.channel m ch with completions := (s.channel m ch).completions + 1 } := by
  rw [State.counted, State.active_channel, State.channel_updChannel_same]

theorem State.counted_now (s : State) (m : MoverId) (ch : Nat) : (s.counted m ch).now = s.now := State.updChannel_now ..

theorem State.nextDescriptor_completions (s : State) (m : MoverId) (ch : Nat) (d : Rec) :
    ((s.nextDescriptor m ch d).channel m ch).completions = (s.channel m ch).completions := by
  unfold State.nextDescriptor
  split
  · split
    · rw [State.channelEnded_channel, State.endChannel_completions]
    · rw [State.channel_updChannel_same]
  · rfl

theorem State.nextDescriptor_last {s : State} {m : MoverId} {ch : Nat} {d : Rec} (hp : (s.channel m ch).phase = .written)
    (hn : mdNext d = mdEnd) : s.nextDescriptor m ch d = (s.endChannel m ch 0x1 0x00).channelEnded m ch := by
  rw [State.nextDescriptor, if_pos hp, if_pos hn]

theorem State.nextDescriptor_fetches {s : State} {m : MoverId} {ch : Nat} {d : Rec} (hp : (s.channel m ch).phase = .written)
    (hn : mdNext d ≠ mdEnd) : (s.nextDescriptor m ch d).channel m ch =
      { s.channel m ch with phase := .fetched, desc := mdNext d, done := 0, pos := 0, codes := [] } := by
  rw [State.nextDescriptor, if_pos hp, if_neg hn, State.channel_updChannel_same]

theorem State.endChannel_dram (s : State) (m : MoverId) (ch state cause : Nat) : (s.endChannel m ch state cause).dram = s.dram :=
  State.updChannel_dram ..

theorem State.endChannel_events (s : State) (m : MoverId) (ch state cause : Nat) : (s.endChannel m ch state cause).events = s.events :=
  State.updChannel_events ..

theorem State.endChannel_now (s : State) (m : MoverId) (ch state cause : Nat) : (s.endChannel m ch state cause).now = s.now :=
  State.updChannel_now ..

/-- A chain's end and the next descriptor touch no memory and raise no event. -/
theorem State.nextDescriptor_keeps {β : Type} (g : State → β) (hupd : ∀ t m ch f, g (State.updChannel t m ch f) = g t)
    (hsq : ∀ t x, g { t with squares := x } = g t) (s : State) (m : MoverId) (ch : Nat) (d : Rec) :
    g (s.nextDescriptor m ch d) = g s := by
  unfold State.nextDescriptor
  split
  · split
    · have hf := State.channelEnded_frame (s.endChannel m ch 0x1 0x00) m ch
      exact (hsq ..).symm.trans ((congrArg g hf).trans (hupd ..))
    · exact hupd ..
  · rfl

theorem State.told_stand (s : State) (m : MoverId) (ch p desc : Nat) (d : Rec) : ChannelsStand s (s.told m ch p desc d) := by
  have hslot : ChannelsStand s (s.moverSlot m ch d) := by
    unfold State.moverSlot
    split
    · exact s.addSlot_stand ..
    · exact .refl s
  have hpost : ChannelsStand s ((s.moverSlot m ch d).moverPost m ch d) := by
    refine hslot.trans ?_
    unfold State.moverPost
    split
    · exact State.post_stand ..
    · exact .refl _
  unfold State.told
  dsimp only
  split
  · exact hpost.trans (.of_eq fun _ _ => State.raise_channel ..)
  · exact hpost

/-- Without wait slot and post only the report is left. -/
theorem State.told_eq (s : State) (m : MoverId) (ch p desc : Nat) {d : Rec} (hs : mdSlotEnable d = false) (hp : mdPostEnable d = false) :
    s.told m ch p desc d = if mdReport d then s.moverReport m ch 0x2F p desc else s := by
  simp [State.told, State.moverSlot, State.moverPost, hs, hp]

theorem exec_moverAbortEnd {s : State} {m : MoverId} {ch cause : Nat} (hm : moverHas m ch = true)
    (hp : (s.channel m ch).phase = .aborting cause) (ha : s.answered m ch = true) :
    let c := s.channel m ch
    let d := s.mdesc c
    let t := (s.endChannel m ch 0x2 cause).active c.partition
    exec (.moverAbortEnd m ch) s = .next (((if mdSlotEnable d then
      t.addSlot (s.homeSquare m ch) (mdSlotPlayer d) (mdSlotIndex d) (moverLoc m ch c.desc) else t).moverReport m ch 0x28 c.partition
        c.desc).channelEnded m ch) := by
  dsimp only
  change execMoverAbortEnd m ch s = _
  rw [execMoverAbortEnd, onUnit_next hm]
  simp only [hp, ha, if_true]

theorem exec_moverCancelEnd {s : State} {m : MoverId} {ch cause : Nat} (hm : moverHas m ch = true)
    (hp : (s.channel m ch).phase = .cancelling cause) (ha : s.answered m ch = true) :
    let c := s.channel m ch
    exec (.moverCancelEnd m ch) s = .next ((((s.endChannel m ch 0x3 cause).active c.partition).moverReport m ch 0x29 c.partition
      c.desc).channelEnded m ch) := by
  dsimp only
  change execMoverCancelEnd m ch s = _
  rw [execMoverCancelEnd, onUnit_next hm]
  simp only [hp, ha, if_true]

theorem State.moverReport_channel (s : State) (m n : MoverId) (ch detail p desc k : Nat) :
    (s.moverReport m ch detail p desc).channel n k = s.channel n k := State.raise_channel ..

theorem State.moverReport_events (s : State) (m : MoverId) (ch detail p desc : Nat) : (s.moverReport m ch detail p desc).events =
    withEvent s.events ⟨s.now, 0x30, detail, some p, moverLoc m ch desc, ((s.channel m ch).status.bytes false).map (·.toNat)⟩ :=
  State.raise_events ..

/-- A channel as a chain that did not complete leaves it. -/
theorem State.ended_of (s : State) {e : Channel} {m : MoverId} {ch state cause : Nat}
    (he : e = (s.endChannel m ch state cause).channel m ch) (hs : state ≠ 1) :
    let c := s.channel m ch
    e.phase = .idle ∧ e.status.state = state ∧ e.status.cause = cause ∧ e.status.descriptor = c.desc ∧ e.status.channel = ch ∧
      e.status.partition = c.partition ∧ e.status.residue = s.mdTotal c.partition (s.mdesc c) - (c.done - c.unsent) ∧
      e.status.endTime = s.now := by
  dsimp only
  rw [he, State.endChannel_phase, State.endChannel_status]
  simp only [State.lastStatus, if_neg hs, true_and]

/-- Settles O23: the parts of DESCRIPTOR_COMPLETE one by one, each leaving the channel's count; the two ends of a chain write their status
record first, and a channel that is idle stands whatever the wait slot does. -/
theorem descriptorsEnd : Obligations.DescriptorsEnd := by
  unfold Obligations.DescriptorsEnd
  intro s m ch c d left told ended hm
  refine ⟨fun hp hb => ?complete, fun cause hp ha => ?abort, fun cause hp ha => ?cancel⟩
  case complete =>
    refine ⟨_, exec_descriptorComplete hm hp hb, ?count, fun hs hq => ?rest⟩
    case count =>
      rw [State.nextDescriptor_completions, ((State.told_stand _ m ch _ _ _).mayAbort m ch).completions, State.counted_channel]
    case rest =>
      let u := (s.counted m ch).told m ch c.partition c.desc d
      have hu : u = if mdReport d then (s.counted m ch).moverReport m ch 0x2F c.partition c.desc else s.counted m ch :=
        State.told_eq _ m ch c.partition c.desc hs hq
      have hch : u.channel m ch = { c with completions := c.completions + 1 } := by
        rw [hu]
        split
        · exact (State.moverReport_channel ..).trans (s.counted_channel m ch)
        · exact s.counted_channel m ch
      have hnow : u.now = s.now := by
        rw [hu]
        split
        · exact (State.raise_now ..).trans (s.counted_now m ch)
        · exact s.counted_now m ch
      have hdram : u.dram = s.dram := by
        rw [hu]
        split
        · exact (State.raise_dram ..).trans (State.updChannel_dram ..)
        · exact State.updChannel_dram ..
      have hphase : (u.channel m ch).phase = .written := (congrArg Channel.phase hch).trans hp
      have hevents : (u.nextDescriptor m ch d).events = u.events :=
        State.nextDescriptor_keeps State.events (fun _ _ _ _ => State.updChannel_events ..) (fun _ _ => rfl) u m ch d
      have hcounted : (s.counted m ch).events = s.events := State.updChannel_events ..
      refine ⟨fun hn => ?last, fun hn => ?fetch, fun hr => ?report, fun hr => ?quiet, ?dram⟩
      case last =>
        rw [State.nextDescriptor_last hphase hn]
        dsimp only [ended]
        rw [State.channelEnded_channel, State.endChannel_phase, State.endChannel_status]
        simp only [State.lastStatus, hch, hnow, if_true, true_and]
      case fetch =>
        rw [State.nextDescriptor_fetches hphase hn]
        exact ⟨rfl, rfl, rfl⟩
      case report =>
        refine hevents.trans ?_
        rw [hu, if_pos hr, State.moverReport_events, s.counted_channel, hcounted, State.counted_now]
      case quiet => rw [hevents, hu, if_neg (by simp [hr]), hcounted]
      case dram =>
        exact (State.nextDescriptor_keeps State.dram (fun _ _ _ _ => State.updChannel_dram ..) (fun _ _ => rfl) u m ch d).trans hdram
  case abort =>
    let t := (s.endChannel m ch 0x2 cause).active c.partition
    let u := if mdSlotEnable d then t.addSlot (s.homeSquare m ch) (mdSlotPlayer d) (mdSlotIndex d) (moverLoc m ch c.desc) else t
    have htphase : (t.channel m ch).phase = .idle := (congrArg Channel.phase (State.active_channel ..)).trans (s.endChannel_phase ..)
    have hu : u.channel m ch = t.channel m ch := by
      dsimp only [u]
      split
      · exact ((t.addSlot_stand ..).mayAbort m ch).eq_of_idle htphase
      · rfl
    have hdram : u.dram = s.dram := by
      dsimp only [u]
      split
      · exact (State.addSlot_dram ..).trans (s.endChannel_dram ..)
      · exact s.endChannel_dram ..
    have hch : ((u.moverReport m ch 0x28 c.partition c.desc).channelEnded m ch).channel m ch = t.channel m ch :=
      (State.channelEnded_channel ..).trans ((State.moverReport_channel ..).trans hu)
    have hf := (u.moverReport m ch 0x28 c.partition c.desc).channelEnded_frame m ch
    refine ⟨_, exec_moverAbortEnd hm hp ha, ?_, (congrArg State.dram hf :).trans ((State.raise_dram ..).trans hdram), fun hs => ?_⟩
    · exact s.ended_of (hch.trans (State.active_channel ..)) (by decide)
    · have hut : u = t := if_neg (by simp [hs])
      refine (congrArg State.events hf :).trans ((State.moverReport_events ..).trans ?_)
      rw [hch, hut]
      exact congrArg₂ withEvent (s.endChannel_events m ch 2 cause) (by rw [← s.endChannel_now m ch 2 cause]; rfl)
  case cancel =>
    let t := (s.endChannel m ch 0x3 cause).active c.partition
    have hch : ((t.moverReport m ch 0x29 c.partition c.desc).channelEnded m ch).channel m ch = t.channel m ch :=
      (State.channelEnded_channel ..).trans (State.moverReport_channel ..)
    have hf := (t.moverReport m ch 0x29 c.partition c.desc).channelEnded_frame m ch
    refine ⟨_, exec_moverCancelEnd hm hp ha, ?_, (congrArg State.dram hf :).trans ((State.raise_dram ..).trans (s.endChannel_dram ..)), ?_⟩
    · exact s.ended_of (hch.trans (State.active_channel ..)) (by decide)
    · refine (congrArg State.events hf :).trans ((State.moverReport_events ..).trans ?_)
      rw [hch]
      exact congrArg₂ withEvent (s.endChannel_events m ch 3 cause) (by rw [← s.endChannel_now m ch 3 cause]; rfl)

end Sys2Proof.Machine
end

section
/-!
PROOFS. Bursts of a channel (R149, R150) and the repeats of a transfer (R351).
-/

namespace Sys2Proof.Machine

open Sys2Proof

/-! ### A burst -/

theorem exec_moverBurst {s : State} {m : MoverId} {ch : Nat} (hm : moverHas m ch = true) :
    exec (.moverBurst m ch) s = .next (s.moverBurst m ch) := onUnit_next hm _

theorem State.moverBurst_stands {s : State} {m : MoverId} {ch : Nat} (h : (s.channel m ch).phase ≠ .active ∨ s.tokenWaits m ch = true) :
    s.moverBurst m ch = s := by
  rw [State.moverBurst, if_pos]
  rcases h with h | h <;> simp [h]

theorem State.moverBurst_service {s : State} {ch : Nat} (ha : (s.channel .host ch).phase = .active)
    (hw : s.tokenWaits .host ch = false) (hc : ch % 2 = 1) : s.moverBurst .host ch = s.serviceBurst (hostPart ch) := by
  simp [State.moverBurst, ha, hw, hc]

theorem State.moverBurst_burst {s : State} {m : MoverId} {ch : Nat} (ha : (s.channel m ch).phase = .active)
    (hw : s.tokenWaits m ch = false) (hc : m ≠ .host ∨ ch % 2 = 0) : s.moverBurst m ch = s.burst m ch := by
  have hn : ¬(m = .host ∧ ch % 2 = 1) := fun ⟨h, k⟩ => hc.elim (fun x => x h) (fun x => by omega)
  rw [State.moverBurst, if_neg (by simp [ha, hw]), if_neg (by simpa using hn)]

section
variable {s : State} {m : MoverId} {ch : Nat}

theorem State.burst_fault {f : RunFault} (h : (s.advanceWalk m ch 0 (s.channel m ch).codes).2 = some f) :
    s.burst m ch = (s.advanceWalk m ch 0 (s.channel m ch).codes).1.moverFault m ch f 0x03 := by
  simp only [State.burst, h]

theorem State.burst_done (h : (s.advanceWalk m ch 0 (s.channel m ch).codes).2 = none)
    (hp : ((s.advanceWalk m ch 0 (s.channel m ch).codes).1.channel m ch).phase ≠ .active) :
    s.burst m ch = (s.advanceWalk m ch 0 (s.channel m ch).codes).1 := by
  simp only [State.burst, h, if_pos hp]

theorem State.burst_stops (h : (s.advanceWalk m ch 0 (s.channel m ch).codes).2 = none)
    (hp : ((s.advanceWalk m ch 0 (s.channel m ch).codes).1.channel m ch).phase = .active)
    (hr : ((s.advanceWalk m ch 0 (s.channel m ch).codes).1.restMoves m ch).isEmpty = true) :
    s.burst m ch = (s.advanceWalk m ch 0 (s.channel m ch).codes).1.stopFault m ch := by
  simp only [State.burst, h, if_neg (not_not_intro hp), if_pos hr]

theorem State.burst_paid (h : (s.advanceWalk m ch 0 (s.channel m ch).codes).2 = none)
    (hp : ((s.advanceWalk m ch 0 (s.channel m ch).codes).1.channel m ch).phase = .active)
    (hr : ((s.advanceWalk m ch 0 (s.channel m ch).codes).1.restMoves m ch).isEmpty = false) :
    s.burst m ch = (s.advanceWalk m ch 0 (s.channel m ch).codes).1.paidBurst m ch := by
  simp only [State.burst, h, if_neg (not_not_intro hp), hr, Bool.false_eq_true, if_false]

/-- A step of the walk of a copy: it moves on by the elements written, and past the last all has been transferred. -/
theorem State.advanceWalk_copy (hk : mdKind (s.mdesc (s.channel m ch)) = 0) (n : Nat) (codes : List Nat) :
    let w := s.advanceWalk m ch n codes
    let c := s.channel m ch
    w.2 = none ∧ (w.1.channel m ch).done = c.done + n ∧
      (w.1.channel m ch).phase = if c.done + n = (s.channelOp m ch).count then .written else c.phase := by
  dsimp only
  unfold State.advanceWalk
  simp only [hk, decide_true, if_true, State.channel_updChannel_same, Option.isNone_none, Bool.and_true, decide_eq_true_eq]
  split <;> simp

/-- A step of the walk of a copy changes its channel only. -/
theorem State.advanceWalk_keeps {β : Type} (g : State → β) (hg : ∀ t f, g (State.updChannel t m ch f) = g t)
    (hk : mdKind (s.mdesc (s.channel m ch)) = 0) (n : Nat) (codes : List Nat) : g (s.advanceWalk m ch n codes).1 = g s := by
  unfold State.advanceWalk
  simp only [hk, decide_true, if_true, State.channel_updChannel_same, Option.isNone_none, Bool.and_true, decide_eq_true_eq]
  split
  · exact (hg _ _).trans (hg _ _)
  · exact hg _ _

/-- The end of a burst of a copy that no fault stops. -/
theorem State.endBurst_copy (hk : mdKind (s.mdesc (s.channel m ch)) = 0) (n : Nat) (codes : List Nat) :
    s.endBurst m ch n codes none = (s.advanceWalk m ch n codes).1.active (s.channel m ch).partition := by
  simp only [State.endBurst, (State.advanceWalk_copy hk n codes).1, Option.or_none]

end

theorem State.sq_ls_updChannel (s : State) (m : MoverId) (ch : Nat) (f : Channel → Channel) (q : Nat) :
    ((s.updChannel m ch f).sq q).ls = (s.sq q).ls := by
  cases m with
  | square k =>
    simp only [State.updChannel, State.sq_updSq]
    split
    next h => rw [h]
    next => rfl
  | host => rfl
  | link l => rfl

/-- A local burst of a copy that no fault stops: its elements are counted, and past the last all has been transferred. -/
theorem localBurst_copies (s : State) (m : MoverId) (ch : Nat) :
    let ms := s.nextMoves m ch
    let x := s.runMoves (s.channel m ch).partition (s.channelOp m ch) (fun i _ => (s.burstCodes m ch ms).getD i 0) ms
    x.2.1 = none → mdKind (x.1.mdesc (x.1.channel m ch)) = 0 →
      let t := s.localBurst m ch
      let e := t.channel m ch
      e.done = (x.1.channel m ch).done + x.2.2 ∧ (e.phase = if e.done = (x.1.channelOp m ch).count then .written
        else (x.1.channel m ch).phase) ∧ OtherChannels x.1 t m ch ∧ t.dram = x.1.dram ∧
        t.parts = (x.1.active (x.1.channel m ch).partition).parts ∧ t.events = x.1.events ∧ ∀ q, (t.sq q).ls = (x.1.sq q).ls := by
  intro ms x hf hk
  have ht : s.localBurst m ch = (x.1.advanceWalk m ch x.2.2 ((s.burstCodes m ch ms).drop x.2.2)).1.active (x.1.channel m ch).partition := by
    rw [← State.endBurst_copy hk, ← hf]
    rfl
  obtain ⟨-, hdone, hphase⟩ := State.advanceWalk_copy hk x.2.2 ((s.burstCodes m ch ms).drop x.2.2)
  have hkeeps {β : Type} (g : State → β) (hg : ∀ t f, g (State.updChannel t m ch f) = g t) :=
    State.advanceWalk_keeps g hg hk x.2.2 ((s.burstCodes m ch ms).drop x.2.2)
  rw [ht]
  refine ⟨?_, ?_, fun n k hn => ?_, ?_, ?_, ?_, fun q => ?_⟩
  · rw [State.active_channel, hdone]
  · rw [State.active_channel, hphase, hdone]
  · exact (State.active_channel ..).trans (hkeeps (fun t => t.channel n k) fun t f => t.updChannel_other m ch f n k hn)
  · exact hkeeps State.dram fun _ _ => State.updChannel_dram ..
  · rw [State.active_parts, State.active_parts, hkeeps State.parts fun _ _ => State.updChannel_parts ..,
      hkeeps State.now fun _ _ => State.updChannel_now ..]
  · exact hkeeps State.events fun _ _ => State.updChannel_events ..
  · exact hkeeps (fun t => (t.sq q).ls) fun t f => t.sq_ls_updChannel m ch f q

/-! ### Repeats -/

theorem transferSems_nodup (r : List Byte) (after : Bool) : (transferSems r after).Nodup := by
  unfold transferSems
  split
  · split <;> split <;> simp
  · split <;> simp

/-- Taking 1 from each semaphore of a list. -/
theorem State.sem_foldl_ones (l : List (Nat × Bool)) (s : State) (q e : Nat) (sem : Bool) :
    ((l.foldl (fun t w => t.updEntry q w.1 (fun y => y.setSem w.2 (y.sem w.2 - 1))) s).entry q e).sem sem =
      (s.entry q e).sem sem - l.count (e, sem) := by
  induction l generalizing s with
  | nil => rfl
  | cons w l ih =>
    rw [List.foldl_cons, ih, State.entry_updEntry, List.count_cons]
    obtain ⟨k, b⟩ := w
    by_cases he : k = e
    · by_cases hb : b = sem
      · simp [he, hb, Entry.sem_setSem, Nat.sub_sub, Nat.add_comm]
      · simp [he, hb, Entry.sem_setSem]
    · simp [he]

/-- The semaphores of a repeat as one that it waits on. -/
def State.repeatWaits (s : State) (m : MoverId) (ch q : Nat) (ws : List (Nat × Bool)) : State :=
  ws.foldl (fun t w => t.updEntry q w.1 (fun e => e.setWaiter w.2 (.mover m ch))) s

theorem Entry.waiter_setWaiter (x : Entry) (a b : Bool) (w : Waiter) :
    (x.setWaiter a w).waiter b = if a = b then some w else x.waiter b := by
  cases a <;> cases b <;> rfl

theorem State.repeatWaits_sem (s : State) (m : MoverId) (ch q : Nat) (ws : List (Nat × Bool)) (e : Nat) (sem : Bool) :
    ((s.repeatWaits m ch q ws).entry q e).sem sem = (s.entry q e).sem sem :=
  foldl_keeps (fun t => (t.entry q e).sem sem) ws s (fun t w => by
    rw [State.entry_updEntry]
    split
    next h => rw [Entry.sem_setWaiter, h]
    next => rfl)

theorem State.repeatWaits_waiter (ws : List (Nat × Bool)) (s : State) (m : MoverId) (ch q : Nat) (e : Nat) (sem : Bool) :
    ((s.repeatWaits m ch q ws).entry q e).waiter sem = if (e, sem) ∈ ws then some (.mover m ch) else (s.entry q e).waiter sem := by
  induction ws generalizing s with
  | nil => simp [State.repeatWaits]
  | cons w ws ih =>
    refine (ih (s.updEntry q w.1 (fun e => e.setWaiter w.2 (.mover m ch)))).trans ?_
    rw [State.entry_updEntry]
    obtain ⟨k, b⟩ := w
    by_cases he : k = e
    · by_cases hb : b = sem
      · simp [he, hb, Entry.waiter_setWaiter]
      · simp [he, hb, Entry.waiter_setWaiter, Ne.symm hb]
    · simp [he, Ne.symm he]

theorem State.repeatWaits_keeps {β : Type} (g : State → β) (hg : ∀ t q e f, g (State.updEntry t q e f) = g t) (s : State) (m : MoverId)
    (ch q : Nat) (ws : List (Nat × Bool)) : g (s.repeatWaits m ch q ws) = g s :=
  foldl_keeps g ws s (fun _ _ => hg ..)

/-- The semaphores of a list, each with 1 taken, then its chain started. -/
def State.repeatTaken (s : State) (m : MoverId) (ch q : Nat) (ws : List (Nat × Bool)) : State :=
  ws.foldl (fun t w => t.updEntry q w.1 (fun e => e.setSem w.2 (e.sem w.2 - 1))) (s.repeatWaits m ch q ws)

/-- The chain of a repeat whose semaphores are taken. -/
def State.repeatStart (s : State) (m : MoverId) (ch : Nat) (c : Channel) (r : List Byte) : State :=
  let q := rd r 0x10 1
  let spc := if rd r 0 1 = 3 then rd r 0x12 1 else rd r 0x11 1
  s.startChain m ch c.partition (rd r 8 4) (s.transferShift q (rd r 0x11 1) c.repeatNo (sfld (rd r 0x18 4) 0 32))
    (s.transferShift q spc c.repeatNo (sfld (rd r 0x1C 4) 0 32)) c.transfer c.repeatNo

theorem State.repeatTaken_keeps {β : Type} (g : State → β) (hg : ∀ t q e f, g (State.updEntry t q e f) = g t) (s : State) (m : MoverId)
    (ch q : Nat) (ws : List (Nat × Bool)) : g (s.repeatTaken m ch q ws) = g s :=
  (foldl_keeps g ws _ (fun _ _ => hg ..)).trans (s.repeatWaits_keeps g hg m ch q ws)

theorem State.repeatTaken_sem (s : State) (m : MoverId) (ch q : Nat) (ws : List (Nat × Bool)) (e : Nat) (sem : Bool) :
    ((s.repeatTaken m ch q ws).entry q e).sem sem = (s.entry q e).sem sem - ws.count (e, sem) := by
  rw [State.repeatTaken, State.sem_foldl_ones, State.repeatWaits_sem]

theorem exec_transferRepeat {s : State} {m : MoverId} {ch : Nat} (hm : moverHas m ch = true) :
    let c := s.channel m ch
    let r := s.transferOf c
    exec (.transferRepeat m ch) s = .next (if c.transfer.isNone || c.busy then s
      else if c.posted then s.nextRepeat m ch
      else if s.acknowledged m ch then
        ((transferSems r true).foldl (fun t w => t.post (rd r 0x10 1) w.1 w.2 1)
          (s.updChannel m ch (fun y => { y with posted := true }))).nextRepeat m ch
      else s) := onUnit_next hm _

section
variable {s : State} {m : MoverId} {ch : Nat}

theorem State.nextRepeat_ends (ht : (s.channel m ch).transfer.isSome = true) (hb : (s.channel m ch).busy = false)
    (hp : (s.channel m ch).posted = true) (hr : rd (s.transferOf (s.channel m ch)) 0x14 2 ≤ (s.channel m ch).repeatNo) :
    s.nextRepeat m ch = s.updChannel m ch (fun y => { y with transfer := none }) := by
  simp [State.nextRepeat, Option.isSome_iff_ne_none.1 ht, hb, hp, hr]

theorem State.nextRepeat_held (ht : (s.channel m ch).transfer.isSome = true) (hb : (s.channel m ch).busy = false)
    (hp : (s.channel m ch).posted = true) (hr : (s.channel m ch).repeatNo < rd (s.transferOf (s.channel m ch)) 0x14 2)
    (hi : s.mayIssue (s.channel m ch).partition = false) : s.nextRepeat m ch = s := by
  simp [State.nextRepeat, Option.isSome_iff_ne_none.1 ht, hb, hp, Nat.not_le.2 hr, hi]

/-- Whether the entry of a repeat's semaphore lacks it. -/
def State.lacks (s : State) (q : Nat) (w : Nat × Bool) : Bool := !(s.entry q w.1).owns w.2

/-- Whether another waits on a repeat's semaphore. -/
def State.otherWaits (s : State) (m : MoverId) (ch q : Nat) (w : Nat × Bool) : Bool :=
  match (s.entry q w.1).waiter w.2 with
  | some x => decide (x ≠ .mover m ch)
  | none => false

theorem State.otherWaits_eq_false {q : Nat} {w : Nat × Bool} :
    s.otherWaits m ch q w = false ↔ ∀ x, (s.entry q w.1).waiter w.2 = some x → x = .mover m ch := by
  unfold State.otherWaits
  split
  next x h => simp [h]
  next h => simp [h]

/-- A repeat with a next one to start, in a partition that issues: its faults, its wait, its start. -/
theorem State.nextRepeat_waits (ht : (s.channel m ch).transfer.isSome = true) (hb : (s.channel m ch).busy = false)
    (hp : (s.channel m ch).posted = true) (hr : (s.channel m ch).repeatNo < rd (s.transferOf (s.channel m ch)) 0x14 2)
    (hi : s.mayIssue (s.channel m ch).partition = true) :
    let c := s.channel m ch
    let p := c.partition
    let r := s.transferOf c
    let q := rd r 0x10 1
    let ws := transferSems r false
    s.nextRepeat m ch = match ws.find? (s.lacks q), ws.find? (s.otherWaits m ch q) with
      | some w, _ => (s.updChannel m ch (fun y => { y with transfer := none })).placeFault p 0x03 [(.square, q), (.entry, w.1)]
      | none, some w => (s.updChannel m ch (fun y => { y with transfer := none })).placeFault p 0x05 [(.square, q), (.entry, w.1)]
      | none, none =>
        if ws.any (fun w => decide ((s.entry q w.1).sem w.2 = 0)) then s.repeatWaits m ch q ws
        else
          (s.repeatTaken m ch q ws).repeatStart m ch c r := by
  dsimp only
  rw [State.nextRepeat]
  simp only [Option.isNone_eq_false_iff.2 ht, hb, hp, Nat.not_le.2 hr, hi, Bool.not_true, Bool.or_self, Bool.false_eq_true, if_false]
  rfl

theorem State.entry_startChain (s : State) (m : MoverId) (ch p first : Nat) (ss ds : Int) (x : Option Nat) (n q e : Nat) :
    (s.startChain m ch p first ss ds x n).entry q e = s.entry q e := by
  cases m with
  | square k =>
    simp only [State.startChain, State.updChannel, State.entry, State.sq_updSq]
    split
    next h => rw [h]; rfl
    next => rfl
  | host => rfl
  | link l => rfl

/-- A transfer that a semaphore's fault ends. -/
theorem State.repeatFault (s : State) (m : MoverId) (ch p detail : Nat) (loc : List (LocKind × Nat)) :
    let t := (s.updChannel m ch (fun y => { y with transfer := none })).placeFault p detail loc
    (t.channel m ch).transfer = none ∧ (t.part p).frozen = true ∧ t.dram = s.dram ∧
      t.events = withEvent s.events ⟨s.now, 0x30, detail, some p, loc, []⟩ := by
  intro t
  have hstand := (State.placeFault_stand (s.updChannel m ch (fun y => { y with transfer := none })) p detail loc).mayAbort m ch
  rw [State.channel_updChannel_same] at hstand
  refine ⟨?_, State.freezeBut_frozen .., ?_, ?_⟩
  · rcases hstand with h | ⟨-, n, h⟩ <;> exact (congrArg Channel.transfer h :)
  · exact (State.freezeBut_dram ..).trans ((State.raise_dram ..).trans (State.updChannel_dram ..))
  · refine (State.freezeBut_events ..).trans ((State.raise_events ..).trans ?_)
    rw [State.updChannel_events, State.updChannel_now]

end

/-- The work of a burst by the placement of its channel and its far side. -/
theorem State.runBurst_eq (s : State) (m : MoverId) (ch : Nat) : s.runBurst m ch = match m, s.farSide m ch with
    | .host, 2 => s.hostInBurst ch
    | .host, _ => s.hostOutBurst ch
    | .link l, 2 => s.readBurst l ch
    | .link l, _ => s.trainBurst l ch
    | .square _, _ => s.localBurst m ch := by
  unfold State.runBurst
  generalize s.farSide m ch = k
  cases m with
  | square q => rfl
  | host => rcases k with _ | _ | _ | k <;> rfl
  | link l => rcases k with _ | _ | _ | k <;> rfl

/-- Settles O24: MOVER_BURST and TRANSFER_REPEAT by the branches of their definitions; the local burst of a copy by its walk. -/
theorem burstsAndRepeats : Obligations.BurstsAndRepeats := by
  unfold Obligations.BurstsAndRepeats
  refine ⟨fun s m ch => ?burst, fun s m ch => ?repeats⟩
  case burst =>
    intro c runs hm
    refine ⟨fun h => (exec_moverBurst hm).trans (congrArg Host.Outcome.next (State.moverBurst_stands h)), ?service, ?other, localBurst_copies s m ch⟩
    case service =>
      rintro ⟨ha, hw⟩ rfl hc
      exact (exec_moverBurst hm).trans (congrArg Host.Outcome.next (State.moverBurst_service ha hw hc))
    case other =>
      rintro ⟨ha, hw⟩ hc y
      have hex := (exec_moverBurst hm).trans (congrArg Host.Outcome.next (State.moverBurst_burst ha hw hc))
      refine ⟨fun f hf => hex.trans ?_, fun hf hp => hex.trans ?_, fun hf hp hr => hex.trans ?_, fun hf hp hr => ?_⟩
      · rw [State.burst_fault hf]
      · rw [State.burst_done hf hp]
      · rw [State.burst_stops hf hp hr]
      · intro z
        have hz : s.burst m ch = if z.tokenWaits m ch then z.updChannel m ch (fun k => { k with paid := true }) else z.runBurst m ch :=
          State.burst_paid hf hp hr
        refine ⟨fun ht => hex.trans ?_, fun ht => hex.trans ?_⟩
        · rw [hz, if_pos ht]
        · rw [hz, if_neg (by simp [ht])]
          exact congrArg Host.Outcome.next (z.runBurst_eq m ch)
  case repeats =>
    intro c r q ws owned mine hm
    have hex := exec_transferRepeat (s := s) hm
    refine ⟨fun h => hex.trans (congrArg Host.Outcome.next (if_pos ?_)), fun ht hb => ?running⟩
    · rcases h with h | h
      · rw [show (s.channel m ch).transfer = none from h]; rfl
      · rw [show (s.channel m ch).busy = true from h, Bool.or_true]
    case running =>
      have hn : ((s.channel m ch).transfer.isNone || (s.channel m ch).busy) = false := by
        rw [Option.isNone_eq_false_iff.2 ht, show (s.channel m ch).busy = false from hb]; rfl
      simp only [hn, Bool.false_eq_true, if_false] at hex
      refine ⟨fun hp ha => ?_, fun hp ha => ?_, fun hp hr => ?_, fun hp hr => ?next⟩
      · rw [hex, if_neg (by simp [c, hp]), if_neg (by simp [ha])]
      · rw [hex, if_neg (by simp [c, hp]), if_pos ha]
      · rw [hex, if_pos hp, State.nextRepeat_ends ht hb hp hr]
      case next =>
        rw [if_pos hp] at hex
        have hwaits := State.nextRepeat_waits (s := s) ht hb hp hr
        refine ⟨fun hi => by rw [hex, State.nextRepeat_held ht hb hp hr hi], fun hi hown hmine => ?issues, fun detail hi hbad => ?fault⟩
        case issues =>
          have hl : ws.find? (s.lacks q) = none := List.find?_eq_none.2 fun w hw => by simp [State.lacks, hown w hw]
          have ho : ws.find? (s.otherWaits m ch q) = none :=
            List.find?_eq_none.2 fun w hw => by rw [State.otherWaits_eq_false.2 (hmine w hw)]; simp
          have hnext := hex.trans (congrArg Host.Outcome.next (hwaits hi))
          rw [show (transferSems (s.transferOf (s.channel m ch)) false).find? _ = none from hl,
            show (transferSems (s.transferOf (s.channel m ch)) false).find? _ = none from ho] at hnext
          dsimp only at hnext
          refine ⟨fun hall => ?starts, fun hsome => ?stays⟩
          case starts =>
            rw [if_neg (by simpa [Nat.pos_iff_ne_zero, Nat.one_le_iff_ne_zero] using hall)] at hnext
            let u := s.repeatTaken m ch q ws
            have hkeeps {β : Type} (g : State → β) (hg : ∀ t q e f, g (State.updEntry t q e f) = g t) : g u = g s :=
              s.repeatTaken_keeps g hg m ch q ws
            have hch : ∀ n k, u.channel n k = s.channel n k := fun n k => hkeeps (fun t => t.channel n k) fun _ _ _ _ =>
              State.updEntry_channel ..
            have hcount : ∀ e sem, ((u.repeatStart m ch c r).entry q e).sem sem = (s.entry q e).sem sem - ws.count (e, sem) :=
              fun e sem => (congrArg (Entry.sem · sem) (State.entry_startChain ..)).trans (s.repeatTaken_sem ..)
            have hstart : (u.repeatStart m ch c r).channel m ch = _ := State.channel_updChannel_same ..
            refine ⟨u.repeatStart m ch c r, hnext, ?_, ?_, ?_, ?_, ?_, ?_,
              fun n k hn => (State.updChannel_other _ m ch _ n k hn).trans (hch n k), fun w hw => ?_, fun e sem hw => ?_,
              (State.updChannel_parts ..).trans (hkeeps State.parts fun _ _ _ _ => rfl),
              (State.updChannel_dram ..).trans (hkeeps State.dram fun _ _ _ _ => rfl),
              (State.updChannel_events ..).trans (hkeeps State.events fun _ _ _ _ => rfl)⟩
            any_goals rw [hstart]
            · rw [hcount, List.count_eq_one_of_mem (transferSems_nodup r false) hw]
            · rw [hcount, List.count_eq_zero_of_not_mem hw, Nat.sub_zero]
          case stays =>
            rw [if_pos (by simpa using hsome)] at hnext
            have hkeeps {β : Type} (g : State → β) (hg : ∀ t q e f, g (State.updEntry t q e f) = g t) := s.repeatWaits_keeps g hg m ch q ws
            refine ⟨_, hnext, fun n k => hkeeps (fun t => t.channel n k) fun _ _ _ _ => State.updEntry_channel .., fun e sem => ?_,
              fun w hw => (s.repeatWaits_waiter ..).trans (if_pos hw), hkeeps State.parts fun _ _ _ _ => rfl,
              hkeeps State.dram fun _ _ _ _ => rfl, hkeeps State.events fun _ _ _ _ => rfl⟩
            exact s.repeatWaits_sem ..
        case fault =>
          have hnext := hex.trans (congrArg Host.Outcome.next (hwaits hi))
          have hlacks : ∀ w, s.lacks q w = true ↔ ¬(s.entry q w.1).owns w.2 = true := fun w => by simp [State.lacks]
          rcases hbad with ⟨hown, rfl⟩ | ⟨hown, hmine, rfl⟩
          · obtain ⟨w, hw⟩ : ∃ w, ws.find? (s.lacks q) = some w := by
              obtain ⟨w, hw, hno⟩ := not_forall₂.1 hown
              exact Option.isSome_iff_exists.1 (List.find?_isSome.2 ⟨w, hw, (hlacks w).2 hno⟩)
            rw [show (transferSems (s.transferOf (s.channel m ch)) false).find? _ = some w from hw] at hnext
            obtain ⟨htransfer, hfrozen, hdram, hevents⟩ := s.repeatFault m ch c.partition 0x03 [(.square, q), (.entry, w.1)]
            exact ⟨_, hnext, htransfer, hfrozen, hdram, w, List.mem_of_find?_eq_some hw, hevents⟩
          · have hl : ws.find? (s.lacks q) = none := List.find?_eq_none.2 fun w hw => by simp [State.lacks, hown w hw]
            obtain ⟨w, hw⟩ : ∃ w, ws.find? (s.otherWaits m ch q) = some w := by
              obtain ⟨w, hw, hno⟩ := not_forall₂.1 hmine
              refine Option.isSome_iff_exists.1 (List.find?_isSome.2 ⟨w, hw, ?_⟩)
              exact Bool.not_eq_false _ ▸ fun h => hno (State.otherWaits_eq_false.1 h)
            rw [show (transferSems (s.transferOf (s.channel m ch)) false).find? _ = none from hl,
              show (transferSems (s.transferOf (s.channel m ch)) false).find? _ = some w from hw] at hnext
            obtain ⟨htransfer, hfrozen, hdram, hevents⟩ := s.repeatFault m ch c.partition 0x05 [(.square, q), (.entry, w.1)]
            exact ⟨_, hnext, htransfer, hfrozen, hdram, w, List.mem_of_find?_eq_some hw, hevents⟩

end Sys2Proof.Machine
end

section
/-!
PROOFS. Messages of the Board fabric at their Square (R33, R106, R113, R114).
-/

namespace Sys2Proof.Machine

open Sys2Proof

theorem State.active_otherParts (s : State) (p : Nat) : OtherParts s (s.active p) p := fun k hk => by
  rw [State.active, State.part_updPart, if_neg hk.symm]

/-- Only entry e of Square q, what the Square has in flight, partition p and the messages under way change. -/
structure EntryOnly (s t : State) (q e p : Nat) : Prop where
  entries : ∀ k, k ≠ e → t.entry q k = s.entry q k
  squares : ∀ k, k ≠ q → t.sq k = s.sq k
  parts : OtherParts s t p
  frame : { t with squares := s.squares, parts := s.parts, fabric := s.fabric } = s

namespace EntryOnly

variable {s t u : State} {q e p : Nat}

theorem trans (h : EntryOnly s t q e p) (k : EntryOnly t u q e p) : EntryOnly s u q e p where
  entries n hn := (k.entries n hn).trans (h.entries n hn)
  squares n hn := (k.squares n hn).trans (h.squares n hn)
  parts n hn := (k.parts n hn).trans (h.parts n hn)
  frame := (congrArg (fun x => { x with squares := s.squares, parts := s.parts, fabric := s.fabric }) k.frame :).trans h.frame

/-- What O25 says of everything that the message does not reach. -/
theorem only (h : EntryOnly s t q e p) : (∀ k, k ≠ e → t.entry q k = s.entry q k) ∧ (∀ k, k ≠ q → t.sq k = s.sq k) ∧
    OtherParts s t p ∧ t.dram = s.dram ∧ t.events = s.events ∧ SameLinks s t ∧ SameBoard s t :=
  ⟨h.entries, h.squares, h.parts, (congrArg State.dram h.frame :), (congrArg State.events h.frame :),
    ⟨(congrArg State.links h.frame :), (congrArg State.groups h.frame :)⟩, (congrArg State.power h.frame :),
    (congrArg State.thermal h.frame :), (congrArg State.service h.frame :), (congrArg State.timeSource h.frame :),
    (congrArg State.holdover h.frame :)⟩

theorem setFabric (s : State) (q e p : Nat) (l : List FabricMsg) : EntryOnly s { s with fabric := l } q e p :=
  ⟨fun _ _ => rfl, fun _ _ => rfl, fun _ _ => rfl, rfl⟩

theorem updPart (s : State) (q e p : Nat) (f : Partition → Partition) : EntryOnly s (s.updPart p f) q e p :=
  ⟨fun _ _ => rfl, fun _ _ => rfl, fun _ hk => (s.part_updPart ..).trans (if_neg hk.symm), rfl⟩

theorem active (s : State) (q e p : Nat) : EntryOnly s (s.active p) q e p := updPart s q e p _

theorem updEntry (s : State) (q e p : Nat) (f : Entry → Entry) : EntryOnly s (s.updEntry q e f) q e p :=
  ⟨fun _ hk => (s.entry_updEntry ..).trans (if_neg hk.symm), fun _ hk => (s.sq_updSq ..).trans (if_neg hk.symm), fun _ _ => rfl, rfl⟩

theorem updOp (s : State) (q e p id : Nat) (f : Op → Op) : EntryOnly s (s.updOp q id f) q e p :=
  ⟨fun k _ => by rw [State.entry, State.updOp, State.sq_updSq_same]; rfl, fun _ hk => (s.sq_updSq ..).trans (if_neg hk.symm),
    fun _ _ => rfl, rfl⟩

theorem applyPost {s : State} {p q e : Nat} {sem : Bool} {n : Nat} (h : (s.entry q e).sem sem + n ≤ (s.entry q e).depth) :
    EntryOnly s (s.applyPost p q e sem n) q e p := by
  have hrise := (active s q e p).trans (updEntry _ q e p (fun y => y.setSem sem (y.sem sem + n)))
  simp only [State.applyPost, if_pos h]
  split
  · exact hrise.trans (updPart ..)
  · exact hrise

end EntryOnly

theorem State.counter_count (s : State) (k : Nat) : Tab.get 0 (s.count k).counters k = satAdd (Tab.get 0 s.counters k) 1 :=
  (Tab.get_upd_same 0 s.counters k (fun n => satAdd n 1) :)

/-! ### What a message does once it has come to its Square -/

theorem State.onFabric_arrived {s : State} {m : FabricMsg} {src q : Nat} {f : State → State} (ha : s.arrives m = true)
    (ho : s.owner q = some src) : s.onFabric m src q f = f { s with fabric := s.fabric.erase m } := by
  rw [State.onFabric, if_pos ha]
  exact if_pos ho

theorem State.onFabric_strayed {s : State} {m : FabricMsg} {src q : Nat} {f : State → State} (ha : s.arrives m = true)
    (ho : s.owner q ≠ some src) : s.onFabric m src q f = State.discardPacket { s with fabric := s.fabric.erase m } src q := by
  rw [State.onFabric, if_pos ha]
  exact if_neg ho

theorem exec_semaphorePostMessage {s : State} {q e : Nat} (hq : q < 144) (he : e < 128) (src n epoch fromQ : Nat) (sem : Bool) :
    exec (.semaphorePostMessage (.post src q e sem n epoch fromQ)) s = .next (s.onFabric (.post src q e sem n epoch fromQ) src q
      (fun t => t.arrivePost src q e sem n epoch)) := onUnit_next (by simp [hq, he]) _

theorem exec_linkResetMessage {s : State} {q e : Nat} (hq : q < 144) (he : e < 128) (src epoch fromQ fromE : Nat) :
    exec (.linkResetMessage (.reset src q e epoch fromQ fromE)) s = .next (s.onFabric (.reset src q e epoch fromQ fromE) src q (fun t =>
      if (t.entry q e).isProducer then
        { t.arriveReset src q e epoch with fabric := (t.arriveReset src q e epoch).fabric ++ [.resetAck src fromQ fromE epoch q] }
      else t.arriveReset src q e epoch)) := onUnit_next (by simp [hq, he]) _

theorem exec_linkResetAcknowledged {s : State} {q e : Nat} (hq : q < 144) (he : e < 128) (src epoch fromQ : Nat) :
    exec (.linkResetAcknowledged (.resetAck src q e epoch fromQ)) s = .next (s.onFabric (.resetAck src q e epoch fromQ) src q
      (fun t => t.arriveResetAck src q e)) := onUnit_next (by simp [hq, he]) _

theorem exec_linkCancelChannelsReported {s : State} {q e : Nat} (hq : q < 144) (he : e < 128) {o : Op}
    (ho : (s.sq q).cancelOp e .waiting = some o) (hc : ∀ ch ∈ o.kind.channels, s.isCancelling q ch = false) :
    exec (.linkCancelChannelsReported q e) s = .next (s.resetRing q e o) := by
  have hany : o.kind.channels.any (s.isCancelling q) = false := List.any_eq_false.2 fun ch hch => by simp [hc ch hch]
  change execLinkCancelChannelsReported q e s = _
  rw [execLinkCancelChannelsReported, onUnit_next (by simp [hq, he]), ho]
  simp only [hany, Bool.false_eq_true, if_false]

theorem State.arriveReset_producer {s : State} {p q e epoch : Nat} (h : (s.entry q e).isProducer = true) :
    s.arriveReset p q e epoch = (s.active p).updEntry q e (fun y => { y with epoch := epoch % 16, empty := y.depth }) := if_pos h

theorem State.arriveResetAck_consumer {s : State} {p q e : Nat} (h : (s.entry q e).isConsumer = true) {o : Op}
    (ho : (s.sq q).cancelOp e .working = some o) :
    s.arriveResetAck p q e = (s.active p).updOp q o.id (fun y => { y with phase := .done }) := by
  rw [State.arriveResetAck, if_pos h, ho]

/-- The ring of an entry that a cancellation resets (step 3 of Table SQP-6). -/
def Entry.resets (y : Entry) : Entry := if y.isLocal then { y with full := 0, empty := y.depth } else { y with full := 0 }

theorem State.updOp_entry (s : State) (q id : Nat) (f : Op → Op) (e : Nat) : (s.updOp q id f).entry q e = s.entry q e := by
  rw [State.entry, State.updOp, State.sq_updSq_same]; rfl

/-- Step 3 of Table SQP-6 for the entry itself, whichever end it is. -/
theorem State.resetRing_entry (s : State) (q e : Nat) (o : Op) : (s.resetRing q e o).entry q e = (s.entry q e).resets := by
  have hent : (s.updEntry q e Entry.resets).entry q e = (s.entry q e).resets := (s.entry_updEntry ..).trans (if_pos rfl)
  have hsend : KeptBySending (fun t => t.entry q e) := fun _ _ _ => rfl
  unfold State.resetRing
  dsimp only
  split
  · exact (State.updOp_entry ..).trans hent
  · split
    · exact (State.updOp_entry ..).trans hent
    · exact (hsend.sendSeat ..).trans ((State.updOp_entry ..).trans hent)

/-- Settles O25: each message at its Square, by what it does there, and what it does not reach. -/
theorem fabricMessages : Obligations.FabricMessages := by
  unfold Obligations.FabricMessages
  intro s src q e n epoch fromQ fromE sem x post reset ack only hq he
  refine ⟨fun ha ho hs => ⟨fun hepoch hroom => ?applied, fun hepoch => ?stale⟩, fun ha ho => ?strayed, fun ha ho hp => ?reset,
    fun ha ho hc o hop => ?ack, fun o hop hcan => ?reported⟩
  case applied =>
    let t : State := { s with fabric := s.fabric.erase post }
    have hres : t.arrivePost src q e sem n epoch = t.applyPost src q e sem n := by
      have hs' : (t.entry q e).owns sem = true := hs
      have hepoch' : (t.entry q e).epoch = epoch := hepoch
      simp only [State.arrivePost, hs', hepoch', Bool.not_true, Bool.false_eq_true, if_false, ne_eq, not_true]
    have hex := (exec_semaphorePostMessage (s := s) hq he src n epoch fromQ sem).trans
      (congrArg Host.Outcome.next ((State.onFabric_arrived ha ho).trans hres))
    obtain ⟨hsem, hfabric, -⟩ := State.applyPost_room (s := t) (p := src) hroom
    exact ⟨_, hex, hfabric, hsem, ((EntryOnly.setFabric s q e src _).trans (EntryOnly.applyPost (s := t) hroom)).only⟩
  case stale =>
    let t : State := { s with fabric := s.fabric.erase post }
    have hres : t.arrivePost src q e sem n epoch = (t.active src).updPart src (fun y => { y with stalePosts := satAdd y.stalePosts 1 }) := by
      have hs' : (t.entry q e).owns sem = true := hs
      have hepoch' : (t.entry q e).epoch ≠ epoch := hepoch
      simp only [State.arrivePost, hs', Bool.not_true, Bool.false_eq_true, if_false, if_pos hepoch']
    have hex := (exec_semaphorePostMessage (s := s) hq he src n epoch fromQ sem).trans
      (congrArg Host.Outcome.next ((State.onFabric_arrived ha ho).trans hres))
    have hpart : (t.active src).part src = { s.part src with lastActivity := s.now } := State.part_updPart_same ..
    refine ⟨_, hex, rfl, ?_, rfl, ((EntryOnly.setFabric s q e src _).trans ((EntryOnly.active ..).trans (EntryOnly.updPart ..))).only⟩
    rw [State.part_updPart_same, hpart]
  case strayed =>
    let t : State := { s with fabric := s.fabric.erase post }
    let u := t.raise 0x31 0x06 (some src) [(.square, q)] []
    refine ⟨u.count 1, (exec_semaphorePostMessage (s := s) hq he src n epoch fromQ sem).trans
      (congrArg Host.Outcome.next (State.onFabric_strayed ha ho)), (State.raise_fabric ..), (State.raise_squares ..),
      (State.raise_parts ..), (State.raise_events ..), ?_⟩
    have hu : Tab.get 0 u.counters 1 = Tab.get 0 s.counters 1 := (keptByFrames_counter (by decide)).raise t ..
    rw [← hu]
    exact u.counter_count 1
  case reset =>
    let t : State := { s with fabric := s.fabric.erase reset }
    have hres := State.arriveReset_producer (s := t) (p := src) (epoch := epoch) hp
    have hent : (t.arriveReset src q e epoch).entry q e = { x with epoch := epoch % 16, empty := x.depth } := by
      rw [hres, State.entry_updEntry, if_pos rfl]
      rfl
    have honly : EntryOnly s (t.arriveReset src q e epoch) q e src := by
      rw [hres]
      exact (EntryOnly.setFabric s q e src _).trans ((EntryOnly.active ..).trans (EntryOnly.updEntry ..))
    have hex := (exec_linkResetMessage (s := s) hq he src epoch fromQ fromE).trans
      (congrArg Host.Outcome.next ((State.onFabric_arrived ha ho).trans (if_pos hp)))
    refine ⟨_, hex, ?_, (congrArg Entry.epoch hent :), (congrArg Entry.empty hent :), (congrArg Entry.full hent :),
      (honly.trans (EntryOnly.setFabric ..)).only⟩
    exact congrArg (· ++ _) (congrArg State.fabric hres :)
  case ack =>
    let t : State := { s with fabric := s.fabric.erase ack }
    have hex := (exec_linkResetAcknowledged (s := s) hq he src epoch fromQ).trans
      (congrArg Host.Outcome.next ((State.onFabric_arrived ha ho).trans (State.arriveResetAck_consumer (s := t) hc hop)))
    refine ⟨_, hex, rfl, ((EntryOnly.setFabric s q e src _).trans ((EntryOnly.active ..).trans (EntryOnly.updOp ..))).only, ?_⟩
    rw [State.updOp, State.sq_updSq_same]
    rfl
  case reported =>
    have hent := s.resetRing_entry q e o
    have hring : EntryOnly s (s.updEntry q e Entry.resets) q e src := EntryOnly.updEntry ..
    refine ⟨_, exec_linkCancelChannelsReported hq he hop hcan, ?_, fun hl => ?_, fun hl hseat => ?_⟩
    · rw [hent, Entry.resets]
      split <;> rfl
    · have hr : s.resetRing q e o = (s.updEntry q e Entry.resets).updOp q o.id (fun y => { y with phase := .done }) := if_pos hl
      refine ⟨?_, ?_, ?_⟩
      · rw [hent, Entry.resets, if_pos hl]
      · rw [hr]
        rfl
      · rw [hr]
        exact (hring.trans (EntryOnly.updOp ..)).only
    · have hr : s.resetRing q e o = { (s.updEntry q e Entry.resets).updOp q o.id (fun y => { y with phase := .working }) with
          fabric := s.fabric ++ [.reset (s.partOf q) x.peerSquare x.peerEntry x.epoch q e] } :=
        (if_neg (by simpa using hl)).trans (if_pos hseat)
      rw [hr]
      exact ⟨rfl, ((hring.trans (EntryOnly.updOp ..)).trans (EntryOnly.setFabric ..)).only⟩

end Sys2Proof.Machine
end

section
/-!
PROOFS. Holds and Releases of a seat (R75, R77, R79): what they do to their partition and what they leave.
-/

namespace Sys2Proof.Machine

open Sys2Proof

theorem KeptBySending.flood {β : Type} {g : State → β} (hs : KeptBySending g) (s : State) (p : Nat) (m : TableMsg) (except : Option Nat) :
    g (s.flood p m except) = g s := foldl_keeps g _ s (fun _ _ => hs.sendOrdered ..)

/-- A partition without what Holds and Releases change. -/
def Partition.unheld (x : Partition) : Partition :=
  { x with ownHold := [], holders := [], holdCauses := [], holdTarget := none, resumeAt := none, runState := .running, lastRelease := 0
           seen := [] }

theorem Partition.addHold_unheld (x : Partition) (seat cause target : Nat) : (x.addHold seat cause target).unheld = x.unheld := by
  unfold Partition.addHold
  dsimp only
  split
  · split
    · split <;> rfl
    · rfl
  · rfl

theorem Partition.dropHold_unheld (x : Partition) (seat stamp : Nat) : (x.dropHold seat stamp).unheld = x.unheld := by
  unfold Partition.dropHold
  dsimp only
  split
  · split
    · split <;> rfl
    · rfl
    · rfl
    · split <;> rfl
  · rfl

/-- A reading of the state that neither frames nor link traffic nor the Holds of partition p change. -/
structure KeptByHolds {β : Type} (g : State → β) (p : Nat) : Prop where
  frames : KeptByFrames g
  sending : KeptBySending g
  holds : ∀ s f, (∀ x : Partition, (f x).unheld = x.unheld) → g (State.updPart s p f) = g s

namespace KeptByHolds

variable {β : Type} {g : State → β} {p : Nat} (hg : KeptByHolds g p)
include hg

theorem holdEvent (s : State) (k cause outcome seat : Nat) : g (s.holdEvent k cause outcome seat) = g s := hg.frames.raise ..

theorem takeHold (s : State) (seat cause target : Nat) : g (s.takeHold p seat cause target) = g s := by
  have hadd := hg.holds s (fun y => y.addHold seat cause target) (fun x => x.addHold_unheld ..)
  unfold State.takeHold
  dsimp only
  split
  · exact (hg.holdEvent ..).trans hadd
  · exact hadd

theorem remember (s : State) (m : TableMsg) : g (s.remember p m) = g s := hg.holds _ _ (fun _ => rfl)

theorem requestHold (s : State) (cause : Nat) : g (s.requestHold p cause) = g s := by
  unfold State.requestHold
  dsimp only
  split
  · rfl
  · refine (hg.sending.flood ..).trans ((hg.remember ..).trans ((hg.takeHold ..).trans (hg.holds _ _ ?_)))
    exact fun _ => rfl

theorem dropCause (s : State) (left : List Nat) (c : Nat × Nat) : g (s.updPart p (fun y =>
    { y with ownHold := left, holdCauses := y.holdCauses.filter (fun h => decide (h ≠ c)) })) = g s := hg.holds _ _ (fun _ => rfl)

theorem releaseHold (s : State) (cause outcome : Nat) : g (s.releaseHold p cause outcome) = g s := by
  unfold State.releaseHold
  dsimp only
  split
  · rfl
  · split
    · exact (hg.sending.flood ..).trans ((hg.remember ..).trans ((hg.holds _ _ fun x => x.dropHold_unheld ..).trans
        ((hg.dropCause ..).trans (hg.holdEvent ..))))
    · exact (hg.dropCause ..).trans (hg.holdEvent ..)

end KeptByHolds

/-- A Hold in every Table of the module changes nothing that no Hold of a partition changes. -/
theorem State.holdModule_keeps {β : Type} {g : State → β} (hg : ∀ p, KeptByHolds g p) (s : State) (cause : Nat) :
    g (s.holdModule cause) = g s := foldl_keeps g _ s (fun _ p => (hg p).requestHold ..)

theorem State.releaseModule_keeps {β : Type} {g : State → β} (hg : ∀ p, KeptByHolds g p) (s : State) (cause outcome : Nat) :
    g (s.releaseModule cause outcome) = g s := foldl_keeps g _ s (fun _ p => (hg p).releaseHold ..)

/-! ### The partition of a Hold -/

/-- A partition that takes its own Hold into the holder set (R77). -/
def Partition.asksHold (x : Partition) (now cause : Nat) : Partition :=
  let target := x.firstTurnFrom (now + x.bound)
  let y := ({ x with ownHold := x.ownHold ++ [cause] } : Partition).addHold x.seat (cause % 256) target
  { y with seen := (1, x.seat, now) :: y.seen }

theorem keptByFrames_part (p : Nat) : KeptByFrames (fun t => t.part p) where
  session _ _ _ := rfl
  response _ _ := rfl
  tunnel _ _ := rfl
  history _ _ _ := rfl
  lost _ := rfl
  lostFlag _ := rfl

theorem keptBySending_part (p : Nat) : KeptBySending (fun t => t.part p) := fun _ _ _ => rfl

theorem State.takeHold_part (s : State) (p seat cause target : Nat) :
    (s.takeHold p seat cause target).part p = (s.part p).addHold seat cause target := by
  have hadd := s.part_updPart_same p (fun y => y.addHold seat cause target)
  unfold State.takeHold
  dsimp only
  split
  · exact ((keptByFrames_part p).raise ..).trans hadd
  · exact hadd

theorem State.requestHold_part {s : State} {p cause : Nat} (ht : (s.part p).tabled = true) (hc : (s.part p).ownHold.contains cause = false) :
    (s.requestHold p cause).part p = (s.part p).asksHold s.now cause := by
  unfold State.requestHold
  dsimp only
  rw [if_neg (by rw [ht, hc]; simp)]
  refine ((keptBySending_part p).flood ..).trans ((State.part_updPart_same ..).trans ?_)
  rw [State.takeHold_part, State.part_updPart_same]
  rfl

theorem State.requestHold_stands {s : State} {p cause : Nat} (h : (s.part p).tabled = false ∨ (s.part p).ownHold.contains cause = true) :
    s.requestHold p cause = s := by
  unfold State.requestHold
  dsimp only
  rw [if_pos (by simpa using h)]

/-- The rest of the module: neither a Hold nor a Release of a partition changes another partition, a Square, a memory or the Board. -/
theorem keptByHolds_otherPart {p k : Nat} (hk : k ≠ p) : KeptByHolds (fun t => t.part k) p where
  frames := keptByFrames_part k
  sending := keptBySending_part k
  holds s _ _ := (s.part_updPart ..).trans (if_neg hk.symm)

theorem keptByHolds_unheld (p k : Nat) : KeptByHolds (fun t => (t.part k).unheld) p where
  frames := ⟨fun _ _ _ => rfl, fun _ _ => rfl, fun _ _ => rfl, fun _ _ _ => rfl, fun _ => rfl, fun _ => rfl⟩
  sending _ _ _ := rfl
  holds s f hf := by
    rw [State.part_updPart]
    split
    next h => rw [hf, h]
    next => rfl

/-- The state without what events, sending and partitions' changes touch. -/
def State.board (s : State) : State :=
  { s with parts := [], links := [], events := [], eventsRaised := 0, sec := {}, aslet := {}, responses := [], counters := []
           statusFlags := 0, flagEvents := [] }

theorem keptByHolds_board (p : Nat) : KeptByHolds State.board p where
  frames := ⟨fun _ _ _ => rfl, fun _ _ => rfl, fun _ _ => rfl, fun _ _ _ => rfl, fun _ => rfl, fun _ => rfl⟩
  sending _ _ _ := rfl
  holds _ _ _ := rfl

end Sys2Proof.Machine
end

section
/-!
PROOFS. Turn boundaries, the start instant and the resume of a Table (R61, R66, R78, R79).
-/

namespace Sys2Proof.Machine

open Sys2Proof

/-! ### The module time and a partition's Turn timer, through the work of a boundary -/

/-- What the work of a boundary leaves of a partition: its Turn, its timer, its Hold in effect and the RUN requests. -/
structure Clock where
  turn : Nat
  epoch : Nat
  epochTurn : Nat
  start : Option (Nat × Nat)
  runs : List Req
  turnLength : Nat
  turnLengthSet : Nat
  heldAt : Option Nat
  resumeAt : Option Nat

def Partition.clock (x : Partition) : Clock :=
  ⟨x.turn, x.epoch, x.epochTurn, x.start, x.runs, x.turnLength, x.turnLengthSet, x.heldAt, x.resumeAt⟩

/-- The module time and the timer of a partition. -/
def State.clock (p : Nat) (s : State) : Nat × Clock := (s.now, (s.part p).clock)

theorem keptByFrames_clock (p : Nat) : KeptByFrames (State.clock p) where
  session _ _ _ := rfl
  response _ _ := rfl
  tunnel _ _ := rfl
  history _ _ _ := rfl
  lost _ := rfl
  lostFlag _ := rfl

theorem keptBySending_clock (p : Nat) : KeptBySending (State.clock p) := fun _ _ _ => rfl

theorem State.clock_ite {p : Nat} {c : Prop} [Decidable c] {t u v : State} (ht : t.clock p = v.clock p) (hu : u.clock p = v.clock p) :
    (if c then t else u).clock p = v.clock p := by
  split
  · exact ht
  · exact hu

theorem State.clock_updPart (s : State) (p : Nat) {f : Partition → Partition} (hf : ∀ x, (f x).clock = x.clock) :
    (s.updPart p f).clock p = s.clock p := by
  rw [State.clock, State.part_updPart_same, hf]
  rfl

theorem State.clock_updChannel (s : State) (p : Nat) (m : MoverId) (ch : Nat) (f : Channel → Channel) :
    (s.updChannel m ch f).clock p = s.clock p := by
  rw [State.clock, State.updChannel_part, State.updChannel_now]
  rfl

theorem State.clock_active (s : State) (p : Nat) : (s.active p).clock p = s.clock p := s.clock_updPart p (fun _ => rfl)

theorem State.clock_freezeBut (s : State) (p cause : Nat) (spare : Option (MoverId × Nat)) :
    (s.freezeBut p cause spare).clock p = s.clock p := by
  unfold State.freezeBut
  split
  · rfl
  · refine (foldl_keeps (State.clock p) _ _ (fun t c => ?_)).trans ?_
    · split
      · rfl
      · unfold State.abortChannel
        split
        · exact t.clock_updChannel ..
        · rfl
    · refine ((s.updPart p (fun x => { x with latePosts := 0 })).clock_updPart p ?_).trans (s.clock_updPart p ?_)
      · exact fun _ => rfl
      · exact fun _ => rfl

theorem State.clock_placeFault (s : State) (p detail : Nat) (loc : List (LocKind × Nat)) :
    (s.placeFault p detail loc).clock p = s.clock p := (State.clock_freezeBut ..).trans ((keptByFrames_clock p).raise ..)

/-! ### Transfers and segments -/

/-- A transfer's next repeat changes its channel and the entries of its semaphores, or faults. -/
theorem State.clock_nextRepeat (s : State) (m : MoverId) (ch p : Nat) (hp : (s.channel m ch).partition = p) :
    (s.nextRepeat m ch).clock p = s.clock p := by
  unfold State.nextRepeat
  dsimp only
  rw [hp]
  split
  · rfl
  · split
    · exact s.clock_updChannel ..
    · split
      · rfl
      · split
        · exact (State.clock_placeFault ..).trans (s.clock_updChannel ..)
        · exact (State.clock_placeFault ..).trans (s.clock_updChannel ..)
        · have hwaits := s.repeatWaits_keeps (State.clock p) (fun _ _ _ _ => rfl) m ch
          have htaken := s.repeatTaken_keeps (State.clock p) (fun _ _ _ _ => rfl) m ch
          split
          · exact hwaits ..
          · exact (State.clock_updChannel ..).trans (htaken ..)

theorem State.clock_startTransfer (s : State) (p k : Nat) : (s.startTransfer p k).clock p = s.clock p := by
  unfold State.startTransfer
  dsimp only
  split
  · exact s.clock_placeFault ..
  · refine (State.clock_nextRepeat _ _ _ p ?_).trans (s.clock_updChannel ..)
    rw [State.channel_updChannel_same]

theorem State.clock_startTransfers (s : State) (p i : Nat) : (s.startTransfers p i).clock p = s.clock p :=
  foldl_keeps (State.clock p) _ s (fun t k => t.clock_startTransfer p k)

/-! ### The gate's part -/

theorem KeptByFrames.raiseIf {β : Type} {g : State → β} (hg : KeptByFrames g) (c : Prop) [Decidable c] (s : State) (cls detail : Nat)
    (part : Option Nat) (loc : List (LocKind × Nat)) (arg : List Nat) :
    g (if c then s.raise cls detail part loc arg else s) = g s := by
  split
  · exact hg.raise ..
  · rfl

theorem KeptByFrames.closedEvents {β : Type} {g : State → β} (hg : KeptByFrames g) (s : State) (p : Nat) (m : GateMsg) (stuck : Bool) :
    g (s.closedEvents p m stuck) = g s := by
  unfold State.closedEvents
  dsimp only
  rw [hg.raiseIf, hg.raiseIf, hg.raiseIf, hg.raiseIf]

theorem State.clock_applyAdvances (s : State) (p : Nat) : (s.applyAdvances p).clock p = s.clock p := s.clock_updPart p (fun _ => rfl)

theorem State.clock_applySwaps (s : State) (p : Nat) : (s.applySwaps p).clock p = s.clock p :=
  s.clock_updPart p (fun x => List.foldlRecOn (swapRecords x.book) _ (motive := fun y : Partition => y.clock = x.clock) rfl
    (fun _ h _ _ => h))

theorem State.clock_applyPatches (s : State) (p : Nat) : (s.applyPatches p).clock p = s.clock p :=
  foldl_keeps (State.clock p) _ s (fun t _ => foldl_keeps (State.clock p) _ t (fun _ _ => rfl))

/-- The boundary's decision changes the step's counters, the pool and the patched records. -/
theorem State.clock_applyGate (s : State) (p : Nat) (g : List Byte) : (s.applyGate p g).clock p = s.clock p := by
  have hupd : ∀ (t : State) (f : Partition → Partition), (∀ x, (f x).clock = x.clock) → (t.updPart p f).clock p = t.clock p :=
    fun t f hf => t.clock_updPart p hf
  unfold State.applyGate
  dsimp only
  split
  · rfl
  · split
    · rw [hupd, State.clock_applyPatches, State.clock_applySwaps, State.clock_applyAdvances, hupd, hupd]
      all_goals exact fun _ => rfl
    · have habandon : ∀ (b : Bool) (t : State) (f : Partition → Partition), (∀ x, (f x).clock = x.clock) →
          (if b then (t.updPart p f).applyAdvances p else t).clock p = t.clock p := fun b t f hf => by
        split
        · rw [State.clock_applyAdvances, hupd t f hf]
        · rfl
      split
      · rw [(keptByFrames_clock p).closedEvents, hupd, habandon, hupd, hupd]
        all_goals exact fun _ => rfl
      · rw [habandon, hupd, hupd]
        all_goals exact fun _ => rfl

theorem State.clock_checkpointDone (s : State) (p : Nat) : (s.checkpointDone p).clock p = s.clock p :=
  s.clock_updPart p (fun x => by split <;> rfl)

theorem State.clock_beginStep (s : State) (p : Nat) (g : List Byte) : (s.beginStep p g).clock p = s.clock p :=
  (State.clock_updPart _ p (fun x => by rfl)).trans (foldl_keeps (State.clock p) _ s (fun _ _ => by rfl))

theorem State.clock_planEnter (s : State) (p n : Nat) (g : List Byte) (gi : Nat) : (s.planEnter p n g gi).clock p = s.clock p := by
  unfold State.planEnter
  dsimp only
  have h0 : (if isCheckpointTurn (s.part p).book ((s.part p).planIndex n) then s else s.checkpointDone p).clock p = s.clock p :=
    State.clock_ite rfl (s.clock_checkpointDone p)
  have hstep := State.clock_ite (c := (s.part p).planIndex n = 0) (State.clock_ite (c := (s.part p).gateStuck = true)
    ((State.clock_updPart _ p (f := fun y => { y with inStep := false, stepOpen := false }) (fun _ => rfl)).trans h0)
    ((State.clock_beginStep _ p g).trans h0)) h0
  exact State.clock_ite ((State.clock_applyGate ..).trans hstep) hstep

theorem State.clock_planTurn (s : State) (p n : Nat) : (s.planTurn p n).1.clock p = s.clock p := by
  unfold State.planTurn
  split
  · dsimp only
    split
    · exact (State.clock_updPart _ p (fun x => by rfl)).trans (s.clock_planEnter ..)
    · exact s.clock_planEnter ..
  · rfl

theorem State.clock_runTurn (s : State) (p n : Nat) : (s.runTurn p n).clock p = s.clock p := by
  unfold State.runTurn
  dsimp only
  have hsegs : ∀ (t : State) (l : List Nat) (f : State → Square → Square), (l.foldl (fun t q => t.updSq q (f t)) t).clock p = t.clock p :=
    fun t l f => foldl_keeps (State.clock p) l t (fun _ _ => rfl)
  rw [State.clock_active]
  split
  · rw [State.clock_startTransfers, hsegs, State.clock_planTurn]
    exact s.clock_updPart p (fun _ => rfl)
  · rw [hsegs, State.clock_planTurn]
    exact s.clock_updPart p (fun _ => rfl)

/-! ### The boundary -/

theorem State.clock_turnReset (s : State) (p : Nat) : (s.turnReset p).clock p = s.clock p := by
  refine (State.clock_updPart _ p (f := Partition.settleBounce) fun x => ?_).trans ((foldl_keeps (State.clock p) _ _ fun t c => ?_).trans
    (foldl_keeps (State.clock p) _ s fun _ _ => by rfl))
  · unfold Partition.settleBounce
    split <;> rfl
  · exact t.clock_updChannel ..

theorem State.clock_sendMarks (s : State) (p n : Nat) : (s.sendMarks p n).clock p = s.clock p :=
  foldl_keeps (State.clock p) _ s (fun t l => (keptBySending_clock p).sendOrdered t p l _)

theorem State.clock_trim (s : State) (p : Nat) : (s.trim p).clock p = s.clock p :=
  foldl_keeps (State.clock p) _ s (fun t d => by
    unfold State.trimDomain
    dsimp only
    split <;> rfl)

theorem State.clock_recordSlack (s : State) (p : Nat) : (s.recordSlack p).clock p = s.clock p :=
  foldl_keeps (State.clock p) _ s (fun _ _ => by rfl)

theorem State.requestHold_now (s : State) (p cause : Nat) : (s.requestHold p cause).now = s.now :=
  (congrArg State.now ((keptByHolds_board p).requestHold s cause) :)

/-- A Hold that a running seat requests leaves its timer. -/
theorem State.clock_requestHold {s : State} {p : Nat} (hh : (s.part p).heldAt = none) (hr : (s.part p).resumeAt = none) (cause : Nat) :
    (s.requestHold p cause).clock p = s.clock p := by
  by_cases hstands : (s.part p).tabled = false ∨ (s.part p).ownHold.contains cause = true
  · rw [State.requestHold_stands hstands]
  · obtain ⟨ht, hc⟩ := not_or.1 hstands
    rw [State.clock, State.requestHold_now, State.requestHold_part (Bool.not_eq_false _ ▸ ht) (Bool.not_eq_true _ ▸ hc)]
    simp only [State.clock, Partition.clock, Partition.asksHold, Partition.addHold, hh, hr]

theorem State.clock_overrun {s : State} {p : Nat} (hh : (s.part p).heldAt = none) (hr : (s.part p).resumeAt = none) (n : Nat) :
    (s.overrun p n).clock p = s.clock p := by
  unfold State.overrun
  dsimp only
  have hlate : ∀ (t : State) (f : Partition → Partition), t.clock p = s.clock p → (∀ x, (f x).clock = x.clock) →
      ((t.updPart p f).requestHold p 0x07).clock p = s.clock p := fun t f ht hf => by
    have hu : (t.updPart p f).clock p = s.clock p := (t.clock_updPart p hf).trans ht
    exact (State.clock_requestHold ((congrArg (fun c => c.2.heldAt) hu :).trans hh) ((congrArg (fun c => c.2.resumeAt) hu :).trans hr) _).trans hu
  have hevents := foldl_keeps (State.clock p) (f := fun t q =>
    t.raise 0x10 0x01 (some p) (if q < 144 then [(.square, q)] else [(.seat, (s.part p).seat)]) []) (s.lateUnits p) s
    (fun _ _ => (keptByFrames_clock p).raise ..)
  refine hlate _ _ ?_ (fun _ => by rfl)
  exact State.clock_ite hevents hevents

/-- The timer as a Turn that begins leaves it. -/
theorem State.clock_beginTurn (s : State) (p n : Nat) : (s.beginTurn p n).clock p =
    (s.now, ({ s.part p with turn := n, heldAt := none, resumeAt := none } : Partition).clock) := by
  let u := (s.updPart p (fun y => { y with turn := n, heldAt := none, resumeAt := none
                                           runState := if y.holdTarget.isSome then .draining else .running })).turnReset p
  let v := u.sendMarks p n
  have hv : v.clock p = (s.now, ({ s.part p with turn := n, heldAt := none, resumeAt := none } : Partition).clock) := by
    rw [State.clock_sendMarks, State.clock_turnReset, State.clock, State.part_updPart_same]
    rfl
  have hslack : ((v.recordSlack p).trim p).clock p = v.clock p := (State.clock_trim ..).trans (State.clock_recordSlack ..)
  rw [← hv]
  refine State.clock_ite ?_ (State.clock_ite ?_ (State.clock_ite ?_ ?_))
  · exact (State.clock_trim ..).trans (State.clock_updPart _ p (fun _ => by rfl))
  · exact (State.clock_runTurn ..).trans (State.clock_trim ..)
  · exact (State.clock_runTurn ..).trans hslack
  · have hclock := hslack.trans hv
    exact (State.clock_overrun (congrArg (fun c => c.2.heldAt) hclock :) (congrArg (fun c => c.2.resumeAt) hclock :) n).trans hslack

/-! ### A Hold that takes effect -/

theorem KeptByFrames.beginRetrains {β : Type} {g : State → β} (hg : KeptByFrames g) (hlink : ∀ s l f, g (State.updLink s l f) = g s)
    (hover : ∀ s b, g { s with holdover := b } = g s) (s : State) : g s.beginRetrains = g s := by
  refine foldl_keeps g _ s (fun t l => ?_)
  unfold State.beginRetrain
  dsimp only
  split
  · refine Eq.trans ?_ (hlink t l (fun y => { y with state := 5, retrainMap := some (y.state, y.txLanes, y.rxLanes) }))
    unfold State.timeLost
    split
    · exact (hg.raise ..).trans (hover ..)
    · rfl
  · rfl

/-- A partition whose Hold takes effect at the boundary of Turn n (R78). -/
def Partition.entersHeld (x : Partition) (n now : Nat) : Partition :=
  { x.settleBounce with runState := .held, heldAt := some n, heldSince := now, holdTarget := none
                        resumeAt := if x.holders.isEmpty then some (wholeUs (x.lastRelease + x.bound)) else none }

theorem Partition.settleBounce_turn (x : Partition) : x.settleBounce.turn = x.turn := by
  unfold Partition.settleBounce
  split <;> rfl

/-- The partition and the module time as a Hold that takes effect leaves them. -/
theorem State.enterHeld_held (s : State) (p n : Nat) :
    let t := s.enterHeld p n
    t.now = s.now ∧ (t.part p).runState = .held ∧ (t.part p).heldAt = some n ∧ (t.part p).heldSince = s.now ∧
      (t.part p).holdTarget = none ∧ (t.part p).turn = (s.part p).turn := by
  intro t
  let s1 := if s.workEnded p && !isCheckpointTurn (s.part p).book ((s.part p).planIndex n) then s.checkpointDone p else s
  have h1 : s1.clock p = s.clock p := State.clock_ite (s.clock_checkpointDone p) rfl
  have hframes : KeptByFrames (fun t => (t.now, t.part p)) :=
    ⟨fun _ _ _ => rfl, fun _ _ => rfl, fun _ _ => rfl, fun _ _ _ => rfl, fun _ => rfl, fun _ => rfl⟩
  have ht : (t.now, t.part p) = (s1.now, (s1.updPart p (fun x => x.entersHeld n s.now)).part p) :=
    (hframes.beginRetrains (fun _ _ _ => rfl) (fun _ _ => rfl) _).trans
      (foldl_keeps (fun t => (t.now, t.part p)) _ (s1.updPart p (fun x => x.entersHeld n s.now)) fun u h => hframes.raise ..)
  rw [State.part_updPart_same] at ht
  obtain ⟨hnow, hpart⟩ := Prod.mk.inj ht
  rw [hpart]
  exact ⟨hnow.trans (congrArg Prod.fst h1), rfl, rfl, rfl, rfl,
    (Partition.settleBounce_turn _).trans (congrArg (fun c => c.2.turn) h1 :)⟩

theorem State.boundary_held {s : State} {p n k : Nat} (hk : (s.part p).holdTarget = some k) (hn : k ≤ n) :
    s.boundary p n = s.enterHeld p n := by
  simp only [State.boundary, hk, if_pos hn]

theorem State.boundary_begins {s : State} {p n : Nat} (h : ∀ k, (s.part p).holdTarget = some k → n < k) :
    s.boundary p n = s.beginTurn p n := by
  unfold State.boundary
  split
  next k hk => rw [if_neg (Nat.not_le.2 (h k hk))]
  next => rfl

theorem exec_turnBoundary {s : State} {p : Nat} (hp : p < 16) (hr : (s.part p).runState = .running ∨ (s.part p).runState = .draining) :
    let x := s.part p
    exec (.turnBoundary p) s = .next ((s.reach (x.turnStart (x.turn + 1))).boundary p (x.turn + 1)) :=
  (onUnit_next (decide_eq_true hp) _).trans (congrArg Host.Outcome.next (if_pos hr))

theorem exec_tableStartInstant {s : State} {p : Nat} (hp : p < 16) {st : Nat × Nat} (hst : (s.part p).start = some st) :
    let x := s.part p
    let e := wholeUs (st.1 + x.bound)
    exec (.tableStartInstant p) s = .next (if x.runState = .armed ∧ x.formed then
      x.runs.foldl (fun t r => t.reply r 0) (((s.reach e).updPart p (fun y =>
        { y with epoch := e, epochTurn := 0, turn := 0, start := none, workTurn := none, runs := [], runState := .running })).boundary p 0)
      else s) := by
  dsimp only
  change execTableStartInstant p s = _
  rw [execTableStartInstant, onUnit_next (decide_eq_true hp)]
  simp only [hst]

theorem exec_tableStartInstant_none {s : State} {p : Nat} (hp : p < 16) (hst : (s.part p).start = none) :
    exec (.tableStartInstant p) s = .next s := by
  change execTableStartInstant p s = _
  rw [execTableStartInstant, onUnit_next (decide_eq_true hp)]
  simp only [hst]

theorem exec_tableResume {s : State} {p h r : Nat} (hp : p < 16) (hh : (s.part p).heldAt = some h) (hres : (s.part p).resumeAt = some r)
    (hr : (s.part p).runState = .held) :
    exec (.tableResume p) s = .next (((s.reach r).updPart p (fun y =>
      { y with epoch := r, epochTurn := h
               turnLength := if y.turnLengthSet = 0 then y.turnLength else y.turnLengthSet - 1
               turnLengthSet := 0, lengths := [] })).boundary p h) := by
  change execTableResume p s = _
  rw [execTableResume, onUnit_next (decide_eq_true hp)]
  simp only [hh, hres, if_pos hr]

/-- Settles O26: the Turn that a boundary begins, or the Hold that takes effect there, and what the work of the boundary leaves of the
partition's timer. -/
theorem turnsBegin : Obligations.TurnsBegin := by
  unfold Obligations.TurnsBegin
  intro s p x hp
  refine ⟨fun hr => ?boundary, fun st hst hr hf ht => ?start, fun hf => ?unformed, fun h r hh hres hr ht => ?resume⟩
  case boundary =>
    let u := s.reach (x.turnStart (x.turn + 1))
    refine ⟨_, exec_turnBoundary hp hr, ?_⟩
    by_cases hbegin : ∀ k, x.holdTarget = some k → x.turn + 1 < k
    · have hclock := (congrArg (State.clock p) (State.boundary_begins (s := u) hbegin)).trans (u.clock_beginTurn p (x.turn + 1))
      refine ⟨(congrArg Prod.fst hclock :), fun k hk hle => absurd (hbegin k hk) (by omega), fun _ => ⟨(congrArg (fun c => c.2.turn) hclock :),
        (congrArg (fun c => c.2.heldAt) hclock :)⟩⟩
    · obtain ⟨k, hk, hle⟩ := not_forall₂.1 hbegin
      have heq := State.boundary_held (s := u) hk (Nat.not_lt.1 hle)
      rw [heq]
      obtain ⟨hnow, hrest⟩ := u.enterHeld_held p (x.turn + 1)
      obtain ⟨hrun, hat, hsince, htarget, hturn⟩ := hrest
      exact ⟨hnow, fun _ _ _ => ⟨hrun, hat, hsince.trans hnow.symm, htarget, hturn⟩, fun hb => absurd hb hbegin⟩
  case start =>
    let e := wholeUs (st.1 + x.bound)
    let u := (s.reach e).updPart p (fun y =>
      { y with epoch := e, epochTurn := 0, turn := 0, start := none, workTurn := none, runs := [], runState := .running })
    have hu : u.part p = { x with epoch := e, epochTurn := 0, turn := 0, start := none, workTurn := none, runs := [], runState := .running } :=
      State.part_updPart_same ..
    have htarget : (u.part p).holdTarget = none := (congrArg Partition.holdTarget hu).trans ht
    have hclock : State.clock p (x.runs.foldl (fun t r => t.reply r 0) (u.boundary p 0)) = _ :=
      (foldl_keeps (State.clock p) _ _ fun t r => (keptByFrames_clock p).reply ..).trans
        ((congrArg (State.clock p) (State.boundary_begins (s := u) (by simp [htarget]))).trans (u.clock_beginTurn p 0))
    rw [hu] at hclock
    refine ⟨_, (exec_tableStartInstant hp hst).trans (congrArg Host.Outcome.next (if_pos ⟨hr, hf⟩)), (congrArg (fun c => c.2.epoch) hclock :),
      (congrArg (fun c => c.2.turn) hclock :), (congrArg (fun c => c.2.epochTurn) hclock :), (congrArg (fun c => c.2.start) hclock :),
      (congrArg (fun c => c.2.runs) hclock :), (congrArg Prod.fst hclock :)⟩
  case unformed =>
    cases hst : x.start with
    | none => exact exec_tableStartInstant_none hp hst
    | some st =>
      refine (exec_tableStartInstant hp hst).trans (congrArg Host.Outcome.next (if_neg fun h => ?_))
      rw [show (s.part p).formed = false from hf] at h
      exact Bool.false_ne_true h.2
  case resume =>
    let u := (s.reach r).updPart p (fun y =>
      { y with epoch := r, epochTurn := h
               turnLength := if y.turnLengthSet = 0 then y.turnLength else y.turnLengthSet - 1
               turnLengthSet := 0, lengths := [] })
    have hu : u.part p = { x with epoch := r, epochTurn := h
                                  turnLength := if x.turnLengthSet = 0 then x.turnLength else x.turnLengthSet - 1
                                  turnLengthSet := 0, lengths := [] } := State.part_updPart_same ..
    have htarget : (u.part p).holdTarget = none := (congrArg Partition.holdTarget hu).trans ht
    have hclock := (congrArg (State.clock p) (State.boundary_begins (s := u) (n := h) (by simp [htarget]))).trans (u.clock_beginTurn p h)
    rw [hu] at hclock
    exact ⟨_, exec_tableResume hp hh hres hr, (congrArg (fun c => c.2.epoch) hclock :), (congrArg (fun c => c.2.epochTurn) hclock :),
      (congrArg (fun c => c.2.turn) hclock :), (congrArg (fun c => c.2.heldAt) hclock :), (congrArg (fun c => c.2.resumeAt) hclock :),
      (congrArg Prod.fst hclock :), (congrArg (fun c => c.2.turnLengthSet) hclock :), (congrArg (fun c => c.2.turnLength) hclock :)⟩

end Sys2Proof.Machine
end

section
/-!
PROOFS. Late work and the overrun limit (R74), the time source (R69) and the stalemate timer (R118).
-/

namespace Sys2Proof.Machine

open Sys2Proof

/-! ### The end of late work -/

theorem exec_lateWorkEnd {s : State} {p : Nat} (hp : p < 16) (hl : (s.part p).late ≠ []) (hw : s.workEnded p = true) :
    exec (.lateWorkEnd p) s = .next (match (s.part p).deferred with
      | n :: r => (s.updPart p (fun y => { y with deferred := r })).runTurn p n
      | [] => ((((s.part p).late.filter (fun q => decide (q < 144))).foldl (fun u q =>
          u.updSq q (fun y => { y with overran := true })) s).updPart p (fun y => { y with late := [] })).releaseHold p 0x07 2) :=
  (onUnit_next (decide_eq_true hp) _).trans (congrArg Host.Outcome.next (if_pos ⟨hl, hw⟩))

/-- A list of Squares marked as overrun. -/
theorem State.markLate_overran (l : List Nat) (s : State) (q : Nat) :
    (l.foldl (fun u q => u.updSq q (fun y => { y with overran := true })) s).sq q =
      if q ∈ l then { s.sq q with overran := true } else s.sq q := by
  induction l generalizing s with
  | nil => rfl
  | cons k l ih =>
    rw [List.foldl_cons, ih, State.sq_updSq]
    by_cases hk : k = q
    · subst hk; simp
    · simp [hk, Ne.symm hk]

theorem State.markLate_frame (l : List Nat) (s : State) :
    { l.foldl (fun u q => u.updSq q (fun y => { y with overran := true })) s with squares := s.squares } = s :=
  foldl_keeps (fun t => { t with squares := s.squares }) l s (fun _ _ => by rfl)

theorem Partition.dropHold_ownHold (x : Partition) (seat stamp : Nat) : (x.dropHold seat stamp).ownHold = x.ownHold := by
  unfold Partition.dropHold
  dsimp only
  split
  · split
    · split <;> rfl
    · rfl
    · rfl
    · split <;> rfl
  · rfl

/-- The end of a cause takes it out of the seat's own Hold. -/
theorem State.releaseHold_ownHold (s : State) (p cause outcome : Nat) :
    ((s.releaseHold p cause outcome).part p).ownHold = (s.part p).ownHold.filter (fun c => decide (c ≠ cause)) := by
  unfold State.releaseHold
  dsimp only
  split
  next h =>
    have hno : cause ∉ (s.part p).ownHold := by simpa using h
    exact (List.filter_eq_self.2 fun c hc => decide_eq_true (show c ≠ cause from fun hcc => hno (hcc ▸ hc))).symm
  next h =>
    split
    · refine (congrArg Partition.ownHold ((keptBySending_part p).flood ..)).trans ?_
      rw [State.remember, State.part_updPart_same, State.part_updPart_same]
      exact (Partition.dropHold_ownHold ..).trans (congrArg Partition.ownHold (State.part_updPart_same ..))
    · rw [State.part_updPart_same]

/-! ### A partition that faults -/

/-- What the channels' end, the dropped tokens and the forgotten traffic of a partition that enters FAULTED leave. -/
theorem State.enterFaulted_keeps {β : Type} (g : State → β) (hch : ∀ s m ch f, g (State.updChannel s m ch f) = g s)
    (hdie : ∀ s d f, g (State.updMemDie s d f) = g s) (hlinks : ∀ s l, g { s with links := l } = g s)
    (s : State) (p : Nat) (hpart : ∀ t f, g (State.updPart t p f) = g t) : g (s.enterFaulted p) = g s :=
  (hpart _ _).trans ((hlinks _ _).trans ((foldl_keeps g _ _ fun _ _ => hdie ..).trans (foldl_keeps g _ s fun _ _ => hch ..)))

theorem State.enterFaulted_part (s : State) (p : Nat) : (s.enterFaulted p).part p =
    { (s.part p).settleBounce with runState := .faulted, late := [], deferred := [], holdTarget := none } := by
  refine (State.part_updPart_same ..).trans ?_
  have h := (foldl_keeps (fun t => t.part p) (List.range 8) ((s.busyChannels p).foldl (fun t c => t.endChannel c.1 c.2 0x4 0x08) s)
    (f := fun t d => t.updMemDie d (fun y =>
      { y with waiting := y.waiting.filter (fun r => !(decide (r.1.who = p) && r.1.channel.isSome)) })) (fun _ _ => rfl)).trans
    (foldl_keeps (fun t => t.part p) (s.busyChannels p) s (f := fun t c => t.endChannel c.1 c.2 0x4 0x08) fun t c => State.updChannel_part ..)
  exact congrArg (fun x : Partition =>
    { x.settleBounce with runState := .faulted, late := [], deferred := [], holdTarget := none }) h

theorem exec_overrunTimeout {s : State} {p : Nat} (hp : p < 16) (hl : (s.part p).late ≠ []) (hr : (s.part p).runState = .held)
    (hw : s.workEnded p = false) : exec (.overrunTimeout p) s = .next (((s.reach ((s.part p).heldSince + 100000000)).raise 0x10 0x04 (some p)
      [(.seat, (s.part p).seat)] []).enterFaulted p) :=
  (onUnit_next (decide_eq_true hp) _).trans (congrArg Host.Outcome.next (if_pos ⟨hl, hr, by rw [hw]; rfl⟩))

/-! ### The stalemate timer -/

theorem exec_stalemateTimeout {s : State} {p : Nat} (hp : p < 16) (hr : (s.part p).runState = .running) (hf : (s.part p).frozen = false)
    (hs : s.stalemate p = true) : exec (.stalemateTimeout p) s =
      .next (((s.reach ((s.part p).lastActivity + 1000 * (s.part p).stalemateTimeout)).raise 0x20 (Config.openDetail 0x20) (some p) [] []).freeze
        p 1) := by
  refine (onUnit_next (decide_eq_true hp) _).trans (congrArg Host.Outcome.next (if_pos ?_))
  rw [hr, hf, hs]
  rfl

theorem State.freeze_part {s : State} {p : Nat} (h : (s.part p).frozen = false) (c : Nat) : (s.freeze p c).part p =
    { s.part p with latePosts := 0, frozen := true
                    stalemateRecord := (s.updPart p (fun x => { x with latePosts := 0 })).waitGraph p c } := by
  refine (congrArg (fun t => Tab.get {} t p) (s.freezeBut_parts p c none h) :).trans ?_
  exact (State.part_updPart_same ..).trans (by rw [State.part_updPart_same])

/-- Settles O27: the end of late work by the marks and the Release, the overrun limit by the partition that faults, the time source by its
two equations, the stalemate by the freeze. -/
theorem lateWorkAndTime : Obligations.LateWorkAndTime := by
  unfold Obligations.LateWorkAndTime
  intro s p x
  refine ⟨fun hp hl hw => ⟨fun n r hd => ?segment, fun hd => ?ended⟩, fun hp hl hr hw => ?overrun, ?lost, rfl, fun hp hr hf hs => ?stalemate⟩
  case segment =>
    rw [exec_lateWorkEnd hp hl hw, show (s.part p).deferred = n :: r from hd]
  case ended =>
    let l := x.late.filter (fun q => decide (q < 144))
    let t := l.foldl (fun u q => u.updSq q (fun y => { y with overran := true })) s
    let u := t.updPart p (fun y => { y with late := [] })
    have hex := exec_lateWorkEnd hp hl hw
    rw [show (s.part p).deferred = [] from hd] at hex
    have hf := State.markLate_frame l s
    have hb : (u.releaseHold p 0x07 2).board = u.board := (keptByHolds_board p).releaseHold ..
    have htp : t.part p = x := (congrArg (fun t => State.part t p) hf :)
    have hup : u.part p = { x with late := [] } := (State.part_updPart_same ..).trans (by rw [htp])
    have hsq : ∀ q, (u.releaseHold p 0x07 2).sq q = if q ∈ l then { s.sq q with overran := true } else s.sq q := fun q =>
      (congrArg (fun t => State.sq t q) hb :).trans (s.markLate_overran l q)
    refine ⟨u.releaseHold p 0x07 2, hex, ?_, (congrArg State.now hb :).trans (congrArg State.now hf :), fun q hq hlt => ?_, fun q hq => ?_, ?_,
      fun k hk => ?_, (congrArg State.dram hb :).trans (congrArg State.dram hf :)⟩
    · have hu : ((u.releaseHold p 0x07 2).part p).unheld = (u.part p).unheld := (keptByHolds_unheld p p).releaseHold ..
      exact (congrArg Partition.late hu :).trans (congrArg Partition.late hup)
    · rw [hsq, if_pos (List.mem_filter.2 ⟨hq, decide_eq_true hlt⟩)]
    · rw [hsq, if_neg fun h => hq (List.mem_filter.1 h).1]
    · rw [State.releaseHold_ownHold, hup]
    · refine ((keptByHolds_otherPart hk).releaseHold ..).trans ((State.part_updPart ..).trans ((if_neg hk.symm).trans ?_))
      exact (congrArg (fun t => State.part t k) hf :)
  case overrun =>
    let t := s.reach (x.heldSince + 100000000)
    let u := t.raise 0x10 0x04 (some p) [(.seat, x.seat)] []
    have hkeeps {β : Type} (g : State → β) := State.enterFaulted_keeps g
    refine ⟨u.enterFaulted p, exec_overrunTimeout hp hl hr hw, by rw [State.enterFaulted_part], by rw [State.enterFaulted_part], ?_,
      fun k hk => ?_, ?_, ?_, ?_⟩
    · exact (hkeeps State.now (fun _ _ _ _ => State.updChannel_now ..) (fun _ _ _ => rfl) (fun _ _ => rfl) u p fun _ _ => rfl).trans
        (State.raise_now ..)
    · exact (hkeeps (fun t => t.part k) (fun _ _ _ _ => State.updChannel_part ..) (fun _ _ _ => rfl) (fun _ _ => rfl) u p fun _ _ =>
        (State.part_updPart ..).trans (if_neg hk.symm)).trans ((keptByFrames_part k).raise ..)
    · exact (hkeeps (fun t => t.dram.cells) (fun _ _ _ _ => by simp) (fun _ _ _ => rfl) (fun _ _ => rfl) u p fun _ _ => rfl).trans
        (congrArg Dram.cells (State.raise_dram ..))
    · refine (hkeeps (SameBoard s) (fun _ _ _ _ => by simp [SameBoard]) (fun _ _ _ => rfl) (fun _ _ => rfl) u p fun _ _ => rfl).mpr ?_
      exact ⟨State.raise_power .., State.raise_thermal .., State.raise_service .., State.raise_timeSource .., State.raise_holdover ..⟩
    · have hnow := hkeeps State.now (fun _ _ _ _ => State.updChannel_now ..) (fun _ _ _ => rfl) (fun _ _ => rfl) u p fun _ _ => rfl
      refine (hkeeps State.events (fun _ _ _ _ => State.updChannel_events ..) (fun _ _ _ => rfl) (fun _ _ => rfl) u p fun _ _ => rfl).trans ?_
      rw [hnow, State.raise_now]
      exact State.raise_events ..
  case lost =>
    cases hh : s.holdover
    case true => exact ⟨s, congrArg Host.Outcome.next (if_pos hh), hh, rfl, rfl, rfl, rfl, fun _ => rfl, fun h => Bool.noConfusion h⟩
    case false =>
      exact ⟨_, congrArg Host.Outcome.next (if_neg (by simp [hh])), State.raise_holdover .., State.raise_parts .., State.raise_links ..,
        State.raise_squares .., State.raise_dram .., fun h => Bool.noConfusion h, fun _ => State.raise_events ..⟩
  case stalemate =>
    let t := s.reach (x.lastActivity + 1000 * x.stalemateTimeout)
    let u := t.raise 0x20 (Config.openDetail 0x20) (some p) [] []
    have hup : u.part p = x := (keptByFrames_part p).raise ..
    have hpart := State.freeze_part (s := u) (p := p) (by rw [hup]; exact hf) 1
    refine ⟨u.freeze p 1, exec_stalemateTimeout hp hr hf hs, ?_, ?_, ?_, ?_, fun k hk => ?_, ?_⟩
    · rw [hpart]
    · rw [hpart, hup]; exact hr
    · exact (State.freeze_now ..).trans (State.raise_now ..)
    · rw [State.freeze_events, State.freeze_now, State.raise_now]
      exact State.raise_events ..
    · exact (State.freeze_other u p 1 k hk).trans ((keptByFrames_part k).raise ..)
    · exact (State.freeze_dram ..).trans (State.raise_dram ..)

end Sys2Proof.Machine
end

section
/-!
PROOFS. The Table messages at a seat (R60, R61, R65, R77, R79, R86).
-/

namespace Sys2Proof.Machine

open Sys2Proof

/-! ### What a message at a seat leaves -/

/-- A reading of the state that neither frames nor link traffic nor partition p changes. -/
structure KeptBySeat {β : Type} (g : State → β) (p : Nat) : Prop where
  frames : KeptByFrames g
  sending : KeptBySending g
  part : ∀ s f, g (State.updPart s p f) = g s

theorem keptBySeat_board (p : Nat) : KeptBySeat State.board p :=
  ⟨(keptByHolds_board p).frames, (keptByHolds_board p).sending, fun _ _ => rfl⟩

theorem keptBySeat_otherPart {p k : Nat} (hk : k ≠ p) : KeptBySeat (fun t => t.part k) p :=
  ⟨keptByFrames_part k, keptBySending_part k, fun s _ => (s.part_updPart ..).trans (if_neg hk.symm)⟩

namespace KeptBySeat

variable {β : Type} {g : State → β} {p : Nat} (hg : KeptBySeat g p)
include hg

theorem holds : KeptByHolds g p := ⟨hg.frames, hg.sending, fun s f _ => hg.part s f⟩

theorem rememberOn (s : State) (l : Nat) (m : TableMsg) : g (s.rememberOn p l m) = g s := hg.part ..

theorem refuseJoin (s : State) (m : TableMsg) : g (s.refuseJoin p m) = g s := (hg.frames.raise ..).trans (hg.part ..)

theorem joinedComplete (s : State) : g (s.joinedComplete p) = g s := by
  unfold State.joinedComplete
  exact hg.frames.raiseIf ..

theorem takeJoin (s : State) (l : Nat) (m : TableMsg) : g (s.takeJoin p l m) = g s := by
  unfold State.takeJoin
  dsimp only
  split
  · exact (hg.joinedComplete _).trans ((hg.sending.flood ..).trans ((hg.part ..).trans (hg.part ..)))
  · exact (hg.refuseJoin ..).trans (hg.part ..)

theorem meetJoin (s : State) (l : Nat) (m : TableMsg) : g (s.meetJoin p l m) = g s := by
  unfold State.meetJoin
  dsimp only
  split
  · rfl
  · split
    · split
      · exact hg.rememberOn ..
      · exact (hg.refuseJoin ..).trans (hg.rememberOn ..)
    · exact (hg.takeJoin ..).trans (hg.rememberOn ..)

theorem lengthsAgree (s : State) : g (s.lengthsAgree p) = g s := by
  unfold State.lengthsAgree
  dsimp only
  split
  · rfl
  · split
    · exact hg.holds.releaseHold ..
    · rfl

theorem takeLength (s : State) (m : TableMsg) : g (s.takeLength p m) = g s := by
  unfold State.takeLength
  dsimp only
  split
  · exact hg.part ..
  · split
    · exact (hg.lengthsAgree _).trans (hg.part ..)
    · exact (hg.frames.raise ..).trans (hg.part ..)

end KeptBySeat

/-- What O28 says of everything but the seat's partition. -/
theorem seat_keeps {s u : State} {p : Nat} (hb : u.board = s.board) (ho : OtherParts s u p) :
    OtherParts s u p ∧ u.squares = s.squares ∧ u.dram = s.dram ∧ SameBoard s u ∧ u.now = s.now :=
  ⟨ho, (congrArg State.squares hb :), (congrArg State.dram hb :), ⟨(congrArg State.power hb :), (congrArg State.thermal hb :),
    (congrArg State.service hb :), (congrArg State.timeSource hb :), (congrArg State.holdover hb :)⟩, (congrArg State.now hb :)⟩

/-- The message taken from its link. -/
theorem State.takeTable_some {s t : State} {l kind : Nat} {m : TableMsg} (h : s.takeTable l kind = some (t, m)) :
    m.kind = kind ∧ ∃ r, t = s.updLink l (fun x => { x with tableIn := r }) := by
  unfold State.takeTable at h
  split at h
  · cases h
  next a r _ =>
    split at h
    next hk =>
      obtain ⟨h1, h2⟩ := Prod.mk.inj (Option.some.inj h)
      exact ⟨h2 ▸ hk, r, h1.symm⟩
    next => cases h

section
variable {s t : State} {l kind p : Nat} {m : TableMsg} (h : s.takeTable l kind = some (t, m))
include h

theorem State.takeTable_board : t.board = s.board := by
  obtain ⟨-, r, rfl⟩ := State.takeTable_some h
  rfl

theorem State.takeTable_parts : t.parts = s.parts := by
  obtain ⟨-, r, rfl⟩ := State.takeTable_some h
  rfl

theorem State.takeTable_events : t.events = s.events := by
  obtain ⟨-, r, rfl⟩ := State.takeTable_some h
  rfl

/-- What a judged message leaves, from what its judgement keeps. -/
theorem State.takeTable_keeps {u : State} (hu : ∀ {β : Type} {g : State → β}, KeptBySeat g p → g u = g t) :
    OtherParts s u p ∧ u.squares = s.squares ∧ u.dram = s.dram ∧ SameBoard s u ∧ u.now = s.now :=
  seat_keeps ((hu (keptBySeat_board p)).trans (State.takeTable_board h))
    (fun k hk => (hu (keptBySeat_otherPart hk)).trans (congrArg (fun l => Tab.get ({} : Partition) l k) (State.takeTable_parts h)))

end

/-! ### Joins -/

section
variable {s t : State} {l p : Nat} {m : TableMsg}

theorem exec_joinReceived_early (hl : l < 96) (h : s.takeTable l 4 = some (t, m)) (hp : t.partOfTable m.tableId = none) :
    exec (.joinReceived l) s = .next { t with earlyJoins := t.earlyJoins ++ [(l, m)] } := by
  change execJoinReceived l s = _
  rw [execJoinReceived, onUnit_next (decide_eq_true hl), h]
  simp only [hp]

theorem exec_joinReceived (hl : l < 96) (h : s.takeTable l 4 = some (t, m)) (hp : t.partOfTable m.tableId = some p) :
    exec (.joinReceived l) s = .next (t.meetJoin p l m) := by
  change execJoinReceived l s = _
  rw [execJoinReceived, onUnit_next (decide_eq_true hl), h]
  simp only [hp]

theorem State.refuseJoin_part (s : State) (p : Nat) (m : TableMsg) : (s.refuseJoin p m).part p = { s.part p with joinFault := m.seat } :=
  ((keptByFrames_part p).raise ..).trans (State.part_updPart_same ..)

theorem State.rememberOn_part (s : State) (p l : Nat) (m : TableMsg) :
    (s.rememberOn p l m).part p = { s.part p with seenOn := (l, m.kind, m.seat, m.stamp) :: (s.part p).seenOn } :=
  State.part_updPart_same ..

theorem State.rememberOn_joinOk (s : State) (p l k : Nat) (m a : TableMsg) : (s.rememberOn p l m).joinOk p k a = s.joinOk p k a := by
  unfold State.joinOk
  rw [State.rememberOn_part]
  rfl

/-- A Join that passes the check of R60 joins its seat. -/
theorem State.takeJoin_joins (h : s.joinOk p l m = true) : ((s.takeJoin p l m).part p).tableProtocol =
      min (s.part p).tableProtocol (fld m.arg 0 8) ∧
    ((s.takeJoin p l m).part p).joined = (s.part p).joined ++ [{ seat := m.seat, protocol := fld m.arg 0 8, root := bit m.arg 16 }] := by
  have hpart : (s.takeJoin p l m).part p = { s.part p with
      seen := (m.kind, m.seat, m.stamp) :: (s.part p).seen
      joined := (s.part p).joined ++ [{ seat := m.seat, protocol := fld m.arg 0 8, root := bit m.arg 16 }]
      tableProtocol := min (s.part p).tableProtocol (fld m.arg 0 8) } := by
    unfold State.takeJoin
    rw [if_pos h]
    refine ((keptByFrames_part p).raiseIf ..).trans (((keptBySending_part p).flood ..).trans ((State.part_updPart_same ..).trans ?_))
    rw [State.remember, State.part_updPart_same]
  rw [hpart]
  exact ⟨rfl, rfl⟩

/-- A Join that fails it is refused. -/
theorem State.takeJoin_refuses (h : s.joinOk p l m = false) : s.takeJoin p l m = (s.remember p m).refuseJoin p m := by
  unfold State.takeJoin
  rw [h]
  rfl

theorem State.refuseJoin_events (s : State) (p : Nat) (m : TableMsg) :
    (s.refuseJoin p m).events = withEvent s.events ⟨s.now, 0x11, 0x0F, some p, [(.seat, m.seat)], []⟩ := State.raise_events ..

/-! ### Starts, Holds, Releases and Lengths -/

/-- The Start that fixes Turn 0: the earliest stamp, then the lower seat (R61). -/
def Partition.earliestStart (x : Partition) (m : TableMsg) : Option (Nat × Nat) :=
  match x.start with
  | some b => if m.stamp < b.1 ∨ (m.stamp = b.1 ∧ m.seat < b.2) then some (m.stamp, m.seat) else some b
  | none => some (m.stamp, m.seat)

theorem exec_startReceived (hl : l < 96) (h : s.takeTable l 5 = some (t, m)) (hp : t.partOfTable m.tableId = some p) :
    exec (.startReceived l) s = .next (if (t.part p).knows m then t
      else ((t.remember p m).updPart p (fun x => { x with start := x.earliestStart m })).flood p m (some l)) := by
  change execStartReceived l s = _
  rw [execStartReceived, onUnit_next (decide_eq_true hl), h]
  simp only [hp]
  rfl

theorem exec_holdReceived (hl : l < 96) (h : s.takeTable l 1 = some (t, m)) (hp : t.partOfTable m.tableId = some p) :
    exec (.holdReceived l) s = .next (if (t.part p).knows m then t
      else ((t.remember p m).flood p m (some l)).takeHold p m.seat m.cause (wideTurn (t.part p).turn m.arg)) := by
  change execHoldReceived l s = _
  rw [execHoldReceived, onUnit_next (decide_eq_true hl), h]
  simp only [hp]

theorem exec_releaseReceived (hl : l < 96) (h : s.takeTable l 2 = some (t, m)) (hp : t.partOfTable m.tableId = some p) :
    exec (.releaseReceived l) s = .next (if (t.part p).knows m then t
      else (((t.remember p m).flood p m (some l)).holdEvent p m.cause (releaseOutcome m.cause) m.seat).updPart p
        (fun x => x.dropHold m.seat m.stamp)) := by
  change execReleaseReceived l s = _
  rw [execReleaseReceived, onUnit_next (decide_eq_true hl), h]
  simp only [hp]

theorem exec_lengthReceived (hl : l < 96) (h : s.takeTable l 6 = some (t, m)) (hp : t.partOfTable m.tableId = some p) :
    exec (.lengthReceived l) s = .next (if (t.part p).tableProtocol < 2 then t.count 2
      else if (t.part p).knows m then t else ((t.remember p m).flood p m (some l)).takeLength p m) := by
  change execLengthReceived l s = _
  rw [execLengthReceived, onUnit_next (decide_eq_true hl), h]
  simp only [hp]

theorem State.remember_flood_part (s : State) (p : Nat) (m : TableMsg) (except : Option Nat) :
    ((s.remember p m).flood p m except).part p = { s.part p with seen := (m.kind, m.seat, m.stamp) :: (s.part p).seen } :=
  ((keptBySending_part p).flood ..).trans (State.part_updPart_same ..)

theorem Partition.addHold_holds (x : Partition) (seat cause target k : Nat) :
    (x.addHold seat cause target).holds k = (x.holds k || decide (k = seat)) := by
  have hh : (x.addHold seat cause target).holders = if x.holds seat then x.holders else x.holders ++ [seat] := by
    unfold Partition.addHold
    dsimp only
    split
    · split
      · split <;> rfl
      · rfl
    · rfl
  unfold Partition.holds at *
  rw [hh]
  split
  next h =>
    by_cases hk : k = seat
    · subst hk; rw [h]; rfl
    · simp [hk]
  next => simp [eq_comm]

/-- A Hold of a running Table: it drains towards the earliest target. -/
theorem Partition.addHold_running {x : Partition} (hh : x.heldAt = none) (hr : x.runState = .running) (seat cause target : Nat) :
    (x.addHold seat cause target).runState = .draining ∧ (x.addHold seat cause target).resumeAt = none ∧
      (x.holdTarget = none → (x.addHold seat cause target).holdTarget = some target) := by
  unfold Partition.addHold
  simp only [hh, hr, if_true, true_and]
  intro ht
  rw [ht]

theorem Partition.dropHold_holders (x : Partition) (seat stamp : Nat) :
    (x.dropHold seat stamp).holders = x.holders.filter (fun h => decide (h ≠ seat)) ∧
      (x.dropHold seat stamp).lastRelease = max x.lastRelease stamp := by
  unfold Partition.dropHold
  dsimp only
  split
  · split
    · split <;> exact ⟨rfl, rfl⟩
    · exact ⟨rfl, rfl⟩
    · exact ⟨rfl, rfl⟩
    · split <;> exact ⟨rfl, rfl⟩
  · exact ⟨rfl, rfl⟩

/-- The last Release of a held Table sets its resume instant; one that leaves a Hold of a later Turn drops that Hold where it comes early
enough. -/
theorem Partition.dropHold_held {x : Partition} {seat stamp h : Nat} (hn : x.holders.filter (fun h => decide (h ≠ seat)) = [])
    (hh : x.heldAt = some h) :
    (x.resumeAt = none ∨ x.holdTarget = none → (x.dropHold seat stamp).resumeAt = some (wholeUs (max x.lastRelease stamp + x.bound))) ∧
    (∀ b k, x.resumeAt = some b → x.holdTarget = some k → (x.dropHold seat stamp).resumeAt = some b ∧ (x.dropHold seat stamp).holdTarget =
      if wholeUs (max x.lastRelease stamp + x.bound) ≤ b + (k - h) * x.lengthNs then none else some k) := by
  unfold Partition.dropHold
  simp only [hn, List.isEmpty_nil, if_true, hh]
  refine ⟨fun hnone => ?_, fun b k hb hk => ?_⟩
  · cases hr : x.resumeAt with
    | none => rfl
    | some b =>
      cases ht : x.holdTarget with
      | none => rfl
      | some k => simp [hr, ht] at hnone
  · simp only [hb, hk]
    split
    · exact ⟨rfl, rfl⟩
    · exact ⟨rfl, rfl⟩

theorem State.takeLength_lengths (s : State) (p : Nat) (m : TableMsg) :
    Tab.get 0 ((s.takeLength p m).part p).lengths m.seat = fld m.arg 0 16 := by
  let s1 := s.updPart p (fun y => { y with lengths := Tab.put y.lengths m.seat (fld m.arg 0 16) })
  have h1 : Tab.get 0 (s1.part p).lengths m.seat = fld m.arg 0 16 := by
    rw [State.part_updPart_same]
    exact Tab.get_put_same ..
  have hun : KeptByHolds (fun t => (t.part p).unheld) p := keptByHolds_unheld p p
  have hlen : ∀ u : State, (u.part p).unheld = (s1.part p).unheld → Tab.get 0 (u.part p).lengths m.seat = fld m.arg 0 16 := fun u hu =>
    (congrArg (fun x => Tab.get 0 (Partition.lengths x) m.seat) hu :).trans h1
  unfold State.takeLength
  dsimp only
  split
  · exact h1
  · split
    · refine hlen _ ?_
      unfold State.lengthsAgree
      dsimp only
      split
      · rfl
      · split
        · exact hun.releaseHold ..
        · rfl
    · exact hlen _ (hun.frames.raise ..)

/-! ### Turn marks -/

/-- What a Turn mark in its window does (R65). -/
def State.markTimely (s : State) (p l : Nat) : State :=
  let t := s.updPart p (fun y => { y with lateMarks := Tab.put y.lateMarks l 0 })
  if (t.part p).aligned then t.releaseHold p 0x08 2 else t

/-- What a Turn mark outside its window or with a wrong number does, as the k-th in turn. -/
def State.markFails (s : State) (p l k : Nat) : State :=
  let t := s.updPart p (fun y => { y with lateMarks := Tab.put y.lateMarks l k })
  if 3 ≤ k then (t.raise 0x10 0x02 (some p) [(.link, l)] []).requestHold p 0x08 else t

theorem exec_turnMarkReceived (hl : l < 96) (h : s.takeTable l 3 = some (t, m)) (hp : t.partOfTable m.tableId = some p) :
    let x := t.part p
    exec (.turnMarkReceived l) s = .next (
      if x.knowsOn l m || !(decide (x.runState = .running) || decide (x.runState = .draining)) then t
      else if decide (m.arg = x.turn % 2 ^ 32) && t.markInTime p l then (t.rememberOn p l m).markTimely p l
      else (t.rememberOn p l m).markFails p l (if decide (m.arg = x.turn % 2 ^ 32) then Tab.get 0 x.lateMarks l + 1 else 3)) := by
  dsimp only
  change execTurnMarkReceived l s = _
  rw [execTurnMarkReceived, onUnit_next (decide_eq_true hl), h]
  simp only [hp]
  rfl

theorem KeptBySeat.markTimely {β : Type} {g : State → β} (hg : KeptBySeat g p) (s : State) (l : Nat) : g (s.markTimely p l) = g s := by
  unfold State.markTimely
  dsimp only
  split
  · exact (hg.holds.releaseHold ..).trans (hg.part ..)
  · exact hg.part ..

theorem KeptBySeat.markFails {β : Type} {g : State → β} (hg : KeptBySeat g p) (s : State) (l k : Nat) : g (s.markFails p l k) = g s := by
  unfold State.markFails
  dsimp only
  split
  · exact (hg.holds.requestHold ..).trans ((hg.frames.raise ..).trans (hg.part ..))
  · exact hg.part ..

/-- Of the seat's partition, a timely mark clears its link's count and may end the Hold of cause 0x08. -/
theorem State.markTimely_part (s : State) (p l : Nat) :
    let x := ({ s.part p with lateMarks := Tab.put (s.part p).lateMarks l 0 } : Partition)
    let t := s.markTimely p l
    (t.part p).unheld = x.unheld ∧ (x.aligned = true → 8 ∉ (t.part p).ownHold) ∧
      (x.aligned = false → (t.part p).ownHold = x.ownHold ∧ t.events = s.events) := by
  intro x t
  let u := s.updPart p (fun y => { y with lateMarks := Tab.put y.lateMarks l 0 })
  have hu : u.part p = x := State.part_updPart_same ..
  cases ha : x.aligned
  case true =>
    have ht : t = u.releaseHold p 0x08 2 := if_pos (by rw [hu]; exact ha)
    have hun : (t.part p).unheld = (u.part p).unheld := by
      rw [ht]
      exact (keptByHolds_unheld p p).releaseHold ..
    refine ⟨hun.trans (congrArg Partition.unheld hu), fun _ => ?_, fun h => Bool.noConfusion h⟩
    rw [ht, State.releaseHold_ownHold]
    simp
  case false =>
    have ht : t = u := if_neg (by rw [hu, ha]; exact Bool.false_ne_true)
    rw [ht, hu]
    exact ⟨rfl, fun h => Bool.noConfusion h, fun _ => ⟨rfl, rfl⟩⟩

theorem Partition.addHold_ownHold (x : Partition) (seat cause target : Nat) : (x.addHold seat cause target).ownHold = x.ownHold := by
  unfold Partition.addHold
  dsimp only
  split
  · split
    · split <;> rfl
    · rfl
  · rfl

theorem State.requestHold_ownHold {s : State} {p cause : Nat} (ht : (s.part p).tabled = true) :
    cause ∈ ((s.requestHold p cause).part p).ownHold := by
  cases hc : (s.part p).ownHold.contains cause
  case true => rw [State.requestHold_stands (.inr hc)]; simpa using hc
  case false =>
    rw [State.requestHold_part ht hc, Partition.asksHold]
    dsimp only
    rw [Partition.addHold_ownHold]
    simp

/-- Of the seat's partition, a failing mark sets its link's count, and the third requests the Hold of cause 0x08. -/
theorem State.markFails_part (s : State) (p l k : Nat) (hr : (s.part p).runState = .running ∨ (s.part p).runState = .draining) :
    let x := ({ s.part p with lateMarks := Tab.put (s.part p).lateMarks l k } : Partition)
    let t := s.markFails p l k
    (t.part p).unheld = x.unheld ∧ (3 ≤ k → 8 ∈ (t.part p).ownHold) ∧ (k < 3 → (t.part p).ownHold = x.ownHold ∧ t.events = s.events) := by
  intro x t
  let u := s.updPart p (fun y => { y with lateMarks := Tab.put y.lateMarks l k })
  let v := u.raise 0x10 0x02 (some p) [(.link, l)] []
  have hu : u.part p = x := State.part_updPart_same ..
  have hv : v.part p = x := ((keptByFrames_part p).raise ..).trans hu
  by_cases hk : 3 ≤ k
  · have ht : t = v.requestHold p 0x08 := if_pos hk
    have hun : (t.part p).unheld = (v.part p).unheld := by
      rw [ht]
      exact (keptByHolds_unheld p p).requestHold ..
    refine ⟨hun.trans (congrArg Partition.unheld hv), fun _ => ?_, fun h => absurd h (Nat.not_lt.2 hk)⟩
    rw [ht]
    refine State.requestHold_ownHold ?_
    rw [hv]
    rcases hr with hr | hr <;> simp [x, Partition.tabled, hr]
  · have ht : t = u := if_neg hk
    rw [ht, hu]
    exact ⟨rfl, fun h => absurd h hk, fun _ => ⟨rfl, rfl⟩⟩

end

/-- Settles O28: each message is taken from its link and judged at its seat; what the judgement leaves of the partition is read off its last
steps, and everything else is kept by frames, sending and a change of one partition. -/
theorem tableMessages : Obligations.TableMessages := by
  unfold Obligations.TableMessages
  intro s t l p m x keeps hl
  have keepsOf : ∀ {kind : Nat} {u : State}, s.takeTable l kind = some (t, m) →
      (∀ {β : Type} {g : State → β}, KeptBySeat g p → g u = g t) → keeps u := fun h hu => State.takeTable_keeps h hu
  refine ⟨fun h => ⟨fun hp => ?early, fun hp hk => ?echo, fun hp hk hn => ?again, fun hp hk hn => ?joins⟩, fun h hp => ⟨fun hk => ?_,
    fun hk => ?start⟩,
    fun h hp => ⟨fun hk => ?_, fun hk => ?hold⟩, fun h hp => ⟨fun hk => ?_, fun hk => ?release⟩,
    fun h hp => ⟨fun hv => ?_, fun hv hk => ?_, fun hv hk => ?length⟩, fun h hp => ⟨fun hk => ?_, fun hk hr => ?mark⟩⟩
  case early =>
    have hj : t.earlyJoins = s.earlyJoins := (congrArg State.earlyJoins (State.takeTable_board h) :)
    exact ⟨_, exec_joinReceived_early hl h hp, congrArg (· ++ [(l, m)]) hj, show t.parts = s.parts from State.takeTable_parts h⟩
  case echo =>
    have hex := exec_joinReceived hl h hp
    exact hex.trans (congrArg Host.Outcome.next (if_pos hk))
  case again =>
    have hex := exec_joinReceived hl h hp
    have hmeet : t.meetJoin p l m = if decide (m.seat = x.seat) || t.joinOk p l m then t.rememberOn p l m else (t.rememberOn p l m).refuseJoin p m :=
      (if_neg (by rw [show (t.part p).knowsOn l m = false from hk]; exact Bool.false_ne_true)).trans (if_pos hn)
    have hon : (t.rememberOn p l m).part p = { x with seenOn := (l, m.kind, m.seat, m.stamp) :: x.seenOn } := State.rememberOn_part ..
    refine ⟨t.meetJoin p l m, hex, keepsOf h fun hg => hg.meetJoin .., ?_, fun hok => ?_, fun hne hbad => ?_⟩
    · rw [hmeet]
      split
      · rw [hon]
      · rw [State.refuseJoin_part, hon]
    · rw [hmeet, if_pos (by simpa using hok), hon]
      exact ⟨rfl, (State.takeTable_events h :)⟩
    · rw [hmeet, if_neg (by simp [hne, hbad]), State.refuseJoin_part, State.refuseJoin_events]
      have hevents : (t.rememberOn p l m).events = s.events := (State.takeTable_events h :)
      have hnow : (t.rememberOn p l m).now = s.now := (congrArg State.now (State.takeTable_board h) :)
      exact ⟨rfl, by rw [hevents, hnow]⟩
  case joins =>
    have hex := exec_joinReceived hl h hp
    have hmeet : t.meetJoin p l m = (t.rememberOn p l m).takeJoin p l m :=
      (if_neg (by rw [show (t.part p).knowsOn l m = false from hk]; exact Bool.false_ne_true)).trans
        (if_neg (by rw [show ((t.part p).knows m && !(t.part p).noEcho m) = false from hn]; exact Bool.false_ne_true))
    have hon : (t.rememberOn p l m).part p = { x with seenOn := (l, m.kind, m.seat, m.stamp) :: x.seenOn } := State.rememberOn_part ..
    refine ⟨t.meetJoin p l m, hex, keepsOf h fun hg => hg.meetJoin .., fun hok => ?_, fun hbad => ?_⟩
    · rw [hmeet]
      obtain ⟨hproto, hjoined⟩ := State.takeJoin_joins (s := t.rememberOn p l m) ((State.rememberOn_joinOk ..).trans hok)
      rw [hproto, hjoined, hon]
      exact ⟨rfl, rfl⟩
    · rw [hmeet, State.takeJoin_refuses ((State.rememberOn_joinOk ..).trans hbad), State.refuseJoin_part, State.refuseJoin_events]
      have hevents : ((t.rememberOn p l m).remember p m).events = s.events := (State.takeTable_events h :)
      have hnow : ((t.rememberOn p l m).remember p m).now = s.now := (congrArg State.now (State.takeTable_board h) :)
      rw [hevents, hnow, State.remember, State.part_updPart_same, hon]
      exact ⟨rfl, rfl, rfl⟩
  · exact (exec_startReceived hl h hp).trans (congrArg Host.Outcome.next (if_pos hk))
  case start =>
    let u := ((t.remember p m).updPart p (fun x => { x with start := x.earliestStart m })).flood p m (some l)
    have hu : (u.part p).start = x.earliestStart m := by
      refine (congrArg Partition.start ((keptBySending_part p).flood ..)).trans ?_
      rw [State.part_updPart_same, State.remember, State.part_updPart_same]
      rfl
    refine ⟨u, (exec_startReceived hl h hp).trans (congrArg Host.Outcome.next (if_neg (by simp [show (t.part p).knows m = false from hk]))),
      keepsOf h fun hg => (hg.sending.flood ..).trans ((hg.part ..).trans (hg.part ..)), fun hs => ?_, fun b hs => ?_⟩
    · rw [hu, Partition.earliestStart, hs]
    · rw [hu, Partition.earliestStart, hs]
      exact (apply_ite some ..).symm
  · exact (exec_holdReceived hl h hp).trans (congrArg Host.Outcome.next (if_pos hk))
  case hold =>
    let v := (t.remember p m).flood p m (some l)
    let u := v.takeHold p m.seat m.cause (wideTurn (t.part p).turn m.arg)
    have hu : u.part p = ({ x with seen := (m.kind, m.seat, m.stamp) :: x.seen } : Partition).addHold m.seat m.cause
        (wideTurn (t.part p).turn m.arg) := (State.takeHold_part ..).trans (by rw [State.remember_flood_part])
    refine ⟨u, (exec_holdReceived hl h hp).trans (congrArg Host.Outcome.next (if_neg (by simp [show (t.part p).knows m = false from hk]))),
      keepsOf h fun hg => (hg.holds.takeHold ..).trans ((hg.sending.flood ..).trans (hg.part ..)), ?_, fun k hh => ?_, fun hh hr => ?_⟩
    · rw [hu, Partition.addHold_holds]
      simp
    · rw [hu, Partition.addHold_holds]
      exact Bool.or_eq_true_iff.2 (.inl hh)
    · rw [hu]
      exact Partition.addHold_running (x := { x with seen := (m.kind, m.seat, m.stamp) :: x.seen }) hh hr ..
  · exact (exec_releaseReceived hl h hp).trans (congrArg Host.Outcome.next (if_pos hk))
  case release =>
    let v := ((t.remember p m).flood p m (some l)).holdEvent p m.cause (releaseOutcome m.cause) m.seat
    let u := v.updPart p (fun x => x.dropHold m.seat m.stamp)
    have hu : u.part p = ({ x with seen := (m.kind, m.seat, m.stamp) :: x.seen } : Partition).dropHold m.seat m.stamp :=
      (State.part_updPart_same ..).trans (congrArg (fun y => Partition.dropHold y m.seat m.stamp)
        (((keptByFrames_part p).raise ..).trans (State.remember_flood_part ..)))
    obtain ⟨hholders, hlast⟩ := Partition.dropHold_holders { x with seen := (m.kind, m.seat, m.stamp) :: x.seen } m.seat m.stamp
    refine ⟨u, (exec_releaseReceived hl h hp).trans (congrArg Host.Outcome.next (if_neg (by simp [show (t.part p).knows m = false from hk]))),
      keepsOf h fun hg => (hg.part ..).trans ((hg.holds.holdEvent ..).trans ((hg.sending.flood ..).trans (hg.part ..))), ?_, ?_,
      fun hnone n hat => ?_⟩
    · rw [hu, hholders]
    · rw [hu, hlast]
    · rw [hu, hholders] at hnone
      rw [hu]
      exact Partition.dropHold_held (x := { x with seen := (m.kind, m.seat, m.stamp) :: x.seen }) hnone hat
  · exact (exec_lengthReceived hl h hp).trans (congrArg Host.Outcome.next (if_pos hv))
  · exact (exec_lengthReceived hl h hp).trans (congrArg Host.Outcome.next ((if_neg (Nat.not_lt.2 hv)).trans (if_pos hk)))
  case length =>
    exact ⟨_, (exec_lengthReceived hl h hp).trans (congrArg Host.Outcome.next ((if_neg (Nat.not_lt.2 hv)).trans
      (if_neg (by simp [show (t.part p).knows m = false from hk])))),
      keepsOf h fun hg => (hg.takeLength ..).trans ((hg.sending.flood ..).trans (hg.part ..)), State.takeLength_lengths ..⟩
  · refine (exec_turnMarkReceived hl h hp).trans (congrArg Host.Outcome.next (if_pos ?_))
    rcases hk with hk | ⟨hn, hd⟩
    · rw [show (t.part p).knowsOn l m = true from hk]; rfl
    · simp [show ¬(t.part p).runState = .running from hn, show ¬(t.part p).runState = .draining from hd]
  case mark =>
    intro late good
    have hnew : ¬((t.part p).knowsOn l m || !(decide ((t.part p).runState = .running) || decide ((t.part p).runState = .draining))) = true := by
      rw [show (t.part p).knowsOn l m = false from hk]
      rcases hr with hr | hr <;> rw [show (t.part p).runState = _ from hr] <;> simp
    have hex := (exec_turnMarkReceived hl h hp).trans (congrArg Host.Outcome.next (if_neg hnew))
    let v := t.rememberOn p l m
    have hv : v.part p = { x with seenOn := (l, m.kind, m.seat, m.stamp) :: x.seenOn } := State.rememberOn_part ..
    have hvevents : v.events = s.events := (State.takeTable_events h :)
    have hvr : (v.part p).runState = .running ∨ (v.part p).runState = .draining := by rw [hv]; exact hr
    have hturn : ∀ {u : State} {k : Nat}, (u.part p).unheld = ({ v.part p with lateMarks := Tab.put (v.part p).lateMarks l k } : Partition).unheld →
        (u.part p).turn = x.turn ∧ (u.part p).knowsOn l m = true ∧ Tab.get 0 (u.part p).lateMarks l = k := fun {u k} hu => by
      rw [hv] at hu
      refine ⟨(congrArg Partition.turn hu :), ?_, ?_⟩
      · exact (congrArg (fun y => Partition.knowsOn y l m) hu :).trans (by simp [Partition.knowsOn, Partition.unheld])
      · exact (congrArg (fun y => Tab.get 0 (Partition.lateMarks y) l) hu :).trans (Tab.get_put_same ..)
    by_cases hin : m.arg = x.turn % 2 ^ 32 ∧ t.markInTime p l = true
    · obtain ⟨harg, htime⟩ := hin
      rw [if_pos (by rw [htime, decide_eq_true harg]; rfl)] at hex
      obtain ⟨hun, hgood, hbad⟩ := v.markTimely_part p l
      obtain ⟨h1, h2, h3⟩ := hturn hun
      have haligned : good = ({ v.part p with lateMarks := Tab.put (v.part p).lateMarks l 0 } : Partition).aligned := by rw [hv]; rfl
      rw [haligned]
      refine ⟨v.markTimely p l, hex, keepsOf h fun hg => (hg.markTimely ..).trans (hg.rememberOn ..), h1, h2,
        fun _ _ => ⟨h3, hgood, fun hb => ?_⟩, fun _ hf => by rw [htime] at hf; exact Bool.noConfusion hf, fun hne => absurd harg hne⟩
      obtain ⟨hown, hevents⟩ := hbad hb
      exact ⟨hown.trans (by rw [hv]), hevents.trans hvevents⟩
    · rw [if_neg (by simpa using hin)] at hex
      by_cases harg : m.arg = x.turn % 2 ^ 32
      · have htime : t.markInTime p l = false := by simpa [harg] using hin
        rw [decide_eq_true harg, if_pos rfl] at hex
        obtain ⟨hun, h8, hquiet⟩ := v.markFails_part p l (late + 1) hvr
        obtain ⟨h1, h2, h3⟩ := hturn hun
        refine ⟨v.markFails p l (late + 1), hex, keepsOf h fun hg => (hg.markFails ..).trans (hg.rememberOn ..), h1, h2,
          fun _ ht => by rw [htime] at ht; exact Bool.noConfusion ht, fun _ _ => ⟨h3, fun hl => h8 (by omega), fun hl => ?_⟩,
          fun hne => absurd harg hne⟩
        obtain ⟨hown, hevents⟩ := hquiet (by omega)
        exact ⟨hown.trans (by rw [hv]), hevents.trans hvevents⟩
      · rw [decide_eq_false harg, if_neg Bool.false_ne_true] at hex
        obtain ⟨hun, h8, -⟩ := v.markFails_part p l 3 hvr
        obtain ⟨h1, h2, h3⟩ := hturn hun
        exact ⟨v.markFails p l 3, hex, keepsOf h fun hg => (hg.markFails ..).trans (hg.rememberOn ..), h1, h2,
          fun ha => absurd ha harg, fun ha => absurd ha harg, fun _ => ⟨h3, h8 (Nat.le_refl 3)⟩⟩

end Sys2Proof.Machine
end

section
/-!
PROOFS. The step gate: its votes and messages (R275 to R277), what it does when it opens or closes (R278 to R280), and the writes of the
step objects (R282).
-/

namespace Sys2Proof.Machine

open Sys2Proof

/-! ### Votes -/

/-- The seat of the lesser number, the lower seat of equal ones: what `combine` keeps of the least step. -/
def lowSeat (m a n b : Nat) : Nat := if m < n then a else if n < m then b else min a b

/-- The seat of the greater number, the lower seat of equal ones. -/
def highSeat (m a n b : Nat) : Nat := if n < m then a else if m < n then b else min a b

theorem lowSeat_comm (m a n b : Nat) : lowSeat m a n b = lowSeat n b m a := by
  unfold lowSeat
  split_ifs <;> omega

theorem highSeat_comm (m a n b : Nat) : highSeat m a n b = highSeat n b m a := by
  unfold highSeat
  split_ifs <;> omega

theorem lowSeat_assoc (m a n b k c : Nat) : lowSeat (min m n) (lowSeat m a n b) k c = lowSeat m a (min n k) (lowSeat n b k c) := by
  unfold lowSeat
  split_ifs <;> omega

theorem highSeat_assoc (m a n b k c : Nat) : highSeat (max m n) (highSeat m a n b) k c = highSeat m a (max n k) (highSeat n b k c) := by
  unfold highSeat
  split_ifs <;> omega

/-- The seat of the first fault: what `combine` keeps of the faults. -/
def badSeat (f : Bool) (a : Nat) (g : Bool) (b : Nat) : Nat := if f && g then min a b else if f then a else if g then b else 0

theorem badSeat_comm (f g : Bool) (a b : Nat) : badSeat f a g b = badSeat g b f a := by
  cases f <;> cases g <;> simp [badSeat, Nat.min_comm]

theorem badSeat_assoc (f g h : Bool) (a b c : Nat) : badSeat (f || g) (badSeat f a g b) h c = badSeat f a (g || h) (badSeat g b h c) := by
  cases f <;> cases g <;> cases h <;> simp [badSeat, Nat.min_assoc]

/-- A vote that a fault closes. -/
def GateVote.bad (v : GateVote) : Bool := v.nonFinite || v.hwFault

theorem GateVote.combine_eq (a b : GateVote) : a.combine b =
    { stepMin := min a.stepMin b.stepMin, stepMax := max a.stepMax b.stepMax
      seatMin := lowSeat a.stepMin a.seatMin b.stepMin b.seatMin, seatMax := highSeat a.stepMax a.seatMax b.stepMax b.seatMax
      nonFinite := a.nonFinite || b.nonFinite, hwFault := a.hwFault || b.hwFault
      seatBad := badSeat a.bad a.seatBad b.bad b.seatBad } := rfl

theorem GateVote.combine_bad (a b : GateVote) : (a.combine b).bad = (a.bad || b.bad) := by
  have hor : ∀ p q r s : Bool, (p || q || (r || s)) = (p || r || (q || s)) := by decide
  exact hor ..

theorem GateVote.combine_comm (a b : GateVote) : a.combine b = b.combine a := by
  rw [GateVote.combine_eq, GateVote.combine_eq, Nat.min_comm, Nat.max_comm, lowSeat_comm, highSeat_comm, badSeat_comm, Bool.or_comm a.nonFinite,
    Bool.or_comm a.hwFault]

theorem GateVote.combine_assoc (a b c : GateVote) : (a.combine b).combine c = a.combine (b.combine c) := by
  rw [GateVote.combine_eq (a.combine b), GateVote.combine_eq a (b.combine c), GateVote.combine_bad, GateVote.combine_bad, GateVote.mk.injEq]
  exact ⟨Nat.min_assoc .., Nat.max_assoc .., lowSeat_assoc .., highSeat_assoc .., Bool.or_assoc .., Bool.or_assoc .., badSeat_assoc ..⟩

theorem GateVote.opens_iff (v : GateVote) : v.opens = true ↔ v.bad = false ∧ v.stepMin = v.stepMax := by
  rw [GateVote.opens, GateVote.bad, ← Bool.not_or, Bool.and_eq_true, Bool.not_eq_true', decide_eq_true_eq]

/-- Settles O34: the combination is the least and the greatest step with the lower of their seats, and any fault with the lowest of its
seats; each of these commutes and associates. -/
theorem votesCombine : Obligations.VotesCombine := by
  unfold Obligations.VotesCombine
  intro a b c
  refine ⟨a.combine_comm b, a.combine_assoc b c, fun ha hb => ?_⟩
  rw [GateVote.opens_iff, GateVote.opens_iff, GateVote.opens_iff, GateVote.combine_bad, Bool.or_eq_false_iff, GateVote.combine_eq]
  have hsteps : min a.stepMin b.stepMin = max a.stepMax b.stepMax ↔
      a.stepMin = a.stepMax ∧ b.stepMin = b.stepMax ∧ a.stepMin = b.stepMin := by omega
  exact (and_congr_right fun _ => hsteps).trans ⟨fun ⟨⟨h1, h2⟩, h3, h4, h5⟩ => ⟨⟨h1, h3⟩, ⟨h2, h4⟩, h5⟩,
    fun ⟨⟨h1, h3⟩, ⟨h2, h4⟩, h5⟩ => ⟨⟨h1, h2⟩, h3, h4, h5⟩⟩

/-! ### Gate messages -/

/-- The number whose bits a gate message carries (Table STP-2). -/
def gateNumber (v : GateVote) (kind : Nat) : Nat :=
  v.stepMin + v.stepMax * 2 ^ 64 + v.seatMin * 2 ^ 128 + v.seatMax * 2 ^ 144 + (if v.nonFinite then 2 ^ 160 else 0) +
    (if v.hwFault then 2 ^ 161 else 0) + v.seatBad * 2 ^ 168 + kind * 2 ^ 184

theorem gateMsgOf_toNat {v : GateVote} {kind : Nat} (h1 : v.stepMin < 2 ^ 64) (h2 : v.stepMax < 2 ^ 64) (h3 : v.seatMin < 4096)
    (h4 : v.seatMax < 4096) (h5 : v.seatBad < 4096) (hk : kind = 1 ∨ kind = 2) : (gateMsgOf v kind).toNat = gateNumber v kind := by
  rw [gateMsgOf, BitVec.toNat_ofNat, Nat.mod_eq_of_lt h1, Nat.mod_eq_of_lt h2, Nat.mod_eq_of_lt h3, Nat.mod_eq_of_lt h4, Nat.mod_eq_of_lt h5]
  refine Nat.mod_eq_of_lt ?_
  cases v.nonFinite <;> cases v.hwFault <;> simp only [if_true, Bool.false_eq_true, if_false] <;> omega

theorem gateNumber_eq (v : GateVote) (kind : Nat) : gateNumber v kind = v.stepMin + v.stepMax * 2 ^ 64 + v.seatMin * 2 ^ 128 +
    v.seatMax * 2 ^ 144 + v.nonFinite.toNat * 2 ^ 160 + v.hwFault.toNat * 2 ^ 161 + v.seatBad * 2 ^ 168 + kind * 2 ^ 184 := by
  unfold gateNumber
  cases v.nonFinite <;> cases v.hwFault <;> rfl

section
variable {a b c d e f g k : Nat} (ha : a < 2 ^ 64) (hb : b < 2 ^ 64) (hc : c < 4096) (hd : d < 4096) (he : e < 2) (hf : f < 2) (hg : g < 4096)
  (hk : k < 256)
include ha hb hc hd he hf hg hk

/-- The fields of Table STP-2 read back from a number in which they stand at their places. -/
theorem fields_of_places :
    let n := a + b * 2 ^ 64 + c * 2 ^ 128 + d * 2 ^ 144 + e * 2 ^ 160 + f * 2 ^ 161 + g * 2 ^ 168 + k * 2 ^ 184
    fld n 0 64 = a ∧ fld n 64 64 = b ∧ fld n 128 12 = c ∧ fld n 144 12 = d ∧ fld n 160 1 = e ∧ fld n 161 1 = f ∧ fld n 168 12 = g ∧
      fld n 184 8 = k := by
  intro n
  simp only [fld_eq, n]
  refine ⟨?_, ?_, ?_, ?_, ?_, ?_, ?_, ?_⟩ <;> omega

/-- The reserved fields between them are 0. -/
theorem reserved_of_places :
    let n := a + b * 2 ^ 64 + c * 2 ^ 128 + d * 2 ^ 144 + e * 2 ^ 160 + f * 2 ^ 161 + g * 2 ^ 168 + k * 2 ^ 184
    fld n 140 4 = 0 ∧ fld n 156 4 = 0 ∧ fld n 162 6 = 0 ∧ fld n 180 4 = 0 ∧ fld n 192 64 = 0 := by
  intro n
  simp only [fld_eq, n]
  refine ⟨?_, ?_, ?_, ?_, ?_⟩ <;> omega

end

theorem bit_eq_of_fld {n lo : Nat} {b : Bool} (h : fld n lo 1 = b.toNat) : bit n lo = b := by
  have h1 : n / 2 ^ lo % 2 = b.toNat := (fld_eq n lo 1).symm.trans h
  rw [bit, Nat.testBit_eq_decide_div_mod_eq, h1]
  cases b <;> rfl

/-- Settles O35: the message's number is the sum of its fields at their places, none reaching the next one's. -/
theorem gateMessageCarries : Obligations.GateMessageCarries := by
  unfold Obligations.GateMessageCarries
  intro v kind h1 h2 h3 h4 h5 hk
  have hn := (gateMsgOf_toNat h1 h2 h3 h4 h5 hk).trans (gateNumber_eq v kind)
  have hk' : kind < 256 := by omega
  have hbool : ∀ b : Bool, b.toNat < 2 := fun b => by cases b <;> decide
  obtain ⟨f1, f2, f3, f4, f5, f6, f7, f8⟩ := fields_of_places h1 h2 h3 h4 (hbool v.nonFinite) (hbool v.hwFault) h5 hk'
  obtain ⟨r1, r2, r3, r4, r5⟩ := reserved_of_places h1 h2 h3 h4 (hbool v.nonFinite) (hbool v.hwFault) h5 hk'
  rw [← hn] at f1 f2 f3 f4 f5 f6 f7 f8 r1 r2 r3 r4 r5
  refine ⟨?_, f8, ?_⟩
  · rw [gateVoteOf, gateStepMin, gateStepMax, gateSeatMin, gateSeatMax, gateNonFinite, gateHwFault, gateSeatBad, f1, f2, f3, f4, f7,
      bit_eq_of_fld f5, bit_eq_of_fld f6]
  · have hkind : gateKind (gateMsgOf v kind) = kind := f8
    simp only [gateMsgOk, r1, r2, r3, r4, r5, hkind]
    rcases hk with rfl | rfl <;> rfl

/-! ### The decision of the gate -/

/-- A partition without what a batch advance and a swap change: the pool and its anchors. -/
def Partition.unpooled (x : Partition) : Partition := { x with pool := [], anchors := [] }

theorem State.applyAdvances_unpooled (s : State) (p : Nat) : ((s.applyAdvances p).part p).unpooled = (s.part p).unpooled :=
  (congrArg Partition.unpooled (State.part_updPart_same ..)).trans rfl

theorem State.applySwaps_unpooled (s : State) (p : Nat) : ((s.applySwaps p).part p).unpooled = (s.part p).unpooled := by
  rw [State.applySwaps, State.part_updPart_same]
  exact List.foldlRecOn (swapRecords (s.part p).book) _ (motive := fun y : Partition => y.unpooled = (s.part p).unpooled) rfl
    (fun _ h _ _ => h)

theorem State.applyPatches_part (s : State) (p k : Nat) : (s.applyPatches p).part k = s.part k :=
  foldl_keeps (fun t => t.part k) _ s (fun t c => foldl_keeps (fun t => t.part k) _ t (fun _ _ => by rfl))

/-- A gate that opens: the step and the batch are counted. -/
theorem State.applyGate_opens {s : State} {p : Nat} {g : List Byte} {m : GateMsg} (hd : (s.part p).decision = some m)
    (ho : (gateVoteOf m).opens = true) : ((s.applyGate p g).part p).unpooled = { (s.part p).unpooled with
      decision := none, stepOpen := true, stepCounter := ((s.part p).stepCounter + 1) % 2 ^ 64
      batchCounter := ((s.part p).batchCounter + 1) % 2 ^ 64, consecutiveClosures := 0 } := by
  have hclear : ∀ t : State, ((t.updPart p (fun y => { y with consecutiveClosures := 0 })).part p).unpooled =
      { (t.part p).unpooled with consecutiveClosures := 0 } := fun t => congrArg Partition.unpooled (State.part_updPart_same ..)
  unfold State.applyGate
  simp only [hd, ho, if_true]
  rw [hclear, State.applyPatches_part, State.applySwaps_unpooled, State.applyAdvances_unpooled, State.part_updPart_same, State.part_updPart_same]
  rfl

/-- Whether a closed gate abandons its batch (R279). -/
def GateVote.abandons (v : GateVote) (g : List Byte) : Bool :=
  v.nonFinite && !v.hwFault && decide (v.stepMin = v.stepMax) && decide (gateClosedAction g = 0)

/-- A partition whose gate has closed with a vote, but for its sticking (R279): the closure is counted, the batch where it is abandoned. -/
def Partition.closes (x : Partition) (g : List Byte) (v : GateVote) : Partition :=
  { x with
    decision := none, stepOpen := false, consecutiveClosures := min (x.consecutiveClosures + 1) 65535
    closedSteps := satAdd x.closedSteps 1
    batchCounter := if v.abandons g then (x.batchCounter + 1) % 2 ^ 64 else x.batchCounter
    abandonedSteps := if v.abandons g then satAdd x.abandonedSteps 1 else x.abandonedSteps }

/-- A gate that closes, and sticks once its closures in a row have come to MaxClosures. -/
theorem State.applyGate_closes {s : State} {p : Nat} {g : List Byte} {m : GateMsg} (hd : (s.part p).decision = some m)
    (ho : (gateVoteOf m).opens = false) : ((s.applyGate p g).part p).unpooled =
      if gateMaxClosures g ≤ min ((s.part p).consecutiveClosures + 1) 65535 then
        { (s.part p).unpooled.closes g (gateVoteOf m) with gateStuck := true }
      else (s.part p).unpooled.closes g (gateVoteOf m) := by
  let x := s.part p
  let s1 := (s.updPart p (fun y => { y with decision := none, stepOpen := false })).updPart p (fun y =>
    { y with consecutiveClosures := min (x.consecutiveClosures + 1) 65535, closedSteps := satAdd y.closedSteps 1 })
  let s2 := if (gateVoteOf m).abandons g then (s1.updPart p (fun y =>
    { y with batchCounter := (y.batchCounter + 1) % 2 ^ 64, abandonedSteps := satAdd y.abandonedSteps 1 })).applyAdvances p else s1
  have hgate : s.applyGate p g = if gateMaxClosures g ≤ min (x.consecutiveClosures + 1) 65535 then
      (s2.updPart p (fun y => { y with gateStuck := true })).closedEvents p m true else s2 := by
    unfold State.applyGate
    simp only [hd, ho, Bool.false_eq_true, if_false]
    rfl
  have h1 : s1.part p = { x with decision := none, stepOpen := false, consecutiveClosures := min (x.consecutiveClosures + 1) 65535
                                 closedSteps := satAdd x.closedSteps 1 } :=
    (State.part_updPart_same ..).trans (by rw [State.part_updPart_same])
  have h2 : (s2.part p).unpooled = x.unpooled.closes g (gateVoteOf m) := by
    unfold Partition.closes
    cases hdrop : (gateVoteOf m).abandons g
    case true =>
      refine (congrArg (fun t => (State.part t p).unpooled) (if_pos hdrop)).trans ?_
      rw [State.applyAdvances_unpooled, State.part_updPart_same, h1]
      rfl
    case false =>
      refine (congrArg (fun t => (State.part t p).unpooled) (if_neg (by simp [hdrop]))).trans ?_
      rw [h1]
      rfl
  by_cases hmax : gateMaxClosures g ≤ min (x.consecutiveClosures + 1) 65535
  · rw [hgate, if_pos hmax, if_pos hmax, (keptByFrames_part p).closedEvents, State.part_updPart_same]
    exact congrArg (fun y : Partition => { y with gateStuck := true }) h2
  · rw [hgate, if_neg hmax, if_neg hmax]
    exact h2

/-- The decision of a gate changes its own partition only. -/
theorem State.applyGate_otherParts (s : State) (p : Nat) (g : List Byte) : OtherParts s (s.applyGate p g) p := by
  intro k hk
  have hupd : ∀ (t : State) (f : Partition → Partition), (t.updPart p f).part k = t.part k :=
    fun t f => (t.part_updPart ..).trans (if_neg hk.symm)
  have hadv : ∀ t : State, (t.applyAdvances p).part k = t.part k := fun t => hupd t _
  have hswap : ∀ t : State, (t.applySwaps p).part k = t.part k := fun t => hupd t _
  have hdrop : ∀ (b : Bool) (t : State) (f : Partition → Partition),
      (if b then (t.updPart p f).applyAdvances p else t).part k = t.part k := fun b t f => by
    split
    · rw [hadv, hupd]
    · rfl
  unfold State.applyGate
  dsimp only
  split
  · rfl
  · split
    · rw [hupd, State.applyPatches_part, hswap, hadv, hupd, hupd]
    · split
      · rw [(keptByFrames_part k).closedEvents, hupd, hdrop, hupd, hupd]
      · rw [hdrop, hupd, hupd]

/-- Settles O33: both outcomes are read off the partition that the decision leaves. -/
theorem gateDecides : Obligations.GateDecides := by
  unfold Obligations.GateDecides
  intro s p g m x y v hd
  cases ho : v.opens
  case true =>
    have hy := State.applyGate_opens (g := g) hd ho
    exact ⟨(congrArg Partition.decision hy :), (congrArg Partition.stepOpen hy :), s.applyGate_otherParts p g, fun _ =>
      ⟨(congrArg Partition.stepCounter hy :), (congrArg Partition.batchCounter hy :), (congrArg Partition.consecutiveClosures hy :),
        (congrArg Partition.closedSteps hy :), (congrArg Partition.gateStuck hy :)⟩, fun h => Bool.noConfusion h⟩
  case false =>
    have hy : y.unpooled = { x.unpooled.closes g v with gateStuck := y.gateStuck } ∧
        (gateMaxClosures g ≤ min (x.consecutiveClosures + 1) 65535 → y.gateStuck = true) := by
      have hcases := State.applyGate_closes (g := g) hd ho
      by_cases hmax : gateMaxClosures g ≤ min (x.consecutiveClosures + 1) 65535
      · have heq := hcases.trans (if_pos hmax)
        have hstuck : y.gateStuck = true := (congrArg Partition.gateStuck heq :)
        exact ⟨heq.trans (by rw [hstuck]), fun _ => hstuck⟩
      · have heq := hcases.trans (if_neg hmax)
        have hstuck : y.gateStuck = x.gateStuck := (congrArg Partition.gateStuck heq :)
        exact ⟨heq.trans (by rw [hstuck]; rfl), fun h => absurd h hmax⟩
    obtain ⟨hy, hstuck⟩ := hy
    have hbatch : y.batchCounter = if v.abandons g then (x.batchCounter + 1) % 2 ^ 64 else x.batchCounter :=
      (congrArg Partition.batchCounter hy :)
    refine ⟨(congrArg Partition.decision hy :), (congrArg Partition.stepOpen hy :), s.applyGate_otherParts p g,
      fun h => Bool.noConfusion h, fun _ => ⟨(congrArg Partition.stepCounter hy :), (congrArg Partition.consecutiveClosures hy :),
        (congrArg Partition.closedSteps hy :), hstuck, fun hkeep => ?_, fun hn hh hs hg => ?_⟩⟩
    · rw [hbatch, if_neg]
      rcases hkeep with h | h | h <;> simp [GateVote.abandons, h]
    · have hdrops : v.abandons g = true := by simp [GateVote.abandons, hn, hh, hs, hg]
      exact ⟨by rw [hbatch, if_pos hdrops], (congrArg Partition.abandonedSteps hy :).trans (if_pos hdrops)⟩

/-! ### Write commands that are received -/

section
variable {s t : State} {r : Req} {chk : State → Nat} {act : State → State}

theorem Received.command (h : Received s r t) (hc : chk t = 0) : s.command r chk act = act t := by
  obtain ⟨hw, ha, hf⟩ := h
  exact State.command_runs hw ha hf hc

theorem Received.commandWith {chk : Req → State → Nat} {act : Req → State → State} (h : Received s r t) (hc : chk r t = 0) :
    s.commandWith r chk act = act r t := by
  obtain ⟨hw, ha, hf⟩ := h
  exact State.commandWith_runs hw ha hf hc

/-- A command whose own condition fails is refused with the code that tells it. -/
theorem Received.command_refused (h : Received s r t) {c : Nat} (hc : chk t = c) (h0 : c ≠ 0) : s.command r chk act = t.reply r c := by
  obtain ⟨hw, ha, hf⟩ := h
  unfold State.command
  rw [hw]
  dsimp only
  rw [ha]
  simp [State.judged, hf, hc, h0]

end

theorem reqNames6_sub {r : Req} {low sub : Nat} (h : reqNames6 r low sub = true) : r.sub = sub :=
  of_decide_eq_true (Bool.and_eq_true_iff.1 h).2

/-- A change of the request's partition, as the writes of the step make it. -/
theorem State.updPart_stepKeeps (t : State) (p : Nat) (f : Partition → Partition) :
    OtherParts t (t.updPart p f) p ∧ SameCore { t with parts := (t.updPart p f).parts } (t.updPart p f) :=
  ⟨fun _ hk => (t.part_updPart ..).trans (if_neg hk.symm), SameCore.refl _⟩

/-- Settles O31: each write is the command's effect, or its refusal, in the state of the request's partition. -/
theorem stepWrites : Obligations.StepWrites := by
  unfold Obligations.StepWrites
  intro s t r p x keeps h
  refine ⟨fun hst => ⟨fun hn => ?step, fun hn => ?batch⟩, fun hn hv hh => ?stuck, fun hn hv hh => ?restore, fun hst hn => ?refused,
    fun hst hv => ⟨fun hn => ?stuckRefused, fun hn => ?restoreRefused⟩⟩
  case step =>
    have hsub : r.sub = 1 := reqNames6_sub hn
    refine ⟨t.updPart p (fun y => { y with stepCounter := reqValue r }), ?_, t.updPart_stepKeeps p _, State.part_updPart_same ..⟩
    refine congrArg Host.Outcome.next ((if_neg (by simp [hn])).trans ((h.command (if_pos hst)).trans (if_pos hsub)))
  case batch =>
    have hsub : r.sub ≠ 1 := fun h1 => absurd (h1.symm.trans (reqNames6_sub hn)) (by decide)
    let u := t.updPart p (fun y => { y with batchCounter := reqValue r })
    have hu : ((u.applyAdvances p).part p).unpooled = ({ x with batchCounter := reqValue r } : Partition).unpooled :=
      (State.applyAdvances_unpooled ..).trans (congrArg Partition.unpooled (State.part_updPart_same ..))
    refine ⟨u.applyAdvances p, ?_, ⟨fun k hk => ?_, SameCore.refl _⟩, (congrArg Partition.batchCounter hu :),
      (congrArg Partition.stepCounter hu :), rfl⟩
    · refine congrArg Host.Outcome.next ((if_neg (by simp [hn])).trans ((h.command (if_pos hst)).trans (if_neg hsub)))
    · exact ((u.updPart_stepKeeps p _).1 k hk).trans ((t.updPart_stepKeeps p _).1 k hk)
  case stuck =>
    refine ⟨t.updPart p (fun y => { y with gateStuck := false }), ?_, t.updPart_stepKeeps p _, State.part_updPart_same ..⟩
    exact congrArg Host.Outcome.next ((if_neg (by simp [hn])).trans (h.command ((if_neg (not_not_intro hv)).trans (if_neg (not_not_intro hh)))))
  case restore =>
    refine ⟨t.updPart p (fun y => { y with restoreNeeded := false }), ?_, t.updPart_stepKeeps p _, State.part_updPart_same ..⟩
    exact congrArg Host.Outcome.next ((if_neg (by simp [hn])).trans (h.command ((if_neg (not_not_intro hv)).trans (if_neg (not_not_intro hh)))))
  case refused =>
    have hany : (reqNames6 r 0x20 1 || reqNames6 r 0x20 2) = true := Bool.or_eq_true_iff.2 hn
    exact congrArg Host.Outcome.next ((if_neg (by rw [hany]; decide)).trans (h.command_refused (if_neg hst) (by decide)))
  case stuckRefused =>
    exact congrArg Host.Outcome.next ((if_neg (by simp [hn])).trans
      (h.command_refused ((if_neg (not_not_intro hv)).trans (if_pos hst)) (by decide)))
  case restoreRefused =>
    exact congrArg Host.Outcome.next ((if_neg (by simp [hn])).trans
      (h.command_refused ((if_neg (not_not_intro hv)).trans (if_pos hst)) (by decide)))

/-! ### Gate messages at a seat -/

/-- A partition without what a vote on its way and a decision change. -/
def Partition.uncast (x : Partition) : Partition := { x with voteSent := false, decision := none, lastGate := 0 }

theorem Partition.uncast_decides (x : Partition) (m : GateMsg) :
    ({ x with decision := some m, lastGate := m } : Partition).uncast = x.uncast := rfl

theorem KeptBySeat.takeDecision {β : Type} {γ : State → β} {p : Nat} (hg : KeptBySeat γ p) (s : State) (g : List Byte) (m : GateMsg) :
    γ (s.takeDecision p g m) = γ s := by
  have hsend : γ ((gateChildren g).foldl (fun t c => t.sendSeat p c (gateTxn m)) s) = γ s :=
    foldl_keeps γ _ s fun _ _ => hg.sending.sendSeat ..
  unfold State.takeDecision
  dsimp only
  rw [hg.frames.closedEvents, hg.part, hsend]

theorem KeptBySeat.castVote {β : Type} {γ : State → β} {p : Nat} (hg : KeptBySeat γ p) (s : State) (g : List Byte) :
    γ (s.castVote p g) = γ s := by
  unfold State.castVote
  dsimp only
  split
  · rfl
  · split
    · rfl
    · split
      · exact (hg.takeDecision ..).trans (hg.part ..)
      · exact (hg.sending.sendSeat ..).trans (hg.part ..)

/-- The partition of a seat that takes a decision. -/
theorem State.takeDecision_part (s : State) (p : Nat) (g : List Byte) (m : GateMsg) :
    (s.takeDecision p g m).part p = { s.part p with decision := some m, lastGate := m } := by
  have hsend : ((gateChildren g).foldl (fun t c => t.sendSeat p c (gateTxn m)) s).part p = s.part p :=
    foldl_keeps (fun t => t.part p) _ s fun _ _ => (keptBySending_part p).sendSeat ..
  exact ((keptByFrames_part p).closedEvents ..).trans ((State.part_updPart_same ..).trans
    (congrArg (fun x : Partition => { x with decision := some m, lastGate := m }) hsend))

theorem State.castVote_uncast (s : State) (p : Nat) (g : List Byte) : ((s.castVote p g).part p).uncast = (s.part p).uncast := by
  have hsent : ((s.updPart p (fun y => { y with voteSent := true })).part p).uncast = (s.part p).uncast := by
    rw [State.part_updPart_same]
    rfl
  unfold State.castVote
  dsimp only
  split
  · rfl
  · split
    · rfl
    · split
      · rw [State.takeDecision_part, Partition.uncast_decides]
        exact hsent
      · exact (congrArg Partition.uncast ((keptBySending_part p).sendSeat ..)).trans hsent

/-- The root of a gate tree without children decides by its own vote. -/
theorem State.castVote_root {s : State} {p : Nat} {g : List Byte} {v : GateVote} (hv : (s.part p).vote = some v)
    (hs : (s.part p).voteSent = false) (hp : gateParent g = (s.part p).seat) (hc : gateChildren g = []) (hn : (s.part p).childVotes = []) :
    s.castVote p g = (s.updPart p (fun y => { y with voteSent := true })).takeDecision p g (gateMsgOf v 2) := by
  simp [State.castVote, hv, hs, hp, hc, hn]

section
variable {s t : State} {p l : Nat} {g : List Byte} {m : GateMsg}

theorem exec_gateVote (hp : p < 16) (hg : gateRecord (s.part p).book = some g) (ht : (s.part p).gateTurn = true)
    (hv : (s.part p).vote = none) (hx : (s.part p).tabled = true) :
    let u := s.reach ((s.part p).turnStart ((s.part p).workTurn.getD 0) + gateOffset g)
    exec (.gateVote p) s = .next ((u.updPart p (fun y => { y with vote := some (s.ownVote p g) })).castVote p g) := by
  dsimp only
  change execGateVote p s = _
  rw [execGateVote, onUnit_next (decide_eq_true hp)]
  simp only [hg, ht, hv, hx, Option.isNone_none, Bool.and_self, if_true]
  rfl

theorem State.takeGate_some {kind : Nat} (h : s.takeGate p kind = some (t, l, m)) :
    ∃ r, t = s.updPart p (fun x => { x with gateIn := r }) := by
  unfold State.takeGate at h
  split at h
  · cases h
  next e r _ =>
    split at h
    · cases h
    · exact ⟨r, (Prod.mk.inj (Option.some.inj h)).1.symm⟩

theorem exec_gateVoteReceived_malformed (hp : p < 16) (h : s.takeGate p 1 = some (t, l, m)) (hm : gateMsgOk m = false) :
    exec (.gateVoteReceived p) s = .next (t.count 3) := by
  change execGateVoteReceived p s = _
  rw [execGateVoteReceived, onUnit_next (decide_eq_true hp), h]
  simp only [hm, Bool.not_false, if_true]

theorem exec_gateVoteReceived (hp : p < 16) (h : s.takeGate p 1 = some (t, l, m)) (hm : gateMsgOk m = true)
    (hg : gateRecord (t.part p).book = some g) (hn : (t.part p).childVotes.length < (gateChildren g).length) :
    exec (.gateVoteReceived p) s =
      .next ((t.updPart p (fun x => { x with childVotes := x.childVotes ++ [(l, gateVoteOf m)] })).castVote p g) := by
  change execGateVoteReceived p s = _
  rw [execGateVoteReceived, onUnit_next (decide_eq_true hp), h]
  simp only [hm, hg, Bool.not_true, Bool.false_eq_true, if_false, if_pos hn]

theorem exec_gateDecisionReceived_malformed (hp : p < 16) (h : s.takeGate p 2 = some (t, l, m)) (hm : gateMsgOk m = false) :
    exec (.gateDecisionReceived p) s = .next (t.count 3) := by
  change execGateDecisionReceived p s = _
  rw [execGateDecisionReceived, onUnit_next (decide_eq_true hp), h]
  simp only [hm, Bool.not_false, if_true]

theorem exec_gateDecisionReceived (hp : p < 16) (h : s.takeGate p 2 = some (t, l, m)) (hm : gateMsgOk m = true)
    (hg : gateRecord (t.part p).book = some g) (hr : gateParent g ≠ (t.part p).seat) (ht : (t.part p).gateTurn = true)
    (hd : (t.part p).decision = none) : exec (.gateDecisionReceived p) s = .next (t.takeDecision p g m) := by
  change execGateDecisionReceived p s = _
  rw [execGateDecisionReceived, onUnit_next (decide_eq_true hp), h]
  simp only [hm, hg, ht, hd, Bool.not_true, Bool.false_eq_true, if_false, Option.isNone_none, Bool.and_true, decide_eq_true_eq, if_pos hr]

end

/-- Settles O32: the vote is formed and cast, the child's vote counted and the decision recorded, each in the seat's own partition. -/
theorem gateMessages : Obligations.GateMessages := by
  unfold Obligations.GateMessages
  intro s t p l g m x hp
  refine ⟨fun hg ht hv hx => ?vote, fun h => ⟨fun hm => ?_, fun hm hg hn => ?child⟩, fun h => ⟨fun hm => ?_, fun hm hg hr ht hd => ?decision⟩⟩
  case vote =>
    let u := s.reach (x.turnStart (x.workTurn.getD 0) + gateOffset g)
    let v := u.updPart p (fun y => { y with vote := some (s.ownVote p g) })
    have hv : v.part p = { x with vote := some (s.ownVote p g) } := State.part_updPart_same ..
    have hun := v.castVote_uncast p g
    rw [hv] at hun
    have hboard : (v.castVote p g).board = v.board := (keptBySeat_board p).castVote ..
    refine ⟨v.castVote p g, exec_gateVote hp hg ht ‹_› hx, (congrArg Partition.vote hun :), fun k hk => ?_, (congrArg State.squares hboard :),
      (congrArg State.now hboard :), (congrArg State.dram hboard :), fun hr hc hs hch => ?_⟩
    · exact ((keptBySeat_otherPart hk).castVote ..).trans ((keptBySeat_otherPart hk).part u _)
    · have hroot := State.castVote_root (s := v) (p := p) (g := g) (v := s.ownVote p g) (by rw [hv]) (by rw [hv]; exact hs) (by rw [hv]; exact hr) hc
        (by rw [hv]; exact hch)
      rw [hroot, State.takeDecision_part]
      exact ⟨rfl, rfl⟩
  case child =>
    obtain ⟨r, rfl⟩ := State.takeGate_some h
    let u := s.updPart p (fun x => { x with gateIn := r })
    let v := u.updPart p (fun x => { x with childVotes := x.childVotes ++ [(l, gateVoteOf m)] })
    have hu : u.part p = { x with gateIn := r } := State.part_updPart_same ..
    have hv : v.part p = { x with gateIn := r, childVotes := x.childVotes ++ [(l, gateVoteOf m)] } :=
      (State.part_updPart_same ..).trans (by rw [hu])
    have hun := v.castVote_uncast p g
    rw [hv] at hun
    have hboard : (v.castVote p g).board = v.board := (keptBySeat_board p).castVote ..
    refine ⟨v.castVote p g, exec_gateVoteReceived hp h hm hg (by rw [hu]; exact hn), (congrArg Partition.childVotes hun :),
      (congrArg Partition.vote hun :), fun k hk => ?_, (congrArg State.squares hboard :), (congrArg State.dram hboard :)⟩
    have hother := keptBySeat_otherPart hk
    exact (hother.castVote ..).trans ((hother.part u _).trans (hother.part s _))
  case decision =>
    obtain ⟨r, rfl⟩ := State.takeGate_some h
    let u := s.updPart p (fun x => { x with gateIn := r })
    have hu : u.part p = { x with gateIn := r } := State.part_updPart_same ..
    have hpart : (u.takeDecision p g m).part p = { x with gateIn := r, decision := some m, lastGate := m } :=
      (u.takeDecision_part p g m).trans (by rw [hu])
    have hboard : (u.takeDecision p g m).board = u.board := (keptBySeat_board p).takeDecision ..
    refine ⟨u.takeDecision p g m, exec_gateDecisionReceived hp h hm hg (by rw [hu]; exact hr) ht (by rw [hu]; exact hd),
      (congrArg Partition.decision hpart :), (congrArg Partition.lastGate hpart :), (congrArg Partition.stepCounter hpart :), fun k hk => ?_,
      (congrArg State.squares hboard :)⟩
    exact ((keptBySeat_otherPart hk).takeDecision ..).trans ((keptBySeat_otherPart hk).part s _)
  · exact exec_gateVoteReceived_malformed hp h hm
  · exact exec_gateDecisionReceived_malformed hp h hm

end Sys2Proof.Machine
end

section
/-!
PROOFS. What the chip links' own work - their falls, frames and trains - leaves of the rest (R339, R341, R356).
-/

namespace Sys2Proof.Machine

open Sys2Proof

/-- A reading of the state that neither frames to the host, a link, a link group nor the holdover changes. -/
structure KeptByLinks {β : Type} (g : State → β) : Prop where
  frames : KeptByFrames g
  link : ∀ s l f, g (State.updLink s l f) = g s
  group : ∀ s n f, g (State.updGroup s n f) = g s
  holdover : ∀ s b, g { s with holdover := b } = g s

namespace KeptByLinks

variable {β : Type} {g : State → β} (hg : KeptByLinks g)
include hg

theorem sending : KeptBySending g := fun s l _ => hg.link s l _

theorem linkEvent (s : State) (cls detail l : Nat) (lane : Option Nat) : g (s.linkEvent cls detail l lane) = g s := hg.frames.raise ..

theorem timeLost (s : State) (l : Nat) : g (s.timeLost l) = g s := by
  unfold State.timeLost
  split
  · exact (hg.frames.raise ..).trans (hg.holdover ..)
  · rfl

theorem linkFall (s : State) (l detail : Nat) (again : Bool) : g (s.linkFall l detail again) = g s :=
  (hg.timeLost ..).trans ((hg.linkEvent ..).trans (hg.link ..))

theorem laneFails (s : State) (l : Nat) (rx : Bool) (c : Nat) : g (s.laneFails l rx c) = g s := hg.group ..

theorem takeTrains (n : Nat) (s : State) (l : Nat) : g (State.takeTrains n s l) = g s := by
  induction n generalizing s with
  | zero => rfl
  | succ n ih =>
    unfold State.takeTrains
    dsimp only
    split
    · rfl
    · split
      · exact (ih _).trans (hg.link ..)
      · split
        · rfl
        · split
          · rfl
          · exact (ih _).trans (hg.link ..)
          · exact (hg.linkEvent ..).trans ((hg.linkFall ..).trans ((hg.link ..).trans (hg.link ..)))
          · exact (ih _).trans ((hg.link ..).trans (hg.link ..))

theorem takeStream (s : State) (l : Nat) : g (s.takeStream l) = g s := hg.takeTrains ..

theorem beginRetrains (s : State) : g s.beginRetrains = g s := hg.frames.beginRetrains hg.link hg.holdover s

end KeptByLinks

end Sys2Proof.Machine
end

section
/-!
PROOFS. The run commands (R421): LOAD, ARM, RUN, HOLD, RELEASE, STOP, UNLOAD.
-/

namespace Sys2Proof.Machine

open Sys2Proof

/-! ### The Squares of a partition -/

theorem Tab.get_map {α : Type} {d : α} {f : α → α} (hd : f d = d) (t : Tab α) (n : Nat) :
    Tab.get d (t.map (fun e => (e.1, f e.2))) n = f (Tab.get d t n) := by
  induction t with
  | nil => exact hd.symm
  | cons e t ih =>
    simp only [List.map_cons, Tab.get]
    split
    · rfl
    · exact ih

/-- One change of each Square of a list without repeats. -/
theorem State.foldl_updSq_sq {l : List Nat} (hl : l.Nodup) (s : State) (f : Square → Square) (q : Nat) :
    (l.foldl (fun t q => t.updSq q f) s).sq q = if q ∈ l then f (s.sq q) else s.sq q := by
  induction l generalizing s with
  | nil => rfl
  | cons k l ih =>
    obtain ⟨hk, hl⟩ := List.nodup_cons.1 hl
    rw [List.foldl_cons, ih hl, State.sq_updSq]
    by_cases hq : k = q
    · subst hq; simp [hk]
    · simp [hq, Ne.symm hq]

theorem State.squaresOf_nodup (s : State) (p : Nat) : (s.squaresOf p).Nodup := List.nodup_range.filter _

theorem State.mem_squaresOf {s : State} {p q : Nat} : q ∈ s.squaresOf p ↔ q < 144 ∧ s.owner q = some p := by
  simp [State.squaresOf]

theorem State.haltSquares_sq {s : State} {p q : Nat} (ho : s.owner q = some p) (hq : q < 144) : (s.haltSquares p).sq q = (s.sq q).halt :=
  (State.foldl_updSq_sq (s.squaresOf_nodup p) s Square.halt q).trans (if_pos (State.mem_squaresOf.2 ⟨hq, ho⟩))

theorem Square.halt_player (x : Square) (n : Nat) : x.halt.player n = { x.player n with running := false, stopped := false } :=
  Tab.get_map (f := fun P : Player => { P with running := false, stopped := false }) rfl x.players n

/-- A Square at rest: no Player started, nothing in flight. -/
def Square.resting (x : Square) : Prop := (∀ n, (x.player n).running = false) ∧ x.inflight = []

theorem Square.halt_resting (x : Square) : x.halt.resting := ⟨fun n => by rw [Square.halt_player], rfl⟩

theorem Square.onLoad_resting {x : Square} (h : x.resting) : x.onLoad.resting := by
  obtain ⟨hplayers, hflight⟩ := h
  refine ⟨fun n => ?_, hflight⟩
  have hp : x.onLoad.player n = { x.player n with vl := 0, masks := [] } :=
    Tab.get_map (f := fun P : Player => { P with vl := 0, masks := [] }) rfl x.players n
  rw [hp]
  exact hplayers n

/-! ### What a run command leaves -/

/-- A reading of the state that a run command of partition p does not change. -/
structure KeptByRun {β : Type} (g : State → β) (p : Nat) : Prop where
  frames : KeptByFrames g
  links : ∀ s l, g { s with links := l } = g s
  part : ∀ s f, g (State.updPart s p f) = g s
  square : ∀ s q f, g (State.updSq s q f) = g s

namespace KeptByRun

variable {β : Type} {g : State → β} {p : Nat} (hg : KeptByRun g p)
include hg

theorem seat : KeptBySeat g p := ⟨hg.frames, fun s _ _ => hg.links s _, hg.part⟩

theorem haltSquares (s : State) : g (s.haltSquares p) = g s := foldl_keeps g _ s fun _ _ => hg.square ..

theorem dropTableKeys (s : State) : g (s.dropTableKeys p) = g s := hg.links ..

theorem refuseRuns (s : State) : g (s.refuseRuns p) = g s := by
  have hreply : ∀ (l : List Req) (u : State), g (l.foldl (fun t r => State.reply t r abState) u) = g u :=
    fun l u => foldl_keeps g l u fun _ _ => hg.frames.reply ..
  exact (hreply ..).trans (hg.part ..)

end KeptByRun

/-- What O29 says of everything but the request's partition. -/
theorem run_keeps {t u : State} {p : Nat} (h : ∀ {β : Type} {g : State → β}, KeptByRun g p → g u = g t) :
    OtherParts t u p ∧ u.dram = t.dram ∧ u.power = t.power ∧ u.service = t.service ∧ u.now = t.now := by
  refine ⟨fun k hk => h (g := fun t => t.part k) ⟨keptByFrames_part k, fun _ _ => rfl, fun s _ => (s.part_updPart ..).trans (if_neg hk.symm),
    fun _ _ _ => rfl⟩,
    h (g := State.dram) ?_, h (g := State.power) ?_, h (g := State.service) ?_, h (g := State.now) ?_⟩
  all_goals exact ⟨⟨fun _ _ _ => rfl, fun _ _ => rfl, fun _ _ => rfl, fun _ _ _ => rfl, fun _ => rfl, fun _ => rfl⟩,
    fun _ _ => rfl, fun _ _ => rfl, fun _ _ _ => rfl⟩

theorem runCommand_runs {s t : State} {r : Req} {code : Nat} {chk : State → Nat} {act : State → State} (h : Received s r t)
    (hr : isRunCommand r code = true) (hc : chk t = 0) : runCommand s r code chk act = .next (act t) :=
  congrArg Host.Outcome.next ((if_pos hr).trans (h.command hc))

/-! ### LOAD -/

theorem KeptByRun.load {β : Type} {g : State → β} {p : Nat} (hg : KeptByRun g p) (s : State) : g (s.load p).1 = g s := by
  have h1 : ∀ f, g (((s.haltSquares p).dropTableKeys p).updPart p f) = g s := fun f =>
    (hg.part ..).trans ((hg.dropTableKeys ..).trans (hg.haltSquares ..))
  unfold State.load
  dsimp only
  split
  · exact (hg.part ..).trans (h1 _)
  · exact (foldl_keeps g _ _ fun _ _ => by exact hg.square ..).trans ((hg.part ..).trans (h1 _))

/-- What LOAD leaves of the partition before the Book is checked: the measurement, and nothing loaded. -/
def Partition.unloaded (x : Partition) : Partition :=
  { x.leaveTable with book := [], pool := [], mdesc := [], contained := false, bookMeasurement := Config.sha384 x.image, runState := .empty }

/-- The partition, at rest and out of its Table, before the Book is checked. -/
def State.emptied (s : State) (p : Nat) : State :=
  ((s.haltSquares p).dropTableKeys p).updPart p (fun y =>
    { y.leaveTable with book := [], pool := [], mdesc := [], contained := false, bookMeasurement := Config.sha384 (s.part p).image
                        runState := .empty })

theorem State.haltSquares_part (s : State) (p k : Nat) : (s.haltSquares p).part k = s.part k :=
  foldl_keeps (fun t => t.part k) _ s fun _ _ => rfl

theorem State.emptied_part (s : State) (p : Nat) : (s.emptied p).part p = (s.part p).unloaded :=
  (State.part_updPart_same ..).trans (congrArg (fun y : Partition =>
    { y.leaveTable with book := [], pool := [], mdesc := [], contained := false, bookMeasurement := Config.sha384 (s.part p).image
                        runState := .empty }) (s.haltSquares_part p p))

theorem State.emptied_sq (s : State) (p q : Nat) : (s.emptied p).sq q = (s.haltSquares p).sq q := rfl

theorem State.load_fault {s : State} {p f : Nat} (hf : loadFaultOf (s.service.maxima.getD 5 2) (s.part p).image (s.part p).squares = f)
    (h : f ≠ 0) : s.load p = ((s.emptied p).updPart p (fun y => { y with loadFault := f }), abRange) := by
  subst hf
  exact if_pos h

theorem State.load_loads {s : State} {p : Nat} (h : loadFaultOf (s.service.maxima.getD 5 2) (s.part p).image (s.part p).squares = 0) :
    let b := (s.part p).image
    let t := (s.emptied p).updPart p (fun y =>
      { y with loadFault := 0, book := b, tableId := bookTableId b, seat := bookSeat b, stepCounter := 0, batchCounter := 0
               contained := decide (bookFlags b % 2 = 1), turnLength := 0, runState := .loaded })
    s.load p = ((t.squaresOf p).foldl (fun t q => t.updSq q Square.onLoad) t, 0) := if_neg (not_not_intro h)

/-- Every Square of the partition at rest. -/
def State.atRest (s : State) (p : Nat) (u : State) : Prop := ∀ q, s.owner q = some p → q < 144 → (u.sq q).resting

theorem State.atRest_player {s u : State} {p q : Nat} (h : s.atRest p u) (n : Nat) (ho : s.owner q = some p) (hq : q < 144) :
    (u.player q n).running = false ∧ (u.sq q).inflight = [] := ⟨(h q ho hq).1 n, (h q ho hq).2⟩

theorem State.haltSquares_atRest (s : State) (p : Nat) : s.atRest p (s.haltSquares p) := fun q ho hq => by
  rw [State.haltSquares_sq ho hq]
  exact (s.sq q).halt_resting

theorem State.load_atRest (s : State) (p : Nat) : s.atRest p (s.load p).1 := fun q ho hq => by
  have hhalt : (s.haltSquares p).sq q = (s.sq q).halt := State.haltSquares_sq ho hq
  by_cases h : loadFaultOf (s.service.maxima.getD 5 2) (s.part p).image (s.part p).squares = 0
  · rw [State.load_loads h]
    dsimp only
    rw [State.foldl_updSq_sq (State.squaresOf_nodup ..)]
    have hr : (s.sq q).halt.resting := (s.sq q).halt_resting
    split
    · exact Square.onLoad_resting (hhalt.symm ▸ hr)
    · exact (hhalt.symm ▸ hr)
  · rw [State.load_fault rfl h]
    exact (s.haltSquares_atRest p) q ho hq

/-- What LOAD leaves of the partition: nothing of a Book that fails its checks, a Book that passes them whole. -/
theorem State.load_part {s : State} {p f : Nat} (hf : loadFaultOf (s.service.maxima.getD 5 2) (s.part p).image (s.part p).squares = f) :
    (s.load p).2 = (if f = 0 then 0 else abRange) ∧
    (f ≠ 0 → ((s.load p).1.part p) = { (s.part p).unloaded with loadFault := f }) ∧
    (f = 0 → ((s.load p).1.part p) = { (s.part p).unloaded with
      loadFault := 0, book := (s.part p).image, tableId := bookTableId (s.part p).image, seat := bookSeat (s.part p).image
      stepCounter := 0, batchCounter := 0, contained := decide (bookFlags (s.part p).image % 2 = 1), turnLength := 0, runState := .loaded }) := by
  refine ⟨?_, fun h => ?_, fun h => ?_⟩
  · split
    next h => rw [State.load_loads (hf.trans h)]
    next h => rw [State.load_fault hf h]
  · rw [State.load_fault hf h, State.part_updPart_same, State.emptied_part]
  · rw [State.load_loads (hf.trans h)]
    refine (foldl_keeps (fun t => State.part t p) (f := fun t q => State.updSq t q Square.onLoad) _ _ fun _ _ => by rfl).trans ?_
    rw [State.part_updPart_same, State.emptied_part]

theorem execLoad_loads {s t : State} {r : Req} (h : Received s r t) (hr : isRunCommand r 1 = true)
    (hp : (t.part (reqPart r)).placing = false)
    (hs : (t.part (reqPart r)).runState = .empty ∨ (t.part (reqPart r)).runState = .stopped ∨ (t.part (reqPart r)).runState = .faulted)
    (hb : (t.part (reqPart r)).placedBytes ≠ 0) :
    exec (.load r) s = .next ((t.load (reqPart r)).1.reply r (t.load (reqPart r)).2) := by
  refine runCommand_runs h hr ?_
  dsimp only
  rcases hs with hs | hs | hs <;> simp [hp, hs, hb]

/-! ### ARM -/

/-- What the Joins of a forming Table leave of the partition that ARM has set up. -/
def Partition.unjoined (x : Partition) : Partition :=
  { x with seen := [], seenOn := [], joined := [], tableProtocol := 0, joinFault := 0, pool := [], anchors := [] }

/-- The memory, and the partition of a seat that joins its Table. -/
def State.joining (p : Nat) (s : State) : Dram × Partition := (s.dram, (s.part p).unjoined)

theorem keptByLinks_joining (p : Nat) : KeptByLinks (State.joining p) :=
  ⟨⟨fun _ _ _ => rfl, fun _ _ => rfl, fun _ _ => rfl, fun _ _ _ => rfl, fun _ => rfl, fun _ => rfl⟩, fun _ _ _ => rfl, fun _ _ _ => rfl,
    fun _ _ => rfl⟩

theorem State.joining_updPart (s : State) (p : Nat) {f : Partition → Partition} (hf : ∀ x, (f x).unjoined = x.unjoined) :
    (s.updPart p f).joining p = s.joining p := by
  rw [State.joining, State.part_updPart_same, hf]
  rfl

theorem State.joining_refuseJoin (s : State) (p : Nat) (m : TableMsg) : (s.refuseJoin p m).joining p = s.joining p :=
  ((keptByLinks_joining p).frames.raise ..).trans (s.joining_updPart p fun _ => by rfl)

theorem State.joining_joinedComplete (s : State) (p : Nat) : (s.joinedComplete p).joining p = s.joining p := by
  unfold State.joinedComplete
  exact (keptByLinks_joining p).frames.raiseIf ..

theorem State.joining_remember (s : State) (p : Nat) (m : TableMsg) : (s.remember p m).joining p = s.joining p :=
  s.joining_updPart p fun _ => by rfl

theorem State.joining_rememberOn (s : State) (p l : Nat) (m : TableMsg) : (s.rememberOn p l m).joining p = s.joining p :=
  s.joining_updPart p fun _ => by rfl

theorem State.joining_takeJoin (s : State) (p l : Nat) (m : TableMsg) : (s.takeJoin p l m).joining p = s.joining p := by
  unfold State.takeJoin
  dsimp only
  split
  · refine (State.joining_joinedComplete _ p).trans (((keptByLinks_joining p).sending.flood ..).trans ?_)
    exact (State.joining_updPart _ p fun _ => by rfl).trans (s.joining_remember p m)
  · exact (State.joining_refuseJoin ..).trans (s.joining_remember p m)

theorem State.joining_meetJoin (s : State) (p l : Nat) (m : TableMsg) : (s.meetJoin p l m).joining p = s.joining p := by
  unfold State.meetJoin
  dsimp only
  split
  · rfl
  · split
    · split
      · exact s.joining_rememberOn ..
      · exact (State.joining_refuseJoin ..).trans (s.joining_rememberOn ..)
    · exact (State.joining_takeJoin ..).trans (s.joining_rememberOn ..)

theorem State.joining_takeEarly (s : State) (p : Nat) : (s.takeEarly p).joining p = s.joining p :=
  (foldl_keeps (State.joining p) _ _ fun t _ => t.joining_meetJoin ..).trans rfl

theorem State.joining_offerKey (s : State) (p k l : Nat) : (s.offerKey k l).joining p = s.joining p := by
  unfold State.offerKey
  dsimp only
  split
  · rfl
  · exact ((keptByLinks_joining p).sending ..).trans rfl

theorem State.joining_installKey (s : State) (p k l slot : Nat) (point : List Byte) :
    (s.installKey k l slot point).joining p = s.joining p := by
  unfold State.installKey
  exact (keptByLinks_joining p).link ..

theorem State.joining_takeShares (s : State) (p k l : Nat) : (s.takeShares k l).joining p = s.joining p := by
  have hg := keptByLinks_joining p
  unfold State.takeShares
  dsimp only
  rw [hg.takeStream, hg.link]
  exact (foldl_keeps (State.joining p) _ _ fun t z => t.joining_installKey ..).trans (hg.link ..)

theorem State.joining_sendJoin (s : State) (p : Nat) : (s.sendJoin p).joining p = s.joining p := by
  unfold State.sendJoin
  dsimp only
  rw [State.joining_joinedComplete, (keptByLinks_joining p).sending.flood, State.joining_remember]
  exact foldl_keeps (State.joining p) _ s fun t l => (State.joining_takeShares ..).trans (t.joining_offerKey ..)

theorem State.joining_takeBlocks (s : State) (p : Nat) (b : List Byte) :
    ((bookBlocks b).foldl (fun t off => t.updSq (blockSquare b off) (fun x => x.takeBlock b off)) s).joining p = s.joining p :=
  foldl_keeps (State.joining p) _ s fun _ _ => by rfl

theorem State.joining_applyPatches (s : State) (p : Nat) : (s.applyPatches p).joining p = s.joining p :=
  foldl_keeps (State.joining p) _ s fun t c => foldl_keeps (State.joining p) _ t fun _ _ => by rfl

theorem Partition.unpooled_unjoined {x y : Partition} (h : x.unpooled = y.unpooled) : x.unjoined = y.unjoined :=
  (congrArg Partition.unjoined h : x.unpooled.unjoined = y.unpooled.unjoined)

theorem State.joining_applyAdvances (s : State) (p : Nat) : (s.applyAdvances p).joining p = s.joining p :=
  congrArg (Prod.mk s.dram) (Partition.unpooled_unjoined (s.applyAdvances_unpooled p))

theorem State.joining_applySwaps (s : State) (p : Nat) : (s.applySwaps p).joining p = s.joining p :=
  congrArg (Prod.mk s.dram) (Partition.unpooled_unjoined (s.applySwaps_unpooled p))

/-- A partition that ARM has set up with its Book (Table ULY-5), its Table still to form. -/
def Partition.arms (x : Partition) (s : State) (b : List Byte) : Partition :=
  { x.leaveTable with anchors := [], pool := (List.range (secEntries b 6)).map (bookDesc b)
                      mdesc := (List.range (secEntries b 2)).map (bookMover b)
                      turn := 0, epoch := 0, epochTurn := 0, frozen := false, errorLatch := false, runState := .armed
                      tableProtocol := s.service.maxima.getD 4 2, joinFault := 0xFFFF, lastActivity := s.now }

/-- The state that ARM sets up before the Table forms. -/
def State.arms (s : State) (p : Nat) : State :=
  let b := (s.part p).book
  let s1 := (bookBlocks b).foldl (fun t off => t.updSq (blockSquare b off) (fun x => x.takeBlock b off)) s
  let s2 := s1.updPart p (fun x => x.arms s b)
  s2.updPart p (fun x =>
    { x with joined := [{ seat := x.seat, protocol := s.service.maxima.getD 4 2, root := bit (ownJoin 2 x).arg 16 }] })

theorem State.arm_eq (s : State) (p : Nat) : s.arm p =
    (((if ((s.arms p).part p).stepCounter % 2 = 1 then (s.arms p).applySwaps p else s.arms p).applyAdvances p).applyPatches p
      |>.takeEarly p).sendJoin p := rfl

theorem State.joining_arms (s : State) (p : Nat) : (s.arms p).joining p = (s.dram, ((s.part p).arms s (s.part p).book).unjoined) := by
  have hblocks := Prod.mk.inj (s.joining_takeBlocks p (s.part p).book)
  have hpart := foldl_keeps (fun t => State.part t p) (f := fun t off => t.updSq (blockSquare (s.part p).book off)
    (fun x => x.takeBlock (s.part p).book off)) (bookBlocks (s.part p).book) s fun _ _ => by rfl
  unfold State.arms
  dsimp only
  rw [State.joining_updPart _ _ fun _ => by rfl, State.joining, State.part_updPart_same, hpart]
  exact congrArg (fun d => (d, ((s.part p).arms s (s.part p).book).unjoined)) hblocks.1

theorem State.joining_arm (s : State) (p : Nat) : (s.arm p).joining p = (s.dram, ((s.part p).arms s (s.part p).book).unjoined) := by
  rw [s.arm_eq, State.joining_sendJoin, State.joining_takeEarly, State.joining_applyPatches, State.joining_applyAdvances, ← s.joining_arms]
  split
  · exact State.joining_applySwaps ..
  · rfl

theorem Partition.unjoined_reads {x y : Partition} (h : x.unjoined = y.unjoined) : x.runState = y.runState ∧ x.frozen = y.frozen ∧
    x.turn = y.turn ∧ x.errorLatch = y.errorLatch ∧ x.book = y.book :=
  ⟨(congrArg Partition.runState h :), (congrArg Partition.frozen h :), (congrArg Partition.turn h :),
    (congrArg Partition.errorLatch h :), (congrArg Partition.book h :)⟩

/-- What an armed partition keeps through the joining of its Table: its memory, the loaded Book, a Turn timer at rest. -/
theorem State.arm_armed (s : State) (p : Nat) : (s.arm p).dram = s.dram ∧ ((s.arm p).part p).runState = .armed ∧
    ((s.arm p).part p).frozen = false ∧ ((s.arm p).part p).turn = 0 ∧ ((s.arm p).part p).errorLatch = false ∧
    ((s.arm p).part p).book = (s.part p).book := by
  obtain ⟨hdram, hpart⟩ := Prod.mk.inj (s.joining_arm p)
  exact ⟨hdram, Partition.unjoined_reads hpart⟩

/-! ### RUN, HOLD, RELEASE, STOP, UNLOAD -/

/-- A seat without a Hold of its own left does not hold its Table. -/
theorem State.releaseHold_holds {s : State} {p cause : Nat} (outcome : Nat) (hc : cause ∈ (s.part p).ownHold)
    (h : (s.part p).ownHold.filter (fun c => decide (c ≠ cause)) = []) :
    ((s.releaseHold p cause outcome).part p).holds (s.part p).seat = false := by
  unfold State.releaseHold
  dsimp only
  rw [if_neg (by simpa using hc), if_pos (by rw [h]; rfl), State.remember_flood_part, State.part_updPart_same]
  refine (congrArg (fun l : List Nat => l.contains (s.part p).seat) (Partition.dropHold_holders _ _ _).1).trans ?_
  simp

/-- What the partition's RUN keeps beside its start. -/
def Partition.runsAt (x : Partition) (r : Req) (now : Nat) : Partition :=
  { x with runs := x.runs ++ [r]
           start := match x.start with
             | some b => if now < b.1 ∨ (now = b.1 ∧ x.seat < b.2) then some (now, x.seat) else some b
             | none => some (now, x.seat) }

/-- A partition that has left its Table stopped. -/
def Partition.stopsRun (x : Partition) : Partition := { x.leaveTable with runState := .stopped }

/-- A partition that holds no Book. -/
def Partition.unloads (x : Partition) : Partition :=
  { x.leaveTable with book := [], pool := [], mdesc := [], image := [], placedBytes := 0, contained := false, runState := .empty }

theorem State.dropTableKeys_part (s : State) (p k : Nat) : (s.dropTableKeys p).part k = s.part k := rfl

theorem State.refuseRuns_part (s : State) (p : Nat) : (s.refuseRuns p).part p = { s.part p with runs := [] } :=
  (foldl_keeps (fun t => State.part t p) (f := fun t r => State.reply t r abState) _ _ fun t r => (keptByFrames_part p).reply t r _).trans
    (State.part_updPart_same ..)

theorem State.refuseRuns_sq (s : State) (p q : Nat) : (s.refuseRuns p).sq q = s.sq q :=
  foldl_keeps (fun t => State.sq t q) (f := fun t r => State.reply t r abState) _ _ fun t r => by simp

/-- Settles O29: each command runs its action on the received frame, and the partition that the action leaves is read off. -/
theorem runCommands : Obligations.RunCommands := by
  unfold Obligations.RunCommands
  intro s t r p x keeps parked h
  have hpark : ∀ u : State, t.atRest p u → parked u := fun u hu q n ho hq => State.atRest_player hu n ho hq
  refine ⟨fun hr hp hs hb => ?_, fun hr htest hrun hpow hdel hbounce hfault => ?_, fun hr hmay hdel => ?_, fun hr htab hno => ?_,
    fun hr hrun hown => ?_, fun hr hrun => ?_, fun hr hrun => ?_⟩
  case _ =>
    intro f
    obtain ⟨hans, hbad, hgood⟩ := State.load_part (s := t) (p := p) (f := f) rfl
    refine ⟨(t.load p).1, (execLoad_loads h hr hp hs hb).trans (by rw [hans]), run_keeps fun hg => hg.load t,
      hpark _ (t.load_atRest p), ?_⟩
    by_cases hf : f = 0
    · rw [hgood hf]
      exact ⟨hf.symm, rfl, rfl, fun hn => absurd hf hn, fun _ => ⟨rfl, rfl, rfl, rfl, rfl, rfl⟩⟩
    · rw [hbad hf]
      exact ⟨rfl, rfl, rfl, fun _ => ⟨rfl, rfl⟩, fun hn => absurd hn hf⟩
  case _ =>
    refine ⟨t.arm p, (runCommand_runs h hr ?_).trans ?_, rfl, t.arm_armed p⟩
    · simp only [p, x] at *
      simp [htest, hrun, hpow, hdel, hbounce]
    · dsimp only
      rw [hfault]
  case _ =>
    let m : TableMsg := { tableId := x.tableId, kind := 5, rsv := 0, cause := 0, seat := x.seat, stamp := t.now, arg := 0 }
    have hpart := ((t.updPart p (fun y => y.runsAt r t.now)).remember_flood_part p m none).trans
      (by rw [State.part_updPart_same])
    refine ⟨((t.updPart p (fun y => y.runsAt r t.now)).remember p m).flood p m none, ?_, ?_, ?_⟩
    · refine runCommand_runs h hr ?_
      exact (if_neg (by simp [show (t.part (reqPart r)).delivering = false from hdel])).trans (if_pos hmay)
    · exact run_keeps fun hg => (hg.seat.sending.flood ..).trans ((hg.part ..).trans (hg.part ..))
    · have hm := hmay
      unfold Partition.mayRun at hm
      simp only [Bool.and_eq_true, decide_eq_true_eq] at hm
      rw [hpart, Partition.runsAt]
      refine ⟨rfl, ?_, hm.1.1.1, fun hs => by simp [show (t.part p).start = none from hs, x]⟩
      exact KeptBySending.flood (g := State.responses) (fun _ _ _ => rfl) _ p m none
  case _ =>
    have hpart := State.requestHold_part (s := t) htab (by simpa using hno)
    refine ⟨t.requestHold p 6, (runCommand_runs h hr ?_).trans rfl, run_keeps fun hg => hg.seat.holds.requestHold .., ?_⟩
    · exact if_pos (by simp [show (t.part (reqPart r)).tabled = true from htab, show 6 ∉ (t.part (reqPart r)).ownHold from hno])
    · rw [hpart, Partition.asksHold]
      dsimp only
      refine ⟨Partition.addHold_ownHold .., ?_, fun hrun hheld => ?_⟩
      · refine (Partition.addHold_holds ..).trans ?_
        simp [x]
      · exact (Partition.addHold_running (x := { x with ownHold := x.ownHold ++ [6] }) hheld hrun ..).1
  case _ =>
    refine ⟨t.releaseHold p 6 2, (runCommand_runs h hr ?_).trans rfl, run_keeps fun hg => hg.seat.holds.releaseHold ..,
      t.releaseHold_ownHold p 6 2, fun hn => State.releaseHold_holds 2 hown ((t.releaseHold_ownHold p 6 2).symm.trans hn)⟩
    have hc : (t.part (reqPart r)).ownHold.contains 6 = true := List.contains_iff_mem.2 hown
    have hd : (decide ((t.part (reqPart r)).runState = .draining) || decide ((t.part (reqPart r)).runState = .held)) = true := by
      simpa using hrun
    exact if_pos (by rw [hd, hc]; rfl)
  case _ =>
    refine ⟨(((t.refuseRuns p).haltSquares p).dropTableKeys p).updPart p Partition.stopsRun, (runCommand_runs h hr (if_pos hrun)).trans rfl,
      ?_, ?_, ?_⟩
    · exact run_keeps fun hg => (hg.part ..).trans ((hg.dropTableKeys ..).trans ((hg.haltSquares ..).trans (hg.refuseRuns ..)))
    · exact hpark _ fun q ho hq =>
        (t.refuseRuns p).haltSquares_atRest p q ((congrArg Square.owner (t.refuseRuns_sq p q)).trans ho) hq
    · rw [State.part_updPart_same, State.dropTableKeys_part, State.haltSquares_part, State.refuseRuns_part]
      exact ⟨rfl, rfl, rfl, rfl⟩
  case _ =>
    refine ⟨((t.haltSquares p).dropTableKeys p).updPart p Partition.unloads, (runCommand_runs h hr (if_pos hrun)).trans rfl, ?_,
      hpark _ (t.haltSquares_atRest p), ?_⟩
    · exact run_keeps fun hg => (hg.part ..).trans ((hg.dropTableKeys ..).trans (hg.haltSquares ..))
    · rw [State.part_updPart_same, State.dropTableKeys_part, State.haltSquares_part]
      exact ⟨rfl, rfl, rfl, rfl, rfl⟩

end Sys2Proof.Machine
end

section
/-!
PROOFS. Stack memory (R304, R305, R309, R312, R318, R323): what the regulators leave as it is, reads, writes and upkeep of sectors.
-/

namespace Sys2Proof.Machine

open Sys2Proof

/-! ### What the regulators leave -/

/-- A memory-side die without its regulators. -/
def MemDie.unregulated (d : MemDie) : MemDie := { d with filledAt := 0, pool := 0, g := [], c := [], waiting := [], lastSurplus := 0 }

/-- A reading of the state that the regulators of a die do not change. -/
structure KeptByCharges {β : Type} (g : State → β) (die : Nat) : Prop where
  die : ∀ s f, (∀ y, (f y).unregulated = y.unregulated) → g (State.updMemDie s die f) = g s
  wait : ∀ s w, g { s with dram := { s.dram with tokenWait := w } } = g s

namespace KeptByCharges

variable {β : Type} {g : State → β} {die : Nat} (hg : KeptByCharges g die)
include hg

theorem fill (s : State) (dt : Nat) : g (s.fill die dt) = g s := hg.die _ _ fun _ => rfl

theorem admitReq (s : State) (r : TokenReq × Nat) (path : Bool) : g (s.admitReq die r path) = g s := by
  unfold State.admitReq
  dsimp only
  split
  · exact (hg.wait ..).trans (hg.die _ _ fun _ => rfl)
  · exact hg.die _ _ fun _ => rfl

theorem serveFrom (n : Nat) (s : State) : g (State.serveFrom n die s) = g s := by
  induction n generalizing s with
  | zero => rfl
  | succ n ih =>
    unfold State.serveFrom
    split
    · exact (ih _).trans (hg.admitReq ..)
    · rfl

theorem serve (s : State) : g (s.serve die) = g s := hg.serveFrom ..

theorem passFrom (n : Nat) (s : State) : g (State.passFrom n die s) = g s := by
  induction n generalizing s with
  | zero => rfl
  | succ n ih =>
    unfold State.passFrom
    split
    · exact hg.fill ..
    · exact (ih _).trans ((hg.serve _).trans (hg.fill ..))

theorem refill (s : State) : g (s.refill die) = g s := hg.passFrom ..

theorem charge (s : State) (r : TokenReq) : g (s.charge die r) = g s := by
  unfold State.charge
  exact (hg.serve _).trans ((hg.die _ _ fun _ => by rfl).trans (hg.refill s))

end KeptByCharges

theorem KeptByCharges.chargeStack {β : Type} {g : State → β} {pa : Nat} (hg : KeptByCharges g (paStack pa / 4)) (s : State)
    (who sectors partly : Nat) : g (s.chargeStack who pa sectors partly) = g s := hg.charge ..

/-! ### The sector of an address -/

theorem paChunk_sector (pa : Nat) {i : Nat} (hi : i < 64) : paChunk (pa / 64 * 64 + i) = paChunk pa := by
  unfold paChunk fld
  rw [Nat.shiftRight_eq_div_pow, Nat.shiftRight_eq_div_pow, show (pa / 64 * 64 + i) / 2 ^ 12 = pa / 2 ^ 12 by omega]

theorem paStack_sector (pa : Nat) {i : Nat} (hi : i < 64) : paStack (pa / 64 * 64 + i) = paStack pa := by
  unfold paStack paLane
  rw [paChunk_sector pa hi]

theorem paChannel_sector (pa : Nat) {i : Nat} (hi : i < 64) : paChannel (pa / 64 * 64 + i) = paChannel pa := by
  unfold paChannel paLane
  rw [paChunk_sector pa hi]

theorem paRow_sector (pa : Nat) {i : Nat} (hi : i < 64) : paRow (pa / 64 * 64 + i) = paRow pa := by
  unfold paRow
  rw [paChunk_sector pa hi]

theorem inDevice_sector (pa : Nat) {i : Nat} (hi : i < 64) : inDevice (pa / 64 * 64 + i) = inDevice pa := by
  unfold inDevice deviceBase
  exact congrArg₂ (· && ·) (decide_eq_decide.2 (by omega)) (decide_eq_decide.2 (by omega))

namespace State

variable (s : State) (pa : Nat) {i : Nat} (hi : i < 64)
include hi

theorem physOf_sector : s.physOf (pa / 64 * 64 + i) = s.physOf pa := by
  rw [State.physOf, paStack_sector pa hi, paChannel_sector pa hi]
  rfl

theorem sectorKey_sector : s.sectorKey (pa / 64 * 64 + i) = s.sectorKey pa := by
  rw [State.sectorKey, paStack_sector pa hi, s.physOf_sector pa hi, paRow_sector pa hi, paByte,
    show (pa / 64 * 64 + i) % 4096 / 64 = pa % 4096 / 64 by omega]
  rfl

theorem pageMeta_sector : s.pageMeta (pa / 64 * 64 + i) = s.pageMeta pa := by
  rw [State.pageMeta, inDevice_sector pa hi, show (pa / 64 * 64 + i) / 65536 = pa / 65536 by omega]
  rfl

theorem sectorMeta_sector : s.sectorMeta (pa / 64 * 64 + i) = s.sectorMeta pa := by
  rw [State.sectorMeta, s.pageMeta_sector pa hi, s.sectorKey_sector pa hi]
  rfl

theorem mirrorPhys_sector : s.mirrorPhys (pa / 64 * 64 + i) = s.mirrorPhys pa := by
  rw [State.mirrorPhys, paStack_sector pa hi, paChannel_sector pa hi, paRow_sector pa hi]
  rfl

theorem plainByte_sector : s.plainByte (pa / 64 * 64 + i) =
    if s.ownContent pa then Mem.read 0 s.dram.cells (s.sectorKey pa * 64 + i) ^^^ s.deviceContent (pa / 64 * 64 % 2 ^ 34 + i)
    else Mem.read 0 s.dram.cells (s.sectorKey pa * 64 + i) := by
  have hown : s.ownContent (pa / 64 * 64 + i) = s.ownContent pa := by
    rw [State.ownContent, inDevice_sector pa hi, s.sectorMeta_sector pa hi]
    rfl
  unfold State.plainByte
  rw [hown, s.sectorKey_sector pa hi, show (pa / 64 * 64 + i) % 64 = i by omega,
    show (pa / 64 * 64 + i) % 2 ^ 34 = pa / 64 * 64 % 2 ^ 34 + i by omega]

end State

theorem Nat.sector_add (pa : Nat) : pa / 64 * 64 + pa % 64 = pa := by omega

/-! ### Disturbed bits -/

theorem State.upsetSector_zero (s : State) (pa : Nat) : s.upsetSector pa 0 = s := by
  unfold State.upsetSector
  exact if_pos BitVec.zero_and

theorem State.upsetSector_eq (s : State) (pa : Nat) (e : BitVec 580) :
    s.upsetSector pa e = { s with dram := { s.dram with sectors := (s.upsetSector pa e).dram.sectors } } := by
  unfold State.upsetSector
  split <;> rfl

/-- A reading of the state that the side-band of the sectors does not enter. -/
theorem State.upsetSector_keeps {β : Type} {g : State → β} (hg : ∀ s l, g { s with dram := { s.dram with sectors := l } } = g s)
    (s : State) (pa : Nat) (e : BitVec 580) : g (s.upsetSector pa e) = g s := by
  rw [s.upsetSector_eq pa e]
  exact hg ..

/-! ### Reads -/

theorem State.readEffects_clean {s : State} {who pa : Nat} (h : s.outcome who pa = 0) (part : Option Nat) (step : Bool) (pools : List Nat) :
    s.readEffects who pa part step pools = s := by
  unfold State.readEffects
  simp only [h]

/-- A reading of the state that an uncorrectable error of a partition does not change. -/
structure KeptByReadErrors {β : Type} (g : State → β) : Prop where
  frames : KeptByFrames g
  stack : ∀ s n f, g (State.updStack s n f) = g s
  die : ∀ s d f, g (State.updMemDie s d f) = g s
  part : ∀ s p f, g (State.updPart s p f) = g s

namespace KeptByReadErrors

variable {β : Type} {g : State → β} (hg : KeptByReadErrors g)
include hg

theorem triggerMigration (s : State) (st ch : Nat) : g (s.triggerMigration st ch) = g s := by
  unfold State.triggerMigration State.startMigration
  dsimp only
  split
  · rfl
  · split
    · split
      · exact hg.frames.raise ..
      · exact (hg.die ..).trans (hg.stack ..)
    · exact hg.die ..

theorem dataError (s : State) (p : Nat) (va : Option Nat) (latch : Bool) : g (s.dataError p va latch) = g s := hg.part ..

theorem countRead (s : State) (st phys kind : Nat) : g (s.countRead st phys kind) = g s := hg.stack ..

/-- A read that fails for its partition is counted, reported and latched, and may start a migration. -/
theorem readEffects {s : State} {p pa : Nat} (hp : p ≠ deviceOwner) (h : 2 ≤ s.outcome p pa) (pools : List Nat) :
    g (s.readEffects p pa (some p) true pools) = g s := by
  unfold State.readEffects
  rcases State.outcome_fails h with ho | ho
  · simp only [ho, if_neg hp, if_true]
    rw [hg.triggerMigration, hg.dataError, hg.frames.raise, hg.countRead]
  · simp only [ho, if_neg hp]
    rw [if_neg (by decide), hg.dataError, hg.frames.raise, hg.countRead]

/-- A part of a sector that does not verify is not written (R305). -/
theorem writeBytes {s : State} {p pa : Nat} {ws : List (Nat × Byte × Byte)} (hp : p ≠ deviceOwner)
    (h : 2 ≤ s.outcome p (pa / 64 * 64)) (hpart : (List.range 64).all (fun i =>
      decide ((ws.filter (fun w => decide (w.1 = i))).foldl (fun a w => a &&& w.2.2) (0xFF : Byte) = 0)) = false) (pools : List Nat) :
    g (s.writeBytes p pa (some p) ws pools) = g s := by
  simp only [State.writeBytes, hpart, Bool.false_eq_true, if_false, hp]
  rcases State.outcome_fails h with ho | ho
  · simp only [ho]
    rw [hg.triggerMigration, hg.dataError, hg.frames.raise, hg.countRead]
  · simp only [ho]
    rw [hg.dataError, hg.frames.raise, hg.countRead]

end KeptByReadErrors

theorem State.settleLost_none {s : State} (h : s.lostObjects = []) : s.settleLost =
    { s with lostObjects := [], defaulted := s.defaulted.take 1024 } := by
  unfold State.settleLost
  simp [h]

theorem exec_memoryRead {s : State} {owner pa : Nat} (ho : owner ≤ 16) (hpa : pa < 2 ^ 41) (upset : BitVec 580) :
    (s.stackOn (paStack pa) = true → exec (.memoryRead owner pa upset) s = .next ((s.upsetSector pa upset).readSector owner pa)) ∧
    (s.stackOn (paStack pa) = false → exec (.memoryRead owner pa upset) s = .next s) := by
  have hunit : (decide (owner ≤ 16) && decide (pa < 2 ^ 41)) = true := by rw [decide_eq_true ho, decide_eq_true hpa]; rfl
  exact ⟨fun h => (onUnit_next hunit _).trans (congrArg Host.Outcome.next (if_pos h)),
    fun h => (onUnit_next hunit _).trans (congrArg Host.Outcome.next (if_neg (by simp [h])))⟩

/-- What a read leaves as the outcome's effects left it: all but the delivered bytes, the regulators and the settled losses. -/
theorem State.readSector_keeps {β : Type} {g : State → β} {t : State} {owner pa : Nat} (hg : KeptByCharges g (paStack pa / 4))
    (hd : ∀ s v, g { s with dram := { s.dram with delivered := v } } = g s) (hs : ∀ s l, g { s with lostObjects := [], defaulted := l } = g s)
    (hl : (t.readEffects owner (pa / 64 * 64) (ownerPart owner) true).lostObjects = []) :
    g (t.readSector owner pa) = g (t.readEffects owner (pa / 64 * 64) (ownerPart owner) true) := by
  unfold State.readSector
  dsimp only
  rw [hd, hg.chargeStack, State.settleLost_none hl, hs]

/-- What a clean read leaves beside the side-band: the stored bytes, the events, the partitions, the Squares, the stacks. -/
def State.stored (s : State) : List Host.Cell × List Event × Tab Partition × Tab Square × Tab Stack :=
  (s.dram.cells, s.events, s.parts, s.squares, s.dram.stackTab)

theorem State.stored_eq {s u : State} (h : u.stored = s.stored) : u.dram.cells = s.dram.cells ∧ u.events = s.events ∧ u.parts = s.parts ∧
    u.squares = s.squares ∧ u.dram.stackTab = s.dram.stackTab := by
  simpa only [State.stored, Prod.mk.injEq] using h

/-- What an uncorrectable read leaves beside the memory: the stored bytes, the Squares, the latch of its partition. -/
def State.storedLatch (p : Nat) (s : State) : List Host.Cell × Tab Square × Bool := (s.dram.cells, s.squares, (s.part p).errorLatch)

/-- Settles O36: the outcome's effects are those of its case, and the rest of a read keeps what the effects leave. -/
theorem memoryReads : Obligations.MemoryReads := by
  unfold Obligations.MemoryReads
  intro s owner pa upset t o howner hpa hlost
  obtain ⟨hon, hoff⟩ := exec_memoryRead (s := s) howner hpa upset
  have htlost : t.lostObjects = [] := (State.upsetSector_keeps (fun _ _ => rfl) ..).trans hlost
  refine ⟨hoff, fun h => ⟨t.readSector owner pa, hon h, rfl, fun hclean => ?_, fun hp hbad => ?_⟩⟩
  case _ =>
    have heff : t.readEffects owner (pa / 64 * 64) (ownerPart owner) true = t := State.readEffects_clean hclean ..
    have hl : (t.readEffects owner (pa / 64 * 64) (ownerPart owner) true).lostObjects = [] := heff.symm ▸ htlost
    have hsectors := State.readSector_keeps (g := fun u => u.dram.sectors) ⟨fun _ _ _ => rfl, fun _ _ => rfl⟩ (fun _ _ => rfl) (fun _ _ => rfl) hl
    have hstored := State.readSector_keeps (g := State.stored) ⟨fun _ _ _ => rfl, fun _ _ => rfl⟩ (fun _ _ => rfl) (fun _ _ => rfl) hl
    rw [heff] at hsectors hstored
    obtain ⟨hcells, hevents, hparts, hsquares, hstacks⟩ :=
      State.stored_eq (hstored.trans (State.upsetSector_keeps (g := State.stored) (fun _ _ => rfl) s pa upset))
    exact ⟨hcells, hsectors, hevents, hparts, hsquares, hstacks⟩
  case _ =>
    have hne := ne_deviceOwner_of_partition hp
    have hpart : ownerPart owner = some owner := if_pos hp
    have hl : (t.readEffects owner (pa / 64 * 64) (ownerPart owner) true).lostObjects = [] := by
      rw [hpart]
      refine (KeptByReadErrors.readEffects (g := State.lostObjects) ?_ hne hbad []).trans htlost
      exact ⟨⟨fun _ _ _ => rfl, fun _ _ => rfl, fun _ _ => rfl, fun _ _ _ => rfl, fun _ => rfl, fun _ => rfl⟩, fun _ _ _ => rfl, fun _ _ _ => rfl,
        fun _ _ _ => rfl⟩
    have hkept : (t.readEffects owner (pa / 64 * 64) (some owner) true).dram.cells = t.dram.cells ∧
        (t.readEffects owner (pa / 64 * 64) (some owner) true).squares = t.squares := by
      refine Prod.mk.inj (KeptByReadErrors.readEffects (g := fun u => (u.dram.cells, u.squares)) ?_ hne hbad [])
      exact ⟨⟨fun _ _ _ => rfl, fun _ _ => rfl, fun _ _ => rfl, fun _ _ _ => rfl, fun _ => rfl, fun _ => rfl⟩, fun _ _ _ => rfl, fun _ _ _ => rfl,
        fun _ _ _ => rfl⟩
    have hread := State.readSector_keeps (g := State.storedLatch owner) ⟨fun _ _ _ => rfl, fun _ _ => rfl⟩ (fun _ _ => rfl) (fun _ _ => rfl) hl
    rw [hpart] at hread
    simp only [State.storedLatch, Prod.mk.injEq] at hread
    obtain ⟨hcells, hsquares, hlatch⟩ := hread
    have htpart : t.part owner = s.part owner := State.upsetSector_keeps (g := fun u => u.part owner) (fun _ _ => rfl) ..
    rw [State.readEffects_errorLatch hne hbad [], htpart] at hlatch
    refine ⟨hcells.trans (hkept.1.trans (State.upsetSector_keeps (g := fun u => u.dram.cells) (fun _ _ => rfl) ..)),
      hsquares.trans (hkept.2.trans (State.upsetSector_keeps (g := State.squares) (fun _ _ => rfl) ..)),
      fun hv => hlatch.trans (Partition.latchAfterError_unvoted hv), fun hv => hlatch.trans (Partition.latchAfterError_voted hv)⟩

/-! ### Stored sectors -/

theorem Mem.read_write_other {α : Type} [DecidableEq α] (d e : α) (m : List (Nat × α)) {a b : Nat} (v : α) (h : a ≠ b) :
    Mem.read e (Mem.write d m a v) b = Mem.read e m b := by
  unfold Mem.write
  split
  · exact (Mem.read_erase e m a b).trans (if_neg h)
  · exact (Tab.get_put e m a b v).trans (if_neg h)

theorem sectorDecode_zero : sectorDecode 0 = .clean := by decide +kernel

/-- A sector without a wrong bit. -/
theorem Sector.readError_zero {m : Sector} (h : m.upset = 0) : m.readError = 0 := by
  simp only [Sector.readError, sectorResidual, h, sectorDecode_zero]
  exact BitVec.toNat_zero

theorem byteAt_padTo {l : List Byte} {n i : Nat} (hi : i < n) : (padTo n l).getD i 0 = byteAt l i := by
  unfold padTo byteAt
  rw [List.headD_eq_head?_getD, List.head?_drop, List.getD_eq_getElem?_getD, List.getElem?_append, List.length_take]
  by_cases h : i < l.length
  · rw [if_pos (by omega), List.getElem?_take, if_pos hi]
  · rw [if_neg (by omega), List.getElem?_replicate, List.getElem?_eq_none (by omega)]
    split <;> rfl

section
variable (s : State) (pa : Nat) {m : Sector} (hm : m.owner ≠ deviceOwner) (bytes : List Byte)
include hm

/-- The cells of a sector stored for a partition: its bytes, and every other cell as before. -/
theorem State.storeSector_cell (key k : Nat) : Mem.read 0 (s.storeSector pa key m bytes).dram.cells k =
    if key * 64 ≤ k ∧ k < key * 64 + 64 then (padTo 64 bytes).getD (k - key * 64) 0 else Mem.read 0 s.dram.cells k := by
  have hlen : (padTo 64 bytes).length = 64 := by simp [padTo]; omega
  unfold State.storeSector
  dsimp only
  rw [if_neg (by simp [hm]), Mem.read_writeAll, hlen]

theorem State.storeAt_cell {i : Nat} (hi : i < 64) : Mem.read 0 (s.storeAt pa m bytes).dram.cells (s.sectorKey pa * 64 + i) = byteAt bytes i := by
  have hfirst : Mem.read 0 (s.storeSector pa (s.sectorKey pa) m bytes).dram.cells (s.sectorKey pa * 64 + i) = byteAt bytes i := by
    rw [s.storeSector_cell pa hm, if_pos (by omega), Nat.add_sub_cancel_left, byteAt_padTo hi]
  unfold State.storeAt
  dsimp only
  split
  · rw [State.storeSector_cell _ _ hm]
    split
    next h => rw [show ∀ key, key * 64 ≤ s.sectorKey pa * 64 + i → s.sectorKey pa * 64 + i < key * 64 + 64 →
        s.sectorKey pa * 64 + i - key * 64 = i from fun key h1 h2 => by omega, byteAt_padTo hi]
              all_goals omega
    next => exact hfirst
  · exact hfirst

/-- A cell that is 0 stays 0 where a sector of zeros is stored. -/
theorem State.storeAt_zero {k : Nat} (hk : Mem.read 0 s.dram.cells k = 0) : Mem.read 0 (s.storeAt pa m []).dram.cells k = 0 := by
  have hstore : ∀ (t : State) (a key : Nat), Mem.read 0 t.dram.cells k = 0 → Mem.read 0 (t.storeSector a key m []).dram.cells k = 0 :=
    fun t a key ht => by
      rw [t.storeSector_cell a hm]
      split
      next h => rw [byteAt_padTo (by omega)]; simp [byteAt]
      next => exact ht
  unfold State.storeAt
  dsimp only
  split
  · exact hstore _ _ _ (hstore _ _ _ hk)
  · exact hstore _ _ _ hk

theorem State.storeAt_otherCell (hmir : s.mirrorPhys pa = none) {key i : Nat} (hk : key ≠ s.sectorKey pa) (hi : i < 64) :
    Mem.read 0 (s.storeAt pa m bytes).dram.cells (key * 64 + i) = Mem.read 0 s.dram.cells (key * 64 + i) := by
  unfold State.storeAt
  simp only [hmir]
  rw [s.storeSector_cell pa hm, if_neg (by omega)]

end

theorem State.storeSector_keeps {β : Type} {g : State → β}
    (hg : ∀ s cells sectors, g { s with dram := { s.dram with cells := cells, sectors := sectors } } = g s)
    (s : State) (pa key : Nat) (m : Sector) (bytes : List Byte) : g (s.storeSector pa key m bytes) = g s := hg ..

theorem State.storeAt_keeps {β : Type} {g : State → β}
    (hg : ∀ s cells sectors, g { s with dram := { s.dram with cells := cells, sectors := sectors } } = g s)
    (s : State) (pa : Nat) (m : Sector) (bytes : List Byte) : g (s.storeAt pa m bytes) = g s := by
  unfold State.storeAt
  dsimp only
  split
  · exact (State.storeSector_keeps hg ..).trans (State.storeSector_keeps hg ..)
  · exact State.storeSector_keeps hg ..

theorem State.storeAt_meta (s : State) (pa : Nat) (m : Sector) (bytes : List Byte) : (s.storeAt pa m bytes).sectorMeta pa = m := by
  have hkey : (s.storeAt pa m bytes).sectorKey pa = s.sectorKey pa := State.storeAt_keeps (g := fun t => t.sectorKey pa) (fun _ _ _ => rfl) ..
  have hpage : (s.storeAt pa m bytes).pageMeta pa = s.pageMeta pa := State.storeAt_keeps (g := fun t => t.pageMeta pa) (fun _ _ _ => rfl) ..
  rw [State.sectorMeta, hkey, hpage]
  unfold State.storeAt
  dsimp only
  split
  next phys _ =>
    refine (Mem.read_write _ _ (sectorKeyAt (paStack pa) phys (paRow pa) (paByte pa / 64)) _ m).trans ?_
    split
    · rfl
    · exact (Mem.read_write _ _ (s.sectorKey pa) _ m).trans (if_pos rfl)
  next => exact (Mem.read_write _ _ (s.sectorKey pa) _ m).trans (if_pos rfl)

theorem State.storeAt_otherMeta (s : State) {pa a : Nat} (m : Sector) (bytes : List Byte) (hmir : s.mirrorPhys pa = none)
    (ha : s.sectorKey a ≠ s.sectorKey pa) : (s.storeAt pa m bytes).sectorMeta a = s.sectorMeta a := by
  unfold State.storeAt
  simp only [hmir]
  exact Mem.read_write_other _ _ _ _ (Ne.symm ha)

theorem State.upsetSector_otherMeta (s : State) {pa a : Nat} (e : BitVec 580) (ha : s.sectorKey a ≠ s.sectorKey pa) :
    (s.upsetSector pa e).sectorMeta a = s.sectorMeta a := by
  unfold State.upsetSector
  dsimp only
  split
  · rfl
  · refine Mem.read_write_other _ _ _ _ ?_
    rw [show s.sectorKey (pa / 64 * 64) = s.sectorKey pa from s.sectorKey_sector pa (i := 0) (by decide)]
    exact Ne.symm ha

/-! ### Writes -/

/-- Bytes written from a position on, no bit kept. -/
def writesFrom : Nat → List Byte → List (Nat × Byte × Byte)
  | _, [] => []
  | k, b :: r => (k, b, 0) :: writesFrom (k + 1) r

theorem sectorWrites_eq (pa : Nat) (bytes : List Byte) : sectorWrites pa bytes = writesFrom (pa % 64) bytes := by
  have h : ∀ (l : List Byte) (k n : Nat), (l.zip (List.range' n l.length)).map (fun b => (k + b.2, b.1, (0 : Byte))) = writesFrom (k + n) l := by
    intro l
    induction l with
    | nil => intros; rfl
    | cons b r ih => 
      intro k n
      rw [List.length_cons, List.range'_succ, List.zip_cons_cons, List.map_cons, ih k (n + 1)]
      rfl
  unfold sectorWrites
  rw [List.range_eq_range']
  exact h bytes (pa % 64) 0

/-- The bytes of a sector with writes merged into them. -/
def mergeWrites (old : List Byte) (ws : List (Nat × Byte × Byte)) : List Byte :=
  ws.foldl (fun l w => l.set w.1 ((byteAt l w.1 &&& w.2.2) ||| (w.2.1 &&& ~~~w.2.2))) old

theorem byteAt_set (l : List Byte) (k i : Nat) (b : Byte) : byteAt (l.set k b) i = if k = i ∧ i < l.length then b else byteAt l i := by
  unfold byteAt
  rw [List.headD_eq_head?_getD, List.head?_drop, List.headD_eq_head?_getD, List.head?_drop, List.getElem?_set]
  by_cases hk : k = i
  · subst hk
    by_cases hl : k < l.length
    · simp [hl]
    · simp [hl]
  · simp [hk]

theorem mergeWrites_byte (bytes old : List Byte) (k : Nat) (h : k + bytes.length ≤ old.length) (j : Nat) :
    byteAt (mergeWrites old (writesFrom k bytes)) j = if k ≤ j ∧ j < k + bytes.length then byteAt bytes (j - k) else byteAt old j := by
  induction bytes generalizing old k with
  | nil => simp [writesFrom, mergeWrites]
  | cons b r ih =>
    rw [List.length_cons] at h
    have hstep : mergeWrites old (writesFrom k (b :: r)) = mergeWrites (old.set k b) (writesFrom (k + 1) r) := by
      have hb : (byteAt old k &&& (0 : Byte)) ||| (b &&& ~~~(0 : Byte)) = b := by
        rw [show byteAt old k &&& (0 : Byte) = 0 from BitVec.and_zero, show ~~~(0 : Byte) = BitVec.allOnes 8 from BitVec.not_zero,
          BitVec.and_allOnes]
        exact BitVec.zero_or
      exact congrArg (fun b => mergeWrites (old.set k b) (writesFrom (k + 1) r)) hb
    rw [hstep, ih _ _ (by rw [List.length_set]; omega), byteAt_set, List.length_cons]
    by_cases h1 : k + 1 ≤ j ∧ j < k + 1 + r.length
    · rw [if_pos h1, if_pos (by omega), show j - k = j - (k + 1) + 1 by omega]
      rfl
    · rw [if_neg h1]
      by_cases hj : k = j
      · subst hj
        rw [if_pos ⟨rfl, by omega⟩, if_pos (by omega), Nat.sub_self]
        rfl
      · rw [if_neg (by omega), if_neg (by omega)]

/-- The writes of a whole sector cover it; those of a part leave a byte of it out. -/
theorem sectorWrites_whole {pa : Nat} {bytes : List Byte} (h : pa % 64 + bytes.length ≤ 64) :
    (List.range 64).all (fun i => decide (((sectorWrites pa bytes).filter (fun w => decide (w.1 = i))).foldl (fun a w => a &&& w.2.2) (0xFF : Byte)
      = 0)) = decide (bytes.length = 64) := by
  have hone : ∀ (l : List Byte) (k i : Nat) (x : Byte), ((writesFrom k l).filter (fun w => decide (w.1 = i))).foldl (fun a w => a &&& w.2.2) x =
      if k ≤ i ∧ i < k + l.length then 0 else x := by
    intro l
    induction l with
    | nil => intro k i x; simp [writesFrom]
    | cons b r ih =>
      intro k i x
      rw [writesFrom, List.filter_cons, List.length_cons]
      by_cases hk : k = i
      · rw [if_pos (decide_eq_true hk), List.foldl_cons, ih, show x &&& (k, b, (0 : Byte)).2.2 = 0 from BitVec.and_zero,
          if_pos (show k ≤ i ∧ i < k + (r.length + 1) by omega), ite_self]
      · rw [if_neg (by simpa using hk), ih]
        exact if_congr (by omega) rfl rfl
  rw [sectorWrites_eq]
  simp only [hone]
  by_cases hl : bytes.length = 64
  · rw [decide_eq_true hl]
    exact List.all_eq_true.2 fun i hi => decide_eq_true (if_pos (by have := List.mem_range.1 hi; omega))
  · rw [decide_eq_false hl]
    refine List.all_eq_false.2 ⟨if pa % 64 = 0 then 63 else 0, by split <;> decide, ?_⟩
    rw [if_neg (by split <;> omega)]
    decide

theorem writesFrom_positions {l : List Byte} {k : Nat} {w : Nat × Byte × Byte} (h : w ∈ writesFrom k l) : k ≤ w.1 ∧ w.1 < k + l.length := by
  induction l generalizing k with
  | nil => cases h
  | cons b r ih =>
    rw [List.length_cons]
    rcases List.mem_cons.1 h with rfl | h
    · exact ⟨le_refl _, by omega⟩
    · have := ih h
      omega

theorem sectorWrites_short {pa : Nat} {bytes : List Byte} (hs : bytes.length < 64) :
    ∃ i, i < 64 ∧ ∀ w ∈ sectorWrites pa bytes, w.1 ≠ i := by
  refine ⟨if pa % 64 = 0 then 63 else 0, by split <;> decide, fun w hw => ?_⟩
  rw [sectorWrites_eq] at hw
  have := writesFrom_positions hw
  split <;> omega

/-- The bytes of a sector after a write into it. -/
def State.mergedSector (s : State) (p pa : Nat) (bytes : List Byte) : List Byte :=
  mergeWrites ((List.range 64).map (fun i => s.readByte p (pa / 64 * 64 + i))) (sectorWrites pa bytes)

theorem State.mergedSector_byte (s : State) (p : Nat) {pa i : Nat} {bytes : List Byte} (h : pa % 64 + bytes.length ≤ 64)
    (hi : i < bytes.length) : byteAt (s.mergedSector p pa bytes) (pa % 64 + i) = byteAt bytes i := by
  rw [State.mergedSector, sectorWrites_eq, mergeWrites_byte _ _ _ (by simpa using h), if_pos (by omega), Nat.add_sub_cancel_left]

/-- A whole sector, or a part of one whose data verify, is stored with the bytes merged in. -/
theorem State.writeBytes_stores {s : State} {p pa : Nat} {bytes : List Byte} (hp : p ≠ deviceOwner) (h : pa % 64 + bytes.length ≤ 64)
    (ho : bytes.length = 64 ∨ s.outcome p (pa / 64 * 64) = 0) (part : Option Nat) (pools : List Nat) :
    s.writeBytes p pa part (sectorWrites pa bytes) pools = s.storeAt (pa / 64 * 64) (s.freshMeta p) (s.mergedSector p pa bytes) := by
  have hwrite : s.writeSector p (pa / 64 * 64) (s.mergedSector p pa bytes) =
      s.storeAt (pa / 64 * 64) (s.freshMeta p) (s.mergedSector p pa bytes) := by
    simp only [State.writeSector, hp, decide_false, Bool.false_and, Bool.false_eq_true, if_false]
    rw [show pa / 64 * 64 / 64 * 64 = pa / 64 * 64 by omega]
  rw [← hwrite]
  unfold State.writeBytes
  dsimp only
  rw [sectorWrites_whole h]
  by_cases hl : bytes.length = 64
  · exact if_pos (decide_eq_true hl)
  · rw [if_neg (by simpa using hl), if_neg hp]
    simp only [ho.resolve_left hl]
    rfl

theorem State.freshMeta_partition {s : State} {p : Nat} (hp : p ≠ deviceOwner) : s.freshMeta p =
    { owner := p, key := (s.part p).curKey.getD 0, keyGen := decide ((s.part p).keyGeneration % 2 = 1), reservedBit := false, upset := 0 } :=
  if_neg hp

/-- A byte of a sector that a partition has written under its current key reads as its cell. -/
theorem State.readByte_fresh {s : State} {p pa i : Nat} (hp : p ≠ deviceOwner) (hm : s.sectorMeta pa = s.freshMeta p)
    (hk : (s.part p).curKey.isSome = true) (hi : i < 64) :
    s.readByte p (pa / 64 * 64 + i) = Mem.read 0 s.dram.cells (s.sectorKey pa * 64 + i) := by
  have hm' : s.sectorMeta (pa / 64 * 64 + i) = s.freshMeta p := (s.sectorMeta_sector pa hi).trans hm
  have herr : (s.freshMeta p).readError = 0 := Sector.readError_zero (by rw [State.freshMeta_partition hp])
  have hgen : (s.freshMeta p).readGen = decide ((s.part p).keyGeneration % 2 = 1) := by
    rw [Sector.readGen, herr, State.freshMeta_partition hp]
    simp [bit]
  have hkey : s.keyFor p (decide ((s.part p).keyGeneration % 2 = 1)) = some ((s.part p).curKey.getD 0) := by
    obtain ⟨k, hk⟩ := Option.isSome_iff_exists.1 hk
    simp [State.keyFor, hp, hk]
  have hintact : s.byteIntact p (pa / 64 * 64 + i) = true := by
    unfold State.byteIntact State.sealedFor
    rw [hm']
    dsimp only
    rw [hgen, herr, hkey, State.freshMeta_partition hp]
    simp [fld]
  have hown : s.ownContent pa = false := by
    rw [State.ownContent, hm, State.freshMeta_partition hp]
    simp [hp]
  rw [State.readByte, if_neg hp, State.stackByte, if_pos hintact, s.plainByte_sector pa hi, if_neg (by simp [hown])]

theorem exec_memoryWrite {s : State} {owner pa : Nat} {bytes : List Byte} (ho : owner < 16) (hpa : pa < 2 ^ 41)
    (hb : pa % 64 + bytes.length ≤ 64) (hon : s.stackOn (paStack pa) = true) (upset : BitVec 580) :
    exec (.memoryWrite owner pa bytes upset) s = .next (((s.upsetSector pa upset).writeBytes owner pa (some owner)
      (sectorWrites pa bytes)).chargeStack owner pa 1 (if bytes.length < 64 then 1 else 0)) := by
  have hunit : (decide (owner ≤ 16) && decide (pa < 2 ^ 41) && decide (pa % 64 + bytes.length ≤ 64)) = true := by
    rw [decide_eq_true (le_of_lt ho), decide_eq_true hpa, decide_eq_true hb]; rfl
  refine (onUnit_next hunit _).trans (congrArg Host.Outcome.next ((if_pos hon).trans ?_))
  simp only [if_neg (ne_deviceOwner_of_partition ho), ownerPart, if_pos ho]

/-- A reading of the state that the cells, the side-band and the regulators of the memory do not enter. -/
structure KeptByStores {β : Type} (g : State → β) : Prop where
  cells : ∀ s cells sectors, g { s with dram := { s.dram with cells := cells, sectors := sectors } } = g s
  charges : ∀ die, KeptByCharges g die

/-- A state after a write of a sector that is charged. -/
def State.stores (s : State) (p pa : Nat) (m : Sector) (bytes : List Byte) (partly : Nat) : State :=
  (s.storeAt (pa / 64 * 64) m bytes).chargeStack p pa 1 partly

section
variable (s : State) (p pa : Nat) (m : Sector) (bytes : List Byte) (partly : Nat)

theorem KeptByStores.stores {β : Type} {g : State → β} (hg : KeptByStores g) : g (s.stores p pa m bytes partly) = g s :=
  ((hg.charges _).chargeStack ..).trans (State.storeAt_keeps hg.cells ..)

theorem State.stores_sectorKey (a : Nat) : (s.stores p pa m bytes partly).sectorKey a = s.sectorKey a :=
  KeptByStores.stores (g := fun t => t.sectorKey a) s p pa m bytes partly ⟨fun _ _ _ => rfl, fun _ => ⟨fun _ _ _ => rfl, fun _ _ => rfl⟩⟩

theorem State.stores_cells : (s.stores p pa m bytes partly).dram.cells = (s.storeAt (pa / 64 * 64) m bytes).dram.cells :=
  KeptByCharges.chargeStack (g := fun t => t.dram.cells) ⟨fun _ _ _ => rfl, fun _ _ => rfl⟩ ..

theorem State.stores_sectorMeta (a : Nat) :
    (s.stores p pa m bytes partly).sectorMeta a = (s.storeAt (pa / 64 * 64) m bytes).sectorMeta a :=
  KeptByCharges.chargeStack (g := fun t => t.sectorMeta a) ⟨fun _ _ _ => rfl, fun _ _ => rfl⟩ ..

theorem State.stores_deviceContent (off : Nat) : (s.stores p pa m bytes partly).deviceContent off = s.deviceContent off :=
  KeptByStores.stores (g := fun t => t.deviceContent off) s p pa m bytes partly ⟨fun _ _ _ => rfl, fun _ => ⟨fun _ _ _ => rfl, fun _ _ => rfl⟩⟩

theorem State.sectorKey_start : s.sectorKey (pa / 64 * 64) = s.sectorKey pa := s.sectorKey_sector pa (i := 0) (by decide)

theorem State.stores_meta : (s.stores p pa m bytes partly).sectorMeta pa = m := by
  have hstart : (s.storeAt (pa / 64 * 64) m bytes).sectorMeta (pa / 64 * 64) = (s.storeAt (pa / 64 * 64) m bytes).sectorMeta pa :=
    State.sectorMeta_sector _ pa (i := 0) (by decide)
  rw [State.stores_sectorMeta, ← hstart, State.storeAt_meta]

theorem State.stores_cell (hm : m.owner ≠ deviceOwner) {i : Nat} (hi : i < 64) :
    Mem.read 0 (s.stores p pa m bytes partly).dram.cells (s.sectorKey pa * 64 + i) = byteAt bytes i := by
  rw [State.stores_cells, ← State.sectorKey_start]
  exact s.storeAt_cell _ hm _ hi

/-- A write without a migration's second copy leaves every other sector. -/
theorem State.stores_otherSector (hm : m.owner ≠ deviceOwner) (hmir : s.mirrorPhys pa = none) {a : Nat} (ha : s.sectorKey a ≠ s.sectorKey pa) :
    (s.stores p pa m bytes partly).sectorBytes a = s.sectorBytes a := by
  have hmir' : s.mirrorPhys (pa / 64 * 64) = none := (s.mirrorPhys_sector pa (i := 0) (by decide)).trans hmir
  have ha' : s.sectorKey a ≠ s.sectorKey (pa / 64 * 64) := by rw [State.sectorKey_start]; exact ha
  have hown : (s.stores p pa m bytes partly).ownContent a = s.ownContent a := by
    rw [State.ownContent, State.stores_sectorMeta, State.storeAt_otherMeta _ _ _ hmir' ha']
    rfl
  unfold State.sectorBytes
  refine List.map_congr_left fun i hi => ?_
  have hi := List.mem_range.1 hi
  rw [State.plainByte_sector _ _ hi, State.plainByte_sector _ _ hi, hown, State.stores_sectorKey, State.stores_deviceContent, State.stores_cells,
    State.storeAt_otherCell _ _ hm _ hmir' ha' hi]

end

/-- A disturbed sector leaves the bytes of every other one. -/
theorem State.upsetSector_otherSector (s : State) {pa a : Nat} (e : BitVec 580) (ha : s.sectorKey a ≠ s.sectorKey pa) :
    (s.upsetSector pa e).sectorBytes a = s.sectorBytes a := by
  have hown : (s.upsetSector pa e).ownContent a = s.ownContent a := by
    rw [State.ownContent, s.upsetSector_otherMeta e ha]
    rfl
  have hkey : (s.upsetSector pa e).sectorKey a = s.sectorKey a := State.upsetSector_keeps (g := fun t => t.sectorKey a) (fun _ _ => rfl) ..
  have hcells : (s.upsetSector pa e).dram.cells = s.dram.cells := State.upsetSector_keeps (g := fun t => t.dram.cells) (fun _ _ => rfl) ..
  have hdev : ∀ off, (s.upsetSector pa e).deviceContent off = s.deviceContent off := fun off =>
    State.upsetSector_keeps (g := fun t => t.deviceContent off) (fun _ _ => rfl) ..
  unfold State.sectorBytes
  refine List.map_congr_left fun i hi => ?_
  have hi := List.mem_range.1 hi
  rw [State.plainByte_sector _ _ hi, State.plainByte_sector _ _ hi, hown, hkey, hcells, hdev]

theorem State.upsetSector_part (s : State) (pa : Nat) (e : BitVec 580) (p : Nat) : (s.upsetSector pa e).part p = s.part p :=
  State.upsetSector_keeps (g := fun t => t.part p) (fun _ _ => rfl) ..

theorem State.upsetSector_sectorKey (s : State) (pa : Nat) (e : BitVec 580) (a : Nat) : (s.upsetSector pa e).sectorKey a = s.sectorKey a :=
  State.upsetSector_keeps (g := fun t => t.sectorKey a) (fun _ _ => rfl) ..

theorem keptByStores_frame : KeptByStores fun t => (t.events, t.parts, t.squares) :=
  ⟨fun _ _ _ => rfl, fun _ => ⟨fun _ _ _ => rfl, fun _ _ => rfl⟩⟩

/-- What a write of a partition that goes through leaves, from the disturbed state. -/
theorem State.stores_write {t : State} {p pa partly : Nat} {bytes : List Byte} (hne : p ≠ deviceOwner) (hlen : pa % 64 + bytes.length ≤ 64)
    {u : State} (hu : u = t.stores p pa (t.freshMeta p) (t.mergedSector p pa bytes) partly) :
    (∀ i, i < bytes.length → Mem.read 0 u.dram.cells (t.sectorKey pa * 64 + (pa % 64 + i)) = byteAt bytes i) ∧
    u.sectorMeta pa = t.freshMeta p ∧
    ((t.part p).curKey.isSome = true → ∀ i, i < bytes.length → u.readByte p (pa + i) = byteAt bytes i) ∧
    (t.mirrorPhys pa = none → ∀ a, t.sectorKey a ≠ t.sectorKey pa → u.sectorBytes a = t.sectorBytes a) ∧
    u.events = t.events ∧ u.parts = t.parts ∧ u.squares = t.squares := by
  have hfresh : (t.freshMeta p).owner ≠ deviceOwner := by rw [State.freshMeta_partition hne]; exact hne
  have hframe := keptByStores_frame.stores t p pa (t.freshMeta p) (t.mergedSector p pa bytes) partly
  rw [← hu] at hframe
  simp only [Prod.mk.injEq] at hframe
  obtain ⟨hevents, hparts, hsquares⟩ := hframe
  have hcell : ∀ i, i < bytes.length → Mem.read 0 u.dram.cells (t.sectorKey pa * 64 + (pa % 64 + i)) = byteAt bytes i := fun i hi => by
    rw [hu, t.stores_cell p pa _ _ partly hfresh (by omega), t.mergedSector_byte p hlen hi]
  have hmeta : u.sectorMeta pa = t.freshMeta p := by rw [hu, State.stores_meta]
  have hpart : u.part p = t.part p := congrArg (fun l : Tab Partition => Tab.get ({} : Partition) l p) hparts
  refine ⟨hcell, hmeta, fun hk i hi => ?_, fun hmir a ha => ?_, hevents, hparts, hsquares⟩
  · have hmeta' : u.sectorMeta pa = u.freshMeta p := by
      rw [hmeta, State.freshMeta_partition hne, State.freshMeta_partition hne, hpart]
    have hkey : u.sectorKey pa = t.sectorKey pa := by rw [hu, State.stores_sectorKey]
    have hread := State.readByte_fresh hne hmeta' (hpart.symm ▸ hk) (i := pa % 64 + i) (by omega)
    rw [show pa / 64 * 64 + (pa % 64 + i) = pa + i by omega, hkey] at hread
    exact hread.trans (hcell i hi)
  · rw [hu, State.stores_otherSector _ _ _ _ _ _ hfresh hmir ha]

theorem exec_memoryWrite_stores {s : State} {owner pa : Nat} {bytes : List Byte} (ho : owner < 16) (hpa : pa < 2 ^ 41)
    (hb : pa % 64 + bytes.length ≤ 64) (hon : s.stackOn (paStack pa) = true) (upset : BitVec 580)
    (hw : bytes.length = 64 ∨ (s.upsetSector pa upset).outcome owner (pa / 64 * 64) = 0) :
    let t := s.upsetSector pa upset
    exec (.memoryWrite owner pa bytes upset) s =
      .next (t.stores owner pa (t.freshMeta owner) (t.mergedSector owner pa bytes) (if bytes.length < 64 then 1 else 0)) :=
  (exec_memoryWrite ho hpa hb hon upset).trans (by rw [State.writeBytes_stores (ne_deviceOwner_of_partition ho) hb hw]; rfl)

/-- Settles O37: the write is one store of the merged sector, and the regulators' charge keeps the memory. -/
theorem memoryWrites : Obligations.MemoryWrites := by
  unfold Obligations.MemoryWrites
  intro s owner pa bytes upset o hp hpa hlen hon
  have hne := ne_deviceOwner_of_partition hp
  refine ⟨fun ho => ⟨_, exec_memoryWrite_stores hp hpa hlen hon upset ho, ?_⟩, fun hshort ho => ⟨_, exec_memoryWrite hp hpa hlen hon upset, ?_⟩⟩
  case _ =>
    obtain ⟨hcell, hmeta, hread, hother, hevents, hparts, hsquares⟩ := State.stores_write (t := s.upsetSector pa upset)
      (partly := if bytes.length < 64 then 1 else 0) hne hlen rfl
    rw [State.upsetSector_sectorKey] at hcell
    rw [State.upsetSector_part] at hread
    refine ⟨hcell, hmeta.trans ?_, hread, fun hmir a ha => ?_, ?_, ?_, ?_⟩
    · rw [State.freshMeta_partition hne, State.freshMeta_partition hne, State.upsetSector_part]
    · refine (hother ?_ a ?_).trans (s.upsetSector_otherSector upset ha)
      · exact (State.upsetSector_keeps (g := fun t => t.mirrorPhys pa) (fun _ _ => rfl) ..).trans hmir
      · rw [State.upsetSector_sectorKey, State.upsetSector_sectorKey]; exact ha
    · exact hevents.trans (State.upsetSector_keeps (g := State.events) (fun _ _ => rfl) ..)
    · exact hparts.trans (State.upsetSector_keeps (g := State.parts) (fun _ _ => rfl) ..)
    · exact hsquares.trans (State.upsetSector_keeps (g := State.squares) (fun _ _ => rfl) ..)
  case _ =>
    have hpart : (List.range 64).all (fun i => decide (((sectorWrites pa bytes).filter (fun w => decide (w.1 = i))).foldl
        (fun a w => a &&& w.2.2) (0xFF : Byte) = 0)) = false := (sectorWrites_whole hlen).trans (decide_eq_false (by omega))
    have hcells := KeptByReadErrors.writeBytes (g := fun t => t.dram.cells)
      ⟨⟨fun _ _ _ => rfl, fun _ _ => rfl, fun _ _ => rfl, fun _ _ _ => rfl, fun _ => rfl, fun _ => rfl⟩, fun _ _ _ => rfl, fun _ _ _ => rfl,
        fun _ _ _ => rfl⟩ hne ho hpart []
    obtain ⟨i, hi, hw⟩ := sectorWrites_short hshort
    have hlatch := State.writeBytes_errorLatch hne ho hi hw []
    rw [State.upsetSector_part] at hlatch
    refine ⟨?_, fun hv => ?_⟩
    · exact (KeptByCharges.chargeStack (g := fun t => t.dram.cells) ⟨fun _ _ _ => rfl, fun _ _ => rfl⟩ ..).trans
        (hcells.trans (State.upsetSector_keeps (g := fun t => t.dram.cells) (fun _ _ => rfl) ..))
    · exact (KeptByCharges.chargeStack (g := fun t => (t.part owner).errorLatch) ⟨fun _ _ _ => rfl, fun _ _ => rfl⟩ ..).trans
        (hlatch.trans (Partition.latchAfterError_unvoted hv))

end Sys2Proof.Machine
end

section
/-!
PROOFS. The upkeep of stack memory: regulators (R315), refresh (R318), page initialisation (R309), patrol scrub (R323), training (R467).
-/

namespace Sys2Proof.Machine

open Sys2Proof

/-! ### A request at its die's regulators -/

/-- Where nothing waits, the regulators only fill. -/
theorem State.refill_waiting {s : State} {die : Nat} (h : (s.memDie die).waiting = []) : ((s.refill die).memDie die).waiting = [] := by
  unfold State.refill
  cases s.now - (s.memDie die).filledAt with
  | zero => exact h
  | succ n =>
    unfold State.passFrom
    rw [if_pos (by rw [h]; rfl), State.fill, State.memDie_updMemDie_same]
    exact h

/-- The only request that waits is the oldest of its regulator, and no other regulator has one. -/
theorem MemDie.oldest_single {d : MemDie} {e : TokenReq × Nat} (h : d.waiting = [e]) (who : Nat) :
    d.oldest who = if e.1.who = who then some e else none := by
  rw [MemDie.oldest, h, List.find?_singleton]
  simp

theorem MemDie.find_single {d : MemDie} {e : TokenReq × Nat} (h : d.waiting = [e]) {l : List Nat} (hl : e.1.who ∈ l)
    (P : TokenReq × Nat → Bool) : (l.filterMap d.oldest).find? P = if P e then some e else none := by
  have hall : ∀ x ∈ l.filterMap d.oldest, x = e := fun x hx => by
    obtain ⟨who, _, hw⟩ := List.mem_filterMap.1 hx
    rw [MemDie.oldest_single h] at hw
    split at hw
    · exact (Option.some.inj hw).symm
    · cases hw
  have hmem : e ∈ l.filterMap d.oldest := List.mem_filterMap.2 ⟨e.1.who, hl, by rw [MemDie.oldest_single h, if_pos rfl]⟩
  cases hp : P e
  case false => exact List.find?_eq_none.2 fun x hx => by rw [hall x hx, hp]; decide
  case true =>
    cases hf : (l.filterMap d.oldest).find? P with
    | none => exact absurd hp (List.find?_eq_none.1 hf e hmem)
    | some x => exact congrArg some (hall x (List.mem_of_find?_eq_some hf))

theorem State.nextAdmitted_single {s : State} {die : Nat} {e : TokenReq × Nat} (h : (s.memDie die).waiting = [e]) (hw : e.1.who < 18) :
    s.nextAdmitted die = if (s.memDie die).reserved e.1 then some (e, true)
      else if s.surplus (s.memDie die) e.1 then some (e, false) else none := by
  have hturn : e.1.who ∈ (List.range 18).map (fun i => ((s.memDie die).lastSurplus + 1 + i) % 18) := by
    refine List.mem_map.2 ⟨(e.1.who + 18 - ((s.memDie die).lastSurplus + 1) % 18) % 18, List.mem_range.2 (Nat.mod_lt _ (by decide)), ?_⟩
    omega
  unfold State.nextAdmitted
  dsimp only
  rw [MemDie.find_single h (List.mem_range.2 hw), MemDie.find_single h hturn]
  cases hres : (s.memDie die).reserved e.1
  case true => rfl
  case false =>
    cases s.surplus (s.memDie die) e.1
    case true => rfl
    case false => rfl

/-- The die as a request that meets empty queues finds it, itself waiting. -/
def State.asks (s : State) (die : Nat) (r : TokenReq) : State :=
  (s.refill die).updMemDie die (fun d => { d with waiting := d.waiting ++ [(r, s.now)] })

section
variable {s : State} {die : Nat} {r : TokenReq} (hw : r.who < 18) (h : (s.memDie die).waiting = [])
include h

theorem State.asks_memDie : (s.asks die r).memDie die = { (s.refill die).memDie die with waiting := [(r, s.now)] } := by
  rw [State.asks, State.memDie_updMemDie_same, State.refill_waiting h]
  rfl

theorem State.charge_serves : s.charge die r = State.serveFrom 1 die (s.asks die r) := by
  have hlen : ((s.asks die r).memDie die).waiting.length = 1 := by rw [State.asks_memDie h]; rfl
  exact congrArg (fun n => State.serveFrom n die (s.asks die r)) hlen

theorem State.charge_admits {path : Bool} (hn : (s.asks die r).nextAdmitted die = some ((r, s.now), path)) :
    s.charge die r = (s.asks die r).admitReq die (r, s.now) path := by
  rw [State.charge_serves h]
  unfold State.serveFrom
  rw [hn]
  rfl

include hw

theorem State.asks_nextAdmitted : (s.asks die r).nextAdmitted die =
    if ((s.refill die).memDie die).reserved r then some ((r, s.now), true)
    else if (s.refill die).surplus ((s.refill die).memDie die) r then some ((r, s.now), false) else none := by
  have hd := State.asks_memDie (r := r) h
  rw [State.nextAdmitted_single (e := (r, s.now)) (by rw [hd]) hw, hd]
  rfl

end

theorem State.tokenWait_memDie (s : State) (w : Tab Nat) (k : Nat) :
    ({ s with dram := { s.dram with tokenWait := w } } : State).memDie k = s.memDie k := rfl

/-- A die after it has admitted a request. -/
theorem State.admitReq_memDie (s : State) (die : Nat) (e : TokenReq × Nat) (path : Bool) : (s.admitReq die e path).memDie die =
    { s.memDie die with
      waiting := (s.memDie die).waiting.erase e, c := Tab.upd 0 (s.memDie die).c e.1.who (fun n => n - 1000 * reqTokens e.1)
      g := if path then Tab.upd 0 (s.memDie die).g e.1.who (fun n => n - 1000 * reqTokens e.1) else (s.memDie die).g
      pool := if path then (s.memDie die).pool else (s.memDie die).pool - 1000 * reqTokens e.1
      lastSurplus := if path then (s.memDie die).lastSurplus else e.1.who } := by
  unfold State.admitReq
  dsimp only
  split
  · rw [State.tokenWait_memDie, State.memDie_updMemDie_same]
  · rw [State.memDie_updMemDie_same]

/-- The regulators of a die leave every other die. -/
theorem keptByCharges_otherDie {die k : Nat} (hk : k ≠ die) : KeptByCharges (fun t => t.memDie k) die where
  die s f _ := (s.memDie_updMemDie die k f).trans (if_neg hk.symm)
  wait _ _ := rfl

/-- REGULATOR_ADMIT of a die on which nothing waits. -/
theorem State.charge_alone {s : State} {die : Nat} {r : TokenReq} (hw : r.who < 18) (h : (s.memDie die).waiting = []) :
    let d := (s.refill die).memDie die
    let u := s.charge die r
    let k := 1000 * reqTokens r
    (d.reserved r = true → (u.memDie die).waiting = [] ∧ (u.memDie die).pool = d.pool ∧
      Tab.get 0 (u.memDie die).g r.who = Tab.get 0 d.g r.who - k ∧ Tab.get 0 (u.memDie die).c r.who = Tab.get 0 d.c r.who - k) ∧
    (d.reserved r = false → (s.refill die).surplus d r = true → (u.memDie die).waiting = [] ∧ (u.memDie die).g = d.g ∧
      (u.memDie die).pool = d.pool - k) ∧
    (d.reserved r = false → (s.refill die).surplus d r = false → (u.memDie die).waiting = [(r, s.now)] ∧ (u.memDie die).g = d.g ∧
      (u.memDie die).pool = d.pool) := by
  intro d u k
  have hnext := State.asks_nextAdmitted hw h
  have hd := State.asks_memDie (r := r) h
  refine ⟨fun hres => ?_, fun hres hsur => ?_, fun hres hsur => ?_⟩
  · have hu : u = (s.asks die r).admitReq die (r, s.now) true := State.charge_admits h (hnext.trans (if_pos hres))
    rw [hu, State.admitReq_memDie, hd]
    simp only [if_true]
    exact ⟨by simp, rfl, Tab.get_upd_same .., Tab.get_upd_same ..⟩
  · have hu : u = (s.asks die r).admitReq die (r, s.now) false :=
      State.charge_admits h (hnext.trans ((if_neg (by simpa using hres)).trans (if_pos hsur)))
    rw [hu, State.admitReq_memDie, hd]
    exact ⟨by simp, rfl, rfl⟩
  · have hnone : (s.asks die r).nextAdmitted die = none :=
      hnext.trans ((if_neg (by simpa using hres)).trans (if_neg (by simpa using hsur)))
    have hu : u = s.asks die r := by
      refine (State.charge_serves h).trans ?_
      unfold State.serveFrom
      rw [hnone]
    rw [hu, hd]
    exact ⟨rfl, rfl, rfl⟩

/-! ### Page initialisation -/

/-- A reading of the state that the initialisation of a page does not change. -/
theorem State.initPage_keeps {β : Type} {g : State → β}
    (hg : ∀ s cells sectors pages, g { s with dram := { s.dram with cells := cells, sectors := sectors, pages := pages } } = g s)
    (s : State) (p page : Nat) : g (s.initPage p page) = g s := by
  unfold State.initPage
  dsimp only
  exact (foldl_keeps g _ _ fun t i => State.storeAt_keeps (fun s c l => hg s c l s.dram.pages) ..).trans (hg s _ _ _)

/-- Sectors stored one after another as zeros are zeros. -/
theorem State.storeZeros_cell {m : Sector} (hm : m.owner ≠ deviceOwner) (page : Nat) (l : List Nat) (s : State) {i b : Nat} (hi : i ∈ l)
    (hb : b < 64) : Mem.read 0 (l.foldl (fun t i => t.storeAt (page * 65536 + 64 * i) m []) s).dram.cells
      (s.sectorKey (page * 65536 + 64 * i) * 64 + b) = 0 := by
  have hkeep : ∀ (l : List Nat) (t : State) (k : Nat), Mem.read 0 t.dram.cells k = 0 →
      Mem.read 0 (l.foldl (fun t i => t.storeAt (page * 65536 + 64 * i) m []) t).dram.cells k = 0 := fun l t k hk =>
    List.foldlRecOn l _ (motive := fun u : State => Mem.read 0 u.dram.cells k = 0) hk
      fun u hu j _ => u.storeAt_zero (page * 65536 + 64 * j) hm hu
  induction l generalizing s with
  | nil => cases hi
  | cons j l ih =>
    rw [List.foldl_cons]
    rcases List.mem_cons.1 hi with rfl | hi
    · exact hkeep l _ _ ((s.storeAt_cell _ hm [] hb).trans (by simp [byteAt]))
    · have hkey : (s.storeAt (page * 65536 + 64 * j) m []).sectorKey (page * 65536 + 64 * i) = s.sectorKey (page * 65536 + 64 * i) :=
        State.storeAt_keeps (g := fun t => t.sectorKey (page * 65536 + 64 * i)) (fun _ _ _ => rfl) ..
      rw [← hkey]
      exact ih _ hi

/-- A page's owner and key as its initialisation records them. -/
def State.putPage (s : State) (page : Nat) (k : PageKey) : State :=
  { s with dram := { s.dram with pages := Tab.put s.dram.pages page k } }

theorem State.putPage_sectorKey (s : State) (page : Nat) (k : PageKey) (a : Nat) : (s.putPage page k).sectorKey a = s.sectorKey a := rfl

/-- The side-band of a page's sectors as they are initialised (R309). -/
def State.initMeta (s : State) (p : Nat) : Sector :=
  let x := s.part p
  { owner := p
    key := match x.preparedKey with
      | some k => k
      | none => x.curKey.getD 0
    keyGen := if x.preparedKey.isSome then false else decide (x.keyGeneration % 2 = 1), reservedBit := false, upset := 0 }

/-- The sectors of a page written with zeros one after another. -/
def State.storeZeros (s : State) (page : Nat) (m : Sector) : State :=
  (List.range 1024).foldl (fun t i => t.storeAt (page * 65536 + 64 * i) m []) s

theorem State.initPage_eq (s : State) (p page : Nat) : s.initPage p page =
    (s.putPage page { owner := p, key := (s.initMeta p).key, keyGen := (s.initMeta p).keyGen }).storeZeros page (s.initMeta p) := rfl

theorem State.storeZeros_zero (s : State) (page : Nat) {m : Sector} (hm : m.owner ≠ deviceOwner) {i b : Nat} (hi : i < 1024) (hb : b < 64) :
    Mem.read 0 (s.storeZeros page m).dram.cells (s.sectorKey (page * 65536 + 64 * i) * 64 + b) = 0 := by
  have hmem : i ∈ List.range 1024 := List.mem_range.2 hi
  unfold State.storeZeros
  exact State.storeZeros_cell (i := i) (b := b) hm page (List.range 1024) s hmem hb

theorem State.initPage_cell (s : State) {p : Nat} (hp : p < 16) (page : Nat) {i b : Nat} (hi : i < 1024) (hb : b < 64) :
    Mem.read 0 (s.initPage p page).dram.cells (s.sectorKey (page * 65536 + 64 * i) * 64 + b) = 0 := by
  rw [State.initPage_eq, ← s.putPage_sectorKey page { owner := p, key := (s.initMeta p).key, keyGen := (s.initMeta p).keyGen }]
  exact State.storeZeros_zero _ page (ne_deviceOwner_of_partition hp) hi hb

theorem State.chargePage_keeps {β : Type} {g : State → β} (hg : ∀ die, KeptByCharges g die) (s : State) (page : Nat) :
    g (s.chargePage page) = g s := by
  unfold State.chargePage
  exact foldl_keeps g _ s fun t i => (hg _).chargeStack ..

theorem State.initPage_frame (s : State) (p page : Nat) : (s.initPage p page).parts = s.parts ∧ (s.initPage p page).events = s.events :=
  ⟨State.initPage_keeps (fun _ _ _ _ => rfl) s p page, State.initPage_keeps (fun _ _ _ _ => rfl) s p page⟩

/-- An initialised page is charged and done. -/
def State.endPage (s : State) (p page : Nat) : State :=
  (s.chargePage page).updPart p (fun x =>
    { x with pagesToInit := x.pagesToInit.filter (fun k => decide (k ≠ page)), pagesDone := x.pagesDone ++ [page] })

theorem State.endPage_effect {s t : State} (p page : Nat) (hparts : t.parts = s.parts) (hevents : t.events = s.events) :
    (t.endPage p page).dram.cells = t.dram.cells ∧
    ((t.endPage p page).part p).pagesToInit = (s.part p).pagesToInit.filter (fun k => decide (k ≠ page)) ∧
    ((t.endPage p page).part p).pagesDone = (s.part p).pagesDone ++ [page] ∧ OtherParts s (t.endPage p page) p ∧
    (t.endPage p page).events = s.events := by
  have hcells : (t.chargePage page).dram.cells = t.dram.cells :=
    State.chargePage_keeps (g := fun t => t.dram.cells) (fun _ => ⟨fun _ _ _ => rfl, fun _ _ => rfl⟩) t page
  have hframe : ((t.chargePage page).parts, (t.chargePage page).events) = (s.parts, s.events) :=
    (State.chargePage_keeps (g := fun t => (t.parts, t.events)) (fun _ => ⟨fun _ _ _ => rfl, fun _ _ => rfl⟩) t page).trans (by rw [hparts, hevents])
  obtain ⟨hparts, hevents⟩ := Prod.mk.inj hframe
  have hpart : ∀ k, (t.chargePage page).part k = s.part k := fun k => congrArg (fun l : Tab Partition => Tab.get ({} : Partition) l k) hparts
  unfold State.endPage
  refine ⟨(congrArg Dram.cells (State.updPart_dram ..)).trans hcells, ?_, ?_, fun k hk => ?_, (State.updPart_events ..).trans hevents⟩
  · rw [State.part_updPart_same, hpart]
  · rw [State.part_updPart_same, hpart]
  · exact (State.part_updPart ..).trans ((if_neg hk.symm).trans (hpart k))

theorem exec_pageInitialisation {s : State} {p page : Nat} (hp : p < 16) (hpage : page < 2 ^ 25) (h : page ∈ (s.part p).pagesToInit) :
    exec (.pageInitialisation p page) s = .next ((s.initPage p page).endPage p page) := by
  have hunit : (decide (p < 16) && decide (page < 2 ^ 25)) = true := by rw [decide_eq_true hp, decide_eq_true hpage]; rfl
  change execPageInitialisation p page s = _
  rw [execPageInitialisation, onUnit_next hunit, if_pos (List.contains_iff_mem.2 h)]
  rfl

/-! ### Patrol scrub -/

/-- Scrub of a clean sector changes nothing beyond its charge. -/
theorem State.scrub_clean {s : State} {pa : Nat} (hclean : sectorDecode (s.sectorMeta pa).upset = .clean) (hcode : s.codeFails pa = false) :
    (if inDevice pa then (s.chargeStack 17 pa 1 0).scrubDevice pa else (s.chargeStack 17 pa 1 0).scrub pa) = s.chargeStack 17 pa 1 0 := by
  have hmeta : (s.chargeStack 17 pa 1 0).sectorMeta pa = s.sectorMeta pa :=
    KeptByCharges.chargeStack (g := fun t => t.sectorMeta pa) ⟨fun _ _ _ => rfl, fun _ _ => rfl⟩ ..
  have hcode' : (s.chargeStack 17 pa 1 0).codeFails pa = false := (congrArg Sector.codeFails hmeta).trans hcode
  have hclean' : sectorDecode ((s.chargeStack 17 pa 1 0).sectorMeta pa).upset = .clean := by rw [hmeta]; exact hclean
  split
  · unfold State.scrubDevice
    dsimp only
    rw [if_neg (by simp [hcode']), if_pos hclean']
  · unfold State.scrub
    dsimp only
    rw [if_neg (by simp [hcode']), if_pos hclean']

/-! ### Training -/

/-- The state without the memory that waits for its training. -/
def State.endsTraining (s : State) : State := s.updPower (fun x => { x with memTraining := false })

/-- The stacks with their failing channels spared. -/
def State.spares (s : State) (failing : List (Nat × Nat)) : State :=
  failing.foldl (fun t e => t.updStack e.1 (fun x => x.spareChannel e.2))
    (failing.foldl (fun t e => t.updStack e.1 (fun x => { x with free := x.free.filter (fun k => decide (k ≠ e.2)) })) s)

/-- The state after the training of the stacks. -/
def State.trains (s : State) (failing : List (Nat × Nat)) : State :=
  if s.dram.trained then s.endsTraining
  else
    let t := s.endsTraining.spares failing
    { t with dram := { t.dram with trained := true, cells := [], sectors := [] } }

theorem State.trains_trained {s : State} {failing : List (Nat × Nat)} (h : s.dram.trained = true) : s.trains failing = s.endsTraining :=
  if_pos h

theorem State.trains_untrained {s : State} {failing : List (Nat × Nat)} (h : s.dram.trained = false) : s.trains failing =
    { s.endsTraining.spares failing with
      dram := { (s.endsTraining.spares failing).dram with trained := true, cells := [], sectors := [] } } := if_neg (by simp [h])

theorem State.spares_keeps {β : Type} {g : State → β} (hg : ∀ s n f, g (State.updStack s n f) = g s) (s : State)
    (failing : List (Nat × Nat)) : g (s.spares failing) = g s :=
  (foldl_keeps g _ _ fun _ _ => by exact hg ..).trans (foldl_keeps g _ _ fun _ _ => by exact hg ..)

theorem State.trains_frame (s : State) (failing : List (Nat × Nat)) : (s.trains failing).squares = s.squares ∧
    (s.trains failing).parts = s.parts ∧ (s.trains failing).power = { s.power with memTraining := false } := by
  have hframe := State.spares_keeps (g := fun t => (t.squares, t.parts, t.power)) (fun _ _ _ => rfl) s.endsTraining failing
  simp only [Prod.mk.injEq] at hframe
  obtain ⟨hsquares, hparts, hpower⟩ := hframe
  unfold State.trains
  split
  · exact ⟨rfl, rfl, rfl⟩
  · exact ⟨hsquares, hparts, hpower⟩

/-- Settles O38: each command's state is built from the lemmas about its operation, and read off. -/
theorem memoryUpkeep : Obligations.MemoryUpkeep := by
  unfold Obligations.MemoryUpkeep
  intro s
  refine ⟨?request, ?refresh, ?page, ?scrub, ?training⟩
  case request =>
    intro die r d u k hdie hwho htraffic
    have hcells : u.dram.cells = s.dram.cells := KeptByCharges.charge (g := fun t => t.dram.cells) ⟨fun _ _ _ => rfl, fun _ _ => rfl⟩ ..
    have hsquares : u.squares = s.squares := KeptByCharges.charge (g := State.squares) ⟨fun _ _ _ => rfl, fun _ _ => rfl⟩ ..
    have hparts : u.parts = s.parts := KeptByCharges.charge (g := State.parts) ⟨fun _ _ _ => rfl, fun _ _ => rfl⟩ ..
    have hunit : (decide (die < 8) && decide (r.who < 18) && trafficOnDie r.traffic die) = true := by
      rw [decide_eq_true hdie, decide_eq_true hwho, htraffic]; rfl
    refine ⟨onUnit_next hunit _, hcells, hsquares, hparts, fun j hj => (keptByCharges_otherDie hj).charge s r, fun hwait => ?_⟩
    obtain ⟨hreserved, hsurplus, hwaits⟩ := State.charge_alone hwho hwait
    refine ⟨hreserved, hsurplus, fun hres hsur => ⟨(hwaits hres hsur).1, (hwaits hres hsur).2.1⟩, fun hres hhot => ?_⟩
    have hhot' : (s.refill die).hotFor r.traffic = true :=
      (KeptByCharges.refill (g := fun t => t.hotFor r.traffic) ⟨fun _ _ _ => rfl, fun _ _ => rfl⟩ s).trans hhot
    have hsur : (s.refill die).surplus d r = false := by simp [State.surplus, hhot']
    exact ⟨(hwaits hres hsur).1, (hwaits hres hsur).2.2⟩
  case refresh =>
    intro st ch hst hch
    have hunit : (decide (st < 32) && decide (ch < 66)) = true := by rw [decide_eq_true hst, decide_eq_true hch]; rfl
    refine ⟨_, onUnit_next hunit _, rfl, ?_, rfl, rfl, fun k hk => ?_, rfl⟩
    · rw [State.stack_updStack_same]
      exact Tab.get_put_same ..
    · exact (State.stack_updStack ..).trans (if_neg hk.symm)
  case page =>
    intro p page hp hpage hin
    obtain ⟨hparts, hevents⟩ := s.initPage_frame p page
    obtain ⟨hcells, hinit, hdone, hother, hev⟩ := State.endPage_effect p page hparts hevents
    exact ⟨(s.initPage p page).endPage p page, exec_pageInitialisation hp hpage hin,
      fun i b hi hb => by rw [hcells]; exact s.initPage_cell hp page hi hb, hinit, hdone, hother, hev⟩
  case scrub =>
    intro st ch sector hst hch hsector pa
    have hunit : (decide (st < 32) && decide (ch < 64) && decide (sector < 2 ^ 24)) = true := by
      rw [decide_eq_true hst, decide_eq_true hch, decide_eq_true hsector]; rfl
    refine ⟨fun hoff => (onUnit_next hunit _).trans (congrArg Host.Outcome.next (if_neg (by simp [hoff]))), fun hon hclean hcode => ?_⟩
    refine (onUnit_next hunit _).trans (congrArg Host.Outcome.next ((if_pos hon).trans ?_))
    rw [State.upsetSector_zero]
    exact State.scrub_clean hclean hcode
  case training =>
    intro failing hmem
    have hexec : exec (.memoryTrainingComplete failing) s = .next (s.trains failing) := by
      change execMemoryTrainingComplete failing s = _
      rw [execMemoryTrainingComplete, if_neg (by simp [hmem])]
      rfl
    obtain ⟨hsquares, hparts, hpower⟩ := State.trains_frame s failing
    refine ⟨s.trains failing, hexec, hpower, ?_, hsquares, hparts, fun htrained => ?_, fun htrained => ?_⟩
    · by_cases htrained : s.dram.trained = true
      · rw [State.trains_trained htrained]; exact htrained
      · rw [State.trains_untrained (by simpa using htrained)]
    · rw [State.trains_trained htrained]; rfl
    · rw [State.trains_untrained htrained]; exact ⟨rfl, rfl⟩

end Sys2Proof.Machine
end

section
/-!
PROOFS. Channel migration (R324 to R327, Table MEM-10).
-/

namespace Sys2Proof.Machine

open Sys2Proof

/-! ### What the steps of a migration leave -/

theorem State.memDie_congr {s u : State} (h : u.dram = s.dram) (k : Nat) : u.memDie k = s.memDie k :=
  congrArg (fun d : Dram => Tab.get ({} : MemDie) d.dies k) h

theorem State.stack_congr {s u : State} (h : u.dram = s.dram) (k : Nat) : u.stack k = s.stack k :=
  congrArg (fun d : Dram => Tab.get (Stack.made k) d.stackTab k) h

theorem keptByHolds_dram (p : Nat) : KeptByHolds State.dram p :=
  ⟨⟨fun _ _ _ => rfl, fun _ _ => rfl, fun _ _ => rfl, fun _ _ _ => rfl, fun _ => rfl, fun _ => rfl⟩, fun _ _ _ => rfl, fun _ _ _ => rfl⟩

/-- The run states of the partitions. -/
def State.runStates (s : State) : Nat → RunState := fun p => (s.part p).runState

theorem State.updPart_runStates (s : State) (p : Nat) {f : Partition → Partition} (hf : ∀ x, (f x).runState = x.runState) :
    (s.updPart p f).runStates = s.runStates := by
  funext k
  rw [State.runStates, State.part_updPart]
  split
  next h => rw [hf, ← h]; rfl
  next => rfl

theorem State.tabledParts_congr {s u : State} (h : u.runStates = s.runStates) : u.tabledParts = s.tabledParts :=
  congrArg (fun r : Nat → RunState => (List.range 16).filter (fun p =>
    decide (r p = .running) || decide (r p = .draining) || decide (r p = .held))) h

/-- The copy of a die changes the stored data and side-band, and of the dies its own pointer. -/
theorem State.reportCopied_keeps {β : Type} {g : State → β} (hg : KeptByFrames g)
    (hp : ∀ s p f, (∀ x : Partition, (f x).runState = x.runState) → g (State.updPart s p f) = g s) (s : State) (st ch old lo hi : Nat) :
    g (s.reportCopied st ch old lo hi) = g s := by
  unfold State.reportCopied
  refine foldl_keeps g _ s fun t e => ?_
  dsimp only
  split
  · exact (hp _ _ _ fun _ => by rfl).trans (hg.raise ..)
  · exact hg.raise ..

theorem State.reportCopied_dram (s : State) (st ch old lo hi : Nat) : (s.reportCopied st ch old lo hi).dram = s.dram :=
  State.reportCopied_keeps ⟨fun _ _ _ => rfl, fun _ _ => rfl, fun _ _ => rfl, fun _ _ _ => rfl, fun _ => rfl, fun _ => rfl⟩ (fun _ _ _ _ => rfl) ..

theorem State.reportCopied_runStates (s : State) (st ch old lo hi : Nat) : (s.reportCopied st ch old lo hi).runStates = s.runStates :=
  State.reportCopied_keeps ⟨fun _ _ _ => rfl, fun _ _ => rfl, fun _ _ => rfl, fun _ _ _ => rfl, fun _ => rfl, fun _ => rfl⟩
    (fun s p _ hf => s.updPart_runStates p hf) ..

theorem State.copyChunks_memDie (s : State) (st old spare lo hi k : Nat) : (s.copyChunks st old spare lo hi).memDie k = s.memDie k := rfl

theorem State.copyTo_memDie (s : State) (die hi : Nat) : (s.copyTo die hi).memDie die =
    { s.memDie die with copyPtr := max (s.memDie die).copyPtr hi, copyAt := (s.memDie die).copyAt + 2560 * (hi - (s.memDie die).copyPtr) } := by
  unfold State.copyTo
  dsimp only
  rw [State.memDie_updMemDie_same, State.copyChunks_memDie, State.memDie_congr (s.reportCopied_dram ..)]

theorem State.copyTo_runStates (s : State) (die hi : Nat) : (s.copyTo die hi).runStates = s.runStates := by
  unfold State.copyTo
  exact s.reportCopied_runStates ..

/-- A die whose channel has been switched to the spare. -/
def MemDie.switches (d : MemDie) : MemDie := { d with mig := .testing, holdsFor := false }

theorem State.switchChannel_dram (s : State) (die : Nat) : (s.switchChannel die).dram =
    ((s.updStack (s.memDie die).migStack (fun x => { x with map := Tab.put x.map (s.memDie die).migChannel (s.memDie die).migSpare })).updMemDie
      die MemDie.switches).dram := by
  unfold State.switchChannel
  dsimp only
  rw [State.raise_dram]
  split
  · exact State.releaseModule_keeps keptByHolds_dram ..
  · rfl

/-- Step 5: the channel is served by its spare, the old one is to be tested. -/
theorem State.switchChannel_effect (s : State) (die : Nat) : let d := s.memDie die
    (s.switchChannel die).memDie die = d.switches ∧ ((s.switchChannel die).stack d.migStack).physical d.migChannel = d.migSpare ∧
    (s.switchChannel die).dram.cells = s.dram.cells ∧ (s.switchChannel die).dram.sectors = s.dram.sectors := by
  intro d
  have h := s.switchChannel_dram die
  refine ⟨?_, ?_, (congrArg Dram.cells h :), (congrArg Dram.sectors h :)⟩
  · rw [State.memDie_congr h, State.memDie_updMemDie_same]
    rfl
  · rw [State.stack_congr h, State.updMemDie_stack, State.stack_updStack_same]
    exact Tab.get_put_same ..

/-- A die that waits for the held boundary. -/
def MemDie.awaits (d : MemDie) : MemDie := { d with mig := .awaitingHold, holdsFor := true }

theorem State.holdModule_none {s : State} (h : s.tabledParts = []) (cause : Nat) : s.holdModule cause = s := by
  unfold State.holdModule
  rw [h]
  rfl

/-- Step 4 where a Table runs: its Hold is awaited; where none runs: the switch follows. -/
theorem State.awaitHold_effect (s : State) (die : Nat) :
    ((∃ p ∈ s.tabledParts, (s.part p).runState ≠ .held) → (s.awaitHold die).memDie die = (s.memDie die).awaits) ∧
    (s.tabledParts = [] → (s.awaitHold die).memDie die = (s.memDie die).awaits.switches ∧
      ((s.awaitHold die).stack (s.memDie die).migStack).physical (s.memDie die).migChannel = (s.memDie die).migSpare) := by
  have hdie : (s.updMemDie die MemDie.awaits).memDie die = (s.memDie die).awaits := State.memDie_updMemDie_same ..
  refine ⟨fun ⟨p, hp, hr⟩ => ?_, fun hnone => ?_⟩
  · have hruns : s.tabledParts.any (fun p => decide ((s.part p).runState ≠ .held)) = true :=
      List.any_eq_true.2 ⟨p, hp, decide_eq_true hr⟩
    have hdram : (s.awaitHold die).dram = (s.updMemDie die MemDie.awaits).dram := by
      unfold State.awaitHold
      dsimp only
      rw [if_pos hruns]
      exact State.holdModule_keeps keptByHolds_dram ..
    rw [State.memDie_congr hdram, hdie]
  · have hswitch : s.awaitHold die = (s.updMemDie die MemDie.awaits).switchChannel die := by
      unfold State.awaitHold
      dsimp only
      rw [if_neg (by rw [hnone]; exact Bool.false_ne_true)]
      exact congrArg (fun t => State.switchChannel t die) (State.holdModule_none (s := s.updMemDie die MemDie.awaits) hnone _)
    obtain ⟨hmem, hphys, _⟩ := (s.updMemDie die MemDie.awaits).switchChannel_effect die
    rw [hdie] at hmem hphys
    rw [hswitch]
    exact ⟨hmem, hphys⟩

/-! ### The end of a migration -/

theorem mem_insNat (n : Nat) (l : List Nat) : n ∈ insNat n l := by
  induction l with
  | nil => exact List.mem_singleton.2 rfl
  | cons m r ih =>
    unfold insNat
    split
    next h => exact List.mem_cons.2 (.inl h)
    next =>
      split
      · exact List.mem_cons.2 (.inl rfl)
      · exact List.mem_cons.2 (.inr ih)

/-- A die whose migration is over. -/
def MemDie.rests (d : MemDie) : MemDie :=
  { d with mig := .idle, migStack := 0, migChannel := 0, migSpare := 0, migOld := 0, copyPtr := 0, retried := false }

theorem MemDie.rests_mig (d : MemDie) : d.rests.mig = .idle := rfl

/-- With an empty queue the die rests. -/
theorem State.migrationDone_alone {s : State} {die : Nat} (h : (s.memDie die).queue = []) : s.migrationDone die = s.updMemDie die MemDie.rests := by
  have hq : ((s.updMemDie die MemDie.rests).memDie die).queue = [] := by rw [State.memDie_updMemDie_same]; exact h
  exact congrArg (fun l : List (Nat × Nat) => State.nextMigration l.length die (s.updMemDie die MemDie.rests)) hq

/-- A reading of the state that the start of a migration does not change. -/
structure KeptByMigrations {β : Type} (g : State → β) : Prop where
  frames : KeptByFrames g
  stack : ∀ s n l, g (State.updStack s n (fun x => { x with free := l })) = g s
  die : ∀ s d f, g (State.updMemDie s d f) = g s

theorem KeptByMigrations.startMigration {β : Type} {g : State → β} (hg : KeptByMigrations g) (s : State) (die st ch : Nat) :
    g (s.startMigration die st ch) = g s := by
  unfold State.startMigration
  dsimp only
  split
  · exact hg.frames.raise ..
  · exact (hg.die ..).trans (hg.stack ..)

theorem KeptByMigrations.nextMigration {β : Type} {g : State → β} (hg : KeptByMigrations g) (n die : Nat) (s : State) :
    g (State.nextMigration n die s) = g s := by
  induction n generalizing s with
  | zero => rfl
  | succ n ih =>
    unfold State.nextMigration
    split
    · rfl
    · dsimp only
      have hstart := fun st ch rest => (hg.startMigration (s.updMemDie die (fun d => { d with queue := rest })) die st ch).trans (hg.die ..)
      split
      · exact (ih _).trans (hstart ..)
      · exact hstart ..

theorem KeptByMigrations.migrationDone {β : Type} {g : State → β} (hg : KeptByMigrations g) (s : State) (die : Nat) :
    g (s.migrationDone die) = g s := (hg.nextMigration ..).trans (hg.die ..)

/-- The instant, the stored data and the channel maps. -/
def State.mapped (s : State) : Nat × List Host.Cell × (Nat → Tab Nat) := (s.now, s.dram.cells, fun st => (s.stack st).map)

theorem State.updStack_mapped (s : State) (n : Nat) {f : Stack → Stack} (hf : ∀ x, (f x).map = x.map) : (s.updStack n f).mapped = s.mapped := by
  have hmap : (fun st => ((s.updStack n f).stack st).map) = fun st => (s.stack st).map := by
    funext k
    rw [State.stack_updStack]
    split
    next h => rw [hf, h]
    next => rfl
  exact congrArg (fun m => (s.now, s.dram.cells, m)) hmap

theorem State.updMemDie_mapped (s : State) (d : Nat) (f : MemDie → MemDie) : (s.updMemDie d f).mapped = s.mapped := rfl

theorem keptByMigrations_mapped : KeptByMigrations State.mapped :=
  ⟨⟨fun _ _ _ => rfl, fun _ _ => rfl, fun _ _ => rfl, fun _ _ _ => rfl, fun _ => rfl, fun _ => rfl⟩, fun s n _ => s.updStack_mapped n fun _ => rfl,
    fun _ _ _ => rfl⟩

/-! ### The commands -/

section
variable {s : State} {die : Nat} (hd : die < 8)
include hd

theorem exec_migrationSpareTrained (h : (s.memDie die).mig = .training) : exec (.migrationSpareTrained die) s =
    .next (s.updMemDie die (fun d => { d with mig := .copying, copyPtr := 0, copyAt := s.now })) :=
  (onUnit_next (decide_eq_true hd) _).trans (congrArg Host.Outcome.next (if_pos h))

theorem exec_migrationCopyComplete (h : (s.memDie die).mig = .copying) :
    exec (.migrationCopyComplete die) s = .next ((s.copyTo die (2 ^ 18)).awaitHold die) := by
  change execMigrationCopyComplete die s = _
  rw [execMigrationCopyComplete, onUnit_next (decide_eq_true hd), if_pos h]

theorem exec_migrationSwitch (h : (s.memDie die).mig = .awaitingHold) (hheld : s.moduleHeld (migHold die) = true) :
    exec (.migrationSwitch die) s = .next (s.switchChannel die) :=
  (onUnit_next (decide_eq_true hd) _).trans (congrArg Host.Outcome.next (if_pos (by rw [decide_eq_true h, hheld]; rfl)))

/-- The state in which the old channel's test ends a migration: the channel is free again, once, or retired. -/
def State.testedChannel (s : State) (die : Nat) (passed : Bool) : State :=
  let d := s.memDie die
  if passed && !(s.stack d.migStack).returned.contains d.migOld then
    s.updStack d.migStack (fun y => { y with free := insNat d.migOld y.free, returned := y.returned ++ [d.migOld] })
  else
    (s.updStack d.migStack (fun y => { y with retired := y.retired ++ [d.migOld] })).raise 0x40 0x27 none
      [(.stack, d.migStack), (.channel, d.migOld)] []

theorem exec_migrationOldChannelTest (h : (s.memDie die).mig = .testing) (passed : Bool) :
    exec (.migrationOldChannelTest die passed) s = .next ((s.testedChannel die passed).migrationDone die) :=
  (onUnit_next (decide_eq_true hd) _).trans (congrArg Host.Outcome.next (if_neg (not_not_intro h)))

/-- The state after the 100 ms of a Hold: it is released, the switch reported as given up. -/
def State.givesUpSwitch (s : State) (die : Nat) : State :=
  let d := s.memDie die
  (((s.reach (s.heldFrom (migHold die) + 100000000)).updMemDie die (fun y => { y with holdsFor := false })).releaseModule (migHold die)
    4).raise 0x40 0x26 none [(.stack, d.migStack), (.channel, d.migOld)] []

theorem exec_migrationSwitchTimeout (h : (s.memDie die).mig = .awaitingHold) (hheld : s.moduleHeld (migHold die) = true) :
    exec (.migrationSwitchTimeout die) s = .next (if (s.memDie die).retried then
      ((s.givesUpSwitch die).updStack (s.memDie die).migStack (fun y => { y with free := insNat (s.memDie die).migSpare y.free })).migrationDone die
    else (s.givesUpSwitch die).updMemDie die (fun y =>
      { y with mig := .awaitingRetry, retried := true, retryAt := (s.givesUpSwitch die).now + 10000000000 })) :=
  (onUnit_next (decide_eq_true hd) _).trans (congrArg Host.Outcome.next (if_neg (by simp [h, hheld])))

theorem exec_migrationRetry (h : (s.memDie die).mig = .awaitingRetry) :
    exec (.migrationRetry die) s = .next ((s.reach (s.memDie die).retryAt).awaitHold die) :=
  (onUnit_next (decide_eq_true hd) _).trans (congrArg Host.Outcome.next (if_pos h))

end

theorem State.testedChannel_memDie (s : State) (die : Nat) (passed : Bool) (k : Nat) : (s.testedChannel die passed).memDie k = s.memDie k := by
  unfold State.testedChannel
  dsimp only
  split
  · rfl
  · exact State.raise_memDie ..

theorem State.testedChannel_cells (s : State) (die : Nat) (passed : Bool) : (s.testedChannel die passed).dram.cells = s.dram.cells := by
  unfold State.testedChannel
  dsimp only
  split
  · rfl
  · exact (congrArg Dram.cells (State.raise_dram ..)).trans rfl

theorem State.testedChannel_passed {s : State} {die : Nat} (h : (s.memDie die).migOld ∉ (s.stack (s.memDie die).migStack).returned) :
    ((s.testedChannel die true).stack (s.memDie die).migStack).free =
      insNat (s.memDie die).migOld (s.stack (s.memDie die).migStack).free := by
  unfold State.testedChannel
  dsimp only
  rw [if_pos (by simpa using h), State.stack_updStack_same]

theorem State.testedChannel_failed (s : State) (die : Nat) : (s.testedChannel die false).stack (s.memDie die).migStack =
    { s.stack (s.memDie die).migStack with retired := (s.stack (s.memDie die).migStack).retired ++ [(s.memDie die).migOld] } := by
  unfold State.testedChannel
  exact (State.raise_stack ..).trans (State.stack_updStack_same ..)

theorem State.givesUpSwitch_dram (s : State) (die : Nat) :
    (s.givesUpSwitch die).dram = (s.updMemDie die (fun y => { y with holdsFor := false })).dram :=
  (State.raise_dram ..).trans (State.releaseModule_keeps keptByHolds_dram ..)

theorem State.givesUpSwitch_now (s : State) (die : Nat) :
    (s.givesUpSwitch die).now = max s.now (s.heldFrom (migHold die) + 100000000) :=
  (State.raise_now ..).trans (State.releaseModule_keeps (g := State.now)
    (fun _ => ⟨⟨fun _ _ _ => rfl, fun _ _ => rfl, fun _ _ => rfl, fun _ _ _ => rfl, fun _ => rfl, fun _ => rfl⟩, fun _ _ _ => rfl,
      fun _ _ _ => rfl⟩) ..)

theorem State.mapped_eq {u : State} {n : Nat} {cells : List Host.Cell} {m : Nat → Tab Nat} (h : u.mapped = (n, cells, m)) :
    u.now = n ∧ u.dram.cells = cells ∧ ∀ st, (u.stack st).map = m st := by
  simp only [State.mapped, Prod.mk.injEq] at h
  obtain ⟨hnow, hcells, hmap⟩ := h
  exact ⟨hnow, hcells, fun st => congrFun hmap st⟩

theorem State.givesUpSwitch_effect (s : State) (die : Nat) : (s.givesUpSwitch die).mapped =
    (max s.now (s.heldFrom (migHold die) + 100000000), s.dram.cells, fun st => (s.stack st).map) ∧
    (s.givesUpSwitch die).memDie die = { s.memDie die with holdsFor := false } := by
  have hdram := s.givesUpSwitch_dram die
  refine ⟨?_, (State.memDie_congr hdram die).trans (State.memDie_updMemDie_same ..)⟩
  have hcells : (s.givesUpSwitch die).dram.cells = s.dram.cells := (congrArg Dram.cells hdram).trans rfl
  have hmap : (fun st => ((s.givesUpSwitch die).stack st).map) = fun st => (s.stack st).map :=
    funext fun st => congrArg Stack.map ((State.stack_congr hdram st).trans rfl)
  rw [State.mapped, s.givesUpSwitch_now die, hcells, hmap]

/-- What a start of a migration leaves of its die and stack (R325). -/
theorem State.triggerMigration_starts {s : State} {st ch spare : Nat} {rest : List Nat} (hpend : s.migrationPending (st / 4) st ch = false)
    (hret : (s.stack st).retired.contains ((s.stack st).physical ch) = false) (hidle : (s.memDie (st / 4)).mig = .idle)
    (hfree : (s.stack st).free = spare :: rest) : s.triggerMigration st ch =
      (s.updStack st (fun y => { y with free := rest })).updMemDie (st / 4) (fun d =>
        { d with mig := .training, migStack := st, migChannel := ch, migSpare := spare, migOld := (s.stack st).physical ch
                 copyPtr := 0, retried := false }) := by
  unfold State.triggerMigration State.startMigration
  dsimp only
  rw [if_neg (by simp only [hpend, hret]; decide), if_pos hidle]
  simp only [hfree]

/-- Settles O39: each command's state is one of the steps above, and its die and stack are read off. -/
theorem channelMigration : Obligations.ChannelMigration := by
  unfold Obligations.ChannelMigration
  intro s die d now hdie
  refine ⟨?request, ?trained, ?copied, ?switched, ?tested, ?early, ?timeout, ?retry⟩
  case request =>
    intro t r spare rest h hnames v st ch hfld hst hpend hret hidle hfree
    subst hst
    have hstart := State.triggerMigration_starts hpend hret hidle hfree
    refine ⟨t.triggerMigration st ch, ?_, ?_⟩
    · change execMigrateRequest r s = _
      rw [execMigrateRequest, if_neg (by rw [hnames]; decide)]
      refine congrArg Host.Outcome.next ((h.command ?_).trans rfl)
      exact (if_neg (not_not_intro hfld)).trans (if_neg (by rw [hpend, hret]; decide))
    · simp only [now]
      rw [hstart, State.memDie_updMemDie_same, State.updMemDie_stack, State.stack_updStack_same]
      exact ⟨rfl, rfl, rfl, rfl, rfl, rfl, rfl⟩
  case trained =>
    intro h
    exact ⟨_, exec_migrationSpareTrained hdie h, State.memDie_updMemDie_same .., rfl⟩
  case copied =>
    intro h
    have hcopy := s.copyTo_memDie die (2 ^ 18)
    have hruns := s.copyTo_runStates die (2 ^ 18)
    obtain ⟨hwait, hnone⟩ := (s.copyTo die (2 ^ 18)).awaitHold_effect die
    rw [State.tabledParts_congr hruns, hcopy] at hwait hnone
    refine ⟨_, exec_migrationCopyComplete hdie h, fun _ hex => ?_, fun htab => ?_⟩
    · obtain ⟨p, hp, hr⟩ := hex
      simp only [now]
      rw [hwait ⟨p, hp, (congrFun hruns p).trans_ne hr⟩]
      exact ⟨rfl, rfl⟩
    · obtain ⟨hmem, hphys⟩ := hnone htab
      simp only [now]
      rw [hmem]
      exact ⟨rfl, hphys⟩
  case switched =>
    intro h hheld
    obtain ⟨hmem, hphys, hcells, hsectors⟩ := s.switchChannel_effect die
    refine ⟨_, exec_migrationSwitch hdie h hheld, ?_, ?_, hphys, hcells, hsectors⟩
    · exact congrArg MemDie.mig hmem
    · exact congrArg MemDie.holdsFor hmem
  case tested =>
    intro passed h hq
    have hdone : (s.testedChannel die passed).migrationDone die = (s.testedChannel die passed).updMemDie die MemDie.rests :=
      State.migrationDone_alone ((congrArg MemDie.queue (s.testedChannel_memDie die passed die)).trans hq)
    refine ⟨_, (exec_migrationOldChannelTest hdie h passed).trans (congrArg Host.Outcome.next hdone), ?_, s.testedChannel_cells die passed,
      fun hpass hret => ?_, fun hfail => ?_⟩
    · simp only [now]
      rw [State.memDie_updMemDie_same]
      rfl
    · subst hpass
      rw [State.updMemDie_stack, State.testedChannel_passed hret]
      exact mem_insNat _ _
    · subst hfail
      rw [State.updMemDie_stack, State.testedChannel_failed]
      exact ⟨by simp [d], rfl⟩
  case early =>
    intro h hheld
    exact (onUnit_next (decide_eq_true hdie) _).trans (congrArg Host.Outcome.next (if_pos (.inr (by rw [hheld]; rfl))))
  case timeout =>
    intro h hheld
    obtain ⟨hmapped, hmem⟩ := s.givesUpSwitch_effect die
    have hexec := exec_migrationSwitchTimeout hdie h hheld
    cases hret : (s.memDie die).retried
    case false =>
      refine ⟨_, hexec.trans (congrArg Host.Outcome.next (if_neg (by rw [hret]; decide))), ?_⟩
      obtain ⟨hnow, hcells, hmap⟩ := State.mapped_eq ((State.updMemDie_mapped ..).trans hmapped)
      refine ⟨hnow, hmap, hcells, fun _ => ?_, fun hc => absurd hc Bool.false_ne_true⟩
      simp only [now]
      rw [State.memDie_updMemDie_same, hmem]
      exact ⟨rfl, rfl, rfl⟩
    case true =>
      refine ⟨_, hexec.trans (congrArg Host.Outcome.next (if_pos hret)), ?_⟩
      have hdone := (keptByMigrations_mapped.migrationDone _ die).trans (State.updStack_mapped (s.givesUpSwitch die) (s.memDie die).migStack
        (f := fun y => { y with free := insNat (s.memDie die).migSpare y.free }) fun _ => rfl)
      obtain ⟨hnow, hcells, hmap⟩ := State.mapped_eq (hdone.trans hmapped)
      refine ⟨hnow, hmap, hcells, fun hc => absurd hc.symm Bool.false_ne_true, fun _ hq => ?_⟩
      rw [State.migrationDone_alone (by rw [State.updStack_memDie, hmem]; exact hq)]
      simp only [now]
      rw [State.memDie_updMemDie_same, State.updMemDie_stack, State.stack_updStack_same]
      refine ⟨MemDie.rests_mig _, ?_⟩
      dsimp only
      exact mem_insNat (s.memDie die).migSpare ((s.givesUpSwitch die).stack (s.memDie die).migStack).free
  case retry =>
    intro h
    obtain ⟨hwait, hnone⟩ := (s.reach d.retryAt).awaitHold_effect die
    refine ⟨_, exec_migrationRetry hdie h, fun _ hex => ?_, fun htab => ?_⟩
    · simp only [now]
      rw [hwait hex]
      exact ⟨rfl, rfl⟩
    · simp only [now]
      rw [(hnone htab).1]
      rfl

end Sys2Proof.Machine
end

section
/-!
PROOFS. The trains of Table LNK-7 at their destination (R342, R344, R347).
-/

namespace Sys2Proof.Machine

open Sys2Proof

section
variable {s : State} {l kind : Nat} {f : State → Nat → Txn → State} (hl : l < 96)
include hl

theorem onTxn_taken {t : Txn} {p : Nat} (h : s.takeTxn l kind = some (t, p)) : onTxn l kind s f = .next (f ((s.popTxn l).active p) p t) := by
  unfold onTxn
  rw [h]
  exact onUnit_next (decide_eq_true hl) _

theorem onTxn_none (h : s.takeTxn l kind = none) : onTxn l kind s f = .next s := by
  unfold onTxn
  rw [h]
  exact onUnit_next (decide_eq_true hl) _

end

/-- A taken transaction leaves its link; the partition was active now. -/
def State.takes (s : State) (l p : Nat) : State := (s.popTxn l).active p

theorem State.takes_link (s : State) (l p : Nat) : (s.takes l p).link l = { s.link l with arrived := (s.link l).arrived.drop 1 } :=
  (State.updPart_link ..).trans (State.link_updLink_same ..)

/-- What a train refused at its destination leaves before its answer: the event only. -/
theorem State.takes_raise (s : State) (l p cls detail : Nat) (part : Option Nat) (loc : List (LocKind × Nat)) (arg : List Nat) :
    let v := ((s.popTxn l).active p).raise cls detail part loc arg
    v.dram = s.dram ∧ v.squares = s.squares ∧ v.events = withEvent s.events ⟨s.now, cls, detail, part, loc, arg⟩ :=
  ⟨State.raise_dram .., State.raise_squares .., State.raise_events ..⟩

/-- The writes of a train that a failing access splits: those before it, none of its 128 bytes. -/
theorem State.splitWrites_fails {s : State} {p : Nat} {ws : List ByteWrite} {f : Nat × Nat} (h : (s.splitWrites p ws).2 = some f) :
    ∃ k, (s.splitWrites p ws).1.Sublist (ws.take k) ∧ (ws.drop k).head?.map (fun b => b.va) = some f.2 := by
  cases hi : ws.findIdx? (fun w => (s.writeFault p w.va true).isSome)
  case none =>
    simp only [State.splitWrites, hi] at h
    cases h
  case some i =>
    simp only [State.splitWrites, hi, Option.some.injEq] at h ⊢
    subst h
    refine ⟨i, List.filter_sublist, ?_⟩
    have hlt : i < ws.length := (List.findIdx?_eq_some_iff_findIdx_eq.1 hi).1
    simp [List.head?_drop, hlt, List.getD_eq_getElem?_getD]

theorem State.splitWrites_whole {s : State} {p : Nat} {ws : List ByteWrite} (h : (s.splitWrites p ws).2 = none) : (s.splitWrites p ws).1 = ws := by
  cases hi : ws.findIdx? (fun w => (s.writeFault p w.va true).isSome)
  case none => simp only [State.splitWrites, hi]
  case some i =>
    simp only [State.splitWrites, hi] at h
    cases h

section
variable {s : State} {l : Nat} (hl : l < 96)
include hl

/-- A train's command stands where the oldest transaction is not of its kind. -/
theorem exec_train_stands : (s.takeTxn l 1 = none → exec (.linkWrite l) s = .next s) ∧ (s.takeTxn l 5 = none → exec (.linkPartial l) s = .next s) ∧
    (s.takeTxn l 6 = none → exec (.gradSign l) s = .next s) ∧ (s.takeTxn l 7 = none → exec (.gradTopk l) s = .next s) ∧
    (s.takeTxn l 2 = none → exec (.linkRead l) s = .next s) := by
  refine ⟨fun h => ?_, fun h => ?_, fun h => ?_, fun h => ?_, fun h => ?_⟩
  · change execLinkWrite l s = _
    exact onTxn_none hl h
  · change execLinkPartial l s = _
    exact onTxn_none hl h
  · change execGradSign l s = _
    exact onTxn_none hl h
  · change execGradTopk l s = _
    exact onTxn_none hl h
  · change execLinkRead l s = _
    exact onTxn_none hl h

variable {t : Txn} {p : Nat}

theorem exec_linkWrite (h : s.takeTxn l 1 = some (t, p)) : exec (.linkWrite l) s =
    .next ((s.takes l p).storeTrain l p t (runWrites t.address (trainData t) (byteAt t.inl 4) (byteAt t.inl 5))) := by
  change execLinkWrite l s = _
  exact onTxn_taken hl h

theorem exec_linkPartial (h : s.takeTxn l 5 = some (t, p)) : exec (.linkPartial l) s =
    .next ((s.takes l p).storeTrain l p t (runWrites (t.address + rd t.inl 4 2 * rd t.inl 8 8) (trainData t) 0 0)) := by
  change execLinkPartial l s = _
  exact onTxn_taken hl h

theorem exec_gradSign (h : s.takeTxn l 6 = some (t, p)) : let n := rd t.inl 4 4
    let scales := 4 * cdiv n (2 ^ rd t.inl 8 1)
    exec (.gradSign l) s = .next (
      if decide (8 ≤ rd t.inl 8 1) && decide (rd t.inl 8 1 ≤ 16) && decide (rd t.inl 0 4 = scaleStart n + scales) &&
        decide (rd t.inl 0 4 ≤ t.data.length)
      then (s.takes l p).storeTrain l p t (runWrites t.address (t.data.take (signBytes n)) 0 0 ++
        runWrites (rd t.inl 16 8 % 2 ^ 42) (slice t.data (scaleStart n) scales) 0 0)
      else (s.takes l p).badTrain l p t) := by
  change execGradSign l s = _
  exact onTxn_taken hl h

theorem exec_gradTopk (h : s.takeTxn l 7 = some (t, p)) : let n := rd t.inl 4 4
    exec (.gradTopk l) s = .next (
      if decide (rd t.inl 0 4 = 4 * n + n * rd t.inl 8 4) && decide (rd t.inl 0 4 ≤ t.data.length) then
        (s.takes l p).storeTrain l p t (runWrites t.address (t.data.take (4 * n)) 0 0 ++
          runWrites (rd t.inl 16 8 % 2 ^ 42) (slice t.data (4 * n) (n * rd t.inl 8 4)) 0 0)
      else (s.takes l p).badTrain l p t) := by
  change execGradTopk l s = _
  exact onTxn_taken hl h

/-- LINK_READ: refused by its Length, by the first address that cannot be read, or answered with the bytes. -/
theorem exec_linkRead (h : s.takeTxn l 2 = some (t, p)) : let n := rd t.inl 0 4
    let u := s.takes l p
    let vas := (List.range n).map (fun i => t.address + i)
    (n = 0 ∨ readLimit (s.link l).version < n → exec (.linkRead l) s = .next (u.replyTxn l p t 3 1 [])) ∧
    (∀ f, 1 ≤ n → n ≤ readLimit (s.link l).version → u.readFault p vas = some f →
      exec (.linkRead l) s = .next (u.refuseTxn l p t 3 f.1 f.2)) ∧
    (1 ≤ n → n ≤ readLimit (s.link l).version → u.readFault p vas = none → exec (.linkRead l) s =
      .next ((((u.touchVas p vas).chargeAll p none (u.chunkTraffic p vas false ++ [passTraffic p l n])).settleLost).replyTxn l p t 3 0
        (vas.map (u.vaByte p)))) := by
  intro n u vas
  have hversion : (((s.popTxn l).active p).link l).version = (s.link l).version := (congrArg Link.version (s.takes_link l p)).trans rfl
  have hrun : exec (.linkRead l) s = execLinkRead l s := rfl
  unfold execLinkRead at hrun
  rw [onTxn_taken hl h] at hrun
  refine ⟨fun hn => ?_, fun f h1 h2 hf => ?_, fun h1 h2 hf => ?_⟩
  · exact hrun.trans (congrArg Host.Outcome.next (if_pos (hversion.symm ▸ hn)))
  · refine hrun.trans (congrArg Host.Outcome.next ((if_neg (by rw [hversion]; omega)).trans ?_))
    dsimp only
    rw [show ((s.popTxn l).active p).readFault p ((List.range (rd t.inl 0 4)).map (fun i => t.address + i)) = some f from hf]
    rfl
  · refine hrun.trans (congrArg Host.Outcome.next ((if_neg (by rw [hversion]; omega)).trans ?_))
    dsimp only
    rw [show ((s.popTxn l).active p).readFault p ((List.range (rd t.inl 0 4)).map (fun i => t.address + i)) = none from hf]
    rfl

end

/-- Settles O40: each command runs its effect on the taken train, and the branches of the effect are those of the statement. -/
theorem linkTrains : Obligations.LinkTrains := by
  unfold Obligations.LinkTrains
  intro s l p t u n a2 hl
  obtain ⟨hwrite, hpartial, hsign, htopk, hread⟩ := exec_train_stands (s := s) hl
  refine ⟨hwrite, hpartial, hsign, htopk, hread, exec_linkWrite hl, exec_linkPartial hl, fun h => ?sign, fun h => ?topk, fun ws => ?store,
    fun h => ?read⟩
  case sign =>
    intro scales good
    have hgood : (decide (8 ≤ rd t.inl 8 1) && decide (rd t.inl 8 1 ≤ 16) && decide (rd t.inl 0 4 = scaleStart n + scales) &&
        decide (rd t.inl 0 4 ≤ t.data.length)) = true ↔ good := by simp [good, and_assoc]
    refine ⟨fun hg => (exec_gradSign hl h).trans (congrArg Host.Outcome.next (if_pos (hgood.2 hg))), fun hb => ?_⟩
    exact ⟨u.raise 0x30 0x5F (some p) [(.link, l)] [],
      (exec_gradSign hl h).trans (congrArg Host.Outcome.next (if_neg fun hg => hb (hgood.1 hg))), s.takes_raise l p ..⟩
  case topk =>
    intro good
    have hgood : (decide (rd t.inl 0 4 = 4 * n + n * rd t.inl 8 4) && decide (rd t.inl 0 4 ≤ t.data.length)) = true ↔ good := by simp [good]
    refine ⟨fun hg => (exec_gradTopk hl h).trans (congrArg Host.Outcome.next (if_pos (hgood.2 hg))), fun hb => ?_⟩
    exact ⟨u.raise 0x30 0x5F (some p) [(.link, l)] [],
      (exec_gradTopk hl h).trans (congrArg Host.Outcome.next (if_neg fun hg => hb (hgood.1 hg))), s.takes_raise l p ..⟩
  case store =>
    intro y w
    refine ⟨fun hy => ⟨State.splitWrites_whole hy, ?_⟩, fun f hf => ⟨State.splitWrites_fails hf, ?_⟩⟩
    · unfold State.storeTrain
      dsimp only
      rw [show (u.splitWrites p ws).2 = none from hy]
    · refine ⟨w.raise 0x31 f.1 (some p) [(.link, l), (.va, f.2)] [], ?_, State.raise_dram .., State.raise_squares .., State.raise_parts ..,
        State.raise_events ..⟩
      unfold State.storeTrain
      dsimp only
      rw [show (u.splitWrites p ws).2 = some f from hf]
      rfl
  case read =>
    intro k vas
    obtain ⟨hshort, hrefused, hreads⟩ := exec_linkRead hl h
    exact ⟨hshort, fun h1 h2 hr => ⟨_, hreads h1 h2 hr, rfl⟩, fun f h1 h2 hr => ⟨u.raise 0x31 f.1 (some p) [(.link, l), (.va, f.2)] [],
      hrefused f h1 h2 hr, s.takes_raise l p ..⟩⟩

end Sys2Proof.Machine
end

section
/-!
PROOFS. The answers to a link Mover's requests at their sender (R344).
-/

namespace Sys2Proof.Machine

open Sys2Proof

/-! ### What a freeze leaves -/

/-- A freeze changes a channel only by an abort, and only one that can still stop. -/
theorem State.freeze_keeps {β : Type} {g : State → β} (hp : ∀ s p f, g (State.updPart s p f) = g s)
    (ha : ∀ s m ch n, g (State.abortChannel s m ch n) = g s) (s : State) (p cause : Nat) : g (s.freeze p cause) = g s := by
  unfold State.freeze State.freezeBut
  split
  · rfl
  · dsimp only
    refine (foldl_keeps g _ _ fun t c => ?_).trans ((hp ..).trans (hp ..))
    split
    · rfl
    · exact ha ..

theorem State.freeze_ls (s : State) (p cause q : Nat) : ((s.freeze p cause).sq q).ls = (s.sq q).ls := by
  refine State.freeze_keeps (g := fun t => (t.sq q).ls) (fun _ _ _ => rfl) (fun t m ch n => ?_) s p cause
  unfold State.abortChannel
  split
  · exact t.sq_ls_updChannel ..
  · rfl

/-- A channel that aborts already is none that a freeze stops. -/
theorem State.freeze_aborting {s : State} {m : MoverId} {ch n : Nat} (h : (s.channel m ch).phase = .aborting n) (p cause : Nat) :
    (s.freeze p cause).channel m ch = s.channel m ch := by
  unfold State.freeze State.freezeBut
  split
  · rfl
  · dsimp only
    refine List.foldlRecOn _ _ (motive := fun t => State.channel t m ch = s.channel m ch) ?_ (fun t ht c _ => ?_)
    · exact (State.updPart_channel ..).trans (State.updPart_channel ..)
    · split
      · exact ht
      · unfold State.abortChannel
        split
        next hstop =>
          rw [State.channel_updChannel]
          split
          next he =>
            obtain ⟨hm, hc⟩ := he
            rw [← hm, ← hc, ht] at hstop
            simp [State.stoppable, h] at hstop
          next => exact ht
        next => exact ht

/-! ### A refused request of a Mover -/

section
variable {s : State} {m : MoverId} {ch p : Nat} {live : Bool} {desc va : Nat}

/-- A refusal freezes the partition, and changes no stored data. -/
theorem State.refusedRequest_frame : ((s.refusedRequest m ch p live desc va).part p).frozen = true ∧
    (s.refusedRequest m ch p live desc va).dram = s.dram ∧ ∀ q, ((s.refusedRequest m ch p live desc va).sq q).ls = (s.sq q).ls := by
  unfold State.refusedRequest
  dsimp only
  refine ⟨State.freeze_frozen .., (State.freeze_dram ..).trans ?_, fun q => (State.freeze_ls ..).trans ?_⟩
  · split
    · simp
    · split
      · rfl
      · simp
  · split
    · exact s.sq_ls_updChannel ..
    · split
      · rfl
      · simp

/-- The chain that still runs, or waits under Barrier 1, aborts with cause 0x03 and the remote address. -/
theorem State.refusedRequest_aborts (hlive : live = true) (h : s.stoppable (s.channel m ch) = true ∨
    ((s.channel m ch).phase = .written ∧ s.chainEnds (s.channel m ch).partition (s.channel m ch).desc = true) ∧
      mdBarrier (s.mdesc (s.channel m ch)) = true) :
    (s.refusedRequest m ch p live desc va).channel m ch = { s.channel m ch with phase := .aborting 3, faultAddress := va } ∧
    (s.refusedRequest m ch p live desc va).events = s.events := by
  have hcond : (live && (s.stoppable (s.channel m ch) ||
      ((decide ((s.channel m ch).phase = .written) && s.chainEnds (s.channel m ch).partition (s.channel m ch).desc) &&
        mdBarrier (s.mdesc (s.channel m ch))))) = true := by
    rw [hlive]
    simpa using h
  have hrun : s.refusedRequest m ch p live desc va =
      (s.updChannel m ch (fun y => { y with phase := .aborting 0x03, faultAddress := va })).freeze p 2 :=
    congrArg (fun t => State.freeze t p 2) (if_pos hcond)
  rw [hrun, State.freeze_events, State.freeze_aborting (n := 3) (by rw [State.channel_updChannel_same]), State.channel_updChannel_same]
  exact ⟨rfl, State.updChannel_events ..⟩

/-- A chain that neither runs nor has completed is told of no more than by the freeze. -/
theorem State.refusedRequest_silent (hlive : live = true) (hs : s.stoppable (s.channel m ch) = false)
    (hl : ¬((s.channel m ch).phase = .written ∧ s.chainEnds (s.channel m ch).partition (s.channel m ch).desc = true)) :
    (s.refusedRequest m ch p live desc va).events = s.events := by
  have hlast : (decide ((s.channel m ch).phase = .written) && s.chainEnds (s.channel m ch).partition (s.channel m ch).desc) = false :=
    Bool.eq_false_iff.2 fun h => hl (by simpa using h)
  unfold State.refusedRequest
  dsimp only
  rw [hlive, hs, hlast, State.freeze_events]
  rfl

/-- Of a chain that has completed event 0x31 detail 0x0A tells. -/
theorem State.refusedRequest_told (h : live = false ∨
    ((s.channel m ch).phase = .written ∧ s.chainEnds (s.channel m ch).partition (s.channel m ch).desc = true) ∧
      ¬mdBarrier (s.mdesc (s.channel m ch)) = true) :
    (s.refusedRequest m ch p live desc va).events =
      withEvent s.events ⟨s.now, 0x31, 0x0A, some p, moverLoc m ch desc ++ [(.va, va)], []⟩ := by
  have hrun : s.refusedRequest m ch p live desc va = (s.raise 0x31 0x0A (some p) (moverLoc m ch desc ++ [(.va, va)]) []).freeze p 2 := by
    refine congrArg (fun t => State.freeze t p 2) ((if_neg ?_).trans (if_neg ?_))
    · rcases h with hlive | ⟨⟨hw, hc⟩, hb⟩
      · simp [hlive]
      · simp [State.stoppable, hw, hc, hb]
    · rcases h with hlive | ⟨⟨hw, hc⟩, _⟩
      · simp [hlive]
      · simp [hw, hc]
  rw [hrun, State.freeze_events, State.raise_events]

end

/-! ### The commands -/

theorem State.takes_channel (s : State) (l p : Nat) (m : MoverId) (ch : Nat) : (s.takes l p).channel m ch = s.channel m ch := by
  refine (State.updPart_channel ..).trans ?_
  cases m with
  | square q => rfl
  | host => rfl
  | link k =>
    unfold State.popTxn State.channel
    dsimp only
    rw [State.link_updLink]
    split
    next h => rw [h]
    next => rfl

theorem State.takes_otherLinks (s : State) (l p : Nat) : OtherLinks s (s.takes l p) l := fun k hk =>
  (State.updPart_link ..).trans ((s.link_updLink l k _).trans (if_neg hk.symm))

theorem State.takes_otherParts (s : State) (l p : Nat) : OtherParts s (s.takes l p) p := (s.popTxn l).active_otherParts p

section
variable {s : State} {l p : Nat} {t : Txn} (hl : l < 96)
include hl

theorem exec_answer_none : (s.takeTxn l 3 = none → exec (.linkReadResp l) s = .next s) ∧
    (s.takeTxn l 4 = none → exec (.linkWriteAck l) s = .next s) := by
  refine ⟨fun h => ?_, fun h => ?_⟩
  · change execLinkReadResp l s = _
    exact onTxn_none hl h
  · change execLinkWriteAck l s = _
    exact onTxn_none hl h

/-- LINK_READ_RESP by its sender, its Status and the chain. -/
theorem exec_linkReadResp (h : s.takeTxn l 3 = some (t, p)) :
    ((s.takes l p).senderOf l t.txnTag = none → exec (.linkReadResp l) s = .next (s.takes l p)) ∧
    (∀ ch z, (s.takes l p).senderOf l t.txnTag = some (ch, z) → let v := (s.takes l p).dropTag l ch t.txnTag
      exec (.linkReadResp l) s = .next (if rd t.inl 0 1 ≠ 0 then v.refusedAtSender l ch p z
        else if z.live && decide ((v.channel (.link l) ch).phase = .active) then v.readArrived l ch t.data else v)) := by
  have hrun : exec (.linkReadResp l) s = execLinkReadResp l s := rfl
  unfold execLinkReadResp at hrun
  rw [onTxn_taken hl h] at hrun
  refine ⟨fun hz => hrun.trans (congrArg Host.Outcome.next ?_), fun ch z hz => hrun.trans (congrArg Host.Outcome.next ?_)⟩
  · dsimp only
    rw [show ((s.popTxn l).active p).senderOf l t.txnTag = none from hz]
    rfl
  · dsimp only
    rw [show ((s.popTxn l).active p).senderOf l t.txnTag = some (ch, z) from hz]
    rfl

/-- LINK_WRITE_ACK by its sender and its Status. -/
theorem exec_linkWriteAck (h : s.takeTxn l 4 = some (t, p)) :
    ((s.takes l p).senderOf l t.txnTag = none → exec (.linkWriteAck l) s = .next (s.takes l p)) ∧
    (∀ ch z, (s.takes l p).senderOf l t.txnTag = some (ch, z) → let v := (s.takes l p).dropTag l ch t.txnTag
      exec (.linkWriteAck l) s = .next (if rd t.inl 0 1 ≠ 0 then v.refusedAtSender l ch p z else v)) := by
  have hrun : exec (.linkWriteAck l) s = execLinkWriteAck l s := rfl
  unfold execLinkWriteAck at hrun
  rw [onTxn_taken hl h] at hrun
  refine ⟨fun hz => hrun.trans (congrArg Host.Outcome.next ?_), fun ch z hz => hrun.trans (congrArg Host.Outcome.next ?_)⟩
  · dsimp only
    rw [show ((s.popTxn l).active p).senderOf l t.txnTag = none from hz]
    rfl
  · dsimp only
    rw [show ((s.popTxn l).active p).senderOf l t.txnTag = some (ch, z) from hz]
    rfl

end

theorem State.dropTag_frame (s : State) (l p ch tag : Nat) : let v := (s.takes l p).dropTag l ch tag
    (v.channel (.link l) ch).sent = (s.channel (.link l) ch).sent.filter (fun y => decide (y.tag ≠ tag)) ∧
      v.dram = s.dram ∧ v.squares = s.squares ∧ OtherLinks s v l ∧ OtherParts s v p := by
  refine ⟨?_, rfl, rfl, fun k hk => ?_, s.takes_otherParts l p⟩
  · rw [State.dropTag, State.channel_updChannel_same, State.takes_channel]
  · exact ((s.takes l p).link_updLink l k _).trans ((if_neg hk.symm).trans (s.takes_otherLinks l p k hk))

/-- Settles O41: both commands run to the same refusal, whose four outcomes are `State.refusedRequest`'s. -/
theorem linkAnswers : Obligations.LinkAnswers := by
  unfold Obligations.LinkAnswers
  intro s l p ch kind t z c u v d last waits
  refine ⟨fun hl => exec_answer_none hl, fun hl hkind htake => ?_⟩
  have hnone : u.senderOf l t.txnTag = none → exec c s = .next u := by
    rcases hkind with rfl | rfl
    · exact (exec_linkReadResp hl htake).1
    · exact (exec_linkWriteAck hl htake).1
  refine ⟨hnone, fun hz => ⟨s.dropTag_frame l p ch t.txnTag, ?_, ?_, ?_, fun hst => ?_⟩⟩
  · rintro hst rfl
    exact ((exec_linkWriteAck hl htake).2 ch z hz).trans (congrArg Host.Outcome.next (if_neg (not_not_intro hst)))
  · rintro hst rfl hlive hact
    exact ((exec_linkReadResp hl htake).2 ch z hz).trans (congrArg Host.Outcome.next ((if_neg (not_not_intro hst)).trans
      (if_pos (Bool.and_eq_true_iff.2 ⟨hlive, decide_eq_true hact⟩))))
  · rintro hst rfl hno
    refine ((exec_linkReadResp hl htake).2 ch z hz).trans (congrArg Host.Outcome.next ((if_neg (not_not_intro hst)).trans (if_neg ?_)))
    rcases hno with hlive | hact
    · simp [hlive]
    · simp only [Bool.and_eq_true, decide_eq_true_eq, not_and]
      exact fun _ => hact
  · have hrun : exec c s = .next (v.refusedAtSender l ch p z) := by
      rcases hkind with rfl | rfl
      · exact ((exec_linkReadResp hl htake).2 ch z hz).trans (congrArg Host.Outcome.next (if_pos hst))
      · exact ((exec_linkWriteAck hl htake).2 ch z hz).trans (congrArg Host.Outcome.next (if_pos hst))
    obtain ⟨hfrozen, hdram, hls⟩ := State.refusedRequest_frame (s := v) (m := .link l) (ch := ch) (p := p) (live := z.live)
      (desc := z.desc) (va := z.va)
    refine ⟨_, hrun, hfrozen, hdram, hls, fun hlive hstop => ?_, fun hlive hstop hlast => ?_, fun htold => ?_⟩
    · obtain ⟨hch, hev⟩ := State.refusedRequest_aborts (s := v) (m := .link l) (ch := ch) (p := p) (desc := z.desc) (va := z.va) hlive hstop
      exact ⟨congrArg Channel.phase hch, congrArg Channel.faultAddress hch, hev⟩
    · exact State.refusedRequest_silent hlive hstop hlast
    · refine (State.refusedRequest_told (htold.imp_right ?_)).trans rfl
      exact fun ⟨h1, h2⟩ => ⟨h1, fun hb => h2 ⟨h1, hb⟩⟩

end Sys2Proof.Machine
end

section
/-!
PROOFS. Posts, resets, gate and Table messages that arrive on a link, and what is routed on (R344 to R348).
-/

namespace Sys2Proof.Machine

open Sys2Proof

section
variable {s : State} {l p : Nat} {t : Txn} (hl : l < 96)
include hl

theorem exec_linkSemPost (h : s.takeTxn l 8 = some (t, p)) : exec (.linkSemPost l) s = .next ((s.takes l p).atSquare p t
    ((s.takes l p).arrivePost p (inlSquare t) (inlEntry t) (inlSem t) (rd t.inl 2 1) (inlEpoch t))) := by
  change execLinkSemPost l s = _
  exact onTxn_taken hl h

theorem exec_linkReset (h : s.takeTxn l 9 = some (t, p)) (hp : (s.entry (inlSquare t) (inlEntry t)).isProducer = true) :
    exec (.linkReset l) s = .next ((s.takes l p).atSquare p t (((s.takes l p).arriveReset p (inlSquare t) (inlEntry t) (inlEpoch t)).sendSeat p
      (s.entry (inlSquare t) (inlEntry t)).peerSeat (linkResetTxn 0x0A (s.entry (inlSquare t) (inlEntry t)).peerSquare
        (s.entry (inlSquare t) (inlEntry t)).peerEntry (inlEpoch t)))) := by
  change execLinkReset l s = _
  unfold execLinkReset
  rw [onTxn_taken hl h]
  dsimp only
  exact congrArg (fun f => Host.Outcome.next (State.atSquare (s.takes l p) p t f)) (if_pos hp)

theorem exec_linkResetAck (h : s.takeTxn l 0x0A = some (t, p)) : exec (.linkResetAck l) s = .next ((s.takes l p).atSquare p t
    ((s.takes l p).arriveResetAck p (inlSquare t) (inlEntry t))) := by
  change execLinkResetAck l s = _
  exact onTxn_taken hl h

theorem exec_gateTransaction (h : s.takeTxn l 0x0B = some (t, p)) : exec (.gateTransaction l) s =
    .next ((s.takes l p).updPart p (fun x => { x with gateIn := x.gateIn ++ [(l, BitVec.ofNat 256 (rd t.inl 0 32))] })) := by
  change execGateTransaction l s = _
  exact onTxn_taken hl h

end

theorem State.atSquare_owned {s : State} {p : Nat} {t : Txn} (h : s.owner (inlSquare t) = some p) (f : State) : s.atSquare p t f = f := if_pos h

theorem State.atSquare_strayed {s : State} {p : Nat} {t : Txn} (h : s.owner (inlSquare t) ≠ some p) (f : State) :
    s.atSquare p t f = s.placeFault p 0x03 [(.square, inlSquare t), (.entry, inlEntry t)] := if_neg h

theorem State.takes_part (s : State) (l p : Nat) : (s.takes l p).part p = { s.part p with lastActivity := s.now } := State.part_updPart_same ..

/-- What a message's effect at its entry leaves of the module, from before the message was taken. -/
theorem EntryOnly.taken {s v : State} {l p q e : Nat} (h : EntryOnly (s.takes l p) v q e p) :
    (OtherParts s v p ∧ v.dram = s.dram ∧ SameBoard s v) ∧ v.events = s.events ∧ ∀ k, k ≠ q → v.sq k = s.sq k := by
  obtain ⟨_, hsq, hparts, hdram, hevents, _, hboard⟩ := h.only
  exact ⟨⟨fun k hk => (hparts k hk).trans (s.takes_otherParts l p k hk), hdram, hboard⟩, hevents, hsq⟩

/-! ### Table messages and routes -/

/-- The good messages of an ORDERED flit go to the Tables of their link in order. -/
theorem State.takeMessages (l : Nat) (ms : List TableMsg) (s : State) (hok : ∀ m ∈ ms, tableMsgOk m = true) :
    let u := ms.foldl (fun u m => if tableMsgOk m then u.updLink l (fun x => { x with tableIn := x.tableIn ++ [m] }) else u.count 2) s
    u.link l = { s.link l with tableIn := (s.link l).tableIn ++ ms } ∧ OtherLinks s u l ∧ u.parts = s.parts ∧ u.dram = s.dram := by
  induction ms generalizing s with
  | nil => exact ⟨by simp, fun _ _ => rfl, rfl, rfl⟩
  | cons m ms ih =>
    intro u
    obtain ⟨hlink, hothers, hparts, hdram⟩ := ih (s.updLink l (fun x => { x with tableIn := x.tableIn ++ [m] })) fun x hx => hok x (.tail _ hx)
    have hstep : u = ms.foldl (fun u m => if tableMsgOk m then u.updLink l (fun x => { x with tableIn := x.tableIn ++ [m] }) else u.count 2)
        (s.updLink l (fun x => { x with tableIn := x.tableIn ++ [m] })) :=
      congrArg (fun v => List.foldl _ v ms) (if_pos (hok m (.head _)))
    rw [hstep]
    refine ⟨hlink.trans ?_, fun k hk => (hothers k hk).trans ((s.link_updLink ..).trans (if_neg hk.symm)), hparts, hdram⟩
    rw [State.link_updLink_same, List.append_assoc]
    rfl

section
variable {s : State} {l : Nat} {t : Txn} {rest : List Txn} (hl : l < 96) (ha : (s.link l).arrived = t :: rest)
include hl ha

theorem exec_ordered (hk : t.kind = 0x10) : exec (.ordered l) s = .next ((orderedMsgs t).foldl (fun u m =>
    if tableMsgOk m then u.updLink l (fun x => { x with tableIn := x.tableIn ++ [m] }) else u.count 2) (s.popTxn l)) := by
  change execOrdered l s = _
  rw [execOrdered, ha, onUnit_next (decide_eq_true hl)]
  exact congrArg Host.Outcome.next (if_neg (not_not_intro hk))

variable {p : Nat} (hp : (s.link l).slotPart t.keySlot = some p) (hk : t.kind < 0x10)
include hp hk

theorem exec_routeForward_hop {h : Nat} (hn : nextHop t = some h) : exec (.routeForward l) s = .next (
    if h < 96 then (((s.popTxn l).active p).chargeAll p none (crossTraffic p l h t)).sendTxn h
      { t with keySlot := keySlotOf p, hopIndex := t.hopIndex + 1 }
    else (s.popTxn l).count 4) := by
  change execRouteForward l s = _
  rw [execRouteForward, ha, onUnit_next (decide_eq_true hl)]
  dsimp only
  rw [hp]
  dsimp only
  rw [if_neg (by omega), hn]

theorem exec_routeForward_end (hn : nextHop t = none) (hd : t.destSeat ≠ (s.part p).seat) :
    exec (.routeForward l) s = .next ((s.popTxn l).count 4) := by
  change execRouteForward l s = _
  rw [execRouteForward, ha, onUnit_next (decide_eq_true hl)]
  dsimp only
  rw [hp]
  dsimp only
  rw [if_neg (by omega), hn]
  dsimp only
  rw [if_neg hd]

end

/-- Settles O42: each message's effect at its Square is one of the fabric's, on the state that has taken it. -/
theorem linkMessages : Obligations.LinkMessages := by
  unfold Obligations.LinkMessages
  intro s l p t q e x only hl
  let u := s.takes l p
  refine ⟨fun h ho hs => ⟨fun hepoch hroom => ?applied, fun hepoch => ?stale⟩, fun h ho => ?strayed, fun h ho hp => ?reset,
    fun h ho hc o hop => ?ack, fun h => ?gate, fun rest ha hk hok => ?ordered, fun rest ha hp hk => ?route⟩
  case applied =>
    have hres : u.arrivePost p q e (inlSem t) (rd t.inl 2 1) (inlEpoch t) = u.applyPost p q e (inlSem t) (rd t.inl 2 1) := by
      have hs' : (u.entry q e).owns (inlSem t) = true := hs
      have hepoch' : (u.entry q e).epoch = inlEpoch t := hepoch
      simp only [State.arrivePost, hs', hepoch', Bool.not_true, Bool.false_eq_true, if_false, ne_eq, not_true]
    obtain ⟨hsem, _, _⟩ := State.applyPost_room (s := u) (p := p) hroom
    obtain ⟨honly, hevents, hsq⟩ := (EntryOnly.applyPost (s := u) (p := p) hroom).taken
    exact ⟨_, (exec_linkSemPost hl h).trans (congrArg Host.Outcome.next ((State.atSquare_owned (s := u) ho _).trans hres)), honly, hsem, hevents, hsq⟩
  case stale =>
    have hres : u.arrivePost p q e (inlSem t) (rd t.inl 2 1) (inlEpoch t) =
        (u.active p).updPart p (fun y => { y with stalePosts := satAdd y.stalePosts 1 }) := by
      have hs' : (u.entry q e).owns (inlSem t) = true := hs
      have hepoch' : (u.entry q e).epoch ≠ inlEpoch t := hepoch
      simp only [State.arrivePost, hs', Bool.not_true, Bool.false_eq_true, if_false, if_pos hepoch']
    have hpart : (u.active p).part p = { s.part p with lastActivity := s.now } := by
      rw [State.active, State.part_updPart_same]
      exact congrArg (fun y : Partition => { y with lastActivity := s.now }) (s.takes_part l p)
    obtain ⟨honly, _⟩ := ((EntryOnly.active u q e p).trans (EntryOnly.updPart _ q e p (fun y =>
      { y with stalePosts := satAdd y.stalePosts 1 }))).taken
    refine ⟨_, (exec_linkSemPost hl h).trans (congrArg Host.Outcome.next ((State.atSquare_owned (s := u) ho _).trans hres)), honly, rfl, ?_⟩
    rw [State.part_updPart_same, hpart]
  case strayed =>
    refine ⟨_, (exec_linkSemPost hl h).trans (congrArg Host.Outcome.next (State.atSquare_strayed (s := u) ho _)), State.freeze_frozen .., ?_⟩
    exact (State.freeze_events ..).trans (State.raise_events ..)
  case reset =>
    have hres := State.arriveReset_producer (s := u) (p := p) (epoch := inlEpoch t) hp
    have hent : (u.arriveReset p q e (inlEpoch t)).entry q e = { x with epoch := inlEpoch t % 16, empty := x.depth } := by
      rw [hres, State.entry_updEntry, if_pos rfl]
      rfl
    have honly : EntryOnly u (u.arriveReset p q e (inlEpoch t)) q e p := by
      rw [hres]
      exact (EntryOnly.active ..).trans (EntryOnly.updEntry ..)
    have hmod : inlEpoch t % 16 = inlEpoch t := Nat.mod_mod _ _
    exact ⟨_, (exec_linkReset hl h hp).trans (congrArg Host.Outcome.next (State.atSquare_owned (s := u) ho _)), honly.taken.1,
      (congrArg Entry.epoch hent :).trans hmod, (congrArg Entry.empty hent :), (congrArg Entry.full hent :)⟩
  case ack =>
    have hres := State.arriveResetAck_consumer (s := u) (p := p) hc hop
    refine ⟨_, (exec_linkResetAck hl h).trans (congrArg Host.Outcome.next ((State.atSquare_owned (s := u) ho _).trans hres)),
      ((EntryOnly.active u q e p).trans (EntryOnly.updOp _ q e p o.id (fun y => { y with phase := .done }))).taken.1, ?_⟩
    rw [State.updOp, State.sq_updSq_same]
    rfl
  case gate =>
    have honly := (EntryOnly.updPart u q e p (fun x => { x with gateIn := x.gateIn ++ [(l, BitVec.ofNat 256 (rd t.inl 0 32))] })).taken
    refine ⟨_, exec_gateTransaction hl h, honly.1, rfl, ?_, ?_⟩
    · rw [State.part_updPart_same]
      exact congrArg (· ++ _) (congrArg Partition.gateIn (s.takes_part l p) :)
    · exact congrArg Link.arrived (s.takes_link l p)
  case ordered =>
    obtain ⟨hlink, hothers, hparts, hdram⟩ := State.takeMessages l (orderedMsgs t) (s.popTxn l) hok
    refine ⟨_, exec_ordered hl ha hk, hlink.trans ?_, fun k hk => (hothers k hk).trans ((s.link_updLink ..).trans (if_neg hk.symm)), hparts, hdram⟩
    rw [State.popTxn, State.link_updLink_same, ha]
    rfl
  case route =>
    exact ⟨fun h hn hh => (exec_routeForward_hop hl ha hp hk hn).trans (congrArg Host.Outcome.next (if_pos hh)),
      fun h hn hh => (exec_routeForward_hop hl ha hp hk hn).trans (congrArg Host.Outcome.next (if_neg (by omega))),
      fun hn hd => exec_routeForward_end hl ha hp hk hn hd⟩

end Sys2Proof.Machine
end

section
/-!
PROOFS. Link management: the transactions of slot 0 and the TIME that a link sends (R334, R335, R343, R353, R354, R358).
-/

namespace Sys2Proof.Machine

open Sys2Proof

/-! ### Only one link changes -/

/-- Of the links only l changes, and no partition, Square or memory. -/
def LinkOnly (s u : State) (l : Nat) : Prop := OtherLinks s u l ∧ u.parts = s.parts ∧ u.squares = s.squares ∧ u.dram = s.dram

theorem LinkOnly.trans {s t u : State} {l : Nat} (h : LinkOnly s t l) (k : LinkOnly t u l) : LinkOnly s u l := by
  obtain ⟨hlinks, hparts, hsquares, hdram⟩ := h
  obtain ⟨klinks, kparts, ksquares, kdram⟩ := k
  exact ⟨fun n hn => (klinks n hn).trans (hlinks n hn), kparts.trans hparts, ksquares.trans hsquares, kdram.trans hdram⟩

theorem LinkOnly.updLink (s : State) (l : Nat) (f : Link → Link) : LinkOnly s (s.updLink l f) l :=
  ⟨fun _ hk => (s.link_updLink ..).trans (if_neg hk.symm), rfl, rfl, rfl⟩

theorem LinkOnly.updGroup (s : State) (l g : Nat) (f : LinkGroup → LinkGroup) : LinkOnly s (s.updGroup g f) l := ⟨fun _ _ => rfl, rfl, rfl, rfl⟩

theorem LinkOnly.linkEvent (s : State) (cls detail l : Nat) (lane : Option Nat) : LinkOnly s (s.linkEvent cls detail l lane) l :=
  ⟨fun _ _ => State.raise_link .., State.raise_parts .., State.raise_squares .., State.raise_dram ..⟩

theorem LinkOnly.popTxn (s : State) (l : Nat) : LinkOnly s (s.popTxn l) l := LinkOnly.updLink ..

theorem State.popTxn_link {s : State} {l : Nat} {t : Txn} {rest : List Txn} (h : (s.link l).arrived = t :: rest) :
    (s.popTxn l).link l = { s.link l with arrived := rest } := by
  rw [State.popTxn, State.link_updLink_same, h]
  rfl

theorem State.group_updGroup_same (s : State) (g : Nat) (f : LinkGroup → LinkGroup) : (s.updGroup g f).group g = f (s.group g) :=
  (s.group_updGroup g g f).trans (if_pos rfl)

/-- A group whose lane of link l fails in one direction. -/
def LinkGroup.fails (g : LinkGroup) (rx : Bool) (c : Nat) : LinkGroup :=
  { g with failed := if g.failed.contains (laneKey rx c) then g.failed else g.failed ++ [laneKey rx c] }

theorem State.laneFails_group (s : State) (l : Nat) (rx : Bool) (c : Nat) : (s.laneFails l rx c).group (l / 8) = (s.group (l / 8)).fails rx c :=
  State.group_updGroup_same ..

/-- The oldest transaction of the link is a LINK_CTRL of a subtype. -/
structure HoldsCtrl (s : State) (l sub : Nat) (t : Txn) (rest : List Txn) : Prop where
  unit : l < 96
  arrived : (s.link l).arrived = t :: rest
  kind : t.kind = 0x11
  sub : rd t.inl 0 1 = sub

theorem HoldsCtrl.runs {s : State} {l sub : Nat} {t : Txn} {rest : List Txn} (h : HoldsCtrl s l sub t rest) (f : State → Txn → State) :
    onCtrl l sub s f = .next (f (s.popTxn l) t) := by
  unfold onCtrl
  rw [h.arrived, onUnit_next (decide_eq_true h.unit)]
  exact congrArg Host.Outcome.next (if_pos ⟨h.kind, h.sub⟩)

/-! ### A link that is refused -/

theorem State.linkRefused_effect (s : State) (l detail : Nat) : LinkOnly s (s.linkRefused l detail) l ∧
    ((s.linkRefused l detail).link l).state = 4 ∧ ((s.linkRefused l detail).link l).version = 0 := by
  let s1 := s.updLink l (fun x => { x with state := 4, version := 0 })
  have hone : LinkOnly s (s1.linkEvent 0x51 detail l none) l := (LinkOnly.updLink ..).trans (LinkOnly.linkEvent ..)
  have hlink : (s1.linkEvent 0x51 detail l none).link l = { s.link l with state := 4, version := 0 } :=
    (State.raise_link ..).trans (State.link_updLink_same ..)
  unfold State.linkRefused
  dsimp only
  split
  · have hlink2 : ((s1.linkEvent 0x51 detail l none).linkEvent 0x70 0x10 l none).link l = { s.link l with state := 4, version := 0 } :=
      (State.raise_link ..).trans hlink
    exact ⟨hone.trans (LinkOnly.linkEvent ..), congrArg Link.state hlink2, congrArg Link.version hlink2⟩
  · exact ⟨hone, congrArg Link.state hlink, congrArg Link.version hlink⟩

theorem State.linkRefused_events {s : State} {l detail : Nat} (h : detail ≠ 0x04) :
    (s.linkRefused l detail).events = withEvent s.events ⟨s.now, 0x51, detail, none, [(.link, l)], []⟩ := by
  unfold State.linkRefused
  dsimp only
  rw [if_neg h]
  exact State.raise_events ..

/-! ### The partitions of a link's key slots -/

/-- The partitions of a link's key slots, the received ones but for the key of before a retrain. -/
def Link.slotParts (x : Link) : (Nat → Option Nat) × (Nat → Option Nat) :=
  (fun k => (Tab.get ({} : KeySlot) x.txKeys k).part, fun k => if k = 32 then none else (Tab.get ({} : KeySlot) x.rxKeys k).part)

theorem Link.sendFrames_slotParts (slot : Nat) (l : List (List Byte)) (x : Link) : (x.sendFrames slot l).slotParts = x.slotParts := by
  induction l generalizing x with
  | nil => rfl
  | cons b l ih => exact ih _

theorem Link.emit_slotParts (x : Link) (t : Txn) : (x.emit t).slotParts = x.slotParts := by
  unfold Link.emit
  refine (Link.sendFrames_slotParts ..).trans ?_
  dsimp only [Link.slotParts]
  refine congrArg (·, _) (funext fun k => ?_)
  split
  · rw [Tab.get_put]
    split
    next h => rw [h]
    next => rfl
  · rfl

theorem Link.send_slotParts (x : Link) (now : Nat) (t : Txn) : (x.send now t).slotParts = x.slotParts := by
  unfold Link.send
  split
  · rw [Link.emit_slotParts]
    split
    · split <;> rfl
    · rfl
  · rfl

theorem Link.drain_slotParts (x : Link) (now : Nat) : (x.drain now).slotParts = x.slotParts :=
  List.foldlRecOn x.waiting _ (motive := fun y : Link => y.slotParts = x.slotParts) rfl (fun y ih t _ => (y.send_slotParts now t).trans ih)

theorem Tab.get_filter {α : Type} {d : α} {P : Nat → Bool} (t : Tab α) {n : Nat} (hn : P n = true) :
    Tab.get d (t.filter (fun e => P e.1)) n = Tab.get d t n := by
  induction t with
  | nil => rfl
  | cons e t ih =>
    rw [List.filter_cons]
    split
    next => simp only [Tab.get]; rw [ih]
    next he =>
      have hne : e.1 ≠ n := fun h => he (h ▸ hn)
      rw [ih, Tab.get, if_neg hne]

theorem Link.countRx_slotParts (x : Link) (slot : Nat) : (x.countRx slot).slotParts = x.slotParts := by
  unfold Link.countRx
  dsimp only [Link.slotParts]
  refine congrArg (_, ·) (funext fun k => ?_)
  by_cases hk : k = 32
  · rw [if_pos hk, if_pos hk]
  · rw [if_neg hk, if_neg hk]
    have hkeys : Tab.get ({} : KeySlot) (if slot = 0 then x.rxKeys.filter (fun e => decide (e.1 ≠ 32)) else x.rxKeys) k =
        Tab.get {} x.rxKeys k := by
      split
      · exact Tab.get_filter (P := fun n => decide (n ≠ 32)) _ (decide_eq_true hk)
      · rfl
    rw [Tab.get_upd]
    split
    next h => subst h; exact (congrArg KeySlot.part hkeys :)
    next => rw [hkeys]

theorem Link.accept_slotParts (x : Link) (t : Txn) : (x.accept t).slotParts = x.slotParts := by
  unfold Link.accept
  split <;> rfl

/-- A reading of the state that link l enters by the partitions of its key slots at most. -/
structure KeptBySlots {β : Type} (g : State → β) (l : Nat) : Prop where
  frames : KeptByFrames g
  holdover : ∀ s b, g { s with holdover := b } = g s
  link : ∀ s f, (∀ x : Link, (f x).slotParts = x.slotParts) → g (State.updLink s l f) = g s

namespace KeptBySlots

variable {β : Type} {g : State → β} {l : Nat} (hg : KeptBySlots g l)
include hg

theorem timeLost (s : State) : g (s.timeLost l) = g s := by
  unfold State.timeLost
  split
  · exact (hg.frames.raise ..).trans (hg.holdover ..)
  · rfl

theorem linkFall (s : State) (detail : Nat) (again : Bool) : g (s.linkFall l detail again) = g s :=
  (hg.timeLost _).trans ((hg.frames.raise ..).trans (hg.link _ _ fun _ => rfl))

theorem takeTrains (n : Nat) (s : State) : g (State.takeTrains n s l) = g s := by
  induction n generalizing s with
  | zero => rfl
  | succ n ih =>
    unfold State.takeTrains
    dsimp only
    split
    · rfl
    · split
      · exact (ih _).trans (hg.link _ _ fun _ => by rfl)
      · split
        · rfl
        · split
          · rfl
          · exact (ih _).trans (hg.link _ _ fun _ => by rfl)
          · exact (hg.frames.raise ..).trans ((hg.linkFall ..).trans ((hg.link _ _ fun x => x.countRx_slotParts _).trans
              (hg.link _ _ fun _ => by rfl)))
          · refine (ih _).trans ((hg.link _ _ fun x => ?_).trans (hg.link _ _ fun _ => by rfl))
            split
            · split
              · exact (Link.accept_slotParts ..).trans (x.countRx_slotParts _)
              · exact Link.accept_slotParts ..
            · split
              · exact x.countRx_slotParts _
              · rfl

theorem takeStream (s : State) : g (s.takeStream l) = g s := hg.takeTrains ..

end KeptBySlots

/-! ### KEYSHARE -/

/-- Offering a key changes the link and the count of fresh values. -/
theorem State.offerKey_keeps {β : Type} {g : State → β} (hl : ∀ s l f, g (State.updLink s l f) = g s)
    (hn : ∀ s n, g { s with fresh := n } = g s) (s : State) (p l : Nat) : g (s.offerKey p l) = g s := by
  unfold State.offerKey
  dsimp only
  split
  · rfl
  · exact (hl ..).trans ((hl ..).trans (hn ..))

theorem State.installKey_slots (s : State) (p l slot : Nat) (point : List Byte) :
    (Tab.get {} ((s.installKey p l slot point).link l).rxKeys slot).part = some p ∧
    (Tab.get {} ((s.installKey p l slot point).link l).txKeys (keySlotOf p)).part = some p := by
  unfold State.installKey
  dsimp only
  rw [State.link_updLink_same]
  exact ⟨congrArg KeySlot.part (Tab.get_put_same ..), congrArg KeySlot.part (Tab.get_put_same ..)⟩

/-- The state after a share of a Table that has a seat here. -/
def State.takesShare (s : State) (p l slot : Nat) (point : List Byte) : State :=
  let v := (s.offerKey p l).installKey p l slot point
  (v.updLink l (fun x => x.drain v.now)).takeStream l

theorem State.takesShare_keys (s : State) (p l : Nat) {slot : Nat} (hslot : slot ≠ 32) (point : List Byte) :
    (Tab.get {} ((s.takesShare p l slot point).link l).rxKeys slot).part = some p ∧
    (Tab.get {} ((s.takesShare p l slot point).link l).txKeys (keySlotOf p)).part = some p := by
  let v := (s.offerKey p l).installKey p l slot point
  have hkept : KeptBySlots (fun t => (t.link l).slotParts) l := by
    refine ⟨⟨fun _ _ _ => rfl, fun _ _ => rfl, fun _ _ => rfl, fun _ _ _ => rfl, fun _ => rfl, fun _ => rfl⟩, fun _ _ => rfl, fun t f hf => ?_⟩
    rw [State.link_updLink_same, hf]
  have hparts : ((s.takesShare p l slot point).link l).slotParts = (v.link l).slotParts :=
    (hkept.takeStream _).trans (hkept.link v _ fun x => x.drain_slotParts v.now)
  obtain ⟨hrx, htx⟩ := (s.offerKey p l).installKey_slots p l slot point
  refine ⟨?_, (congrFun (congrArg Prod.fst hparts) (keySlotOf p)).trans htx⟩
  have hrx2 : ((s.takesShare p l slot point).link l).slotParts.2 slot = some p :=
    (congrFun (congrArg Prod.snd hparts) slot).trans ((if_neg hslot).trans hrx)
  exact (if_neg hslot).symm.trans hrx2

/-- The partitions, the Squares and the memory do not enter a link's keys. -/
theorem State.takesShare_frame (s : State) (p l slot : Nat) (point : List Byte) : (s.takesShare p l slot point).parts = s.parts ∧
    (s.takesShare p l slot point).dram = s.dram := by
  have hkeep : ∀ {β : Type} {g : State → β}, KeptByLinks g → (∀ s n, g { s with fresh := n } = g s) → g (s.takesShare p l slot point) = g s :=
    fun hg hn => (hg.takeStream ..).trans ((hg.link ..).trans ((hg.link ..).trans (State.offerKey_keeps hg.link hn s p l)))
  refine ⟨hkeep (g := State.parts) ?_ fun _ _ => rfl, hkeep (g := State.dram) ?_ fun _ _ => rfl⟩
  · exact ⟨⟨fun _ _ _ => rfl, fun _ _ => rfl, fun _ _ => rfl, fun _ _ _ => rfl, fun _ => rfl, fun _ => rfl⟩, fun _ _ _ => rfl, fun _ _ _ => rfl,
      fun _ _ => rfl⟩
  · exact ⟨⟨fun _ _ _ => rfl, fun _ _ => rfl, fun _ _ => rfl, fun _ _ _ => rfl, fun _ => rfl, fun _ => rfl⟩, fun _ _ _ => rfl, fun _ _ _ => rfl,
      fun _ _ => rfl⟩

section
variable {s : State} {l : Nat} {t : Txn} {rest : List Txn}

/-- KEYSHARE by its signature, its slot and its Table. -/
theorem exec_keyshare (h : HoldsCtrl s l 3 t rest) : let u := s.popTxn l
    let slot := rd t.inl 1 1
    let point := t.data.take pointBytes
    (shareVerifies (s.link l) t = false → exec (.keyshare l) s = .next (u.linkRefused l 0x04)) ∧
    (shareVerifies (s.link l) t = true → slot = 0 ∨ 16 < slot → exec (.keyshare l) s = .next u) ∧
    (shareVerifies (s.link l) t = true → ¬(slot = 0 ∨ 16 < slot) → (s.partOfTable (rd t.inl 8 8) = none → exec (.keyshare l) s =
        .next (u.updLink l (fun x => { x with shares := x.shares ++ [(slot, rd t.inl 8 8, point)] }))) ∧
      ∀ p, s.partOfTable (rd t.inl 8 8) = some p → exec (.keyshare l) s = .next (u.takesShare p l slot point)) := by
  intro u slot point
  have hrun : exec (.keyshare l) s = execKeyshare l s := rfl
  unfold execKeyshare at hrun
  rw [h.runs] at hrun
  have hshare : shareVerifies ((s.popTxn l).link l) t = shareVerifies (s.link l) t := by rw [State.popTxn_link h.arrived]; rfl
  refine ⟨fun hv => ?_, fun hv hs => ?_, fun hv hs => ⟨fun hp => ?_, fun p hp => ?_⟩⟩
  · exact hrun.trans (congrArg Host.Outcome.next (if_pos (by rw [hshare, hv]; rfl)))
  · exact hrun.trans (congrArg Host.Outcome.next ((if_neg (by rw [hshare, hv]; decide)).trans (if_pos hs)))
  · refine hrun.trans (congrArg Host.Outcome.next ((if_neg (by rw [hshare, hv]; decide)).trans ((if_neg hs).trans ?_)))
    rw [show (s.popTxn l).partOfTable (rd t.inl 8 8) = none from hp]
  · refine hrun.trans (congrArg Host.Outcome.next ((if_neg (by rw [hshare, hv]; decide)).trans ((if_neg hs).trans ?_)))
    rw [show (s.popTxn l).partOfTable (rd t.inl 8 8) = some p from hp]
    rfl

/-! ### HELLO, IDENTITY, TIME -/

theorem exec_hello (h : HoldsCtrl s l 1 t rest) : exec (.hello l) s = .next (
    if min (s.service.maxima.getD 3 0) (rd t.inl 1 1) = 0 then (s.popTxn l).linkRefused l 0x05
    else (s.popTxn l).updLink l (fun x => { x with version := min (s.service.maxima.getD 3 0) (rd t.inl 1 1) })) := by
  change execHello l s = _
  exact h.runs _

theorem exec_identity (h : HoldsCtrl s l 2 t rest) : exec (.identity l) s = .next (
    if Config.chainReaches t.data (Config.certificate 1 0) then
      (s.popTxn l).updLink l (fun x => { x with peerSerial := (Config.certSubject t.data).1, peerLink := (Config.certSubject t.data).2 })
    else (s.popTxn l).linkRefused l 0x04) := by
  change execIdentity l s = _
  exact h.runs _

/-- The state that has measured a TIME. -/
def State.measures (s : State) (l trip : Nat) : State := (s.popTxn l).updLink l (fun y => { y with peerTime := s.now, roundTrip := trip % 2 ^ 32 })

theorem exec_time (h : HoldsCtrl s l 4 t rest) (hown : (s.link l).ownTime ≠ 0) (hecho : rd t.inl 16 8 ≠ 0) :
    let trip := (s.now - (s.link l).ownTime) - (rd t.inl 8 8 - rd t.inl 16 8)
    let v := s.measures l trip
    let w := v.reach (rd t.inl 8 8 + trip % 2 ^ 32 / 2)
    exec (.time l) s = .next (if s.timeSource = l then { w with holdover := false }
      else if s.timeSource = 0xFF ∧ !s.power.epochSet then w.updPower (fun y => { y with epochSet := true }) else v) := by
  intro trip v w
  have hrun : exec (.time l) s = execTime l s := rfl
  unfold execTime at hrun
  rw [h.runs] at hrun
  dsimp only at hrun
  rw [State.popTxn_link h.arrived] at hrun
  dsimp only at hrun
  rw [if_neg (show ¬((s.link l).ownTime = 0 ∨ rd t.inl 16 8 = 0) from fun hz => hz.elim hown hecho)] at hrun
  exact hrun

/-! ### Lanes -/

theorem exec_swapReq (h : HoldsCtrl s l 5 t rest) (hc : (s.link l).txLanes.contains (rd t.inl 1 1) = true) : exec (.swapReq l) s =
    .next (((s.popTxn l).updGroup (l / 8) (fun g => { g with sparesTx := g.sparesTx.erase (rd t.inl 2 1) })).updLink l (fun x =>
      { x with swapTx := some { lane := rd t.inl 1 1, spare := rd t.inl 2 1, atSeq := none } })) := by
  have hrun : exec (.swapReq l) s = execSwapReq l s := rfl
  unfold execSwapReq at hrun
  rw [h.runs] at hrun
  exact hrun.trans (congrArg Host.Outcome.next (if_pos (by rw [State.popTxn_link h.arrived]; exact hc)))

theorem exec_swapAt (h : HoldsCtrl s l 6 t rest) {w : LaneSwap} (hw : (s.link l).swapTx = some w) : exec (.swapAt l) s =
    .next ((s.popTxn l).updLink l (fun x => { x with swapTx := some { w with atSeq := some (rd t.inl 4 2 % 4096) } })) := by
  have hrun : exec (.swapAt l) s = execSwapAt l s := rfl
  unfold execSwapAt at hrun
  rw [h.runs] at hrun
  rw [State.popTxn_link h.arrived, hw] at hrun
  exact hrun

/-- LANE_LOST of a lane that no exchange concerns, with a spare free: the lane moves to the lowest. -/
theorem exec_laneLost (h : HoldsCtrl s l 7 t rest) (hc : (s.link l).txLanes.contains (rd t.inl 1 1) = true) (hw : (s.link l).swapTx = none)
    {k : Nat} (hk : lowSpare (s.group (l / 8)).sparesTx = some k) : exec (.laneLost l) s =
    .next (((((s.popTxn l).laneFails l false (rd t.inl 1 1)).updGroup (l / 8) (fun g => { g with sparesTx := g.sparesTx.erase k })).updLink l
      (fun x => { x.count 3 1 with txLanes := replaceLane x.txLanes (rd t.inl 1 1) k })).linkEvent 0x50 0x02 l (some (rd t.inl 1 1))) := by
  have hrun : exec (.laneLost l) s = execLaneLost l s := rfl
  unfold execLaneLost at hrun
  rw [h.runs] at hrun
  dsimp only at hrun
  rw [State.popTxn_link h.arrived] at hrun
  dsimp only at hrun
  rw [if_neg (by rw [hc]; decide), hw, show lowSpare ((s.popTxn l).group (l / 8)).sparesTx = some k from hk] at hrun
  exact hrun

theorem exec_assign (h : HoldsCtrl s l 8 t rest) : let m := (List.range 4).map (fun i => rd t.data i 1)
    exec (.assign l) s = .next (((s.popTxn l).updGroup (l / 8) (fun g =>
      { g with sparesTx := g.sparesTx.filter (fun c => !m.contains c) })).updLink l (fun x => { x with txLanes := m })) := by
  change execAssign l s = _
  exact h.runs _

end

theorem exec_timeSend {s : State} {l : Nat} (hl : l < 96) : (( s.link l).up = false → exec (.timeSend l) s = .next s) ∧
    ((s.link l).up = true → exec (.timeSend l) s = .next ((s.updLink l (fun x => { x with ownTime := s.now })).sendTxn l
      { kind := 0x11, inl := leBytes 1 0x04 ++ leBytes 7 0 ++ leBytes 8 s.now ++ leBytes 8 (s.link l).peerTime })) :=
  ⟨fun h => (onUnit_next (decide_eq_true hl) _).trans (congrArg Host.Outcome.next (if_neg (by simp [h]))),
    fun h => (onUnit_next (decide_eq_true hl) _).trans (congrArg Host.Outcome.next (if_pos h))⟩

/-- What a change of the link after its transaction is taken leaves of the module. -/
theorem LinkOnly.taken (s : State) (l : Nat) (f : Link → Link) : LinkOnly s ((s.popTxn l).updLink l f) l :=
  (LinkOnly.popTxn ..).trans (LinkOnly.updLink ..)

/-- Settles O43: each transaction's effect on its link is read off its equation. -/
theorem linkControl : Obligations.LinkControl := by
  unfold Obligations.LinkControl
  intro s l t rest x ctrl only lane refused
  have hctrl : ∀ sub, ctrl sub → HoldsCtrl s l sub t rest := fun sub ⟨hl, ha, hk, hs⟩ => ⟨hl, ha, hk, hs⟩
  have hlink : ∀ sub, ctrl sub → ∀ f, ((s.popTxn l).updLink l f).link l = f { x with arrived := rest } := fun sub h f => by
    rw [State.link_updLink_same, State.popTxn_link (hctrl sub h).arrived]
  have hrefuse : ∀ detail, refused ((s.popTxn l).linkRefused l detail) := fun detail => by
    obtain ⟨honly, hstate, hversion⟩ := (s.popTxn l).linkRefused_effect l detail
    exact ⟨(LinkOnly.popTxn s l).trans honly, hstate, hversion⟩
  refine ⟨fun h => ?hello, fun h => ?identity, fun h => ?keyshare, fun h hown hecho => ?time, fun hl => ⟨(exec_timeSend hl).1, fun hup => ?send⟩,
    fun h hc => ?swapReq, fun h w hw => ?swapAt, fun h hc hw k hk => ?laneLost, fun h => ?assign⟩
  case hello =>
    intro v
    refine ⟨_, exec_hello (hctrl 1 h), fun hv => ?_, fun hv => ?_⟩
    · rw [if_pos hv]
      exact ⟨hrefuse 5, State.linkRefused_events (by decide)⟩
    · rw [if_neg hv]
      exact ⟨LinkOnly.taken .., hlink 1 h _⟩
  case identity =>
    refine ⟨_, exec_identity (hctrl 2 h), fun hv => ?_, fun hv => ?_⟩
    · rw [if_pos hv]
      exact ⟨LinkOnly.taken .., hlink 2 h _⟩
    · rw [if_neg (by rw [hv]; decide)]
      exact hrefuse 4
  case keyshare =>
    obtain ⟨hbad, hslot, hgood⟩ := exec_keyshare (hctrl 3 h)
    cases hv : shareVerifies x t
    case false => exact ⟨_, hbad hv, fun _ => hrefuse 4, fun hc => Bool.noConfusion hc, fun hc => Bool.noConfusion hc⟩
    case true =>
      by_cases hs : lane = 0 ∨ 16 < lane
      · refine ⟨_, hslot hv hs, fun hc => Bool.noConfusion hc, fun _ h1 h16 => absurd hs (by omega), fun _ _ => ?_⟩
        exact ⟨LinkOnly.popTxn s l, State.popTxn_link (hctrl 3 h).arrived⟩
      · obtain ⟨hnone, hsome⟩ := hgood hv hs
        cases hp : s.partOfTable (rd t.inl 8 8) with
        | none =>
          refine ⟨_, hnone hp, fun hc => Bool.noConfusion hc, fun _ _ _ => ⟨fun _ => ⟨LinkOnly.taken .., ?_⟩, fun p hc => nomatch hc⟩,
            fun _ hc => absurd hc hs⟩
          rw [hlink 3 h]
        | some p =>
          refine ⟨_, hsome p hp, fun hc => Bool.noConfusion hc, fun _ _ h16 => ⟨fun hc => (nomatch hc), fun k hk => ?_⟩,
            fun _ hc => absurd hc hs⟩
          obtain rfl := Option.some.inj hk
          obtain ⟨hrx, htx⟩ := (s.popTxn l).takesShare_keys p l (slot := lane) (by omega) (t.data.take pointBytes)
          obtain ⟨hparts, hdram⟩ := (s.popTxn l).takesShare_frame p l lane (t.data.take pointBytes)
          exact ⟨hrx, htx, hparts, hdram⟩
  case time =>
    let trip := (s.now - x.ownTime) - (rd t.inl 8 8 - rd t.inl 16 8)
    have hexec := exec_time (hctrl 4 h) hown hecho
    have hmeasure : (s.measures l trip).link l = { x with arrived := rest, peerTime := s.now, roundTrip := trip % 2 ^ 32 } := hlink 4 h _
    have honly : LinkOnly s (s.measures l trip) l := LinkOnly.taken ..
    have hpeer : ((s.measures l trip).link l).peerTime = s.now := congrArg Link.peerTime hmeasure
    have htrip : ((s.measures l trip).link l).roundTrip = trip % 2 ^ 32 := congrArg Link.roundTrip hmeasure
    have hnow : max s.now (rd t.inl 8 8 + trip % 2 ^ 32 / 2) = max s.now (rd t.inl 8 8 + ((s.measures l trip).link l).roundTrip / 2) := by rw [htrip]
    by_cases hsrc : s.timeSource = l
    · exact ⟨_, hexec.trans (congrArg Host.Outcome.next (if_pos hsrc)), honly, hpeer, htrip, fun _ => ⟨rfl, hnow⟩,
        fun hff => absurd (hctrl 4 h).unit (by omega), fun hne => absurd hsrc hne⟩
    · by_cases hset : s.timeSource = 0xFF ∧ !s.power.epochSet
      · exact ⟨_, hexec.trans (congrArg Host.Outcome.next ((if_neg hsrc).trans (if_pos hset))), honly, hpeer, htrip, fun hs => absurd hs hsrc,
          fun _ _ => ⟨rfl, rfl, hnow⟩, fun _ hno => by simp [hset.1] at hno; simp [hno] at hset⟩
      · exact ⟨_, hexec.trans (congrArg Host.Outcome.next ((if_neg hsrc).trans (if_neg hset))), honly, hpeer, htrip, fun hs => absurd hs hsrc,
          fun hff he => absurd ⟨hff, by rw [he]; rfl⟩ hset, fun _ _ => ⟨rfl, rfl, rfl⟩⟩
  case send =>
    refine ⟨_, (exec_timeSend hl).2 hup, (LinkOnly.updLink ..).trans (LinkOnly.updLink ..), ?_, ?_, rfl⟩
    · rw [State.sendTxn_link, if_pos rfl, State.link_updLink_same]
      exact (congrArg Link.ownTime (Link.send_unsent ..) :)
    · rw [State.sendTxn_link, if_pos rfl, State.link_updLink_same]
      exact (congrArg Link.peerTime (Link.send_unsent ..) :)
  case swapReq =>
    refine ⟨_, exec_swapReq (hctrl 5 h) hc, (LinkOnly.popTxn s l).trans ((LinkOnly.updGroup ..).trans (LinkOnly.updLink ..)), ?_, ?_⟩
    · rw [State.link_updLink_same]
    · rw [State.link_updLink_same]
      exact (congrArg Link.txLanes (State.popTxn_link (hctrl 5 h).arrived) :)
  case swapAt =>
    refine ⟨_, exec_swapAt (hctrl 6 h) hw, LinkOnly.taken .., ?_⟩
    rw [hlink 6 h]
  case laneLost =>
    refine ⟨_, exec_laneLost (hctrl 7 h) hc hw hk, ?_, ?_, ?_, ?_⟩
    · exact (LinkOnly.popTxn s l).trans ((LinkOnly.updGroup ..).trans ((LinkOnly.updGroup ..).trans ((LinkOnly.updLink ..).trans
        (LinkOnly.linkEvent ..))))
    · refine (congrArg Link.txLanes ((State.raise_link ..).trans (State.link_updLink_same ..))).trans ?_
      exact (congrArg (fun y : Link => replaceLane y.txLanes lane k) (State.popTxn_link (hctrl 7 h).arrived) :)
    · refine (congrArg LinkGroup.sparesTx ((State.raise_group ..).trans ((State.updLink_group ..).trans (State.group_updGroup_same ..)))).trans ?_
      exact congrArg (fun c : List Nat => c.erase k) (congrArg LinkGroup.sparesTx ((s.popTxn l).laneFails_group l false lane) :)
    · exact State.raise_events ..
  case assign =>
    refine ⟨_, exec_assign (hctrl 8 h), (LinkOnly.popTxn s l).trans ((LinkOnly.updGroup ..).trans (LinkOnly.updLink ..)), ?_, ?_⟩
    · rw [State.link_updLink_same]
    · rw [State.link_updLink_same]
      exact (congrArg Link.rxLanes (State.popTxn_link (hctrl 8 h).arrived) :)

end Sys2Proof.Machine
end

section
/-!
PROOFS. The sessions and transfers of the Ulyan port (R405, R410): what a read gives after a write, and what the receipt and the sending
of a frame leave.
-/

namespace Sys2Proof.Machine

open Sys2Proof

/-! ### Tables of entries that may be absent -/

/-- The entry that stands at a key, if any. -/
def Tab.entryAt {α : Type} (t : Tab α) (n : Nat) : Option α := (t.find? (fun e => decide (e.1 = n))).map (·.2)

theorem Tab.entryAt_cons {α : Type} (e : Nat × α) (t : Tab α) (n : Nat) :
    Tab.entryAt (e :: t) n = if e.1 = n then some e.2 else Tab.entryAt t n := by
  unfold Tab.entryAt
  by_cases h : e.1 = n <;> simp [h]

theorem Tab.entryAt_put {α : Type} (t : Tab α) (n m : Nat) (x : α) :
    Tab.entryAt (Tab.put t n x) m = if n = m then some x else Tab.entryAt t m := by
  induction t with
  | nil => exact Tab.entryAt_cons ..
  | cons e r ih =>
    obtain ⟨k, v⟩ := e
    unfold Tab.put
    by_cases hk : k = n
    · rw [if_pos hk, Tab.entryAt_cons, Tab.entryAt_cons, hk]
      split_ifs <;> rfl
    by_cases hlt : n < k
    · rw [if_neg hk, if_pos hlt]
      exact Tab.entryAt_cons ..
    · rw [if_neg hk, if_neg hlt, Tab.entryAt_cons, Tab.entryAt_cons, ih]
      dsimp only
      split_ifs with h1 h2
      · exact absurd (h1.trans h2.symm) hk
      · rfl
      · rfl
      · rfl

theorem Tab.entryAt_filter {α : Type} (t : Tab α) (n m : Nat) :
    Tab.entryAt (t.filter (fun e => decide (e.1 ≠ n))) m = if n = m then none else Tab.entryAt t m := by
  induction t with
  | nil => exact (ite_self _).symm
  | cons e r ih =>
    rw [List.filter_cons]
    by_cases hn : e.1 = n
    · rw [if_neg (by simpa using hn), ih, Tab.entryAt_cons]
      split_ifs with h1 h2
      · rfl
      · exact absurd (hn.symm.trans h2) h1
      · rfl
    · rw [if_pos (by simpa using hn), Tab.entryAt_cons, ih, Tab.entryAt_cons]
      split_ifs with h1 h2
      · exact absurd (h1.trans h2.symm) hn
      · rfl
      · rfl
      · rfl

/-! ### Sessions -/

theorem State.session_entry (s : State) (n : Nat) : s.session n = Tab.entryAt s.sec.sessions n := rfl

theorem State.session_putSession (s : State) (n m : Nat) (x : Session) :
    (s.putSession n x).session m = if n = m then some x else s.session m := Tab.entryAt_put ..

theorem State.session_updSession (s : State) (n m : Nat) (f : Session → Session) :
    (s.updSession n f).session m = if n = m then (s.session n).map f else s.session m := by
  unfold State.updSession
  split
  next x hx => rw [State.session_putSession, hx, Option.map_some]
  next hx =>
    split
    next h => rw [← h, hx, Option.map_none]
    next => rfl

theorem State.session_updSession_some {s : State} {n : Nat} {x : Session} (hx : s.session n = some x) (f : Session → Session) :
    (s.updSession n f).session n = some (f x) := by
  rw [State.session_updSession, if_pos rfl, hx, Option.map_some]

theorem State.putFrame_session (s : State) (f : Response) (x : Option Session) (n : Nat) :
    (s.putFrame f x).session n = s.session n := by
  unfold State.putFrame
  dsimp only
  split <;> rfl

theorem State.sendFrame_session (s : State) (n : Nat) (f : Response) (m : Nat) :
    (s.sendFrame (some n) f).session m =
      if n = m then (s.session n).map (fun y => { y with txSeq := y.txSeq + 1 }) else s.session m := by
  unfold State.sendFrame
  dsimp only
  rw [State.session_updSession, State.putFrame_session, State.putFrame_session]
  cases s.session n <;> rfl

theorem State.updSession_none {s : State} {k : Nat} (h : s.session k = none) (n : Nat) (f : Session → Session) :
    (s.updSession n f).session k = none := by
  rw [State.session_updSession]
  split
  next hn => rw [hn, h, Option.map_none]
  next => exact h

theorem State.sendFrame_none {s : State} {k : Nat} (h : s.session k = none) (n : Option Nat) (f : Response) :
    (s.sendFrame n f).session k = none := by
  unfold State.sendFrame
  split
  · exact (State.putFrame_session ..).trans h
  · exact State.updSession_none ((State.putFrame_session ..).trans h) _ _

theorem State.deliver_none {s : State} {k : Nat} (h : s.session k = none) (e : Event) (n : Nat) : (s.deliver e n).session k = none := by
  unfold State.deliver
  split
  · exact h
  dsimp only
  split
  · refine State.sendFrame_none (State.updSession_none ?_ _ _) _ _
    split
    · exact h
    · exact State.sendFrame_none (State.updSession_none h _ _) _ _
  · exact State.updSession_none h _ _

/-- No event opens a session. -/
theorem State.raise_none {s : State} {k : Nat} (h : s.session k = none) (cls detail : Nat) (part : Option Nat)
    (loc : List (LocKind × Nat)) (arg : List Nat) : (s.raise cls detail part loc arg).session k = none := by
  have h0 : ∀ l n, ({ s with events := l, eventsRaised := n } : State).session k = none := fun _ _ => h
  unfold State.raise
  refine List.foldlRecOn _ _ (motive := fun u : State => u.session k = none) (h0 _ _) (fun u hu n _ => ?_)
  split
  · exact State.deliver_none hu _ _
  · exact hu

/-! ### Transfers -/

theorem State.transfer_putTransfer (s : State) (k m : Nat) (z : SegTransfer) :
    (s.putTransfer k z).transfer m = if k = m then some z else s.transfer m := Tab.entryAt_put ..

theorem State.transfer_putTransfer_same (s : State) (k : Nat) (z : SegTransfer) : (s.putTransfer k z).transfer k = some z :=
  (s.transfer_putTransfer k k z).trans (if_pos rfl)

theorem State.transfer_dropTransfer_same (s : State) (k : Nat) : (s.dropTransfer k).transfer k = none :=
  (Tab.entryAt_filter s.sec.transfers k k).trans (if_pos rfl)

/-- No frame opens or ends a transfer by itself. -/
theorem keptByFrames_transfer (k : Nat) : KeptByFrames (fun t => t.transfer k) where
  session _ _ _ := rfl
  response _ _ := rfl
  tunnel _ _ := rfl
  history _ _ _ := rfl
  lost _ := rfl
  lostFlag _ := rfl

/-! ### Receipt and sending of a frame -/

/-- A frame taken from its carrier raises no event. -/
theorem State.takeFrame_events {s t : State} {r : Req} {kind : Nat} (h : s.takeFrame r kind = some t) : t.events = s.events := by
  unfold State.takeFrame at h
  split at h
  · rw [← Option.some.inj h]
    split <;> rfl
  · split at h
    · exact nomatch h
    · split at h
      · rw [← Option.some.inj h]
        rfl
      · exact nomatch h

/-- A frame that is to be judged has raised no event. -/
theorem State.admit_events {s t : State} {r : Req} {kind : Nat} (h : s.admitFrame r kind = (t, true)) : t.events = s.events := by
  unfold State.admitFrame at h
  split at h
  · exact nomatch (Prod.mk.inj h).2
  split at h
  · exact nomatch (Prod.mk.inj h).2
  next s0 hs =>
    have he := State.takeFrame_events hs
    split at h
    · rw [← (Prod.mk.inj h).1]
      exact he
    split at h
    · exact nomatch (Prod.mk.inj h).2
    split at h
    · exact nomatch (Prod.mk.inj h).2
    dsimp only at h
    split at h
    · exact nomatch (Prod.mk.inj h).2
    · rw [← (Prod.mk.inj h).1]
      exact (State.updSession_events ..).trans he

/-- What receiving a frame leaves of the partitions, the Squares and the stack memory. -/
theorem State.admit_stores {s t : State} {r : Req} {kind : Nat} {b : Bool} (h : s.admitFrame r kind = (t, b)) :
    t.parts = s.parts ∧ t.squares = s.squares ∧ t.dram = s.dram := by
  obtain ⟨-, -, -, hsq, -, hp, -, -, -, hd, -⟩ := State.admitFrame_core s r kind
  rw [h] at hsq hp hd
  exact ⟨hp, hsq, hd⟩

end Sys2Proof.Machine
end

section
/-!
PROOFS. Reads and writes of whole objects (R410, R416, R440) and the clearing of counters (R423, R430).
-/

namespace Sys2Proof.Machine

open Sys2Proof

/-! ### READ_REQ -/

section
variable {s t : State} {r : Req} (ha : s.admitFrame r kRead = (t, true))
include ha

theorem execReadReq_refused (hf : t.judgeForm r false r.payload.length ≠ 0) :
    execReadReq r s = .next (t.answer r 0x02 (t.judgeForm r false r.payload.length) []) := by
  unfold execReadReq
  rw [ha]
  exact congrArg Host.Outcome.next (if_pos hf)

theorem execReadReq_judged (hf : t.judgeForm r false r.payload.length = 0) :
    execReadReq r s = .next (if frameLimit r.carrier < (t.readObject (reqWho r) r.carrier r.index r.sub).length +
        (if r.sealed then 48 else 32) then t.answer r 0x02 abForm []
      else t.answer r 0x02 0 (t.readObject (reqWho r) r.carrier r.index r.sub)) := by
  unfold execReadReq
  rw [ha]
  exact congrArg Host.Outcome.next (if_neg (not_not_intro hf))

end

/-! ### WRITE_REQ -/

theorem execWriteReq_received {s t : State} {r : Req} (h : Received s r t) (hrow : hasRow r = false) (hc : t.plainCheck r = 0)
    (hb : t.transferBusy r = false) : execWriteReq r s = .next ((t.plainWrite r).reply r 0) := by
  unfold execWriteReq
  rw [hrow, h.1]
  exact congrArg Host.Outcome.next (h.command (by simp [hc, hb, abRange]))

/-- A plain write touches a session's shadow or a partition, and nothing else. -/
theorem plainWrite_keeps (s : State) (w : Req) :
    (s.plainWrite w).dram = s.dram ∧ SameSquares s (s.plainWrite w) ∧ SameLinks s (s.plainWrite w) := by
  unfold State.plainWrite
  split
  · obtain ⟨-, -, -, hsq, hph, -, hfab, hl, hgr, hd, -⟩ := s.updSession_core w.session
      (fun x => { x with shadow := stagePair ((w.index, w.sub), w.payload) x.shadow })
    exact ⟨hd, ⟨hsq, hph, hfab⟩, hl, hgr⟩
  · split_ifs <;> exact ⟨rfl, ⟨rfl, rfl, rfl⟩, rfl, rfl⟩

theorem plainWrite_staged {s : State} {w : Req} (h : isStaged w = true) : s.plainWrite w =
    s.updSession w.session (fun x => { x with shadow := stagePair ((w.index, w.sub), w.payload) x.shadow }) := if_pos h

/-- The partition that a plain write names: of 6pxx, or of 7030 and up. -/
def plainPart (r : Req) : Nat := if r.index / 0x1000 = 6 then reqPart r else r.index % 16

theorem plainPart_of_names6 {r : Req} {low sub : Nat} (h : reqNames6 r low sub = true) : plainPart r = reqPart r := by
  simp only [reqNames6, Bool.and_eq_true, decide_eq_true_eq] at h
  exact if_pos h.1.1

/-- A plain write of an object that is not staged keeps the key store and every partition but the one it names. -/
theorem plainWrite_unstaged {s : State} {w : Req} (h : isStaged w = false) :
    (s.plainWrite w).sec = s.sec ∧ OtherParts s (s.plainWrite w) (plainPart w) := by
  have hother : ∀ p f, p = plainPart w → OtherParts s (s.updPart p f) (plainPart w) := fun p f hp k hk => by
    rw [State.part_updPart, if_neg (fun he => hk (he.symm.trans hp))]
  unfold State.plainWrite
  rw [if_neg (by rw [h]; decide)]
  split_ifs with h1 h2 h3
  · exact ⟨rfl, hother _ _ (plainPart_of_names6 h1).symm⟩
  · exact ⟨rfl, hother _ _ (plainPart_of_names6 h2).symm⟩
  · exact ⟨rfl, hother _ _ (if_neg (by omega)).symm⟩
  · exact ⟨rfl, fun _ _ => rfl⟩

theorem plainWrite_srcOffset {s : State} {w : Req} (h : isStaged w = false) (hn : reqNames6 w 2 1 = true) :
    ((s.plainWrite w).part (reqPart w)).srcOffset = reqValue w := by
  unfold State.plainWrite
  rw [if_neg (by rw [h]; decide), if_pos hn, State.part_updPart_same]

theorem plainWrite_bytes {s : State} {w : Req} (h : isStaged w = false) (hn : reqNames6 w 2 2 = true) :
    ((s.plainWrite w).part (reqPart w)).bytes = reqValue w := by
  have h1 : ¬ reqNames6 w 2 1 = true := by
    simp only [reqNames6, Bool.and_eq_true, decide_eq_true_eq] at hn ⊢
    omega
  unfold State.plainWrite
  rw [if_neg (by rw [h]; decide), if_neg h1, if_pos hn, State.part_updPart_same]

/-! ### COUNTER_CLEAR -/

theorem execCounterClear_received {s t : State} {r : Req} (h : Received s r t) (hc : isCounter r.index r.sub = true)
    (hz : ∀ b ∈ r.payload, b = 0) : execCounterClear r s = .next ((t.clearCounter r.index r.sub).reply r 0) := by
  unfold execCounterClear
  rw [if_pos hc]
  exact congrArg Host.Outcome.next (h.commandWith (if_neg (by simpa using hz)))

theorem clearCounter_keeps (s : State) (idx sub : Nat) :
    (s.clearCounter idx sub).statusFlags = s.statusFlags ∧ (s.clearCounter idx sub).power = s.power := by
  unfold State.clearCounter
  split_ifs <;> exact ⟨rfl, rfl⟩

theorem clearCounter_module (s : State) (sub : Nat) :
    s.clearCounter 0x8000 sub = { s with counters := Tab.put s.counters sub 0 } := rfl

theorem clearCounter_link (s : State) {l : Nat} (hl : l < 96) (sub : Nat) :
    s.clearCounter (0x4100 + l) sub = s.updLink l (fun x => { x with counters := [] }) := by
  unfold State.clearCounter
  rw [if_neg (by omega), if_neg (by omega), if_neg (by omega), if_neg (by omega), if_pos (by omega), Nat.add_sub_cancel_left]

theorem clearCounter_part (s : State) {p : Nat} (hp : p < 16) (sub : Nat) :
    s.clearCounter (0x6030 + 0x100 * p) sub = s.updPart p (fun x => x.clearCounter sub) := by
  have hx : (0x6030 + 0x100 * p) / 0x100 % 16 = p := by omega
  unfold State.clearCounter
  rw [if_neg (by omega), if_neg (by omega), if_neg (by omega), if_neg (by omega), if_neg (by omega), if_neg (by omega), if_pos (by omega), hx]

/-- Settles O51: a read is judged and answered whole, a plain write is `plainWrite`, a clear is `clearCounter`. -/
theorem objectRequests : Obligations.ObjectRequests := by
  intro s t r v
  refine ⟨fun ha => ⟨fun hf => execReadReq_refused ha hf, fun hf hl => ?_, fun hf hl => ?_⟩, fun h hrow hc hb => ?_, fun h hc hz => ?_⟩
  · exact (execReadReq_judged ha hf).trans (congrArg Host.Outcome.next (if_neg (Nat.not_lt.mpr hl)))
  · exact (execReadReq_judged ha hf).trans (congrArg Host.Outcome.next (if_pos hl))
  · obtain ⟨hd, hsq, hl⟩ := plainWrite_keeps t r
    refine ⟨t.plainWrite r, execWriteReq_received h hrow hc hb, hd, hsq, hl, fun x hst hx => ?_, plainWrite_unstaged,
      fun hn hst => plainWrite_srcOffset hst hn, fun hn hst => plainWrite_bytes hst hn⟩
    rw [plainWrite_staged hst]
    obtain ⟨-, -, -, -, -, hp, -⟩ := t.updSession_core r.session
      (fun x => { x with shadow := stagePair ((r.index, r.sub), r.payload) x.shadow })
    exact ⟨hp, State.session_updSession_some hx _⟩
  · obtain ⟨hflags, hpow⟩ := clearCounter_keeps t r.index r.sub
    refine ⟨t.clearCounter r.index r.sub, execCounterClear_received h hc hz, hflags, hpow, fun hi => ?_, fun hi => ?_, fun hi => ?_,
      fun l hi hl => ?_, fun p hp hi => ?_⟩
    · rw [hi, clearCounter_module]
      exact ⟨Tab.get_put_same .., fun k hk => (Tab.get_put ..).trans (if_neg hk.symm)⟩
    · rw [hi]
      rfl
    · rw [hi]
      rfl
    · rw [hi, clearCounter_link _ hl]
      refine ⟨by rw [State.link_updLink_same], fun k hk => ?_⟩
      rw [State.link_updLink, if_neg hk.symm]
    · rw [hi, clearCounter_part _ hp]
      refine ⟨fun k hk => ?_, fun hs => ?_, fun hs => ?_⟩
      · rw [State.part_updPart, if_neg hk.symm]
      · rw [State.part_updPart_same, hs]
        rfl
      · rw [State.part_updPart_same, hs]
        rfl

end Sys2Proof.Machine
end

section
/-!
PROOFS. Segmented transfers (R410, R411), and the event frames and the end of a session (R414, R386).
-/

namespace Sys2Proof.Machine

open Sys2Proof

/-! ### What the frames of a transfer leave -/

/-- Partitions, Squares and stack memory stand. -/
def SameStores (s u : State) : Prop := u.parts = s.parts ∧ u.squares = s.squares ∧ u.dram = s.dram

theorem SameStores.trans {s t u : State} (h : SameStores s t) (h2 : SameStores t u) : SameStores s u :=
  ⟨h2.1.trans h.1, h2.2.1.trans h.2.1, h2.2.2.trans h.2.2⟩

theorem SameCore.sameStores {s u : State} (h : SameCore s u) : SameStores s u := by
  obtain ⟨-, -, -, hsq, -, hp, -, -, -, hd, -⟩ := h
  exact ⟨hp, hsq, hd⟩

theorem State.sendSeg_stores (s : State) (z : SegTransfer) (kind code : Nat) (v : List Byte) : SameStores s (s.sendSeg z kind code v) :=
  (State.sendFrame_core ..).sameStores

theorem State.sendSeg_transfer (s : State) (z : SegTransfer) (kind code : Nat) (v : List Byte) (k : Nat) :
    (s.sendSeg z kind code v).transfer k = s.transfer k := (keptByFrames_transfer k).sendFrame ..

theorem State.sendSeg_now (s : State) (z : SegTransfer) (kind code : Nat) (v : List Byte) : (s.sendSeg z kind code v).now = s.now :=
  (State.sendFrame_core ..).1

/-- How far a transfer has sent after n more segments: its own segments only, and at most 16 past the acknowledged ones. -/
def SegTransfer.sentTo (z : SegTransfer) (n : Nat) : Nat :=
  if z.write then z.next else max z.next (min (z.next + n) (min z.count (z.acked + 16)))

theorem SegTransfer.sentTo_next {z : SegTransfer} (hw : z.write = false) (h1 : z.next < z.count) (h2 : z.next < z.acked + 16) (n m : Nat) :
    SegTransfer.sentTo { z with next := z.next + 1, lastSent := m } n = z.sentTo (n + 1) := by
  have hc : SegTransfer.count { z with next := z.next + 1, lastSent := m } = z.count := rfl
  unfold SegTransfer.sentTo
  rw [hc, hw, if_neg Bool.false_ne_true, if_neg Bool.false_ne_true]
  dsimp only
  omega

theorem SegTransfer.sentTo_full {z : SegTransfer} (h : ¬ (z.write = false ∧ z.next < z.count ∧ z.next < z.acked + 16)) (n : Nat) :
    z.sentTo n = z.next := by
  unfold SegTransfer.sentTo
  split
  · rfl
  next hw =>
    have hfull : ¬ (z.next < z.count ∧ z.next < z.acked + 16) := fun hh => h ⟨by simpa using hw, hh⟩
    omega

theorem pushSegments_stores (n k : Nat) (s : State) : SameStores s (State.pushSegments n k s) := by
  induction n generalizing s with
  | zero => exact ⟨rfl, rfl, rfl⟩
  | succ n ih =>
    unfold State.pushSegments
    split
    · exact ⟨rfl, rfl, rfl⟩
    split
    · exact (State.sendSeg_stores ..).trans (SameStores.trans ⟨rfl, rfl, rfl⟩ (ih _))
    · exact ⟨rfl, rfl, rfl⟩

/-- Segments that go out leave the transfer as it is but for how far it has sent, and when. -/
theorem pushSegments_transfer (n k : Nat) {s : State} {z : SegTransfer} (hz : s.transfer k = some z) :
    ∃ m, (State.pushSegments n k s).transfer k = some { z with next := z.sentTo n, lastSent := m } := by
  induction n generalizing s z with
  | zero =>
    refine ⟨z.lastSent, hz.trans ?_⟩
    have : z.sentTo 0 = z.next := by
      unfold SegTransfer.sentTo
      split <;> omega
    rw [this]
  | succ n ih =>
    unfold State.pushSegments
    rw [hz]
    dsimp only
    by_cases h : z.write = false ∧ z.next < z.count ∧ z.next < z.acked + 16
    · obtain ⟨hw, h1, h2⟩ := h
      rw [if_pos (by rw [hw, decide_eq_true h1, decide_eq_true h2]; rfl)]
      obtain ⟨m, hm⟩ := ih (State.transfer_putTransfer_same (s.sendSeg z kSegData z.next (z.segment z.next)) k
        { z with next := z.next + 1, lastSent := s.now })
      refine ⟨m, hm.trans ?_⟩
      rw [SegTransfer.sentTo_next hw h1 h2]
    · rw [if_neg (by simpa [and_assoc] using h)]
      exact ⟨z.lastSent, hz.trans (by rw [SegTransfer.sentTo_full h])⟩

/-! ### The commands of a transfer -/

section
variable {s t : State} {r : Req}

/-- The transfer that a SEG_START opens. -/
def State.opened (t : State) (r : Req) : SegTransfer :=
  { request := r, write := segWrites r, total := segTotal r, segBytes := segSize r
    data := if segWrites r then [] else t.readObject (reqWho r) r.carrier r.index r.sub
    next := 0, acked := 0, lastFrame := t.now, lastSent := t.now }

theorem execSegStart_opens (ha : s.admitFrame r kSegStart = (t, true)) (hc : t.segCheck r = 0) :
    execSegStart r s = .next ((t.putTransfer (transferKey r) (t.opened r)).pushSegments 16 (transferKey r)) := by
  unfold execSegStart
  rw [ha]
  exact congrArg Host.Outcome.next (if_neg (not_not_intro hc))

theorem opened_sentTo (t : State) (r : Req) : (t.opened r).sentTo 16 = if segWrites r then 0 else min 16 (t.opened r).count := by
  have hn : (t.opened r).next = 0 := rfl
  have hk : (t.opened r).acked = 0 := rfl
  unfold SegTransfer.sentTo
  rw [hn, hk]
  refine if_congr Iff.rfl rfl ?_
  omega

/-- The segment of a write is taken and acknowledged. -/
theorem execSegData_takes {z : SegTransfer} (hw : s.writing r = some z) (ha : s.admitFrame r kSegData = (t, true)) (hr : r.rsv = 0)
    (hl : r.length = r.payload.length) (hlast : s.lastSegment r = none) (hc : r.code = z.next) (hs : z.sizeOk r.payload.length = true) :
    execSegData r s = .next ((t.putTransfer (transferKey r)
      { z with data := z.data ++ r.payload, next := z.next + 1, lastFrame := t.now }).sendSeg z kSegAck r.code []) := by
  have hbad : ¬ (r.rsv ≠ 0 ∨ r.length ≠ r.payload.length) := fun h => h.elim (fun h => h hr) (fun h => h hl)
  unfold execSegData
  rw [hw]
  dsimp only
  rw [hlast, ha]
  exact congrArg Host.Outcome.next ((if_neg hbad).trans (if_pos ⟨hc, hs⟩))

/-- The last segment of a write brings it whole: it is judged, the transfer gone. -/
theorem execSegData_ends {z : SegTransfer} (hw : s.writing r = some z) (ha : s.admitFrame r kSegData = (t, true)) (hr : r.rsv = 0)
    (hl : r.length = r.payload.length) {v : List Byte} (hv : s.lastSegment r = some v) (hrow : hasRow (wholeWrite r v) = false) :
    execSegData r s = .next ((t.dropTransfer (transferKey r)).judged (wholeWrite r v) (fun u => u.plainCheck (wholeWrite r v))
      (fun u => (u.plainWrite (wholeWrite r v)).reply (wholeWrite r v) 0)) := by
  have hbad : ¬ (r.rsv ≠ 0 ∨ r.length ≠ r.payload.length) := fun h => h.elim (fun h => h hr) (fun h => h hl)
  unfold execSegData
  rw [hw]
  dsimp only
  rw [hv]
  dsimp only
  rw [ha]
  exact congrArg Host.Outcome.next ((if_neg (by rw [hrow]; decide)).trans (if_neg hbad))

end

theorem plainWrite_transfer (s : State) (w : Req) (k : Nat) : (s.plainWrite w).transfer k = s.transfer k := by
  unfold State.plainWrite
  split
  · exact (keptByFrames_transfer k).updSession ..
  · split_ifs <;> rfl

/-- A write that arrives whole opens no transfer and touches no Square and no stack memory. -/
theorem judged_plainWrite (s : State) (w : Req) (k : Nat) :
    let u := s.judged w (fun u => u.plainCheck w) (fun u => (u.plainWrite w).reply w 0)
    u.transfer k = s.transfer k ∧ u.squares = s.squares ∧ u.dram = s.dram := by
  have hreply : ∀ t : State, ∀ c, (t.reply w c).transfer k = t.transfer k ∧ (t.reply w c).squares = t.squares ∧
      (t.reply w c).dram = t.dram := fun t c =>
    ⟨(keptByFrames_transfer k).reply t w c, (State.reply_core t w c).sameStores.2⟩
  have hwrite : ((s.plainWrite w).reply w 0).transfer k = s.transfer k ∧ ((s.plainWrite w).reply w 0).squares = s.squares ∧
      ((s.plainWrite w).reply w 0).dram = s.dram := by
    obtain ⟨h1, h2, h3⟩ := hreply (s.plainWrite w) 0
    obtain ⟨hd, ⟨hsq, -, -⟩, -⟩ := plainWrite_keeps s w
    exact ⟨h1.trans (plainWrite_transfer s w k), h2.trans hsq, h3.trans hd⟩
  unfold State.judged
  dsimp only
  split_ifs
  · exact hreply ..
  · exact hreply ..
  · exact hwrite

section
variable {s t : State} {r : Req} {z : SegTransfer}

theorem execSegAck_counts (ha : s.admitFrame r kSegAck = (t, true)) (hr : r.rsv = 0) (hp : r.payload = []) (hz : t.inTransfer r = some z)
    (hw : z.write = false) (hc : r.code < z.next) :
    execSegAck r s = .next (if z.count ≤ max z.acked (r.code + 1) then (t.dropTransfer (transferKey r)).sendSeg z kSegAck r.code []
      else (t.putTransfer (transferKey r) { z with acked := max z.acked (r.code + 1), lastFrame := t.now }).pushSegments 16
        (transferKey r)) := by
  have hbad : ¬ (!(t, true).2 ∨ r.rsv ≠ 0 ∨ r.payload ≠ []) := by simp [hr, hp]
  have hown : ¬ (z.write ∨ z.next ≤ r.code) := by simpa [hw] using hc
  unfold execSegAck
  rw [ha]
  dsimp only at hbad ⊢
  rw [if_neg hbad, hz]
  exact congrArg Host.Outcome.next (if_neg hown)

theorem execSegCancel_drops (ha : s.admitFrame r kSegCancel = (t, true)) (hr : r.rsv = 0) (hp : r.payload = [])
    (hz : t.inTransfer r = some z) : execSegCancel r s = .next (t.dropTransfer (transferKey r)) := by
  have hbad : ¬ (!(t, true).2 ∨ r.rsv ≠ 0 ∨ r.payload ≠ []) := by simp [hr, hp]
  unfold execSegCancel
  rw [ha]
  dsimp only at hbad ⊢
  rw [if_neg hbad, hz]

theorem execSegmentResendTimeout_sends {n : Nat} (hz : s.transfer n = some z) (hw : z.write = false) (hk : z.acked < z.next) :
    execSegmentResendTimeout n s = .next (((s.reach (z.lastSent + 100000000)).putTransfer n
      { z with lastSent := max s.now (z.lastSent + 100000000) }).sendSeg z kSegData z.acked (z.segment z.acked)) := by
  have hown : ¬ (z.write ∨ z.next ≤ z.acked) := by simpa [hw] using hk
  unfold execSegmentResendTimeout
  rw [hz]
  exact congrArg Host.Outcome.next (if_neg hown)

theorem execSegmentTransferAbandon_drops {n : Nat} (hz : s.transfer n = some z) :
    execSegmentTransferAbandon n s = .next ((s.reach (z.lastFrame + 2000000000)).dropTransfer n) := by
  unfold execSegmentTransferAbandon
  rw [hz]

end

/-- Settles O53: each frame of a transfer puts, moves on or drops its entry; what is sent with it leaves the entry. -/
theorem segmentedTransfers : Obligations.SegmentedTransfers := by
  intro s t r z n k keeps
  refine ⟨fun ha hc => ?_, fun hw ha hr hl => ⟨fun hlast hcode hsize => ?_, fun v hv hrow => ?_⟩, fun ha hr hp hz hw hc => ?_,
    fun ha hr hp hz => ?_, fun hz hw hk => ?_, fun hz => ?_⟩
  · obtain ⟨m, hm⟩ := pushSegments_transfer 16 k (State.transfer_putTransfer_same t k (t.opened r))
    refine ⟨_, _, execSegStart_opens ha hc, SameStores.trans (State.admit_stores ha) (pushSegments_stores 16 k _), hm,
      rfl, rfl, rfl, fun hw => ⟨if_pos hw, (opened_sentTo t r).trans (if_pos hw)⟩, fun hw => ?_⟩
    have hn : ¬ segWrites r = true := by rw [hw]; decide
    exact ⟨if_neg hn, (opened_sentTo t r).trans (if_neg hn)⟩
  · refine ⟨_, execSegData_takes hw ha hr hl hlast hcode hsize, SameStores.trans (State.admit_stores ha) (State.sendSeg_stores ..), ?_⟩
    exact (State.sendSeg_transfer ..).trans (State.transfer_putTransfer_same ..)
  · obtain ⟨-, hsq, hd⟩ := State.admit_stores ha
    obtain ⟨h1, h2, h3⟩ := judged_plainWrite (t.dropTransfer k) (wholeWrite r v) k
    exact ⟨_, execSegData_ends hw ha hr hl hv hrow, h1.trans (State.transfer_dropTransfer_same t k), h2.trans hsq, h3.trans hd⟩
  · refine ⟨_, execSegAck_counts ha hr hp hz hw hc, ?_⟩
    by_cases hend : z.count ≤ max z.acked (r.code + 1)
    · rw [if_pos hend]
      exact ⟨SameStores.trans (State.admit_stores ha) (State.sendSeg_stores ..),
        fun _ => (State.sendSeg_transfer ..).trans (State.transfer_dropTransfer_same ..), fun h => absurd hend (Nat.not_le.mpr h)⟩
    · rw [if_neg hend]
      obtain ⟨m, hm⟩ := pushSegments_transfer 16 k (State.transfer_putTransfer_same t k
        { z with acked := max z.acked (r.code + 1), lastFrame := t.now })
      exact ⟨SameStores.trans (State.admit_stores ha) (pushSegments_stores 16 k _), fun h => absurd h hend, fun _ => ⟨_, hm, rfl, rfl⟩⟩
  · exact ⟨_, execSegCancel_drops ha hr hp hz, SameStores.trans (State.admit_stores ha) ⟨rfl, rfl, rfl⟩, State.transfer_dropTransfer_same ..⟩
  · have hnow := State.sendSeg_now ((s.reach (z.lastSent + 100000000)).putTransfer n
      { z with lastSent := max s.now (z.lastSent + 100000000) }) z kSegData z.acked (z.segment z.acked)
    refine ⟨_, execSegmentResendTimeout_sends hz hw hk, State.sendSeg_stores .., hnow, ?_⟩
    rw [hnow]
    exact (State.sendSeg_transfer ..).trans (State.transfer_putTransfer_same ..)
  · exact ⟨_, execSegmentTransferAbandon_drops hz, ⟨rfl, rfl, rfl⟩, State.transfer_dropTransfer_same .., rfl⟩

/-! ### Event frames and the end of a session -/

section
variable {s t : State} {r : Req}

theorem execEventAck_takes (ha : s.admitFrame r kEventAck = (t, true)) (hr : r.rsv = 0) (hp : r.payload.length = 4)
    (hs : r.sealed = true) : execEventAck r s = .next (t.updSession r.session (fun x =>
      { x with unacked := x.unacked.filter (fun e => decide (leNat r.payload < e.1)) })) := by
  have hbad : ¬ (!(t, true).2 ∨ r.rsv ≠ 0 ∨ r.payload.length ≠ 4 ∨ r.sealed = false) := by simp [hr, hp, hs]
  unfold execEventAck
  rw [ha]
  exact congrArg Host.Outcome.next (if_neg hbad)

theorem execClose_ends (ha : s.admitFrame r kClose = (t, true)) (hr : r.rsv = 0) (hp : r.payload = []) (hs : r.sealed = true) :
    execClose r s = .next ((t.endSession r.session).raise 0x70 0x33 (sessPart r.session) [(.session, r.session)] []) := by
  have hbad : ¬ (!(t, true).2 ∨ r.rsv ≠ 0 ∨ r.payload ≠ [] ∨ r.sealed = false) := by simp [hr, hp, hs]
  unfold execClose
  rw [ha]
  exact congrArg Host.Outcome.next (if_neg hbad)

end

theorem State.endSession_session (s : State) (n : Nat) : (s.endSession n).session n = none :=
  (Tab.entryAt_filter (s.dropTransfer n).sec.sessions n n).trans (if_pos rfl)

/-- The EVENT frame that brings the oldest unacknowledged records of a session again. -/
def Session.resent (x : Session) (n : Nat) : Response :=
  { carrier := x.carrier, session := some n, version := x.version, sequence := 0, requestId := 0, kind := 0x08, index := 0, sub := 0
    code := 0, value := (x.unacked.take (eventBatch x)).flatMap (fun e => e.2.bytes e.1) }

theorem execEventResend_none {s : State} {n : Nat} {x : Session} (hx : s.session n = some x) (h : x.unacked = []) :
    execEventResend n s = .next s := by
  unfold execEventResend
  rw [hx]
  dsimp only
  rw [h, List.take_nil]

theorem execEventResend_sends {s : State} {n : Nat} {x : Session} (hx : s.session n = some x) (h : x.unacked ≠ [])
    (hb : 0 < eventBatch x) : execEventResend n s = .next (s.sendFrame (some n) (x.resent n)) := by
  have ht : x.unacked.take (eventBatch x) ≠ [] := fun he => (List.take_eq_nil_iff.mp he).elim (Nat.ne_of_gt hb) h
  unfold execEventResend
  rw [hx]
  dsimp only
  split
  next he => exact absurd he ht
  next => rfl

theorem State.updSession_responses (s : State) (n : Nat) (f : Session → Session) : (s.updSession n f).responses = s.responses := by
  unfold State.updSession
  split <;> rfl

theorem State.putFrame_responses (s : State) (f : Response) (x : Option Session) : (s.putFrame f x).responses = s.responses ++ [f] := by
  unfold State.putFrame
  dsimp only
  split <;> rfl

theorem State.sendFrame_responses (s : State) (n : Nat) (f : Response) :
    (s.sendFrame (some n) f).responses.length = s.responses.length + 1 := by
  unfold State.sendFrame
  dsimp only
  rw [State.updSession_responses, State.putFrame_responses, List.length_append]
  rfl

/-- Settles O54: an acknowledgement filters the queue, a resend takes one Sequence, a CLOSE removes the session and raises its event. -/
theorem eventFrames : Obligations.EventFrames := by
  intro s t r x keeps
  refine ⟨fun ha hr hp hs hx => ?_, fun n hx => ⟨execEventResend_none hx, fun hne hb => ?_⟩, fun ha hr hp hs => ?_⟩
  · exact ⟨_, execEventAck_takes ha hr hp hs, SameStores.trans (State.admit_stores ha) (State.updSession_core ..).sameStores,
      State.session_updSession_some hx _⟩
  · refine ⟨_, execEventResend_sends hx hne hb, (State.sendFrame_core ..).sameStores, ?_, State.sendFrame_responses ..⟩
    rw [State.sendFrame_session, if_pos rfl, hx, Option.map_some]
  · obtain ⟨hnow, -⟩ := State.admitFrame_core s r kClose
    rw [ha] at hnow
    refine ⟨_, execClose_ends ha hr hp hs, SameStores.trans (State.admit_stores ha) (State.raise_core ..).sameStores,
      State.raise_none (State.endSession_session t r.session) .., ?_⟩
    have hev : (t.endSession r.session).events = s.events := Eq.trans (b := t.events) rfl (State.admit_events ha)
    have hn : (t.endSession r.session).now = s.now := hnow
    rw [State.raise_events, hev, hn]

end Sys2Proof.Machine
end

section
/-!
PROOFS. Power states (R450 to R457): the change of state, the commands that ask for one, pads and wake sources.
-/

namespace Sys2Proof.Machine

open Sys2Proof

theorem SameStores.refl (s : State) : SameStores s s := ⟨rfl, rfl, rfl⟩

theorem State.raise_stores (s : State) (cls detail : Nat) (part : Option Nat) (loc : List (LocKind × Nat)) (arg : List Nat) :
    SameStores s (s.raise cls detail part loc arg) := (State.raise_core ..).sameStores

/-! ### A change of power state -/

/-- The state with these rails. -/
def State.withRails (s : State) (r : Tab Nat) : State := { s with power := { s.power with rails := r } }

theorem withRails_setRails (s : State) (r : Tab Nat) (lo hi v : Nat) :
    (s.withRails r).setRails lo hi v = s.withRails (railsFrom lo hi v r) := rfl

/-- The rails of a power state touch nothing but the rails. -/
theorem State.railsFor_rails (s : State) (st : PowerState) : ∃ r, s.railsFor st = s.withRails r := by
  have hone : ∀ lo hi v, s.setRails lo hi v = s.withRails (railsFrom lo hi v s.power.rails) := fun _ _ _ => rfl
  unfold State.railsFor
  cases st <;> simp only [hone, withRails_setRails] <;> exact ⟨_, rfl⟩

/-- A change of power state: the state, the rails, and its event. -/
theorem State.toPower_eq (s : State) (st : PowerState) : ∃ r, s.toPower st =
    ((s.updPower (fun x => { x with state := st })).withRails r).raise 0x90 7 none [] [] := by
  obtain ⟨r, hr⟩ := (s.updPower (fun x => { x with state := st })).railsFor_rails st
  exact ⟨r, congrArg (fun t : State => t.raise 0x90 7 none [] []) hr⟩

theorem State.toPower_power (s : State) (st : PowerState) : ∃ r, (s.toPower st).power = { s.power with state := st, rails := r } := by
  obtain ⟨r, hr⟩ := s.toPower_eq st
  exact ⟨r, (congrArg State.power hr).trans (State.raise_power ..)⟩

theorem State.toPower_state (s : State) (st : PowerState) : (s.toPower st).power.state = st := by
  obtain ⟨r, hr⟩ := s.toPower_power st
  rw [hr]

/-- What neither a frame nor the power state changes stands. -/
theorem State.toPower_keeps {β : Type} {g : State → β} (hg : KeptByFrames g) (hp : ∀ s f, g (State.updPower s f) = g s) (s : State)
    (st : PowerState) : g (s.toPower st) = g s := by
  obtain ⟨r, hr⟩ := s.toPower_eq st
  have hrails : g ((s.updPower (fun x => { x with state := st })).withRails r) = g (s.updPower (fun x => { x with state := st })) :=
    hp _ (fun x => { x with rails := r })
  exact (congrArg g hr).trans ((hg.raise ..).trans (hrails.trans (hp ..)))

theorem State.toPower_stores (s : State) (st : PowerState) : SameStores s (s.toPower st) :=
  have hg : KeptByFrames (fun t : State => (t.parts, t.squares, t.dram)) :=
    ⟨fun _ _ _ => rfl, fun _ _ => rfl, fun _ _ => rfl, fun _ _ _ => rfl, fun _ => rfl, fun _ => rfl⟩
  have h := State.toPower_keeps hg (fun _ _ => rfl) s st
  ⟨(congrArg (fun x => x.1) h :), (congrArg (fun x => x.2.1) h :), (congrArg (fun x => x.2.2) h :)⟩

theorem State.toPower_events (s : State) (st : PowerState) :
    (s.toPower st).events = withEvent s.events ⟨s.now, 0x90, 7, none, [], []⟩ := by
  obtain ⟨r, hr⟩ := s.toPower_eq st
  exact (congrArg State.events hr).trans (State.raise_events ..)

theorem keptByFrames_service : KeptByFrames (fun t => t.service) :=
  ⟨fun _ _ _ => rfl, fun _ _ => rfl, fun _ _ => rfl, fun _ _ _ => rfl, fun _ => rfl, fun _ => rfl⟩

theorem keptByFrames_squares : KeptByFrames (fun t => t.squares) :=
  ⟨fun _ _ _ => rfl, fun _ _ => rfl, fun _ _ => rfl, fun _ _ _ => rfl, fun _ => rfl, fun _ => rfl⟩

/-! ### ACTIVE -/

theorem State.sq_congr {s t : State} (h : t.squares = s.squares) (q : Nat) : t.sq q = s.sq q := by
  unfold State.sq
  rw [h]

theorem clearSquares_sq (s : State) (q : Nat) : s.clearSquares.sq q = if q < 144 then (s.sq q).cleared else s.sq q := by
  have h := State.foldl_updSq_sq List.nodup_range s Square.cleared (l := List.range 144) q
  exact h.trans (if_congr List.mem_range rfl rfl)

/-- The state but for its Squares. -/
def State.unsquared (s : State) : State := { s with squares := [] }

theorem State.unsquared_congr {s t : State} (h : t.unsquared = s.unsquared) : t.parts = s.parts ∧ t.dram = s.dram :=
  ⟨(congrArg State.parts h :), (congrArg State.dram h :)⟩

theorem foldl_updSq_unsquared (l : List Nat) (s : State) (f : Square → Square) :
    (l.foldl (fun t q => t.updSq q f) s).unsquared = s.unsquared := foldl_keeps State.unsquared l s (fun _ _ => rfl)

theorem clearSquares_unsquared (s : State) : s.clearSquares.unsquared = s.unsquared := foldl_updSq_unsquared _ s Square.cleared

theorem goActive_frame (s : State) : ∃ f g, s.goActive = ((s.clearSquares.toPower .active).updPower f).updService g ∧
    (∀ x : Power, (f x).state = x.state) ∧
    (s.power.selfTested = false → ∀ v : Service, (g v).selfTest = 1 ∧ (g v).selfTestKind = 1) := by
  unfold State.goActive
  dsimp only
  split
  next h => exact ⟨id, id, rfl, fun _ => rfl, fun hn => absurd (hn.symm.trans h) Bool.false_ne_true⟩
  next => exact ⟨_, _, rfl, fun _ => rfl, fun _ _ => ⟨rfl, rfl⟩⟩

/-- The compute dies power up with every Square cleared, and at the first time the self-test begins. -/
theorem goActive_effect (s : State) : s.goActive.power.state = .active ∧ s.goActive.parts = s.parts ∧ s.goActive.dram = s.dram ∧
    (∀ q, q < 144 → s.goActive.sq q = (s.sq q).cleared) ∧
    (s.power.selfTested = false → s.goActive.service.selfTest = 1 ∧ s.goActive.service.selfTestKind = 1) := by
  obtain ⟨f, g, he, hf, hg⟩ := goActive_frame s
  obtain ⟨hp, hsq, hd⟩ := s.clearSquares.toPower_stores .active
  have hstate := s.clearSquares.toPower_state .active
  obtain ⟨hcp, hcd⟩ := State.unsquared_congr (clearSquares_unsquared s)
  have hclear := clearSquares_sq s
  rw [he]
  generalize s.clearSquares = c at hp hsq hd hstate hcp hcd hclear
  refine ⟨(hf _).trans hstate, hp.trans hcp, hd.trans hcd, fun q hq => ?_, fun h => hg h _⟩
  have hsame : (((c.toPower .active).updPower f).updService g).sq q = c.sq q := State.sq_congr hsq q
  rw [hsame, hclear, if_pos hq]

/-! ### Wake -/

theorem trip_abandons {s : State} (h : s.power.sleepEntry = true) (c : Nat) : s.trip c =
    (s.updPower (fun x => { x with sleepEntry := false })).updAslet (fun a =>
      { a with sleepAsked := false, state := if a.lowRate then 1 else a.state }) := if_pos h

theorem trip_wakes {s : State} (h : s.power.sleepEntry = false) (hs : s.power.state = .sleep) (c : Nat) : s.trip c =
    (((s.updPower (fun x => { x with wakeCause := c, aonLow := false })).toPower .ready).updAslet (fun a =>
      { a with state := 1 })).raise 0x90 0x08 none [] [] := by
  unfold State.trip
  rw [if_neg (by rw [h]; decide), if_pos hs]

theorem trip_stands {s : State} (h : s.power.sleepEntry = false) (hs : s.power.state ≠ .sleep) (c : Nat) : s.trip c = s := by
  unfold State.trip
  rw [if_neg (by rw [h]; decide), if_neg hs]

/-- A wake brings READY and its cause, and leaves the pads and the stores. -/
theorem trip_wakes_effect {s : State} (h : s.power.sleepEntry = false) (hs : s.power.state = .sleep) (c : Nat) :
    (s.trip c).power.state = .ready ∧ (s.trip c).power.wakeCause = c ∧ (s.trip c).power.padHeld = s.power.padHeld ∧
    SameStores s (s.trip c) := by
  obtain ⟨r, hr⟩ := (s.updPower (fun x => { x with wakeCause := c, aonLow := false })).toPower_power .ready
  have hpow : (s.trip c).power = { s.power with wakeCause := c, aonLow := false, state := .ready, rails := r } := by
    rw [trip_wakes h hs, State.raise_power]
    exact hr
  have hst : SameStores s (s.trip c) := by
    rw [trip_wakes h hs]
    exact SameStores.trans (State.toPower_stores (s.updPower (fun x => { x with wakeCause := c, aonLow := false })) .ready)
      (State.raise_stores ..)
  exact ⟨by rw [hpow], by rw [hpow], by rw [hpow], hst⟩

/-! ### The commands -/

/-- What POWER_ACTIVE makes of a state that takes it. -/
def State.activated (t : State) : State :=
  match t.power.state with
  | .ready => t.goActive
  | .standby => if t.power.sleepEntry then t.trip 4 else t.goActive
  | .sleep => t.trip 4
  | _ => t

section
variable {s t : State} {r : Req} (h : Received s r t)
include h

theorem execPowerActive_received (hp : isPowerCommand r 3 = true) (hb : t.power.state ≠ .boot)
    (hr : t.power.state = .ready → t.training = false ∧ t.power.padHeld = 0) :
    execPowerActive r s = .next (t.activated.reply r 0) := by
  unfold execPowerActive
  rw [if_neg (by rw [hp]; decide)]
  refine congrArg Host.Outcome.next (h.command ?_)
  split
  next he =>
    obtain ⟨ht, hh⟩ := hr he
    rw [ht, hh]
    rfl
  next he => exact absurd he hb
  next => rfl

theorem execPowerStandby_received (hp : isPowerCommand r 4 = true)
    (hc : t.power.state = .standby ∨ (t.power.state = .active ∧ t.busyParts = false) ∨
      (t.power.state = .ready ∧ t.training = false ∧ t.power.padHeld = 0)) :
    execPowerStandby r s = .next ((if t.power.state = .standby then t else t.goStandby).reply r 0) := by
  unfold execPowerStandby
  rw [if_neg (by rw [hp]; decide)]
  refine congrArg Host.Outcome.next (h.command ?_)
  obtain hs | ⟨hs, hb⟩ | ⟨hs, ht, hh⟩ := hc
  · rw [hs]
  · rw [hs, hb]
    rfl
  · rw [hs, ht, hh]
    rfl

theorem execPowerSleep_standby (hp : isPowerCommand r 5 = true) (hs : t.power.state = .standby) (hn : t.power.sleepEntry = false) :
    execPowerSleep r s = .next (((t.reply r 0).updPower (fun x => { x with sleepEntry := true })).sleepStep) := by
  unfold execPowerSleep
  rw [if_neg (by rw [hp]; decide)]
  refine congrArg Host.Outcome.next ((h.command ?_).trans (if_pos hs))
  rw [hs, hn]
  rfl

theorem execPowerSleep_asleep (hp : isPowerCommand r 5 = true) (hs : t.power.state = .sleep) :
    execPowerSleep r s = .next (t.reply r 0) := by
  unfold execPowerSleep
  rw [if_neg (by rw [hp]; decide)]
  refine congrArg Host.Outcome.next ((h.command ?_).trans (if_neg ?_))
  · rw [hs]
  · rw [hs]
    decide

end

/-! ### STANDBY -/

theorem goStandby_frame (s : State) : ∃ f g, s.goStandby = ((s.toPower .standby).updService g).updPower f ∧
    ∀ x : Power, (f x).state = x.state := by
  unfold State.goStandby
  dsimp only
  split
  · exact ⟨_, _, rfl, fun _ => rfl⟩
  · exact ⟨id, id, rfl, fun _ => rfl⟩

theorem goStandby_effect (s : State) : s.goStandby.power.state = .standby ∧ SameStores s s.goStandby := by
  obtain ⟨f, g, he, hf⟩ := goStandby_frame s
  rw [he]
  exact ⟨(hf _).trans (State.toPower_state ..), SameStores.trans (s.toPower_stores .standby) ⟨rfl, rfl, rfl⟩⟩

/-! ### The entry into SLEEP -/

theorem linksDown_link (s : State) (l : Nat) : s.linksDown.link l = (s.link l).unplug := Tab.get_map rfl s.links l

theorem Aslet.lowReady_of_unsent {a b : Aslet} (h : a.unsent = b.unsent) : a.lowReady = b.lowReady :=
  (congrArg Aslet.lowReady h :)

section
variable {s : State} (he : s.power.sleepEntry = true)
include he

theorem sleepStep_waits (hi : s.hostIdle = false) : s.sleepStep = s := by
  unfold State.sleepStep
  rw [if_pos (by rw [he, hi]; rfl)]

theorem sleepStep_asks (hi : s.hostIdle = true) (hl : s.aslet.lowReady = false) : s.sleepStep.power = s.power ∧
    s.sleepStep.aslet.sleepAsked = true ∧ SameStores s s.sleepStep := by
  unfold State.sleepStep
  rw [if_neg (by rw [he, hi]; decide), if_pos (by rw [hl]; decide)]
  split
  next ha => exact ⟨rfl, ha, rfl, rfl, rfl⟩
  next => exact ⟨rfl, rfl, rfl, rfl, rfl⟩

theorem sleepStep_unplugs (hi : s.hostIdle = true) (hl : s.aslet.lowReady = true) {l : Nat} (hlt : l < 96)
    (hup : (s.link l).state ≠ 0) : s.sleepStep.power = s.power ∧ SameStores s s.sleepStep ∧ ∀ k, (s.sleepStep.link k).state = 0 := by
  unfold State.sleepStep
  rw [if_neg (by rw [he, hi]; decide), if_neg (by rw [hl]; decide),
    if_pos (List.any_eq_true.mpr ⟨l, List.mem_range.mpr hlt, decide_eq_true hup⟩)]
  refine ⟨rfl, ⟨rfl, rfl, rfl⟩, fun k => ?_⟩
  rw [linksDown_link]
  rfl

theorem sleepStep_sleeps (hi : s.hostIdle = true) (hl : s.aslet.lowReady = true) (hdown : ∀ l, l < 96 → (s.link l).state = 0) :
    s.sleepStep.power.state = .sleep ∧ s.sleepStep.power.sleepEntry = false ∧ SameStores s s.sleepStep := by
  have hnone : (List.range 96).any (fun l => decide ((s.link l).state ≠ 0)) = false :=
    List.any_eq_false.mpr (fun l hm => by simpa using hdown l (List.mem_range.mp hm))
  unfold State.sleepStep
  rw [if_neg (by rw [he, hi]; decide), if_neg (by rw [hl]; decide), if_neg (by rw [hnone]; decide)]
  obtain ⟨r, hr⟩ := ((s.updAslet (fun a => if a.lowRate then a else { a with state := 0, tunnel := false })).updPower (fun x =>
    { x with sleepEntry := false, padHeld := x.padHeld ||| 0x3FF0, aonLow := true })).toPower_power .sleep
  have hst := ((s.updAslet (fun a => if a.lowRate then a else { a with state := 0, tunnel := false })).updPower (fun x =>
    { x with sleepEntry := false, padHeld := x.padHeld ||| 0x3FF0, aonLow := true })).toPower_stores .sleep
  exact ⟨(congrArg Power.state hr :), (congrArg Power.sleepEntry hr :), hst⟩

end

/-- The state in which the first step of an entry into SLEEP is taken: the request answered, the entry begun. -/
def State.entersSleep (t : State) (r : Req) : State := (t.reply r 0).updPower (fun x => { x with sleepEntry := true })

theorem entersSleep_power (t : State) (r : Req) : (t.entersSleep r).power = { t.power with sleepEntry := true } := by
  obtain ⟨-, -, -, -, -, -, -, -, -, -, hp, -⟩ := State.reply_core t r 0
  exact congrArg (fun x : Power => { x with sleepEntry := true }) hp

theorem entersSleep_link (t : State) (r : Req) (l : Nat) : (t.entersSleep r).link l = t.link l := by
  obtain ⟨-, -, -, -, -, -, -, hl, -⟩ := State.reply_core t r 0
  exact congrArg (fun x => Tab.get {} x l) hl

theorem entersSleep_stores (t : State) (r : Req) : SameStores t (t.entersSleep r) := (State.reply_core t r 0).sameStores

theorem entersSleep_hostIdle (t : State) (r : Req) : (t.entersSleep r).hostIdle = t.hostIdle := by
  have h : ∀ ch, (t.entersSleep r).channel .host ch = t.channel .host ch := fun ch => State.reply_channel t r 0 .host ch
  unfold State.hostIdle
  simp only [h]

theorem entersSleep_lowReady (t : State) (r : Req) : (t.entersSleep r).aslet.lowReady = t.aslet.lowReady :=
  Aslet.lowReady_of_unsent (keptByFrames_aslet.reply t r 0)

/-! ### Pads -/

/-- The state but for its links, the Aslet link and the power record. -/
def State.unlinked (s : State) : State := { s with links := [], aslet := {}, power := {} }

theorem foldl_updLink_keeps (l : List Nat) (s : State) (k : Nat → Nat) (f : Link → Link) :
    (l.foldl (fun t i => t.updLink (k i) f) s).power = s.power ∧ (l.foldl (fun t i => t.updLink (k i) f) s).unlinked = s.unlinked :=
  ⟨foldl_keeps State.power l s (fun _ _ => rfl), foldl_keeps State.unlinked l s (fun _ _ => rfl)⟩

theorem trainLinks_keeps (s : State) (lo n : Nat) :
    (s.trainLinks lo n).power = s.power ∧ (s.trainLinks lo n).unlinked = s.unlinked := foldl_updLink_keeps _ s (fun i => lo + i) _

/-- The pads that a PAD_RELEASE of v releases are no longer held, and the stacks of released memory-side dies train. -/
def State.padsCleared (t : State) (v : Nat) : State :=
  let rel := v &&& t.power.padHeld
  t.updPower (fun x =>
    { x with padHeld := clearBits x.padHeld rel, memTraining := x.memTraining || decide (rel &&& 0xFF0 ≠ 0) })

/-- What PAD_RELEASE leaves of a state that takes it: released pads, and training where they go to links or stacks. -/
def State.padsReleased (t : State) (v : Nat) : State :=
  let rel := v &&& t.power.padHeld
  let t1 := t.padsCleared v
  let t2 := if rel.testBit 13 then (t1.trainLinks 0 48).updAslet (fun a => { a with state := 1 }) else t1
  if rel.testBit 12 then t2.trainLinks 48 48 else t2

theorem execPadRelease_received {s t : State} {r : Req} (h : Received s r t) (hn : reqNames r 0x3100 2 = true)
    (hv : reqValue r < 2 ^ 14) (hd : clearBits (reqValue r) (domainsOn t.power.state) = 0) :
    execPadRelease r s = .next ((t.padsReleased (reqValue r)).reply r 0) := by
  unfold execPadRelease
  rw [if_neg (by rw [hn]; decide)]
  exact congrArg Host.Outcome.next (h.command ((if_neg (Nat.not_le.mpr hv)).trans (if_neg (not_not_intro hd))))

theorem State.unlinked_congr {s t : State} (h : t.unlinked = s.unlinked) : SameStores s t :=
  ⟨(congrArg State.parts h :), (congrArg State.squares h :), (congrArg State.dram h :)⟩

theorem updAslet_unlinked (s : State) (f : Aslet → Aslet) : (s.updAslet f).unlinked = s.unlinked := rfl

theorem trainIf_keeps (b : Bool) (u : State) (lo n : Nat) : (if b then u.trainLinks lo n else u).power = u.power ∧
    (if b then u.trainLinks lo n else u).unlinked = u.unlinked := by
  split
  · exact trainLinks_keeps ..
  · exact ⟨rfl, rfl⟩

theorem trainAsletIf_keeps (b : Bool) (u : State) (lo n : Nat) (f : Aslet → Aslet) :
    (if b then (u.trainLinks lo n).updAslet f else u).power = u.power ∧
    (if b then (u.trainLinks lo n).updAslet f else u).unlinked = u.unlinked := by
  split
  · rw [updAslet_unlinked, State.updAslet_power]
    exact trainLinks_keeps ..
  · exact ⟨rfl, rfl⟩

/-- Released pads change the power record, the Aslet link and the chip links only. -/
theorem padsReleased_keeps (t : State) (v : Nat) :
    (t.padsReleased v).power = (t.padsCleared v).power ∧ (t.padsReleased v).unlinked = (t.padsCleared v).unlinked := by
  unfold State.padsReleased
  dsimp only
  obtain ⟨h1, h2⟩ := trainIf_keeps ((v &&& t.power.padHeld).testBit 12) (if (v &&& t.power.padHeld).testBit 13 then
    ((t.padsCleared v).trainLinks 0 48).updAslet (fun a => { a with state := 1 }) else t.padsCleared v) 48 48
  obtain ⟨h3, h4⟩ := trainAsletIf_keeps ((v &&& t.power.padHeld).testBit 13) (t.padsCleared v) 0 48 (fun a => { a with state := 1 })
  exact ⟨h1.trans h3, h2.trans h4⟩

theorem testBit_released (held v i : Nat) : (clearBits held (v &&& held)).testBit i = (held.testBit i && !v.testBit i) := by
  rw [testBit_clearBits, Nat.testBit_and]
  cases held.testBit i <;> cases v.testBit i <;> rfl

/-! ### Wake sources -/

theorem exec_wakeSource {source : Nat} (h : source < 3) (s : State) : exec (.wakeSource source) s = .next (s.tripSource source) :=
  onUnit_next (decide_eq_true h) _

theorem tripSource_masked {s : State} {n : Nat} (h : s.power.wakeSources.testBit n = false) : s.tripSource n = s := by
  unfold State.tripSource
  rw [if_neg (by rw [h]; decide)]

theorem tripSource_trips {s : State} {n : Nat} (h : s.power.wakeSources.testBit n = true) : s.tripSource n = s.trip (n + 1) := if_pos h

theorem tripSource_stands {s : State} (he : s.power.sleepEntry = false) (hs : s.power.state ≠ .sleep) (n : Nat) : s.tripSource n = s := by
  unfold State.tripSource
  rw [trip_stands he hs, ite_self]

/-- Settles O56: each command is received into the change of state that it asks for; the sleep entry takes its first step by what of the
host, Aslet and the links is still busy. -/
theorem powerCommands : Obligations.PowerCommands := by
  intro s t r source st
  refine ⟨fun h hp hn => ⟨fun hst => ?_, fun hst => ?_, fun hst => ?_⟩, fun h hp hst he => ?_, fun h hp hst => ?_, fun h hp hc => ?_,
    fun h hp hst hn => ?_, fun h hp hst => execPowerSleep_asleep h hp hst, fun h hn hv hd => ?_, fun hsrc => ⟨fun hm => ?_, fun hm he => ?_,
    fun hm he hs => ?_, fun he hs => ?_⟩, (exec_wakeSource (by decide) s).symm, _, rfl⟩
  · have hact : t.activated = t.goActive := by
      unfold State.activated
      obtain hst | ⟨hst, -⟩ := hst
      · rw [show t.power.state = .standby from hst]
        exact if_neg (by rw [hn]; decide)
      · rw [show t.power.state = .ready from hst]
    obtain ⟨h1, h2, h3, h4, h5⟩ := goActive_effect t
    have hb : t.power.state ≠ .boot := fun hb => by
      obtain hst | ⟨hst, -⟩ := hst
      · exact nomatch hst.symm.trans hb
      · exact nomatch hst.symm.trans hb
    have hr : t.power.state = .ready → t.training = false ∧ t.power.padHeld = 0 := fun hr =>
      hst.elim (fun hst => nomatch hst.symm.trans hr) (fun hst => hst.2)
    refine ⟨t.goActive, hact ▸ execPowerActive_received h hp hb hr, h1, h2, h3, fun q hq => ?_, h5⟩
    rw [h4 q hq]
    exact ⟨rfl, rfl, rfl, rfl⟩
  · have hact : t.activated = t := by
      unfold State.activated
      rw [show t.power.state = .active from hst]
    have hrun := execPowerActive_received h hp (fun hb => nomatch hst.symm.trans hb) (fun hr => nomatch hst.symm.trans hr)
    rw [hact] at hrun
    exact hrun
  · have hact : t.activated = t.trip 4 := by
      unfold State.activated
      rw [show t.power.state = .sleep from hst]
    obtain ⟨h1, h2, -, h3, h4, h5⟩ := trip_wakes_effect hn hst 4
    exact ⟨t.trip 4, hact ▸ execPowerActive_received h hp (fun hb => nomatch hst.symm.trans hb) (fun hr => nomatch hst.symm.trans hr),
      h1, h2, h4, h3, h5⟩
  · have hact : t.activated = t.trip 4 := by
      unfold State.activated
      rw [show t.power.state = .standby from hst]
      exact if_pos he
    refine ⟨t.trip 4, hact ▸ execPowerActive_received h hp (fun hb => nomatch hst.symm.trans hb) (fun hr => nomatch hst.symm.trans hr), ?_⟩
    rw [trip_abandons he]
    exact ⟨rfl, rfl, rfl, rfl, rfl⟩
  · exact (execPowerStandby_received h hp (.inl hst)).trans (by rw [if_pos hst])
  · have hne : t.power.state ≠ .standby := fun he => by
      obtain ⟨hst, -⟩ | ⟨hst, -⟩ := hc
      · exact nomatch hst.symm.trans he
      · exact nomatch hst.symm.trans he
    obtain ⟨h1, h2, h3, h4⟩ := goStandby_effect t
    exact ⟨t.goStandby, (execPowerStandby_received h hp (.inr hc)).trans (by rw [if_neg hne]), h1, h3, h2, h4⟩
  · have hrun : exec (.powerSleep r) s = .next (t.entersSleep r).sleepStep := execPowerSleep_standby h hp hst hn
    have hpow := entersSleep_power t r
    have hentry : (t.entersSleep r).power.sleepEntry = true := by rw [hpow]
    have hstores := entersSleep_stores t r
    have hidle := entersSleep_hostIdle t r
    have hlow := entersSleep_lowReady t r
    have hlink := entersSleep_link t r
    refine ⟨(t.entersSleep r).sleepStep, hrun, ?_⟩
    cases hi : t.hostIdle
    case false =>
      rw [sleepStep_waits hentry (hidle.trans hi)]
      exact ⟨hstores.2.1, hstores.1, hstores.2.2, fun _ => hpow, fun h => (nomatch h), fun h => (nomatch h)⟩
    case true =>
      cases hl : t.aslet.lowReady
      case false =>
        obtain ⟨h1, h2, h3⟩ := sleepStep_asks hentry (hidle.trans hi) (hlow.trans hl)
        have hs := hstores.trans h3
        refine ⟨hs.2.1, hs.1, hs.2.2, fun h => (nomatch h), fun _ _ _ _ => ⟨h1.trans hpow, h2⟩, fun _ hbad => ?_⟩
        unfold Aslet.lowReady at hl
        obtain hbad | hbad | hbad := hbad <;> (rw [hbad] at hl; simp at hl)
      case true =>
        have hready : ∀ (P : Prop), t.aslet.up = true → t.aslet.lane0 = true → t.aslet.lowRate = false → P := fun P h1 h2 h3 => by
          unfold Aslet.lowReady at hl
          rw [h1, h2, h3] at hl
          exact nomatch hl
        by_cases hup : ∃ l, l < 96 ∧ (t.link l).state ≠ 0
        · obtain ⟨l, hlt, hne⟩ := hup
          obtain ⟨h1, h2, h3⟩ := sleepStep_unplugs hentry (hidle.trans hi) (hlow.trans hl) hlt ((hlink l).symm ▸ hne)
          have hs := hstores.trans h2
          exact ⟨hs.2.1, hs.1, hs.2.2, fun h => (nomatch h), fun _ a b c => hready _ a b c,
            fun _ _ => ⟨fun _ => ⟨h1.trans hpow, fun k _ => h3 k⟩, fun hall => absurd (hall l hlt) hne⟩⟩
        · have hdown : ∀ l, l < 96 → (t.link l).state = 0 := fun l hlt => by
            by_contra hne
            exact hup ⟨l, hlt, hne⟩
          obtain ⟨h1, h2, h3⟩ := sleepStep_sleeps hentry (hidle.trans hi) (hlow.trans hl)
            (fun l hlt => (congrArg Link.state (hlink l)).trans (hdown l hlt))
          have hs := hstores.trans h3
          exact ⟨hs.2.1, hs.1, hs.2.2, fun h => (nomatch h), fun _ a b c => hready _ a b c,
            fun _ _ => ⟨fun hex => absurd hex hup, fun _ => ⟨h1, h2⟩⟩⟩
  · obtain ⟨hb, hf⟩ := padsReleased_keeps t (reqValue r)
    obtain ⟨h1, h2, h3⟩ := State.unlinked_congr hf
    refine ⟨_, execPadRelease_received h hn hv hd, (congrArg Power.state hb :), h2, h1, h3, fun i => ?_⟩
    rw [hb]
    exact testBit_released ..
  · rw [exec_wakeSource hsrc, tripSource_masked hm]
  · refine ⟨_, exec_wakeSource hsrc s, ?_⟩
    rw [tripSource_trips hm, trip_abandons he]
    exact ⟨rfl, rfl, rfl, rfl⟩
  · obtain ⟨h1, h2, h3, h4, h5, h6⟩ := trip_wakes_effect he hs (source + 1)
    refine ⟨_, exec_wakeSource hsrc s, ?_⟩
    rw [tripSource_trips hm]
    exact ⟨h1, h2, h3, h4, h5, h6⟩
  · rw [exec_wakeSource hsrc, tripSource_stands he hs]

end Sys2Proof.Machine
end

section
/-!
PROOFS. The input supply, the power limit, the rails and the always-on domain (R444 to R447, R450, R454).
-/

namespace Sys2Proof.Machine

open Sys2Proof

/-! ### The loss of supply -/

/-- The state with another history. -/
def State.withHistory (s : State) (l : List Event) (n : Nat) : State := { s with events := l, eventsRaised := n }

/-- Where no session is open, an event enters the history and nothing else. -/
theorem State.raise_alone {s : State} (h : s.sec.sessions = []) (cls detail : Nat) (part : Option Nat) (loc : List (LocKind × Nat))
    (arg : List Nat) : ∃ l n, s.raise cls detail part loc arg = s.withHistory l n := by
  unfold State.raise
  rw [h]
  exact ⟨_, _, rfl⟩

theorem foldl_raise_alone {α : Type} (k : List α) (cls detail : Nat) (part : α → Option Nat) (loc : α → List (LocKind × Nat)) (s : State)
    (h : s.sec.sessions = []) : ∃ l n, k.foldl (fun t e => t.raise cls detail (part e) (loc e) []) s = s.withHistory l n :=
  List.foldlRecOn k _ (motive := fun u : State => ∃ l n, u = s.withHistory l n) ⟨_, _, rfl⟩ (fun u hu e _ => by
    obtain ⟨l, n, rfl⟩ := hu
    obtain ⟨l', n', hr⟩ := State.raise_alone (s := s.withHistory l n) h cls detail (part e) (loc e) []
    exact ⟨l', n', hr⟩)

/-- What a loss of supply of this cause leaves, but for the history. -/
def State.suppliesLost (s : State) (cause : Nat) : State := s.unpowered.updPower (fun x => { x with pendingCause := cause })

theorem goOff_powered {s : State} (h : s.power.state ≠ .off) (cause : Nat) :
    ∃ l n, s.goOff cause = (s.suppliesLost cause).withHistory l n := by
  unfold State.goOff
  rw [if_neg h]
  exact foldl_raise_alone _ _ _ _ _ (s.suppliesLost cause) rfl

theorem goOff_off {s : State} (h : s.power.state = .off) (cause : Nat) : s.goOff cause = s := if_pos h

/-- The module is OFF, and its next BOOT will report this cause; sessions, stack memory, partitions and Squares are gone. -/
def State.supplyGone (u : State) (cause : Nat) : Prop := u.power.state = .off ∧ u.power.pendingCause = cause ∧ u.sec.sessions = [] ∧
  u.dram.cells = [] ∧ u.parts = [] ∧ u.squares = []

theorem goOff_gone {s : State} (h : s.power.state ≠ .off) (cause : Nat) : (s.goOff cause).supplyGone cause := by
  obtain ⟨l, n, he⟩ := goOff_powered h cause
  rw [he]
  exact ⟨rfl, rfl, rfl, rfl, rfl, rfl⟩

theorem goOff_kept {s : State} (h : s.power.state ≠ .off) (cause : Nat) : (s.goOff cause).statusFlags = s.statusFlags ∧
    (s.goOff cause).power.reverseLatch = s.power.reverseLatch := by
  obtain ⟨l, n, he⟩ := goOff_powered h cause
  rw [he]
  exact ⟨rfl, rfl⟩

/-! ### BOOT -/

/-- The power record as a BOOT takes it up: the cause and the supply's flags of its restart. -/
def State.restarts (s : State) : State :=
  let c := s.power.pendingCause
  let cause := if s.power.reverseLatch then 3 else c
  let flags := (if s.power.reverseLatch then 1 else 0) + (if c = 3 then 2 else 0)
  s.updPower (fun x =>
    { x with resetCause := cause, supplyFlags := flags, reverseLatch := false, pendingCause := 0, inputOn := true, inputSince := s.now })

theorem boot_eq (s : State) : s.boot =
    { s.restarts.toPower .boot with slotId := (s.restarts.toPower .boot).slotPins % 8, coordinatorSilent := false } := rfl

theorem toPower_slotPins (s : State) (st : PowerState) : (s.toPower st).slotPins = s.slotPins :=
  State.toPower_keeps ⟨fun _ _ _ => rfl, fun _ _ => rfl, fun _ _ => rfl, fun _ _ _ => rfl, fun _ => rfl, fun _ => rfl⟩ (fun _ _ => rfl) s st

theorem boot_effect (s : State) : SameStores s s.boot ∧ s.boot.power.state = .boot ∧ s.boot.slotId = s.slotPins % 8 ∧
    s.boot.coordinatorSilent = false ∧ s.boot.power.reverseLatch = false ∧
    s.boot.events = withEvent s.events ⟨s.now, 0x90, 7, none, [], []⟩ ∧
    s.boot.power.resetCause = (if s.power.reverseLatch then 3 else s.power.pendingCause) ∧
    s.boot.power.inputVoltage = s.power.inputVoltage := by
  obtain ⟨r, hr⟩ := s.restarts.toPower_power .boot
  have hpow : s.boot.power = { s.restarts.power with state := .boot, rails := r } := hr
  have hst : SameStores s s.boot := SameStores.trans (s := s) (t := s.restarts) ⟨rfl, rfl, rfl⟩ (s.restarts.toPower_stores .boot)
  have hev : s.boot.events = withEvent s.events ⟨s.now, 0x90, 7, none, [], []⟩ := s.restarts.toPower_events .boot
  have hslot : s.boot.slotId = s.slotPins % 8 := congrArg (· % 8) (toPower_slotPins s.restarts .boot)
  refine ⟨hst, ?_, hslot, rfl, ?_, hev, ?_, ?_⟩ <;> rw [hpow] <;> rfl

theorem toPower_sessions {s : State} (h : s.sec.sessions = []) (st : PowerState) : (s.toPower st).sec.sessions = [] ∧
    (s.toPower st).statusFlags = s.statusFlags := by
  obtain ⟨r, hr⟩ := s.toPower_eq st
  obtain ⟨l, n, hl⟩ := State.raise_alone (s := (s.updPower (fun x => { x with state := st })).withRails r) h 0x90 7 none [] []
  rw [hr, hl]
  exact ⟨h, rfl⟩

theorem boot_sessions {s : State} (h : s.sec.sessions = []) : s.boot.sec.sessions = [] ∧ s.boot.statusFlags = s.statusFlags :=
  toPower_sessions (s := s.restarts) h .boot

/-! ### Voltage of the compute domains -/

theorem foldl_setDomain_mv (l : List Nat) (s : State) (mv d : Nat) :
    (l.foldl (fun t k => t.setDomain k mv) s).domainMv d = if d ∈ l then mv else s.domainMv d := by
  induction l generalizing s with
  | nil => rfl
  | cons k l ih =>
    have hk : (s.setDomain k mv).domainMv d = if k = d then mv else s.domainMv d := Tab.get_put ..
    rw [List.foldl_cons, ih, hk]
    by_cases hm : d ∈ l
    · rw [if_pos hm, if_pos (List.mem_cons_of_mem k hm)]
    · rw [if_neg hm]
      by_cases hkd : k = d
      · rw [if_pos hkd, if_pos (by simp [hkd])]
      · rw [if_neg hkd, if_neg (by simp [hm, Ne.symm hkd])]

/-- A power record without the domains' voltages. -/
def Power.untrimmed (x : Power) : Power := { x with domainMv := [] }

/-- The state but for the power record. -/
def State.unfed (s : State) : State := { s with power := {} }

theorem foldl_setDomain_keeps (l : List Nat) (s : State) (mv : Nat) :
    (l.foldl (fun t k => t.setDomain k mv) s).power.untrimmed = s.power.untrimmed ∧
    (l.foldl (fun t k => t.setDomain k mv) s).unfed = s.unfed :=
  ⟨foldl_keeps (fun t => t.power.untrimmed) l s (fun _ _ => rfl), foldl_keeps State.unfed l s (fun _ _ => rfl)⟩

theorem State.unfed_congr {s t : State} (h : t.unfed = s.unfed) : SameStores s t ∧ t.events = s.events ∧ t.now = s.now :=
  ⟨⟨(congrArg State.parts h :), (congrArg State.squares h :), (congrArg State.dram h :)⟩, (congrArg State.events h :),
    (congrArg State.now h :)⟩

/-- The state in which a power limit sets the domains. -/
def State.limits (s : State) (w : Word) : State :=
  (s.updPower (fun x => { x with inputPower := w })).updPower (fun x => { x with limited := true })

theorem execPowerLimit_limits {s : State} {w : Word} (h : s.power.state ≠ .off) (hl : s.power.limited = false)
    (hw : above w 3200 = true) : execPowerLimit w s =
      .next (((List.range 36).foldl (fun t d => t.setDomain d 680) (s.limits w)).raise 0x90 0x03 none [] []) := by
  have hp : s.powered = true := decide_eq_true h
  have hc : ¬ (!(s.updPower (fun x => { x with inputPower := w })).powered ||
      (s.updPower (fun x => { x with inputPower := w })).power.limited || !above w 3200) = true := by
    change ¬ (!s.powered || s.power.limited || !above w 3200) = true
    rw [hp, hl, hw]
    decide
  unfold execPowerLimit
  exact congrArg Host.Outcome.next (if_neg hc)

theorem limits_effect (s : State) (w : Word) (l : List Nat) :
    let u := (l.foldl (fun t d => t.setDomain d 680) (s.limits w)).raise 0x90 0x03 none [] []
    SameStores s u ∧ u.power.limited = true ∧ u.power.inputPower = w ∧ (∀ d ∈ l, u.domainMv d = 680) ∧
    u.events = withEvent s.events ⟨s.now, 0x90, 3, none, [], []⟩ := by
  obtain ⟨hpow, hrest⟩ := foldl_setDomain_keeps l (s.limits w) 680
  have hmv := foldl_setDomain_mv l (s.limits w) 680
  generalize l.foldl (fun t d => t.setDomain d 680) (s.limits w) = v at hpow hrest hmv
  obtain ⟨hst, hev, hnow⟩ := State.unfed_congr hrest
  have hlim : v.power.limited = true := (congrArg Power.limited hpow :)
  have hin : v.power.inputPower = w := (congrArg Power.inputPower hpow :)
  have hst' : SameStores s v := SameStores.trans (s := s) ⟨rfl, rfl, rfl⟩ hst
  refine ⟨hst'.trans (State.raise_stores ..), by rw [State.raise_power, hlim], by rw [State.raise_power, hin], fun d hd => ?_, ?_⟩
  · rw [State.domainMv, State.raise_power]
    exact (hmv d).trans (if_pos hd)
  · rw [State.raise_events, hev, hnow]
    rfl

/-! ### SAFE and the rails -/

/-- A rail that shut down by itself stays so (Table PWR-2). -/
theorem railsFrom_short (lo hi v : Nat) {t : Tab Nat} {k : Nat} (h : Tab.get 0 t k = 2) : Tab.get 0 (railsFrom lo hi v t) k = 2 := by
  unfold railsFrom
  refine List.foldlRecOn _ _ (motive := fun u : Tab Nat => Tab.get 0 u k = 2) h (fun u hu i _ => ?_)
  split
  · exact hu
  next hi =>
    have hne : lo + i ≠ k := fun he => hi (by rw [he]; exact hu)
    rw [Tab.get_put, if_neg hne]
    exact hu

/-- The state in which the module goes into SAFE: its links are down. -/
def State.unlinksAll (s : State) : State := s.linksDown.updAslet (fun a => { a with state := 0, tunnel := false })

theorem State.unlinksAll_stores (s : State) : SameStores s s.unlinksAll := ⟨rfl, rfl, rfl⟩

theorem State.setFlag_stores (s : State) (b : Nat) : SameStores s (s.setFlag b) := ⟨rfl, rfl, rfl⟩

theorem enterSafe_enters {s : State} (h : ¬ (s.power.state = .off ∨ s.power.state = .safe)) :
    s.enterSafe = ((s.unlinksAll.toPower .safe).raise 0x90 0x09 none [] []).setFlag 1 := if_neg h

theorem toPower_safe_power (s : State) :
    (s.toPower .safe).power = { s.power with state := .safe, rails := railsFrom 0 22 0 s.power.rails } := State.raise_power ..

/-- SAFE changes the state and the rails of the power record, and no store. -/
theorem enterSafe_effect {s : State} (h : s.power.state ≠ .off) : s.enterSafe.power.state = .safe ∧
    s.enterSafe.power.supplyFlags = s.power.supplyFlags ∧ (∀ k, Tab.get 0 s.power.rails k = 2 → Tab.get 0 s.enterSafe.power.rails k = 2) ∧
    SameStores s s.enterSafe := by
  by_cases hs : s.power.state = .safe
  · have he : s.enterSafe = s := if_pos (.inr hs)
    rw [he]
    exact ⟨hs, rfl, fun _ h => h, SameStores.refl s⟩
  · have hpow : s.enterSafe.power = { s.power with state := .safe, rails := railsFrom 0 22 0 s.power.rails } := by
      rw [enterSafe_enters (not_or.mpr ⟨h, hs⟩), State.setFlag_power, State.raise_power]
      exact toPower_safe_power s.unlinksAll
    have hst : SameStores s s.enterSafe := by
      rw [enterSafe_enters (not_or.mpr ⟨h, hs⟩)]
      exact ((s.unlinksAll_stores.trans (s.unlinksAll.toPower_stores .safe)).trans (State.raise_stores ..)).trans (State.setFlag_stores ..)
    have hrails : ∀ k, Tab.get 0 s.power.rails k = 2 → Tab.get 0 (railsFrom 0 22 0 s.power.rails) k = 2 := fun k hk =>
      railsFrom_short 0 22 0 hk
    generalize railsFrom 0 22 0 s.power.rails = r at hpow hrails
    rw [hpow]
    exact ⟨rfl, rfl, hrails, hst⟩

theorem testBit_flagged (v b : Nat) : (v ||| 1 <<< b).testBit b = true := by
  simp [Nat.testBit_or, Nat.testBit_shiftLeft]

/-! ### The rows of Table PWR-1 -/

/-- The over-voltage seen, and its reading. -/
def State.seesOver (s : State) (v : Word) : State := (s.updPower (fun x => { x with inputVoltage := v })).flagSupply 1

theorem execInputOvervoltage_over {s : State} {v : Word} (h : s.power.state ≠ .off) (hv : above v 58 = true) (lasted : Nat) :
    execInputOvervoltage v lasted s = .next (if !above v 60 then (s.seesOver v).raise 0x90 0x02 none [] []
      else if lasted ≤ 100000 then s.seesOver v else (s.seesOver v).goOff 3) := by
  have hp : s.powered = true := decide_eq_true h
  unfold execInputOvervoltage
  exact congrArg Host.Outcome.next (if_neg (by rw [hp, hv]; decide))

/-- A rail that has shut down on short, with its flag and event. -/
def State.railShort (s : State) (rail : Nat) : State :=
  ((s.updPower (fun x => { x with rails := Tab.put x.rails rail 2 })).flagSupply 2).raise 0x90 0x04 none [(.rail, rail)] []

theorem execRailShutdown_powered {s : State} {rail : Nat} (hr : rail < 24) (h : s.power.state ≠ .off) : execRailShutdown rail s =
    .next (if rail ≤ 21 then (s.railShort rail).enterSafe else if rail = 22 then (s.railShort rail).goOff 2 else s.railShort rail) := by
  have hp : s.powered = true := decide_eq_true h
  exact (onUnit_next (decide_eq_true hr) _).trans (congrArg Host.Outcome.next (if_neg (by rw [hp]; decide)))

theorem railShort_effect (s : State) (rail : Nat) : SameStores s (s.railShort rail) ∧ (s.railShort rail).power.state = s.power.state ∧
    Tab.get 0 (s.railShort rail).power.rails rail = 2 ∧ (s.railShort rail).power.supplyFlags.testBit 2 = true ∧
    (s.railShort rail).events = withEvent s.events ⟨s.now, 0x90, 4, none, [(.rail, rail)], []⟩ := by
  have hpow : (s.railShort rail).power =
      { s.power with rails := Tab.put s.power.rails rail 2, supplyFlags := s.power.supplyFlags ||| 1 <<< 2 } := State.raise_power ..
  refine ⟨SameStores.trans (t := (s.updPower (fun x => { x with rails := Tab.put x.rails rail 2 })).flagSupply 2) ⟨rfl, rfl, rfl⟩
    (State.raise_stores ..), by rw [hpow], ?_, ?_, State.raise_events ..⟩
  · rw [hpow]
    exact Tab.get_put_same ..
  · rw [hpow]
    exact testBit_flagged _ 2

theorem execAonBrownout_powered {s : State} (h : s.power.state ≠ .off) : execAonBrownout s = .next (((s.goOff 1).boot).setFlag 2) :=
  congrArg Host.Outcome.next (if_pos (decide_eq_true h))

/-- Settles O57: each row is the reading kept, then the flags and the event, then BOOT, SAFE or OFF. -/
theorem supplyEvents : Obligations.SupplyEvents := by
  intro s told off lost keeps
  refine ⟨fun v => ?_, fun hon => ?_, fun hon => ?_, fun v lasted hon hv => ?_, ?_, fun w hon hl hw => ?_, fun w => ?_, fun rail hr hon => ?_,
    fun hon => ?_⟩
  · by_cases hc : s.power.state = .off ∧ atLeast v 44 = true ∧ above v 60 = false
    · obtain ⟨hoff, h44, h60⟩ := hc
      have hrun : exec (.inputValid v) s = .next (s.updPower (fun x => { x with inputVoltage := v })).boot := by
        have hp : s.powered = false := decide_eq_false (not_not_intro hoff)
        change execInputValid v s = _
        unfold execInputValid
        exact congrArg Host.Outcome.next (if_pos (by rw [hp, h44, h60]; rfl))
      obtain ⟨h1, h2, h3, h4, h5, h6, -, h7⟩ := boot_effect (s.updPower (fun x => { x with inputVoltage := v }))
      exact ⟨_, hrun, h1, h7, fun _ _ _ => ⟨h2, h3, h4, h5, h6⟩, fun hn => absurd hoff hn⟩
    · have hrun : exec (.inputValid v) s = .next (s.updPower (fun x => { x with inputVoltage := v })) := by
        change execInputValid v s = _
        unfold execInputValid
        exact congrArg Host.Outcome.next (if_neg (by simpa [State.powered, and_assoc] using hc))
      exact ⟨_, hrun, ⟨rfl, rfl, rfl⟩, rfl, fun h1 h2 h3 => absurd ⟨h1, h2, h3⟩ hc, fun _ => ⟨rfl, rfl⟩⟩
  · refine ⟨_, congrArg Host.Outcome.next (if_pos (decide_eq_true hon)), State.raise_stores .., State.raise_power .., State.raise_events ..⟩
  · exact ⟨_, rfl, goOff_gone hon 2, (goOff_kept hon 2).1⟩
  · refine ⟨_, execInputOvervoltage_over hon hv lasted, fun h60 => ?_, fun h60 hlast => ?_, fun h60 hlast => ?_⟩
    · rw [if_pos (by rw [h60]; rfl)]
      refine ⟨SameStores.trans (t := s.seesOver v) ⟨rfl, rfl, rfl⟩ (State.raise_stores ..), ?_, ?_, State.raise_events ..⟩
      · rw [State.raise_power]
        rfl
      · rw [State.raise_power]
        exact testBit_flagged _ 1
    · rw [if_neg (by rw [h60]; decide), if_pos hlast]
      exact ⟨⟨rfl, rfl, rfl⟩, rfl, testBit_flagged _ 1⟩
    · rw [if_neg (by rw [h60]; decide), if_neg (Nat.not_le.mpr hlast)]
      exact goOff_gone (s := s.seesOver v) hon 3
  · refine ⟨_, rfl, ?_⟩
    by_cases hoff : s.power.state = .off
    · rw [goOff_off (s := s.updPower (fun x => { x with reverseLatch := true })) hoff]
      exact ⟨hoff, rfl⟩
    · obtain ⟨h1, -⟩ := goOff_gone (s := s.updPower (fun x => { x with reverseLatch := true })) hoff 2
      exact ⟨h1, (goOff_kept (s := s.updPower (fun x => { x with reverseLatch := true })) hoff 2).2⟩
  · obtain ⟨h1, h2, h3, h4, h5⟩ := limits_effect s w (List.range 36)
    exact ⟨_, execPowerLimit_limits hon hl hw, h1, h2, h3, fun d hd => h4 d (List.mem_range.mpr hd), h5⟩
  · refine ⟨_, rfl, ?_⟩
    split
    · exact ⟨⟨rfl, rfl, rfl⟩, rfl, rfl⟩
    · exact ⟨⟨rfl, rfl, rfl⟩, rfl, rfl⟩
  · obtain ⟨h1, h2, h3, h4, h5⟩ := railShort_effect s rail
    have hon' : (s.railShort rail).power.state ≠ .off := fun he => hon (h2.symm.trans he)
    refine ⟨_, execRailShutdown_powered hr hon, fun h21 => ?_, fun h22 => ?_, fun h23 => ?_⟩
    · rw [if_pos h21]
      obtain ⟨e1, e2, e3, e4⟩ := enterSafe_effect hon'
      exact ⟨h1.trans e4, e1, e3 rail h3, e2 ▸ h4⟩
    · rw [if_neg (by omega), if_pos h22]
      exact goOff_gone hon' 2
    · rw [if_neg (by omega), if_neg (by omega)]
      exact ⟨h1, h2, h3, h5⟩
  · obtain ⟨-, hcause, hsess, -, hparts, hsq⟩ := goOff_gone hon 1
    obtain ⟨hflags, hlatch⟩ := goOff_kept hon 1
    obtain ⟨⟨b1, b2, -⟩, b3, -, -, -, -, b4, -⟩ := boot_effect (s.goOff 1)
    obtain ⟨b5, b6⟩ := boot_sessions hsess
    refine ⟨_, execAonBrownout_powered hon, b3, ?_, b1.trans hparts, b2.trans hsq, b5, ?_⟩
    · exact congrArg (fun n => n ||| 4) (b6.trans hflags)
    · rw [State.setFlag_power, b4, hlatch, hcause]

end Sys2Proof.Machine
end

section
/-!
PROOFS. Temperature samples and the coolant (R458 to R464).
-/

namespace Sys2Proof.Machine

open Sys2Proof

/-! ### The level of a zone -/

/-- What the actions of a level leave: Squares, stacks, temperatures, and the power record but for the domains' voltages. -/
def State.site (s : State) : Tab Square × Dram × Thermal × Power := (s.squares, s.dram, s.thermal, s.power.untrimmed)

theorem keptByHolds_site (p : Nat) : KeptByHolds State.site p :=
  ⟨⟨fun _ _ _ => rfl, fun _ _ => rfl, fun _ _ => rfl, fun _ _ _ => rfl, fun _ => rfl, fun _ => rfl⟩, fun _ _ _ => rfl, fun _ _ _ => rfl⟩

theorem State.site_congr {s t : State} (h : t.site = s.site) : t.squares = s.squares ∧ t.dram = s.dram ∧ t.thermal = s.thermal ∧
    t.power.state = s.power.state :=
  ⟨(congrArg (fun x => x.1) h :), (congrArg (fun x => x.2.1) h :), (congrArg (fun x => x.2.2.1) h :),
    (congrArg (fun x => Power.state x.2.2.2) h :)⟩

theorem foldl_setDomain_site (l : List Nat) (s : State) (mv : Nat) : (l.foldl (fun t d => t.setDomain d mv) s).site = s.site :=
  foldl_keeps State.site l s (fun _ _ => rfl)

/-- The actions of a level set voltages and Holds, and nothing of the site. -/
theorem levelActions_site (s : State) (z old new : Nat) : (s.levelActions z old new).site = s.site := by
  have hdomains : (if old < 2 ∧ 2 ≤ new then (zoneDomains z).foldl (fun t d => t.setDomain d 680) s else s).site = s.site := by
    split
    · exact foldl_setDomain_site ..
    · rfl
  have hhold : ∀ t : State, (if old < 3 ∧ new = 3 then t.holdModule 0x01 else t).site = t.site := fun t => by
    split
    · exact State.holdModule_keeps keptByHolds_site ..
    · rfl
  unfold State.levelActions
  dsimp only
  generalize (if old < 2 ∧ 2 ≤ new then (zoneDomains z).foldl (fun t d => t.setDomain d 680) s else s) = t at hdomains
  have ht := (hhold t).trans hdomains
  generalize (if old < 3 ∧ new = 3 then t.holdModule 0x01 else t) = u at ht
  split
  · exact (State.releaseModule_keeps keptByHolds_site ..).trans ht
  · exact ht

/-! ### A reading is judged -/

/-- The state in which a zone has taken its new level. -/
def State.leveled (s : State) (z new : Nat) (reading : Word) : State :=
  (s.updThermal (fun x => { x with level := Tab.put x.level z new, changes := satAdd x.changes 1 })).raise 0x60 new none [(.zone, z)]
    [reading.toNat]

theorem judgeZone_limit {s : State} {z : Nat} {reading : Word} (h : atLeast reading ((zoneThresholds z).getD 3 0) = true) :
    s.judgeZone z reading = (s.raise 0x60 0x04 none [(.zone, z)] [reading.toNat]).enterSafe := if_pos h

theorem judgeZone_same {s : State} {z : Nat} {reading : Word} (h : atLeast reading ((zoneThresholds z).getD 3 0) = false)
    (hn : newLevel z (s.zoneLevel z) reading = s.zoneLevel z) : s.judgeZone z reading = s := by
  unfold State.judgeZone
  rw [if_neg (by rw [h]; decide)]
  exact if_pos hn

theorem judgeZone_moves {s : State} {z : Nat} {reading : Word} (h : atLeast reading ((zoneThresholds z).getD 3 0) = false)
    (hn : newLevel z (s.zoneLevel z) reading ≠ s.zoneLevel z) : s.judgeZone z reading =
      (s.leveled z (newLevel z (s.zoneLevel z) reading) reading).levelActions z (s.zoneLevel z) (newLevel z (s.zoneLevel z) reading) := by
  unfold State.judgeZone
  rw [if_neg (by rw [h]; decide)]
  exact if_neg hn

theorem leveled_effect (s : State) (z new : Nat) (reading : Word) :
    let u := s.leveled z new reading
    u.squares = s.squares ∧ u.dram = s.dram ∧ u.power = s.power ∧ u.thermal.junction = s.thermal.junction ∧ u.zoneLevel z = new ∧
    ∀ k, k ≠ z → u.zoneLevel k = s.zoneLevel k := by
  intro u
  have hth : u.thermal = { s.thermal with level := Tab.put s.thermal.level z new, changes := satAdd s.thermal.changes 1 } :=
    State.raise_thermal ..
  have hl : ∀ k, u.zoneLevel k = if z = k then new else s.zoneLevel k := fun k => by
    rw [State.zoneLevel, hth]
    exact Tab.get_put ..
  refine ⟨State.raise_squares .., State.raise_dram .., State.raise_power .., by rw [hth], (hl z).trans (if_pos rfl), fun k hk => ?_⟩
  exact (hl k).trans (if_neg hk.symm)

/-- What a zone's reading does to the module, and that it keeps Squares, stacks and the junction readings. -/
structure ZoneJudged (s u : State) (z : Nat) (reading : Word) : Prop where
  limit : atLeast reading ((zoneThresholds z).getD 3 0) = true → u.power.state = .safe ∧ u.zoneLevel z = s.zoneLevel z
  level : atLeast reading ((zoneThresholds z).getD 3 0) = false → u.zoneLevel z = newLevel z (s.zoneLevel z) reading ∧
    u.power.state = s.power.state ∧
    (newLevel z (s.zoneLevel z) reading = s.zoneLevel z → u.events = s.events ∧ u.parts = s.parts)
  other : ∀ k, k ≠ z → u.zoneLevel k = s.zoneLevel k
  squares : u.squares = s.squares
  dram : u.dram = s.dram
  junction : u.thermal.junction = s.thermal.junction

theorem State.zoneLevel_congr {s t : State} (h : t.thermal = s.thermal) (z : Nat) : t.zoneLevel z = s.zoneLevel z :=
  congrArg (fun x => Tab.get 0 (Thermal.level x) z) h

theorem enterSafe_thermal (s : State) : s.enterSafe.thermal = s.thermal := by
  unfold State.enterSafe
  split
  · rfl
  · have h : (s.unlinksAll.toPower .safe).thermal = s.thermal := State.toPower_keeps
      ⟨fun _ _ _ => rfl, fun _ _ => rfl, fun _ _ => rfl, fun _ _ _ => rfl, fun _ => rfl, fun _ => rfl⟩ (fun _ _ => rfl) s.unlinksAll .safe
    dsimp only
    rw [State.setFlag_thermal, State.raise_thermal]
    exact h

theorem judgeZone_judged {s : State} (hon : s.power.state ≠ .off) (z : Nat) (reading : Word) :
    ZoneJudged s (s.judgeZone z reading) z reading := by
  cases hlim : atLeast reading ((zoneThresholds z).getD 3 0)
  case true =>
    rw [judgeZone_limit hlim]
    have hth := enterSafe_thermal (s.raise 0x60 0x04 none [(.zone, z)] [reading.toNat])
    rw [State.raise_thermal] at hth
    obtain ⟨hst, -, -, -, hsq, hd⟩ := enterSafe_effect (s := s.raise 0x60 0x04 none [(.zone, z)] [reading.toNat])
      (by rw [State.raise_power]; exact hon)
    exact ⟨fun _ => ⟨hst, State.zoneLevel_congr hth z⟩, fun h => absurd (hlim.symm.trans h) (by decide),
      fun k _ => State.zoneLevel_congr hth k, hsq.trans (State.raise_squares ..), hd.trans (State.raise_dram ..), congrArg Thermal.junction hth⟩
  case false =>
    have hno : ∀ P : Prop, atLeast reading ((zoneThresholds z).getD 3 0) = true → P := fun P h =>
      absurd (hlim.symm.trans h) (by decide)
    by_cases hn : newLevel z (s.zoneLevel z) reading = s.zoneLevel z
    · rw [judgeZone_same hlim hn]
      exact ⟨hno _, fun _ => ⟨hn.symm, rfl, fun _ => ⟨rfl, rfl⟩⟩, fun _ _ => rfl, rfl, rfl, rfl⟩
    · rw [judgeZone_moves hlim hn]
      obtain ⟨l1, l2, l3, l4, l5, l6⟩ := leveled_effect s z (newLevel z (s.zoneLevel z) reading) reading
      obtain ⟨a1, a2, a3, a4⟩ := State.site_congr (levelActions_site (s.leveled z (newLevel z (s.zoneLevel z) reading) reading) z
        (s.zoneLevel z) (newLevel z (s.zoneLevel z) reading))
      exact ⟨hno _, fun _ => ⟨(State.zoneLevel_congr a3 z).trans l5, a4.trans (congrArg Power.state l3), fun h => absurd h hn⟩,
        fun k hk => (State.zoneLevel_congr a3 k).trans (l6 k hk), a1.trans l1, a2.trans l2, (congrArg Thermal.junction a3).trans l4⟩

/-! ### The coolant -/

/-- The readings that an estimate of the coolant's flow starts from. -/
def State.flowRead (s : State) (outlet power : Word) : State :=
  (s.updThermal (fun x => { x with outlet := outlet })).updPower (fun x => { x with inputPower := power })

/-- A flag of the coolant is set, and its event raised. -/
def State.coolantTold (s : State) (flag detail : Nat) : State :=
  (s.updThermal (fun x => { x with coolantFlags := x.coolantFlags ||| flag })).raise 0x90 detail none [] []

theorem coolantTold_effect (s : State) (flag detail : Nat) : SameStores s (s.coolantTold flag detail) ∧
    (s.coolantTold flag detail).thermal = { s.thermal with coolantFlags := s.thermal.coolantFlags ||| flag } ∧
    (s.coolantTold flag detail).power = s.power ∧
    (s.coolantTold flag detail).events = withEvent s.events ⟨s.now, 0x90, detail, none, [], []⟩ :=
  ⟨SameStores.trans (s := s) ⟨rfl, rfl, rfl⟩ (State.raise_stores ..), State.raise_thermal .., State.raise_power .., State.raise_events ..⟩

theorem execCoolantInletHigh_powered {s : State} (h : s.power.state ≠ .off) (reading : Word) : execCoolantInletHigh reading s =
    .next (if above reading 40 then (s.updThermal (fun x => { x with inlet := reading })).coolantTold 1 0x0A
      else s.updThermal (fun x => { x with inlet := reading })) := by
  have hp : s.powered = true := decide_eq_true h
  unfold execCoolantInletHigh
  rw [hp]
  rfl

theorem execCoolantFlowLow_powered {s : State} (h : s.power.state ≠ .off) (outlet power : Word) : execCoolantFlowLow outlet power s =
    .next (if !(dec32 (s.flowRead outlet power).flowEstimate.toNat).isZero &&
        (dec32 (s.flowRead outlet power).flowEstimate.toNat).lt ((valNat 7).div (valNat 2)) then
      (s.flowRead outlet power).coolantTold 2 0x0B else s.flowRead outlet power) := by
  have hp : s.powered = true := decide_eq_true h
  unfold execCoolantFlowLow
  rw [hp]
  rfl

/-- Settles O58: a sample is kept and its zone judged; the coolant's reading is kept and, where it is bad, flagged and told. -/
theorem temperatureSamples : Obligations.TemperatureSamples := by
  intro s reading power judged told keeps
  refine ⟨fun st hst hon => ?_, fun die hdie hon => ?_, fun hon => ?_, fun hon => ?_⟩
  · have hne : s.power.state ≠ .off := fun h => by
      rw [h] at hon
      simp at hon
    have hrun : exec (.stackTemperatureSample st reading) s =
        .next ((s.updStack st (fun x => { x with temperature := reading })).judgeZone st reading) :=
      (onUnit_next (decide_eq_true hst) _).trans (congrArg Host.Outcome.next (if_pos hon))
    have hj := judgeZone_judged (s := s.updStack st (fun x => { x with temperature := reading })) hne st reading
    refine ⟨_, hrun, ?_, hj.limit, hj.level, hj.other, hj.squares, (congrArg Dram.cells hj.dram :)⟩
    rw [State.stack_congr hj.dram, State.stack_updStack_same]
  · have hne : s.power.state ≠ .off := fun h => nomatch hon.symm.trans h
    have hrun : exec (.junctionTemperatureSample die reading) s =
        .next ((s.updThermal (fun x => { x with junction := Tab.put x.junction die reading })).judgeZone (32 + die) reading) :=
      (onUnit_next (decide_eq_true hdie) _).trans (congrArg Host.Outcome.next (if_pos hon))
    have hj := judgeZone_judged (s := s.updThermal (fun x => { x with junction := Tab.put x.junction die reading })) hne (32 + die) reading
    refine ⟨_, hrun, ?_, hj.limit, hj.level, hj.other, hj.squares, congrArg Dram.cells hj.dram⟩
    rw [hj.junction]
    exact Tab.get_put_same ..
  · refine ⟨_, execCoolantInletHigh_powered hon reading, ?_⟩
    obtain ⟨h1, h2, -, h3⟩ := coolantTold_effect (s.updThermal (fun x => { x with inlet := reading })) 1 0x0A
    split
    next hab =>
      refine ⟨SameStores.trans (s := s) ⟨rfl, rfl, rfl⟩ h1, by rw [h2]; rfl, fun _ => ⟨by rw [h2]; rfl, h3⟩, fun hn => ?_⟩
      exact absurd (hab.symm.trans hn) (by decide)
    next hab => exact ⟨⟨rfl, rfl, rfl⟩, rfl, fun hn => absurd hn hab, fun _ => ⟨rfl, rfl⟩⟩
  · refine ⟨_, execCoolantFlowLow_powered hon reading power, ?_⟩
    obtain ⟨h1, h2, h3, h4⟩ := coolantTold_effect (s.flowRead reading power) 2 0x0B
    split
    next hlow =>
      rw [Bool.and_eq_true, Bool.not_eq_true'] at hlow
      obtain ⟨hz, hl⟩ := hlow
      refine ⟨SameStores.trans (s := s) ⟨rfl, rfl, rfl⟩ h1, by rw [h2]; rfl, h3, fun _ _ => ⟨by rw [h2]; rfl, h4⟩, fun hn => ?_⟩
      exact hn.elim (fun h => absurd (hz.symm.trans h) (by decide)) (fun h => absurd (hl.symm.trans h) (by decide))
    next hlow =>
      refine ⟨⟨rfl, rfl, rfl⟩, rfl, rfl, fun hz hl => absurd ?_ hlow, fun _ => ⟨rfl, rfl⟩⟩
      rw [Bool.and_eq_true, Bool.not_eq_true']
      exact ⟨hz, hl⟩

end Sys2Proof.Machine
end

section
/-!
PROOFS. Start-up from a firmware image (R467, R468), the self-test (R470, R471), and the array test and repair (R193 to R195).
-/

namespace Sys2Proof.Machine

open Sys2Proof

/-! ### Firmware images -/

theorem State.image_putImage (s : State) (n k : Nat) (x : Image) : (s.putImage n x).image k = if n = k then x else s.image k := by
  unfold State.image State.putImage State.updService
  dsimp only
  rw [Tab.get_put]

theorem State.image_markImage_same (s : State) (n k : Nat) : (s.markImage n k).image n = { s.image n with state := k } :=
  (State.image_putImage ..).trans (if_pos rfl)

theorem State.image_markImage_other (s : State) {n m : Nat} (h : n ≠ m) (k : Nat) : (s.markImage n k).image m = s.image m :=
  (State.image_putImage ..).trans (if_neg h)

theorem State.image_congr {s t : State} (h : t.service.images = s.service.images) (k : Nat) : t.image k = s.image k :=
  congrArg (fun l => Tab.get (madeImage k) l k) h

/-! ### READY -/

/-- What READY keeps of the state that takes an image: partitions, Squares, the service record, the attestation key's generation. -/
def State.started (s : State) : Tab Partition × Tab Square × Service × Nat := (s.parts, s.squares, s.service, s.sec.aliasGeneration)

theorem keptByFrames_started : KeptByFrames State.started :=
  ⟨fun _ _ _ => rfl, fun _ _ => rfl, fun _ _ => rfl, fun _ _ _ => rfl, fun _ => rfl, fun _ => rfl⟩

theorem State.started_congr {s t : State} (h : t.started = s.started) : t.parts = s.parts ∧ t.squares = s.squares ∧
    t.service = s.service ∧ t.sec.aliasGeneration = s.sec.aliasGeneration :=
  ⟨(congrArg (fun x => x.1) h :), (congrArg (fun x => x.2.1) h :), (congrArg (fun x => x.2.2.1) h :), (congrArg (fun x => x.2.2.2) h :)⟩

/-- The state that has taken the image of slot n, before the power state changes. -/
def State.takesImage (s : State) (n : Nat) : State :=
  let x := s.image n
  let old := s.image (1 - n)
  let s1 := (s.markImage n 2).updService (fun v =>
    { v with active := n, bootMeasurement := Config.stageMeasurement x.measurement, fwMeasurement := x.measurement
             stagedMeasurement := if old.state = 3 then old.measurement else 0, maxima := x.maxima })
  (s1.updSec (fun c => { c with aliasGeneration := c.aliasGeneration + 1 })).updPower (fun p => { p with memTraining := true })

/-- The links of a state train at full rate. -/
def State.trainsAll (s : State) : State := (s.trainLinks 0 96).updAslet (fun a => { a with state := 1 })

theorem foldl_updLink_started (l : List Nat) (s : State) (k : Nat → Nat) (f : Link → Link) :
    (l.foldl (fun t i => t.updLink (k i) f) s).started = s.started := foldl_keeps State.started l s (fun _ _ => rfl)

theorem trainsAll_keeps (s : State) : s.trainsAll.power = s.power ∧ s.trainsAll.started = s.started := by
  have hall : ∀ u : State, (u.updAslet (fun a => { a with state := 1 })).power = u.power ∧
      (u.updAslet (fun a => { a with state := 1 })).started = u.started := fun u => ⟨rfl, rfl⟩
  obtain ⟨h1, h2⟩ := hall (s.trainLinks 0 96)
  exact ⟨h1.trans (trainLinks_keeps s 0 96).1, h2.trans (foldl_updLink_started _ s (fun i => 0 + i) _)⟩

theorem ready_eq (s : State) (n : Nat) : s.ready n =
    if s.power.resetCause = 1 then ((s.takesImage n).toPower .ready).trainsAll.raise 0x90 0x05 none [] []
    else if 2 ≤ s.power.resetCause then ((s.takesImage n).toPower .ready).trainsAll.raise 0x90 0x06 none [] []
    else ((s.takesImage n).toPower .ready).trainsAll := rfl

theorem ready_keeps (s : State) (n : Nat) : (s.ready n).power = ((s.takesImage n).toPower .ready).power ∧
    (s.ready n).started = (s.takesImage n).started := by
  have hto : ((s.takesImage n).toPower .ready).started = (s.takesImage n).started :=
    State.toPower_keeps keptByFrames_started (fun _ _ => rfl) (s.takesImage n) .ready
  obtain ⟨h1, h2⟩ := trainsAll_keeps ((s.takesImage n).toPower .ready)
  have hraise : ∀ d, ((((s.takesImage n).toPower .ready).trainsAll).raise 0x90 d none [] []).started = (s.takesImage n).started := fun d =>
    (keptByFrames_started.raise ..).trans (h2.trans hto)
  rw [ready_eq]
  split_ifs
  · exact ⟨(State.raise_power ..).trans h1, hraise _⟩
  · exact ⟨(State.raise_power ..).trans h1, hraise _⟩
  · exact ⟨h1, h2.trans hto⟩

theorem takesImage_image (s : State) (n k : Nat) : (s.takesImage n).image k = (s.markImage n 2).image k := rfl

/-- READY from slot n: the state and the training, the slot and its measurement, a new attestation key; partitions and Squares stand. -/
theorem ready_effect (s : State) (n : Nat) : (s.ready n).power.state = .ready ∧ (s.ready n).power.memTraining = true ∧
    (s.ready n).service.active = n ∧ (s.ready n).service.fwMeasurement = (s.image n).measurement ∧
    (s.ready n).sec.aliasGeneration = s.sec.aliasGeneration + 1 ∧ (s.ready n).parts = s.parts ∧ (s.ready n).squares = s.squares ∧
    ∀ k, n ≠ k → (s.ready n).image k = s.image k := by
  obtain ⟨hp, hrest⟩ := ready_keeps s n
  obtain ⟨r, hr⟩ := (s.takesImage n).toPower_power .ready
  obtain ⟨h1, h2, h3, h4⟩ := State.started_congr hrest
  have hpow := hp.trans hr
  refine ⟨(congrArg Power.state hpow :), (congrArg Power.memTraining hpow :), (congrArg Service.active h3 :),
    (congrArg Service.fwMeasurement h3 :), h4, h1, h2, fun k hk => ?_⟩
  rw [State.image_congr (congrArg Service.images h3), takesImage_image, State.image_markImage_other s hk]

theorem enterSafe_service (s : State) : s.enterSafe.service = s.service := by
  by_cases h : s.power.state = .off ∨ s.power.state = .safe
  · exact congrArg State.service (if_pos h)
  · rw [enterSafe_enters h, State.setFlag_service, State.raise_service]
    exact State.toPower_keeps keptByFrames_service (fun _ _ => rfl) s.unlinksAll .safe

/-- What the verification of the images leaves: of the active slot n, and of the other one. -/
def State.verified (s : State) (n : Nat) (pass other : Bool) : State :=
  if pass then s.ready n
  else if other then (s.markImage n 4).ready (1 - n)
  else ((s.markImage n 4).markImage (1 - n) 4).enterSafe

theorem execFirmwareVerified_boot {s : State} (h : s.power.state = .boot) (a b : Bool) : execFirmwareVerified a b s =
    .next (s.verified s.service.active (if s.service.active = 0 then a else b) (if 1 - s.service.active = 0 then a else b)) :=
  congrArg Host.Outcome.next (if_neg (not_not_intro h))

theorem verified_other {s : State} {n : Nat} (hn : n ≤ 1) : let u := s.verified n false true
    u.parts = s.parts ∧ u.squares = s.squares ∧ u.power.state = .ready ∧ u.service.active = 1 - n ∧ (u.image n).state = 4 := by
  intro u
  have hne : 1 - n ≠ n := by omega
  have hu : u = (s.markImage n 4).ready (1 - n) := rfl
  obtain ⟨h1, -, h3, -, -, h6, h7, h8⟩ := ready_effect (s.markImage n 4) (1 - n)
  rw [hu, h8 n hne, State.image_markImage_same]
  exact ⟨h6, h7, h1, h3, rfl⟩

theorem verified_none {s : State} {n : Nat} (hn : n ≤ 1) (hon : s.power.state ≠ .off) : let u := s.verified n false false
    u.parts = s.parts ∧ u.squares = s.squares ∧ u.power.state = .safe ∧ (u.image n).state = 4 ∧ (u.image (1 - n)).state = 4 := by
  intro u
  have hne : 1 - n ≠ n := by omega
  have hu : u = ((s.markImage n 4).markImage (1 - n) 4).enterSafe := rfl
  obtain ⟨h1, -, -, h2, h3, -⟩ := enterSafe_effect (s := (s.markImage n 4).markImage (1 - n) 4) hon
  have himg := State.image_congr (congrArg Service.images (enterSafe_service ((s.markImage n 4).markImage (1 - n) 4)))
  rw [hu, himg, himg, State.image_markImage_other _ hne, State.image_markImage_same, State.image_markImage_same]
  exact ⟨h2, h3, h1, rfl, rfl⟩

/-! ### The self-test -/

/-- What a test of the Squares leaves: partitions, power, and whose each Square is. -/
def State.tested (s : State) : Tab Partition × Power × (Nat → Option Nat) := (s.parts, s.power, fun k => (s.sq k).owner)

theorem noteTested_tested (s : State) (q bits : Nat) : (s.noteTested q bits).tested = s.tested := by
  unfold State.noteTested
  split <;> rfl

theorem updSq_owner (s : State) (q : Nat) {f : Square → Square} (hf : ∀ x, (f x).owner = x.owner) (k : Nat) :
    ((s.updSq q f).sq k).owner = (s.sq k).owner := by
  rw [State.sq_updSq]
  split
  next h => rw [hf, h]
  next => rfl

theorem placeFailed_tested (s : State) (q : Nat) : (s.placeFailed q).tested = s.tested := by
  have hsq : (fun k => ((s.updSq q (fun x => { x with carrier := some (reserveOf q) })).sq k).owner) = fun k => (s.sq k).owner :=
    funext (updSq_owner s q (fun _ => rfl))
  unfold State.placeFailed
  split
  · exact congrArg (fun o => (s.parts, s.power, o)) hsq
  · rfl

/-- A Square that a test has cleared. -/
def Square.untested (x : Square) : Square := { x.cleared with recs := [], segs := [] }

theorem clearTested_sq (s : State) (q k : Nat) : (s.clearTested q).sq k = if q = k then (s.sq q).untested else s.sq k := by
  unfold State.clearTested State.clearSquare
  rw [State.sq_updSq, State.sq_updSq, State.sq_updSq, if_pos rfl]
  split <;> rfl

/-- A step that changes one Square each, done for each Square of a list once. -/
theorem foldl_sq {F : State → Nat → State} {f : Square → Square} (hF : ∀ t q k, (F t q).sq k = if q = k then f (t.sq q) else t.sq k)
    {l : List Nat} (hl : l.Nodup) (s : State) (k : Nat) : (l.foldl F s).sq k = if k ∈ l then f (s.sq k) else s.sq k := by
  induction l generalizing s with
  | nil => rfl
  | cons q l ih =>
    obtain ⟨hq, hl⟩ := List.nodup_cons.1 hl
    rw [List.foldl_cons, ih hl, hF]
    by_cases h : q = k
    · subst h
      rw [if_neg hq, if_pos rfl, if_pos (by simp)]
    · rw [if_neg h]
      exact if_congr (by simp [Ne.symm h]) rfl rfl

/-- The Squares as a self-test's findings leave them, before they are cleared. -/
def State.judgesTest (s : State) (failures : List (Nat × Nat)) (all named : List Nat) : State :=
  named.foldl (fun t q => t.placeFailed q) (all.foldl (fun t q => t.noteTested q (failBits failures q)) s)

theorem judgesTest_tested (s : State) (failures : List (Nat × Nat)) (all named : List Nat) :
    (s.judgesTest failures all named).tested = s.tested :=
  (foldl_keeps State.tested named _ placeFailed_tested).trans
    (foldl_keeps State.tested all s (fun t q => noteTested_tested t q (failBits failures q)))

/-- The Squares whose physical Square fails. -/
def State.failedSquares (s : State) (failures : List (Nat × Nat)) : List Nat :=
  (List.range 144).filter (fun q => decide (failBits failures (s.physicalOf q) ≠ 0))

/-- The service record of a self-test that ends. -/
def State.notesTest (s : State) (failures : List (Nat × Nat)) (v : Service) : Service :=
  { v with selfTest := if (List.range 148).all (fun q => decide (failBits failures q = 0)) then 2 else 3
           selfTestResult := s.selfTestBytes failures }

theorem execSelfTestEnd_runs {s : State} (h : s.service.selfTest = 1) (failures : List (Nat × Nat)) : execSelfTestEnd failures s =
    .next (((List.range 144).foldl (fun t q => t.clearTested q) (s.judgesTest failures (List.range 148) (s.failedSquares failures))).updService
      (s.notesTest failures)) := congrArg Host.Outcome.next (if_neg (not_not_intro h))

theorem clearTested_frame (l : List Nat) (s : State) : (l.foldl (fun t q => t.clearTested q) s).parts = s.parts ∧
    (l.foldl (fun t q => t.clearTested q) s).power = s.power :=
  ⟨foldl_keeps State.parts l s (fun _ _ => rfl), foldl_keeps State.power l s (fun _ _ => rfl)⟩

/-- After a self-test every Square of the list is cleared, and its own as before. -/
theorem clearsTested (s : State) (failures : List (Nat × Nat)) (all named : List Nat) {l : List Nat} (hl : l.Nodup)
    (f : Service → Service) :
    let u := (l.foldl (fun t q => t.clearTested q) (s.judgesTest failures all named)).updService f
    u.service = f (l.foldl (fun t q => t.clearTested q) (s.judgesTest failures all named)).service ∧ u.parts = s.parts ∧ u.power = s.power ∧
    ∀ k ∈ l, (u.sq k).ls = [] ∧ (u.sq k).acc = [] ∧ (u.sq k).recs = [] ∧ (u.sq k).owner = (s.sq k).owner := by
  have htest := judgesTest_tested s failures all named
  generalize s.judgesTest failures all named = t at htest
  obtain ⟨hp, hw⟩ := clearTested_frame l t
  have hsq := foldl_sq clearTested_sq hl t
  generalize l.foldl (fun t q => t.clearTested q) t = v at hp hw hsq
  refine ⟨rfl, hp.trans (congrArg (fun x => x.1) htest :), hw.trans (congrArg (fun x => x.2.1) htest :), fun k hk => ?_⟩
  rw [State.updService_sq, hsq, if_pos hk]
  exact ⟨rfl, rfl, rfl, (congrFun (congrArg (fun x => x.2.2) htest) k :)⟩

theorem execSelfTestRequest_received {s t : State} {r : Req} (h : Received s r t) (hn : reqNames r 0x8200 2 = true) (hv : reqValue r = 1)
    (ht : t.service.selfTest ≠ 1) (hb : t.busyParts = false) (hp : t.power.state = .active) :
    execSelfTestRequest r s = .next ((t.startSelfTest 2).reply r 0) := by
  unfold execSelfTestRequest
  rw [if_neg (by rw [hn]; decide)]
  refine congrArg Host.Outcome.next (h.command ?_)
  rw [if_neg (not_not_intro hv), if_neg ht, if_neg (by simp [hb, hp])]

/-! ### The array test and repair -/

theorem reqSquare_runs {s t : State} {r : Req} (h : Received s r t) {sub : Nat} (hn : reqSquare r sub = true) (hc : t.arrayCode r = 0)
    (act : State → State) : (if !reqSquare r sub then s else s.command r (fun t => t.arrayCode r) act) = act t :=
  (if_neg (by rw [hn]; decide)).trans (h.command hc)

/-- A reading of the state that no change of physical Square q changes. -/
def KeptByPhys {β : Type} (g : State → β) (q : Nat) : Prop := ∀ s f, g (State.updPhys s q f) = g s

theorem KeptByPhys.burn {β : Type} {g : State → β} {q : Nat} (hg : KeptByPhys g q) (s : State) (i : Nat) (lines : List Nat) :
    g (s.burn q i lines) = g s := foldl_keeps g _ s (fun t _ => hg t _)

/-- A repair writes the physical Square, and may ask for its way back. -/
theorem KeptByPhys.repair {β : Type} {g : State → β} {q : Nat} (hg : KeptByPhys g q)
    (hm : ∀ s die m, g (State.putMigration s die m) = g s) (s : State) (rows cols : List Nat) : g (s.repair q rows cols) = g s := by
  have hnote : ∀ t : State, g (t.noteArray q rows cols) = g t := fun t => hg t _
  have hburn := (hnote _).trans ((hg.burn (s.burn q 0 (s.unfused q 0 (s.physSq q).testRows)) 2
    (s.unfused q 2 (s.physSq q).testCols)).trans (hg.burn s 0 (s.unfused q 0 (s.physSq q).testRows)))
  unfold State.repair
  dsimp only
  split_ifs
  · exact hg ..
  · exact (hg ..).trans hburn
  · exact (hm ..).trans hburn
  · exact hburn

theorem keptByPhys_other {q k : Nat} (h : k ≠ q) : KeptByPhys (fun t => t.physSq k) q := fun _ _ =>
  (State.physSq_updPhys ..).trans (if_neg h.symm)

theorem repair_beyond {s : State} {q : Nat} (h : s.beyondRepair q = true) (rows cols : List Nat) :
    (s.repair q rows cols).physSq q = { s.physSq q with repairState := 2 } := by
  unfold State.repair
  dsimp only
  rw [if_pos h, State.physSq_updPhys, if_pos rfl]

/-- The retest of a repaired array stands, and what it still finds marks the Square. -/
theorem repair_retested {s : State} {q : Nat} (h : s.beyondRepair q = false) (rows cols : List Nat) :
    ((s.repair q rows cols).physSq q).testRows = rows ∧ ((s.repair q rows cols).physSq q).testCols = cols ∧
    (rows ≠ [] ∨ cols ≠ [] → ((s.repair q rows cols).physSq q).repairState = 2) := by
  have hnote : ∀ t : State, (t.noteArray q rows cols).physSq q =
      { t.physSq q with testRows := rows, testCols := cols, testPassed := rows.isEmpty && cols.isEmpty } := fun t =>
    (State.physSq_updPhys ..).trans (if_pos rfl)
  unfold State.repair
  dsimp only
  rw [if_neg (by rw [h]; decide)]
  split_ifs with hbad hback
  · rw [State.physSq_updPhys, if_pos rfl, hnote]
    exact ⟨rfl, rfl, fun _ => rfl⟩
  · have hput : ∀ (t : State) (d : Nat) (m : Option SquareMig), (t.putMigration d m).physSq q = t.physSq q := fun _ _ _ => rfl
    rw [hput, hnote]
    exact ⟨rfl, rfl, fun hr => absurd hr hbad⟩
  · rw [hnote]
    exact ⟨rfl, rfl, fun hr => absurd hr hbad⟩

/-- Settles O59: an image that verifies makes READY, none makes SAFE; a test that ends clears what it found; the array's test and repair
write their physical Square. -/
theorem startUpAndTests : Obligations.StartUpAndTests := by
  intro s t r n q
  refine ⟨fun a b hboot hn => ?_, fun h hn hv ht hb hp => ?_, fun l hrun => ?_, fun h hn hc rows cols => ?_, fun h hn hc rows cols => ?_⟩
  · intro pass other
    have hother : (if 1 - n = 0 then a else b) = other := by
      by_cases h0 : n = 0
      · rw [if_neg (by omega)]
        exact (if_pos h0).symm
      · rw [if_pos (by omega)]
        exact (if_neg h0).symm
    have hrun : exec (.firmwareVerified a b) s = .next (s.verified n pass other) := by
      rw [← hother]
      exact execFirmwareVerified_boot hboot a b
    refine ⟨_, hrun, ?_⟩
    cases pass
    case true =>
      obtain ⟨h1, h2, h3, h4, h5, h6, h7, -⟩ := ready_effect s n
      exact ⟨h6, h7, fun _ => ⟨h1, h3, h2, h4, h5⟩, fun h => (nomatch h), fun h => (nomatch h)⟩
    case false =>
      cases other
      case true =>
        obtain ⟨h1, h2, h3⟩ := verified_other (s := s) hn
        exact ⟨h1, h2, fun h => (nomatch h), fun _ _ => h3, fun _ h => (nomatch h)⟩
      case false =>
        obtain ⟨h1, h2, h3⟩ := verified_none (s := s) hn (fun h => nomatch hboot.symm.trans h)
        exact ⟨h1, h2, fun h => (nomatch h), fun _ h => (nomatch h), fun _ _ => h3⟩
  · refine ⟨_, execSelfTestRequest_received h hn hv ht hb hp, ?_, rfl⟩
    exact SameCore.refl (t.startSelfTest 2)
  · obtain ⟨h0, h1, h2, h3⟩ := clearsTested s l (List.range 148) (s.failedSquares l) (List.nodup_range (n := 144)) (s.notesTest l)
    exact ⟨_, execSelfTestEnd_runs hrun l, (congrArg Service.selfTestResult h0 :), h1, h2, (congrArg Service.selfTest h0 :),
      fun k hk => h3 k (List.mem_range.mpr hk)⟩
  · have hsame : (t.noteArray q rows cols).physSq q =
        { t.physSq q with testRows := rows, testCols := cols, testPassed := rows.isEmpty && cols.isEmpty } :=
      (State.physSq_updPhys ..).trans (if_pos rfl)
    refine ⟨_, congrArg Host.Outcome.next (reqSquare_runs h hn hc _), by rw [hsame], by rw [hsame], by rw [hsame], by rw [hsame],
      fun k hk => keptByPhys_other hk t _, rfl, rfl⟩
  · have hkeep := fun {β : Type} {g : State → β} (hg : KeptByPhys g q) (hm : ∀ s die m, g (State.putMigration s die m) = g s) =>
      hg.repair hm t rows cols
    refine ⟨_, congrArg Host.Outcome.next (reqSquare_runs h hn hc _), hkeep (g := State.squares) (fun _ _ => rfl) (fun _ _ _ => rfl),
      hkeep (g := State.parts) (fun _ _ => rfl) (fun _ _ _ => rfl), fun k hk => hkeep (keptByPhys_other hk) (fun _ _ _ => rfl),
      fun hb => ?_, fun hb => repair_retested hb rows cols⟩
    rw [repair_beyond hb]
    exact ⟨rfl, rfl⟩

end Sys2Proof.Machine
end

section
/-!
PROOFS. Firmware activation (Table SVC-4) and Square migration (Table SVC-5), with the Holds that they ask for and release.
-/

namespace Sys2Proof.Machine

open Sys2Proof

/-! ### A Hold in every Table -/

theorem requestHold_keepsOwn {s : State} {p cause : Nat} (h : cause ∈ (s.part p).ownHold) (k : Nat) :
    cause ∈ ((s.requestHold k cause).part p).ownHold := by
  by_cases hk : p = k
  · rw [← hk, State.requestHold_stands (.inr (by simpa using h))]
    exact h
  · rw [(keptByHolds_otherPart hk).requestHold]
    exact h

theorem requestHold_keepsTabled {s : State} {p : Nat} (cause : Nat) (h : (s.part p).tabled = true ∨ cause ∈ (s.part p).ownHold) (k : Nat) :
    ((s.requestHold k cause).part p).tabled = true ∨ cause ∈ ((s.requestHold k cause).part p).ownHold := by
  by_cases hk : p = k
  · subst hk
    exact .inr (h.elim State.requestHold_ownHold (fun h => requestHold_keepsOwn h p))
  · rw [(keptByHolds_otherPart hk).requestHold]
    exact h

theorem foldl_requestHold_own (cause : Nat) {p : Nat} {l : List Nat} (hp : p ∈ l) (s : State)
    (h : (s.part p).tabled = true ∨ cause ∈ (s.part p).ownHold) :
    cause ∈ ((l.foldl (fun t k => t.requestHold k cause) s).part p).ownHold := by
  induction l generalizing s with
  | nil => exact absurd hp List.not_mem_nil
  | cons k l ih =>
    rw [List.foldl_cons]
    obtain rfl | hp := List.mem_cons.mp hp
    · have hown : cause ∈ ((s.requestHold p cause).part p).ownHold :=
        h.elim State.requestHold_ownHold (fun h => requestHold_keepsOwn h p)
      exact List.foldlRecOn l _ (motive := fun t : State => cause ∈ (t.part p).ownHold) hown (fun t ht k _ => requestHold_keepsOwn ht k)
    · exact ih hp _ (requestHold_keepsTabled cause h k)

/-- A Hold of the module is held by every Table. -/
theorem holdModule_own (s : State) (cause : Nat) {p : Nat} (hp : p < 16) (ht : (s.part p).tabled = true) :
    cause ∈ ((s.holdModule cause).part p).ownHold := by
  have hmem : p ∈ s.tabledParts := List.mem_filter.mpr ⟨List.mem_range.mpr hp, ht⟩
  exact foldl_requestHold_own cause hmem s (.inl ht)

theorem releaseHold_drops (s : State) (p k cause outcome : Nat) (h : cause ∉ (s.part p).ownHold) :
    cause ∉ ((s.releaseHold k cause outcome).part p).ownHold := by
  by_cases hk : p = k
  · rw [← hk, State.releaseHold_ownHold]
    exact fun hm => h (List.mem_of_mem_filter hm)
  · rw [(keptByHolds_otherPart hk).releaseHold]
    exact h

theorem foldl_releaseHold_own (cause outcome : Nat) {p : Nat} {l : List Nat} (hp : p ∈ l) (s : State) :
    cause ∉ ((l.foldl (fun t k => t.releaseHold k cause outcome) s).part p).ownHold := by
  induction l generalizing s with
  | nil => exact absurd hp List.not_mem_nil
  | cons k l ih =>
    rw [List.foldl_cons]
    obtain rfl | hp := List.mem_cons.mp hp
    · have hown : cause ∉ ((s.releaseHold p cause outcome).part p).ownHold := by
        rw [State.releaseHold_ownHold]
        simp
      exact List.foldlRecOn l _ (motive := fun t : State => cause ∉ (t.part p).ownHold) hown
        (fun t ht k _ => releaseHold_drops t p k cause outcome ht)
    · exact ih hp _

/-- A Hold of the module that is released is held by no partition. -/
theorem releaseModule_own (s : State) (cause outcome : Nat) {p : Nat} (hp : p < 16) :
    cause ∉ ((s.releaseModule cause outcome).part p).ownHold := foldl_releaseHold_own cause outcome (List.mem_range.mpr hp) s

/-- What Holds leave: the module's time, its Squares and their places, the service record, the attestation key's generation. -/
def State.plant (s : State) : Nat × Tab Square × Tab Phys × Service × Nat := (s.now, s.squares, s.phys, s.service, s.sec.aliasGeneration)

theorem keptByHolds_plant (p : Nat) : KeptByHolds State.plant p :=
  ⟨⟨fun _ _ _ => rfl, fun _ _ => rfl, fun _ _ => rfl, fun _ _ _ => rfl, fun _ => rfl, fun _ => rfl⟩, fun _ _ _ => rfl, fun _ _ _ => rfl⟩

/-- Both states are the same but for what Holds change. -/
structure SamePlant (s t : State) : Prop where
  now : t.now = s.now
  squares : t.squares = s.squares
  phys : t.phys = s.phys
  service : t.service = s.service
  aliasGen : t.sec.aliasGeneration = s.sec.aliasGeneration

theorem samePlant_of_eq {s t : State} (h : t.plant = s.plant) : SamePlant s t :=
  ⟨(congrArg (fun x => x.1) h :), (congrArg (fun x => x.2.1) h :), (congrArg (fun x => x.2.2.1) h :), (congrArg (fun x => x.2.2.2.1) h :),
    (congrArg (fun x => x.2.2.2.2) h :)⟩

theorem holdModule_plant (s : State) (cause : Nat) : SamePlant s (s.holdModule cause) :=
  samePlant_of_eq (State.holdModule_keeps keptByHolds_plant s cause)

theorem releaseModule_plant (s : State) (cause outcome : Nat) : SamePlant s (s.releaseModule cause outcome) :=
  samePlant_of_eq (State.releaseModule_keeps keptByHolds_plant s cause outcome)

/-! ### Firmware activation -/

/-- The image that a write stages into the slot that is not active. -/
def stagedImage (w : Req) (fits : Bool) (maxima : List Nat) : Image :=
  { state := if fits then 3 else 4, measurement := Config.sha384 w.payload, version := Config.imageVersion w.payload, maxima := maxima }

/-- What STAGE_IMAGE leaves. -/
def State.stages (t : State) (w : Req) (fits : Bool) (maxima : List Nat) : State :=
  (t.putImage (1 - t.service.active) (stagedImage w fits maxima)).updService (fun v =>
    { v with stageStatus := if fits then 2 else 3, stagedMeasurement := if fits then Config.sha384 w.payload else 0 })

theorem stages_image (t : State) (w : Req) (fits : Bool) (maxima : List Nat) :
    (t.stages w fits maxima).image (1 - t.service.active) = stagedImage w fits maxima :=
  (State.image_putImage t (1 - t.service.active) (1 - t.service.active) (stagedImage w fits maxima)).trans (if_pos rfl)

theorem execStageImage_received {s t : State} {r : Req} (h : Received s r t) (hn : reqNames r 0x1F52 1 = true)
    (ha : t.service.activation ≠ 1) (ok : Bool) (maxima : List Nat) :
    execStageImage r ok maxima s = .next ((t.stages r (ok && t.imageFits maxima) maxima).reply r 0) := by
  unfold execStageImage
  rw [if_neg (by rw [hn]; decide)]
  exact congrArg Host.Outcome.next (h.commandWith (if_neg ha))

/-- An activation has begun: its Hold is asked for. -/
def State.activates (t : State) : State := t.updService (fun v => { v with activation := 1, activatedAt := t.now })

theorem execActivate_received {s t : State} {r : Req} (h : Received s r t) (hn : reqNames r 0x1F53 0 = true) (hv : reqValue r = 1)
    (ha : t.service.activation ≠ 1) (hi : (t.image (1 - t.service.active)).state = 3) :
    execActivate r s = .next ((t.activates.holdModule 0x05).reply r 0) := by
  unfold execActivate
  rw [if_neg (by rw [hn]; decide)]
  refine congrArg Host.Outcome.next (h.command ?_)
  rw [if_neg (not_not_intro hv), if_neg ha, if_neg (not_not_intro hi)]

theorem execActivationHeld_held {s : State} (ha : s.service.activation = 1) (hh : s.moduleHeld 5 = true)
    (hn : s.now ≤ s.activationFrom + 20000000) (verified : Bool) : execActivationHeld verified s =
    .next (if verified then (s.reach (s.activationFrom + 14000000)).switchImage
      else (((s.reach (s.activationFrom + 14000000)).markImage (1 - s.service.active) 4).updService
        (fun v => { v with stagedMeasurement := 0 })).abandonActivation) := by
  refine congrArg Host.Outcome.next (if_neg ?_)
  rw [hh]
  simp [ha, hn]

theorem execActivationTimeout_held {s : State} (ha : s.service.activation = 1) (hh : s.moduleHeld 5 = true) :
    execActivationTimeout s = .next (s.reach (s.activationFrom + 20000000)).abandonActivation := by
  refine congrArg Host.Outcome.next (if_neg ?_)
  rw [hh]
  simp [ha]

/-- An activation given up: the service record says so, the Holds have ended, the rest stands. -/
theorem abandonActivation_effect (s : State) : s.abandonActivation.service = { s.service with activation := 3 } ∧
    s.abandonActivation.now = s.now ∧ s.abandonActivation.squares = s.squares ∧
    ∀ p, p < 16 → 5 ∉ (s.abandonActivation.part p).ownHold := by
  have h := releaseModule_plant (s.updService (fun v => { v with activation := 3 })) 5 4
  exact ⟨h.service, h.now, h.squares, fun p hp => releaseModule_own _ 5 4 hp⟩

theorem switchImage_effect (s : State) : s.switchImage.service.activation = 2 ∧ s.switchImage.service.active = 1 - s.service.active ∧
    s.switchImage.service.fwMeasurement = (s.image (1 - s.service.active)).measurement ∧
    s.switchImage.sec.aliasGeneration = s.sec.aliasGeneration + 1 ∧ s.switchImage.now = s.now ∧ s.switchImage.squares = s.squares ∧
    ∀ p, p < 16 → 5 ∉ (s.switchImage.part p).ownHold := by
  have h : ∀ u : State, SamePlant u (u.releaseModule 5 3) ∧ ∀ p, p < 16 → 5 ∉ ((u.releaseModule 5 3).part p).ownHold := fun u =>
    ⟨releaseModule_plant u 5 3, fun p hp => releaseModule_own u 5 3 hp⟩
  unfold State.switchImage
  dsimp only
  obtain ⟨hp, hown⟩ := h (((((s.markImage s.service.active 1).markImage (1 - s.service.active) 2).updService (fun v =>
    { v with active := 1 - s.service.active, fwMeasurement := (s.image (1 - s.service.active)).measurement, stagedMeasurement := 0
             stageStatus := 0, activation := 2, maxima := (s.image (1 - s.service.active)).maxima })).updSec (fun c =>
    { c with aliasGeneration := c.aliasGeneration + 1 })))
  exact ⟨(congrArg Service.activation hp.service :), (congrArg Service.active hp.service :), (congrArg Service.fwMeasurement hp.service :),
    hp.aliasGen, hp.now, hp.squares, hown⟩

/-! ### Square migration -/

theorem State.migration_entry (s : State) (die : Nat) : s.migration die = Tab.entryAt s.service.migs die := rfl

theorem Tab.entryAt_append {α : Type} (t u : Tab α) (n : Nat) : Tab.entryAt (t ++ u) n = (Tab.entryAt t n).or (Tab.entryAt u n) := by
  induction t with
  | nil => rfl
  | cons e t ih =>
    rw [List.cons_append, Tab.entryAt_cons, Tab.entryAt_cons, ih]
    split <;> rfl

theorem State.migration_putMigration (s : State) (die : Nat) (m : Option SquareMig) : (s.putMigration die m).migration die = m := by
  have hput : (s.putMigration die m).migration die =
      Tab.entryAt (s.service.migs.filter (fun e => decide (e.1 ≠ die)) ++ m.toList.map (fun x => (die, x))) die := rfl
  rw [hput, Tab.entryAt_append, Tab.entryAt_filter, if_pos rfl, Option.none_or]
  cases m
  case none => rfl
  case some m => exact (Tab.entryAt_cons ..).trans (if_pos rfl)

/-- A Square whose trigger is used up. -/
def State.triggers (s : State) (q : Nat) : State :=
  s.updSq q (fun x => { x with overran := false, hwTimes := x.hwTimes.drop (x.hwTimes.length - 1) })

theorem execSquareMigrationTrigger_wants {s : State} {q : Nat} (hq : q < 144) (hp : s.power.state = .active)
    (hw : (s.sq q).wantsReserve = true) (hm : s.migration (sqDie q) = none) (passed : Bool) :
    execSquareMigrationTrigger q passed s = .next (if !s.reserveFree (reserveOf q) then s.triggers q
      else if passed then ((s.triggers q).noteTested (reserveOf q) 0).putMigration (sqDie q)
        (some { square := q, target := some (reserveOf q), holding := false })
      else (s.triggers q).noteTested (reserveOf q) 1) := by
  refine (onUnit_next (decide_eq_true hq) _).trans (congrArg Host.Outcome.next ((if_neg ?_).trans ?_))
  · rw [hw, hm]
    simp [hp]
  · cases passed <;> rfl

/-- What tests of the reserves keep: partitions, Squares, migrations. -/
theorem noteTested_keeps (s : State) (q bits : Nat) : (s.noteTested q bits).parts = s.parts ∧ (s.noteTested q bits).squares = s.squares ∧
    ∀ die, (s.noteTested q bits).migration die = s.migration die := by
  unfold State.noteTested
  split <;> exact ⟨rfl, rfl, fun _ => rfl⟩

theorem triggers_sq (s : State) (q : Nat) : ((s.triggers q).sq q).overran = false ∧ ∀ k, k ≠ q → (s.triggers q).sq k = s.sq k := by
  refine ⟨?_, fun k hk => (State.sq_updSq ..).trans (if_neg hk.symm)⟩
  rw [State.triggers, State.sq_updSq, if_pos rfl]

/-- A state whose Squares are those of a trigger that is used up. -/
theorem triggered_sq {s u : State} {q : Nat} (h : u.squares = (s.triggers q).squares) : (u.sq q).overran = false ∧
    ∀ k, k ≠ q → u.sq k = s.sq k := by
  obtain ⟨h1, h2⟩ := triggers_sq s q
  exact ⟨by rw [State.sq_congr h]; exact h1, fun k hk => (State.sq_congr h k).trans (h2 k hk)⟩

theorem exec_squareMigrationTestPassed {s : State} {die : Nat} {m : SquareMig} (hd : die < 4) (hm : s.migration die = some m)
    (hh : m.holding = false) (hf : s.defersMigration = false) (hp : s.power.state = .active) :
    execSquareMigrationTestPassed die s =
      .next ((s.putMigration die (some { m with holding := true })).holdModule (squareHold die)) := by
  have hrun : execSquareMigrationTestPassed die s = onUnit (decide (die < 4)) (
      if m.holding ∨ s.defersMigration ∨ s.power.state ≠ .active then s
      else (s.putMigration die (some { m with holding := true })).holdModule (squareHold die)) := by
    unfold execSquareMigrationTestPassed
    rw [hm]
  exact hrun.trans ((onUnit_next (decide_eq_true hd) _).trans (congrArg Host.Outcome.next (if_neg (by simp [hh, hf, hp]))))

theorem exec_squareMigrationCopy {s : State} {die : Nat} {m : SquareMig} (hd : die < 4) (hm : s.migration die = some m)
    (hh : m.holding = true) (hheld : s.moduleHeld (squareHold die) = true) (hp : s.power.state = .active) (bad : Bool) :
    execSquareMigrationCopy die bad s = .next (
      if bad || (s.sq m.square).badValue || s.holdLong (squareHold die) then (s.putMigration die none).releaseModule (squareHold die) 4
      else ((s.putMigration die none).moveSquare m).releaseModule (squareHold die) 3) := by
  have hrun : execSquareMigrationCopy die bad s = onUnit (decide (die < 4)) (
      if !m.holding ∨ !s.moduleHeld (squareHold die) ∨ s.power.state ≠ .active then s
      else if bad || (s.sq m.square).badValue || s.holdLong (squareHold die) then
        (s.putMigration die none).releaseModule (squareHold die) 4
      else ((s.putMigration die none).moveSquare m).releaseModule (squareHold die) 3) := by
    unfold execSquareMigrationCopy
    rw [hm]
  exact hrun.trans ((onUnit_next (decide_eq_true hd) _).trans (congrArg Host.Outcome.next (if_neg (by simp [hh, hheld, hp]))))

/-- A Square that has moved: its target carries it, with its stores; migrations stand. -/
theorem moveSquare_effect (s : State) (m : SquareMig) : (s.moveSquare m).service = s.service ∧
    ((s.moveSquare m).sq m.square).carrier = m.target ∧ ((s.moveSquare m).sq m.square).ls = (s.sq m.square).ls ∧
    ((s.moveSquare m).sq m.square).acc = (s.sq m.square).acc ∧
    ∀ k, m.target = some k → k ≠ m.square → ((s.moveSquare m).physSq k).carries = some m.square := by
  unfold State.moveSquare
  dsimp only
  split
  next k hk =>
    unfold State.redirect
    refine ⟨rfl, ?_, ?_, ?_, fun j hj hne => ?_⟩
    · rw [State.updPhys_sq, State.updPhys_sq, State.sq_updSq, if_pos rfl, hk]
    · rw [State.updPhys_sq, State.updPhys_sq, State.sq_updSq, if_pos rfl, State.sq_updSq, if_pos rfl]
    · rw [State.updPhys_sq, State.updPhys_sq, State.sq_updSq, if_pos rfl, State.sq_updSq, if_pos rfl]
    · obtain rfl := Option.some.inj (hk.symm.trans hj)
      rw [State.physSq_updPhys, if_neg hne.symm, State.physSq_updPhys, if_pos rfl]
  next hk =>
    refine ⟨rfl, ?_, ?_, ?_, fun j hj _ => ?_⟩
    · rw [State.updPhys_sq, State.sq_updSq, if_pos rfl, hk]
    · rw [State.updPhys_sq, State.sq_updSq, if_pos rfl, State.updPhys_sq, State.sq_updSq, if_pos rfl]
    · rw [State.updPhys_sq, State.sq_updSq, if_pos rfl, State.updPhys_sq, State.sq_updSq, if_pos rfl]
    · exact nomatch hk.symm.trans hj

theorem State.migration_congr {s t : State} (h : t.service = s.service) (die : Nat) : t.migration die = s.migration die :=
  congrArg (fun v => Tab.entryAt (Service.migs v) die) h

theorem State.physSq_congr {s t : State} (h : t.phys = s.phys) (k : Nat) : t.physSq k = s.physSq k := by
  unfold State.physSq
  rw [h]

/-- Settles O60: each row writes the service record or the Square's place, and asks for or releases the Hold of its cause in every Table. -/
theorem liveService : Obligations.LiveService := by
  intro s t r q die other
  refine ⟨fun h hn ha ok maxima => ?_, fun h hn hv ha hi => ?_, fun verified ha hh hnow => ?_, fun ha hh => ?_,
    fun passed hq hp hw hm => ?_, fun m hd hm hh hf hp => ?_, fun m bad hd hm hh hheld hp => ?_⟩
  · have himg := stages_image t r (ok && t.imageFits maxima) maxima
    refine ⟨_, execStageImage_received h hn ha ok maxima, rfl, rfl, ?_, rfl, ?_, rfl⟩
    · exact (congrArg Image.measurement himg :)
    · exact (congrArg Image.state himg :)
  · have hk := holdModule_plant t.activates 5
    exact ⟨_, execActivate_received h hn hv ha hi, (congrArg Service.activation hk.service :), (congrArg Service.activatedAt hk.service :),
      hk.squares, fun p hp ht => holdModule_own t.activates 5 hp ht⟩
  · refine ⟨_, execActivationHeld_held ha hh hnow verified, ?_⟩
    generalize s.activationFrom + 14000000 = n
    cases verified
    case true =>
      obtain ⟨h1, h2, h3, h4, h5, h6, h7⟩ := switchImage_effect (s.reach n)
      rw [if_pos rfl]
      exact ⟨h5, h6, h7, fun _ => ⟨h1, h2, h3, h4⟩, fun h => (nomatch h)⟩
    case false =>
      obtain ⟨h1, h2, h3, h4⟩ := abandonActivation_effect (((s.reach n).markImage (1 - s.service.active) 4).updService
        (fun v => { v with stagedMeasurement := 0 }))
      rw [if_neg (by decide)]
      exact ⟨h2, h3, h4, fun h => (nomatch h), fun _ => ⟨(congrArg Service.activation h1 :), (congrArg Service.active h1 :)⟩⟩
  · obtain ⟨h1, h2, h3, h4⟩ := abandonActivation_effect (s.reach (s.activationFrom + 20000000))
    exact ⟨_, execActivationTimeout_held ha hh, (congrArg Service.activation h1 :), (congrArg Service.active h1 :), h2,
      fun k => State.image_congr (congrArg Service.images h1 :) k, (congrArg Service.maxima h1 :), (congrArg Service.fwMeasurement h1 :), h3, h4⟩
  · refine ⟨_, execSquareMigrationTrigger_wants hq hp hw hm passed, ?_⟩
    cases hfree : s.reserveFree (reserveOf q)
    case false =>
      rw [Bool.not_false, if_pos rfl]
      obtain ⟨h1, h2⟩ := triggers_sq s q
      exact ⟨h1, rfl, h2, fun h => (nomatch h), fun _ => hm⟩
    case true =>
      rw [Bool.not_true, if_neg Bool.false_ne_true]
      cases passed
      case true =>
        obtain ⟨h1, h2, -⟩ := noteTested_keeps (s.triggers q) (reserveOf q) 0
        rw [if_pos rfl]
        obtain ⟨h3, h4⟩ := triggered_sq (u := ((s.triggers q).noteTested (reserveOf q) 0).putMigration (sqDie q)
          (some { square := q, target := some (reserveOf q), holding := false })) h2
        exact ⟨h3, h1, h4, fun _ _ => State.migration_putMigration .., fun h => h.elim (fun h => nomatch h) (fun h => nomatch h)⟩
      case false =>
        obtain ⟨h1, h2, h3⟩ := noteTested_keeps (s.triggers q) (reserveOf q) 1
        rw [if_neg (by decide)]
        obtain ⟨h4, h5⟩ := triggered_sq h2
        exact ⟨h4, h1, h5, fun _ h => (nomatch h), fun _ => (h3 _).trans hm⟩
  · have hk := holdModule_plant (s.putMigration die (some { m with holding := true })) (squareHold die)
    exact ⟨_, exec_squareMigrationTestPassed hd hm hh hf hp, (State.migration_congr hk.service die).trans (State.migration_putMigration ..),
      hk.squares, fun p hp ht => holdModule_own (s.putMigration die (some { m with holding := true })) (squareHold die) hp ht⟩
  · refine ⟨_, exec_squareMigrationCopy hd hm hh hheld hp bad, ?_⟩
    split
    next hbad =>
      have hk := releaseModule_plant (s.putMigration die none) (squareHold die) 4
      refine ⟨(State.migration_congr hk.service die).trans (State.migration_putMigration ..), fun p hp => releaseModule_own _ _ 4 hp,
        fun _ => ⟨hk.squares, hk.phys⟩, fun h1 h2 h3 => ?_⟩
      rw [h1, h2, h3] at hbad
      exact absurd hbad (by decide)
    next hgood =>
      have hk := releaseModule_plant ((s.putMigration die none).moveSquare m) (squareHold die) 3
      obtain ⟨h1, h2, h3, h4, h5⟩ := moveSquare_effect (s.putMigration die none) m
      have hsq := State.sq_congr hk.squares m.square
      refine ⟨((State.migration_congr hk.service die).trans (State.migration_congr h1 die)).trans (State.migration_putMigration ..),
        fun p hp => releaseModule_own _ _ 3 hp, fun hb => absurd ?_ hgood, fun _ _ _ => ⟨(congrArg Square.carrier hsq).trans h2,
          (congrArg Square.ls hsq).trans h3, (congrArg Square.acc hsq).trans h4, fun k hk1 hne => ?_⟩⟩
      · obtain hb | hb | hb := hb <;> simp [hb]
      · exact (congrArg Phys.carries (State.physSq_congr hk.phys k)).trans (h5 k hk1 hne)

end Sys2Proof.Machine
end

section
/-!
PROOFS. Placement of a Book (R373) and delivery of a weight image (R391, R392).
-/

namespace Sys2Proof.Machine

open Sys2Proof

/-! ### The service channel of a partition -/

theorem startService_effect (s : State) (p : Nat) : ((s.startService p).channel .host (2 * p + 1)).phase = .active ∧
    ((s.startService p).channel .host (2 * p + 1)).partition = p ∧ OtherChannels s (s.startService p) .host (2 * p + 1) := by
  refine ⟨?_, ?_, State.updChannel_other s .host _ _⟩ <;> rw [State.startService, State.channel_updChannel_same]

/-- What a request starts on its partition p: a change of the partition's record, then its service channel. -/
def State.begins (s : State) (p : Nat) (f : Partition → Partition) : State := (s.updPart p f).startService p

theorem begins_effect (s : State) (p : Nat) (f : Partition → Partition) : (s.begins p f).part p = f (s.part p) ∧
    ((s.begins p f).channel .host (2 * p + 1)).phase = .active ∧ ((s.begins p f).channel .host (2 * p + 1)).partition = p ∧
    OtherParts s (s.begins p f) p ∧ OtherChannels s (s.begins p f) .host (2 * p + 1) ∧ (s.begins p f).dram = s.dram := by
  obtain ⟨h1, h2, h3⟩ := startService_effect (s.updPart p f) p
  have hpart : ∀ k, (s.begins p f).part k = (s.updPart p f).part k := fun k => State.updChannel_part ..
  refine ⟨(hpart p).trans (State.part_updPart_same ..), h1, h2, fun k hk => ?_, fun n k hk => ?_, State.updChannel_dram ..⟩
  · rw [hpart, State.part_updPart, if_neg hk.symm]
  · exact (h3 n k hk).trans (State.updPart_channel ..)

/-- What the end of a placement or delivery leaves: its channel stopped, the partition's record changed. -/
def State.ends (s : State) (p : Nat) (f : Partition → Partition) : State := (s.stopService p).updPart p f

theorem ends_effect (s : State) (p : Nat) (f : Partition → Partition) : (s.ends p f).part p = f (s.part p) ∧
    OtherParts s (s.ends p f) p ∧ (s.ends p f).dram = s.dram ∧ (s.ends p f).events = s.events ∧ (s.ends p f).now = s.now := by
  have hpart : ∀ k, (s.stopService p).part k = s.part k := fun k => State.updChannel_part ..
  refine ⟨?_, fun k hk => ?_, State.updChannel_dram .., State.updChannel_events .., State.updChannel_now ..⟩
  · rw [State.ends, State.part_updPart_same, hpart]
  · rw [State.ends, State.part_updPart, if_neg hk.symm, hpart]

/-- The same with the event that tells the end. -/
theorem ends_told (s : State) (p : Nat) (f : Partition → Partition) (cls detail : Nat) (arg : List Nat) :
    let u := (s.ends p f).raise cls detail (some p) [] arg
    u.part p = f (s.part p) ∧ OtherParts s u p ∧ u.dram = s.dram ∧ u.events = withEvent s.events ⟨s.now, cls, detail, some p, [], arg⟩ := by
  obtain ⟨h1, h2, h3, h4, h5⟩ := ends_effect s p f
  refine ⟨(State.raise_part ..).trans h1, fun k hk => (State.raise_part ..).trans (h2 k hk), (State.raise_dram ..).trans h3, ?_⟩
  rw [State.raise_events, h4, h5]

/-! ### The Book's placement -/

/-- A partition whose placement begins. -/
def Partition.places (x : Partition) (by_ : Nat) : Partition := { x with placing := true, placeBy := by_, image := [], placeStatus := 0 }

theorem execPlace_received {s t : State} {r : Req} (h : Received s r t) (hn : reqNames6 r 0x02 3 = true) (hv : reqValue r = 1)
    (hb1 : 1 ≤ (t.part (reqPart r)).bytes) (hb2 : (t.part (reqPart r)).bytes ≤ bookArea) (hpl : (t.part (reqPart r)).placing = false)
    (hdl : (t.part (reqPart r)).delivering = false) (hst : (t.part (reqPart r)).runState = .empty)
    (hbl : (t.part (reqPart r)).bounceLen ≠ 0)
    (hkey : if r.session = 0 then (t.session 0).isSome = true else (t.part (reqPart r)).bounceKeys.isSome = true) :
    execPlace r s = .next ((t.begins (reqPart r) (fun x => x.places r.session)).reply r 0) := by
  have hk : (if r.session = 0 then (t.session 0).isSome else (t.part (reqPart r)).bounceKeys.isSome) = true := by
    split at hkey
    next he => rw [if_pos he, hkey]
    next he => rw [if_neg he, hkey]
  have hrange : ¬ (reqValue r ≠ 1 ∨ (t.part (reqPart r)).bytes = 0 ∨ bookArea < (t.part (reqPart r)).bytes) := by omega
  unfold execPlace
  rw [if_neg (by rw [hn]; decide)]
  refine congrArg Host.Outcome.next (h.command ?_)
  dsimp only
  rw [if_neg hrange, if_neg (by rw [hpl, hdl]; decide), if_neg (by rw [hk]; simp [hst, hbl])]

/-- A placement that has ended: well, or not. -/
def Partition.placed (x : Partition) : Partition := { x with placing := false, placeStatus := 1, placedBytes := x.bytes }
def Partition.misplaced (x : Partition) : Partition := { x with placing := false, placeStatus := 2, placedBytes := 0, image := [] }

theorem execPlaceComplete_runs {s : State} {p : Nat} (hp : p < 16) (hpl : (s.part p).placing = true) (ok : Bool) :
    execPlaceComplete p ok s = .next (if ok then
      if (s.part p).image.length < (s.part p).bytes then s
      else (s.ends p Partition.placed).raise Config.placementEvent.1 Config.placementEvent.2 (some p) [] [1]
    else (s.ends p Partition.misplaced).raise Config.placementEvent.1 Config.placementEvent.2 (some p) [] [2]) :=
  (onUnit_next (decide_eq_true hp) _).trans (congrArg Host.Outcome.next (if_neg (by rw [hpl]; decide)))

/-! ### Weight keys -/

section
variable {s t : State} {r : Req} (h : Received s r t) (hn : reqKeys r 0x10 = true) (hb : blobReservedOk r.payload = true)
  (hd : (t.part (reqKeysPart r)).delivering = false)
include h hn hb hd

/-- A partition that takes a weight key is Sealed. -/
def Partition.keyed (x : Partition) (k : BitVec 256) (b : List Byte) : Partition :=
  { x with weightKey := some k, weightImageId := rd b 0x20 8, weightImageBytes := rd b 0x28 8, weightSalt := rd b 0x30 4, sealed := true }

/-- The state that has taken a weight key. -/
def State.takesKey (t : State) (r : Req) (k : BitVec 256) : State :=
  (t.updSession r.session (fun x => { x with wrapSeq := some (rd r.payload 0x10 8) })).updPart (reqKeysPart r) (fun x => x.keyed k r.payload)

theorem execWrappedKey_opens {k : BitVec 256}
    (hk : (t.session r.session).bind (fun z => openBlob z (reqKeysPart r) r.payload) = some k) :
    execWrappedKey r s = .next ((t.takesKey r k).reply r 0) := by
  unfold execWrappedKey
  rw [if_neg (by rw [hn]; decide)]
  refine congrArg Host.Outcome.next ((h.commandWith ?_).trans ?_)
  · rw [hb, hd]
    rfl
  · rw [hk]
    rfl

theorem execWrappedKey_refuses (hk : (t.session r.session).bind (fun z => openBlob z (reqKeysPart r) r.payload) = none) :
    execWrappedKey r s = .next ((t.raise 0x70 0x50 (some (reqKeysPart r)) [(.session, r.session)] []).reply r abNoSession) := by
  unfold execWrappedKey
  rw [if_neg (by rw [hn]; decide)]
  refine congrArg Host.Outcome.next ((h.commandWith ?_).trans ?_)
  · rw [hb, hd]
    rfl
  · rw [hk]

end

theorem State.part_congr {s t : State} (h : t.parts = s.parts) (k : Nat) : t.part k = s.part k := by
  unfold State.part
  rw [h]

theorem takesKey_part (t : State) (r : Req) (k : BitVec 256) :
    (t.takesKey r k).part (reqKeysPart r) = (t.part (reqKeysPart r)).keyed k r.payload ∧ OtherParts t (t.takesKey r k) (reqKeysPart r) := by
  obtain ⟨-, -, -, -, -, hp, -⟩ := t.updSession_core r.session (fun x => { x with wrapSeq := some (rd r.payload 0x10 8) })
  have hpart : ∀ j, (t.updSession r.session (fun x => { x with wrapSeq := some (rd r.payload 0x10 8) })).part j = t.part j :=
    State.part_congr hp
  refine ⟨?_, fun j hj => ?_⟩
  · rw [State.takesKey, State.part_updPart_same, hpart]
  · rw [State.takesKey, State.part_updPart, if_neg hj.symm, hpart]

/-! ### Delivery -/

/-- A partition whose delivery begins, and one whose delivery has ended. -/
def Partition.delivers (x : Partition) : Partition := { x with delivering := true, weightSeq := 0, deliverStatus := 0 }
def Partition.delivered (x : Partition) (st : Nat) : Partition := { x with delivering := false, weightKey := none, deliverStatus := st }

theorem execDeliver_received {s t : State} {r : Req} (h : Received s r t) (hn : reqKeys r 0x12 = true) (hv : reqValue r = 1)
    (hdl : (t.part (reqKeysPart r)).delivering = false) (hpl : (t.part (reqKeysPart r)).placing = false)
    (hst : (t.part (reqKeysPart r)).runState = .loaded ∨ (t.part (reqKeysPart r)).runState = .stopped)
    (hk : (t.part (reqKeysPart r)).weightKey.isSome = true) (hl : (t.part (reqKeysPart r)).weightTarget.length = 24)
    (hi : rd (t.part (reqKeysPart r)).weightTarget 0x10 8 = (t.part (reqKeysPart r)).weightImageId)
    (hb : (t.part (reqKeysPart r)).bounceLen ≠ 0) :
    execDeliver r s = .next ((t.begins (reqKeysPart r) Partition.delivers).reply r 0) := by
  have hkey : (t.part (reqKeysPart r)).weightKey.isNone = false := by
    rw [← Option.not_isSome, hk]
    rfl
  unfold execDeliver
  rw [if_neg (by rw [hn]; decide)]
  refine congrArg Host.Outcome.next (h.command ?_)
  dsimp only
  rw [if_neg (not_not_intro hv), if_neg (by rw [hdl, hpl]; decide), if_neg ?_]
  rw [hkey]
  obtain hst | hst := hst <;> simp [hst, hl, hi, hb]

theorem execDeliveryComplete_runs {s : State} {p : Nat} (hp : p < 16) (hdl : (s.part p).delivering = true) (ok : Bool) :
    execDeliveryComplete p ok s = .next (if ok then
      if 4096 * (s.part p).weightSeq < (s.part p).weightImageBytes then s
      else (s.ends p (fun y => y.delivered 1)).raise 0x70 0x52 (some p) [] []
    else if (s.channel .host (2 * p + 1)).phase = .active then (s.ends p (fun y => y.delivered 2)).raise 0x70 0x51 (some p) [] []
    else s.ends p (fun y => y.delivered 2)) :=
  (onUnit_next (decide_eq_true hp) _).trans (congrArg Host.Outcome.next (if_neg (by rw [hdl]; decide)))

/-- Settles O48: a start is a change of the partition with its service channel started, an end one with it stopped and told. -/
theorem placementAndDelivery : Obligations.PlacementAndDelivery := by
  intro s p x told
  refine ⟨fun t r h hn hp hv => ?_, fun hp hpl => ⟨fun hlen => ?_, ?_⟩, fun t r h hn hp hb hd => ⟨fun k hk => ?_, fun hk => ?_⟩,
    fun t r h hn hp hv => ?_, fun hp hdl => ⟨fun hlen => ?_, ?_⟩⟩
  · intro y hb1 hb2 hpl hdl hst hbl hkey
    subst hp
    obtain ⟨h1, h2, h3, h4, h5, h6⟩ := begins_effect t (reqPart r) (fun x => x.places r.session)
    exact ⟨_, execPlace_received h hn hv hb1 hb2 hpl hdl hst hbl hkey, by rw [h1]; rfl, by rw [h1]; rfl, by rw [h1]; rfl, h2, h3, h4, h5, h6⟩
  · obtain ⟨h1, h2, h3, h4⟩ := ends_told s p Partition.placed Config.placementEvent.1 Config.placementEvent.2 [1]
    refine ⟨_, (execPlaceComplete_runs hp hpl true).trans
      (congrArg Host.Outcome.next ((if_pos rfl).trans (if_neg (Nat.not_lt.mpr hlen)))), ?_, ?_, ?_, ?_, h2, h3, h4⟩ <;> rw [h1] <;> rfl
  · obtain ⟨h1, h2, h3, h4⟩ := ends_told s p Partition.misplaced Config.placementEvent.1 Config.placementEvent.2 [2]
    refine ⟨_, (execPlaceComplete_runs hp hpl false).trans (congrArg Host.Outcome.next (if_neg Bool.false_ne_true)), ?_, ?_, ?_, ?_, h2, h3,
      h4⟩ <;> rw [h1] <;> rfl
  · subst hp
    obtain ⟨h1, h2⟩ := takesKey_part t r k
    refine ⟨_, execWrappedKey_opens h hn hb hd hk, ?_, ?_, ?_, ?_, h2⟩ <;> rw [h1] <;> rfl
  · subst hp
    exact ⟨_, execWrappedKey_refuses h hn hb hd hk, State.raise_parts .., State.raise_events ..⟩
  · intro y hdl hpl hst hk hl hi hb
    subst hp
    obtain ⟨h1, h2, -, h4, h5, h6⟩ := begins_effect t (reqKeysPart r) Partition.delivers
    exact ⟨_, execDeliver_received h hn hv hdl hpl hst hk hl hi hb, by rw [h1]; rfl, by rw [h1]; rfl, h2, h4, h5, h6⟩
  · obtain ⟨h1, h2, -, h4⟩ := ends_told s p (fun y => y.delivered 1) 0x70 0x52 []
    refine ⟨_, (execDeliveryComplete_runs hp hdl true).trans
      (congrArg Host.Outcome.next ((if_pos rfl).trans (if_neg (Nat.not_lt.mpr hlen)))), ?_, ?_, ?_, h2, h4⟩ <;> rw [h1] <;> rfl
  · refine ⟨_, (execDeliveryComplete_runs hp hdl false).trans (congrArg Host.Outcome.next (if_neg Bool.false_ne_true)), ?_⟩
    split
    · obtain ⟨h1, h2, -, h4⟩ := ends_told s p (fun y => y.delivered 2) 0x70 0x51 []
      exact ⟨by rw [h1]; rfl, by rw [h1]; rfl, by rw [h1]; rfl, h2, fun _ => h4⟩
    next hoff =>
      obtain ⟨h1, h2, -⟩ := ends_effect s p (fun y => y.delivered 2)
      exact ⟨by rw [h1]; rfl, by rw [h1]; rfl, by rw [h1]; rfl, h2, fun hon => absurd hon hoff⟩

end Sys2Proof.Machine
end

section
/-!
PROOFS. The session handshake (R384 to R386), the report (R387) and the entropy source (R380).
-/

namespace Sys2Proof.Machine

open Sys2Proof

/-! ### Handshakes by carrier -/

/-- The handshake that a list holds of a carrier. -/
def handshakeOf (l : List (Carrier × Handshake)) (c : Carrier) : Option Handshake := (l.find? (fun h => decide (h.1 = c))).map (·.2)

theorem handshakeOf_cleared (l : List (Carrier × Handshake)) (c : Carrier) : handshakeOf (l.filter (fun e => decide (e.1 ≠ c))) c = none := by
  have hno : (l.filter (fun e => decide (e.1 ≠ c))).find? (fun h => decide (h.1 = c)) = none := by
    rw [List.find?_eq_none]
    intro e he
    simpa using List.of_mem_filter he
  rw [handshakeOf, hno]
  rfl

theorem State.handshake_putHandshake (s : State) (c : Carrier) (h : Option Handshake) : (s.putHandshake c h).handshake c = h := by
  have hput : (s.putHandshake c h).handshake c =
      handshakeOf (s.sec.handshakes.filter (fun e => decide (e.1 ≠ c)) ++ h.toList.map (fun x => (c, x))) c := rfl
  have hnone := handshakeOf_cleared s.sec.handshakes c
  rw [handshakeOf, Option.map_eq_none_iff] at hnone
  rw [hput, handshakeOf, List.find?_append, hnone, Option.none_or]
  cases h
  case none => rfl
  case some h => simp

theorem keptByFrames_handshake (c : Carrier) : KeptByFrames (fun t => t.handshake c) :=
  ⟨fun _ _ _ => rfl, fun _ _ => rfl, fun _ _ => rfl, fun _ _ _ => rfl, fun _ => rfl, fun _ => rfl⟩

/-! ### CLIENT_HELLO -/

/-- The handshake that a ClientHello opens. -/
def State.greeting (t : State) (hello : List Byte) : Handshake :=
  { clientHello := hello, serverHello := t.serverHello t.fresh hello
    secret := BitVec.ofNat 384 (leNat (Config.sharedSecret t.fresh (helloPoint hello))), startedAt := t.now }

theorem execClientHello_received {s t : State} {r : Req} (h : Received s r t) (hn : reqNames r 0x7020 1 = true)
    (hr : roleOn r.payload r.carrier = true) (hv : helloVersion r.payload ≠ 0) (hok : helloRangeOk r.payload = true)
    (he : t.sec.entropyFailed = false) : execClientHello r s =
      .next ((({ t with fresh := t.fresh + 1 } : State).putHandshake r.carrier (some (t.greeting r.payload))).reply r 0) := by
  unfold execClientHello
  rw [if_neg (by rw [hn]; decide)]
  refine congrArg Host.Outcome.next (h.commandWith ?_)
  rw [hr, hok, he]
  exact if_neg hv

/-! ### CLIENT_FINISH -/

/-- What CLIENT_FINISH leaves of a handshake k by the verdicts on its chain and its signature. -/
def State.finishes (t : State) (r : Req) (k : Handshake) (chain sig : Bool) : State :=
  let n := helloSession k.clientHello
  let u := t.putHandshake r.carrier none
  if !chain then (u.raise 0x70 0x30 (sessPart n) [(.session, n)] []).reply r abNoSession
  else if !sig then (u.raise 0x70 0x31 (sessPart n) [(.session, n)] []).reply r abNoSession
  else (u.reply r 0).openSession r k r.payload

theorem execClientFinish_judged {s t : State} {r : Req} (h : Received s r t) (hn : reqNames r 0x7020 3 = true) {k : Handshake}
    (hk : t.handshake r.carrier = some k) (cb sb : Nat) : execClientFinish r cb sb s =
      .next (t.finishes r k (t.chainGood k.clientHello r.carrier (finishChain r.payload cb)) (k.signed r.payload cb sb)) := by
  unfold execClientFinish
  rw [if_neg (by rw [hn]; decide)]
  refine congrArg Host.Outcome.next ((h.commandWith ?_).trans ?_)
  · rw [hk]
    rfl
  · rw [hk]
    rfl

/-- A handshake that fails is cleared, told and refused. -/
theorem refusedFinish_effect (t : State) (r : Req) (detail n : Nat) :
    let u := ((t.putHandshake r.carrier none).raise 0x70 detail (sessPart n) [(.session, n)] []).reply r abNoSession
    u.handshake r.carrier = none ∧ u.dram = t.dram ∧ u.parts = t.parts ∧
    u.events = withEvent t.events ⟨t.now, 0x70, detail, sessPart n, [(.session, n)], []⟩ := by
  intro u
  have hst : SameStores t u := SameStores.trans (t := (t.putHandshake r.carrier none).raise 0x70 detail (sessPart n) [(.session, n)] [])
    (SameStores.trans (t := t.putHandshake r.carrier none) ⟨rfl, rfl, rfl⟩ (State.raise_stores ..)) (State.reply_core ..).sameStores
  refine ⟨?_, hst.2.2, hst.1, ?_⟩
  · exact ((keptByFrames_handshake r.carrier).reply ..).trans (((keptByFrames_handshake r.carrier).raise ..).trans
      (State.handshake_putHandshake ..))
  · rw [State.reply_events, State.raise_events]
    rfl

/-- The session that a handshake opens. -/
def State.sessionOf (s : State) (r : Req) (h : Handshake) (finish : List Byte) : Session :=
  { carrier := r.carrier, version := min (s.service.maxima.getD 0 0) (helloVersion h.clientHello)
    prk := Config.hkdfExtract (helloNonce h.clientHello ++ h.serverHello.take 48) (leBytes 48 h.secret.toNat)
    binding := Config.sha384 (h.clientHello ++ h.serverHello ++ finish) }

/-- The state without the session of this number: one that is open ends with its event. -/
def State.vacated (s : State) (n : Nat) : State :=
  if (s.session n).isSome then (s.endSession n).raise 0x70 0x32 (sessPart n) [(.session, n)] [] else s

theorem openSession_eq (s : State) (r : Req) (h : Handshake) (finish : List Byte) : s.openSession r h finish =
    if 2 ≤ helloSession h.clientHello then
      ((s.vacated (helloSession h.clientHello)).putSession (helloSession h.clientHello) (s.sessionOf r h finish)).updPart
        (helloSession h.clientHello - 2) (fun y => y.takeBounce (s.sessionOf r h finish).prk)
    else (s.vacated (helloSession h.clientHello)).putSession (helloSession h.clientHello) (s.sessionOf r h finish) := rfl

theorem vacated_keeps (s : State) (n : Nat) (c : Carrier) : (s.vacated n).dram = s.dram ∧ (s.vacated n).handshake c = s.handshake c := by
  unfold State.vacated
  split
  · exact ⟨State.raise_dram .., (keptByFrames_handshake c).raise ..⟩
  · exact ⟨rfl, rfl⟩

/-- A session that opens holds what its handshake gives, and leaves the stack memory and the handshakes. -/
theorem openSession_effect (s : State) (r : Req) (h : Handshake) (finish : List Byte) (c : Carrier) :
    let u := s.openSession r h finish
    u.session (helloSession h.clientHello) = some (s.sessionOf r h finish) ∧ u.dram = s.dram ∧ u.handshake c = s.handshake c := by
  obtain ⟨h1, h2⟩ := vacated_keeps s (helloSession h.clientHello) c
  have hput : ((s.vacated (helloSession h.clientHello)).putSession (helloSession h.clientHello) (s.sessionOf r h finish)).session
      (helloSession h.clientHello) = some (s.sessionOf r h finish) := (State.session_putSession ..).trans (if_pos rfl)
  rw [openSession_eq]
  split
  · exact ⟨(State.updPart_session ..).trans hput, h1, h2⟩
  · exact ⟨hput, h1, h2⟩

/-! ### Attestation -/

theorem execReportRequest_received {s t : State} {r : Req} (h : Received s r t) (hn : reqNames r 0x7010 1 = true)
    (hs : r.session < 2 ∨ rd r.payload 0x30 1 = r.session - 2) (hr : rd r.payload 0x30 1 < 32) (hz : rd r.payload 0x31 15 = 0)
    (ha : t.service.activation ≠ 1) : execReportRequest r s = .next ((t.updSession r.session (fun x =>
      { x with report := t.report (r.payload.take 48) (rd r.payload 0x30 1) x.binding })).reply r 0) := by
  unfold execReportRequest
  rw [if_neg (by rw [hn]; decide)]
  refine congrArg Host.Outcome.next (h.commandWith ?_)
  dsimp only
  rw [if_neg (by omega), if_neg (by omega), if_neg ha]

/-! ### The entropy source -/

theorem enterSafe_entropy (s : State) : s.enterSafe.sec.entropyFailed = s.sec.entropyFailed := by
  have hg : KeptByFrames (fun t : State => t.sec.entropyFailed) :=
    ⟨fun _ _ _ => rfl, fun _ _ => rfl, fun _ _ => rfl, fun _ _ _ => rfl, fun _ => rfl, fun _ => rfl⟩
  by_cases h : s.power.state = .off ∨ s.power.state = .safe
  · exact congrArg (fun t : State => t.sec.entropyFailed) (if_pos h)
  · rw [enterSafe_enters h, State.setFlag_sec]
    exact (hg.raise ..).trans (State.toPower_keeps hg (fun _ _ => rfl) s.unlinksAll .safe)

/-- The entropy source has failed, and the event tells it. -/
def State.losesEntropy (s : State) : State := (s.updSec (fun c => { c with entropyFailed := true })).raise 0x70 0x01 none [] []

theorem losesEntropy_failed (s : State) : s.losesEntropy.sec.entropyFailed = true :=
  KeptByFrames.raise (g := fun t : State => t.sec.entropyFailed)
    ⟨fun _ _ _ => rfl, fun _ _ => rfl, fun _ _ => rfl, fun _ _ _ => rfl, fun _ => rfl, fun _ => rfl⟩ ..

/-- Settles O49: each step of the handshake puts or clears its carrier's objects, and the last one opens the session that they give. -/
theorem sessionsOpen : Obligations.SessionsOpen := by
  intro s t r hello
  refine ⟨fun h hn hr hv hok he => ?_, fun h hn k cb sb hk => ?_, fun c k hk => ?_, fun h hn x hx => ?_, fun hon => ?_⟩
  · exact ⟨_, execClientHello_received h hn hr hv hok he, rfl, rfl, rfl, t.greeting hello, State.handshake_putHandshake .., rfl, rfl, rfl⟩
  · intro n chain sig
    refine ⟨t.finishes r k chain sig, execClientFinish_judged h hn hk cb sb, ?_⟩
    clear_value chain sig
    cases chain
    case false =>
      obtain ⟨h1, h2, h3, h4⟩ := refusedFinish_effect t r 0x30 n
      exact ⟨h1, h2, fun hc => (nomatch hc), fun _ => ⟨h3, h4⟩, fun hc => (nomatch hc)⟩
    case true =>
      cases sig
      case false =>
        obtain ⟨h1, h2, h3, h4⟩ := refusedFinish_effect t r 0x31 n
        exact ⟨h1, h2, fun _ hs => (nomatch hs), fun hc => (nomatch hc), fun _ _ => ⟨h3, h4⟩⟩
      case true =>
        obtain ⟨h1, h2, h3⟩ := openSession_effect ((t.putHandshake r.carrier none).reply r 0) r k r.payload r.carrier
        have hserv : ((t.putHandshake r.carrier none).reply r 0).service = t.service := keptByFrames_service.reply ..
        refine ⟨?_, ?_, fun _ _ => ⟨_, h1, rfl, ?_, rfl, rfl, rfl, rfl, rfl⟩, fun hc => (nomatch hc), fun _ hs => (nomatch hs)⟩
        · exact h3.trans (((keptByFrames_handshake r.carrier).reply ..).trans (State.handshake_putHandshake ..))
        · exact h2.trans (State.reply_dram ..)
        · exact congrArg (fun v => min (Service.maxima v |>.getD 0 0) (helloVersion k.clientHello)) hserv
  · have hrun : exec (.handshakeTimeout c) s = .next ((s.reach (k.startedAt + 10000000000)).putHandshake c none) := by
      change execHandshakeTimeout c s = _
      unfold execHandshakeTimeout
      rw [hk]
    exact ⟨_, hrun, State.handshake_putHandshake .., rfl, rfl, rfl⟩
  · intro scope hs hr hz ha
    obtain ⟨hp, -, hd⟩ := (t.updSession_core r.session (fun x =>
      { x with report := t.report (r.payload.take 48) (rd r.payload 0x30 1) x.binding })).sameStores
    exact ⟨_, execReportRequest_received h hn hs hr hz ha, State.session_updSession_some hx _, hp, hd⟩
  · have hpow : s.losesEntropy.power = s.power := State.raise_power ..
    have hon' : s.losesEntropy.power.state ≠ .off := fun h => hon (hpow ▸ h)
    obtain ⟨h1, -, -, h2⟩ := enterSafe_effect hon'
    have hst : SameStores s s.losesEntropy := SameStores.trans (t := s.updSec (fun c => { c with entropyFailed := true })) ⟨rfl, rfl, rfl⟩
      (State.raise_stores ..)
    exact ⟨_, congrArg Host.Outcome.next (if_neg hon), (enterSafe_entropy _).trans (losesEntropy_failed s), h1, hst.trans h2⟩

end Sys2Proof.Machine
end

section
/-!
PROOFS. Rotation of a partition's key and its sweep (R396, R397, Table SEC-7).
-/

namespace Sys2Proof.Machine

open Sys2Proof

/-! ### The rotation -/

/-- A partition whose next key is current and whose present one is previous. -/
def Partition.rotated (x : Partition) (key : Nat) : Partition :=
  { x with prevKey := x.curKey, curKey := some key, keyGeneration := (x.keyGeneration + 1) % 2 ^ 32, sweepState := 0
           sweepRemaining := 0, unrekeyed := 0, pagesDone := if x.preparedKey.isSome then x.pagesDone else [] }

/-- The state in which partition p has rotated its key, before the event tells it. -/
def State.rotates (s : State) (p : Nat) : State :=
  (s.updPart p (fun x => x.rotated s.sec.nextKey)).updSec (fun c => { c with nextKey := c.nextKey + 1 })

theorem startRotation_eq (s : State) (p : Nat) : s.startRotation p = (s.rotates p).raise 0x70 0x40 (some p) [] [] := rfl

theorem startRotation_effect (s : State) (p : Nat) : let u := s.startRotation p
    u.part p = (s.part p).rotated s.sec.nextKey ∧ u.sec.nextKey = s.sec.nextKey + 1 ∧ OtherParts s u p ∧ u.dram = s.dram ∧
    u.events = withEvent s.events ⟨s.now, 0x70, 0x40, some p, [], []⟩ := by
  intro u
  have hpart : ∀ k, u.part k = (s.updPart p (fun x => x.rotated s.sec.nextKey)).part k := fun k => State.raise_part ..
  have hsec : u.sec.nextKey = s.sec.nextKey + 1 := congrArg Security.nextKey (keptByFrames_sec.raise (s.rotates p) 0x70 0x40 (some p) [] [])
  refine ⟨(hpart p).trans (State.part_updPart_same ..), hsec, fun k hk => ?_, State.raise_dram .., State.raise_events ..⟩
  rw [hpart, State.part_updPart, if_neg hk.symm]

theorem exec_rotateRequest_received {s t : State} {r : Req} (h : Received s r t) (hn : reqKeys r 2 = true) (hv : reqValue r = 1)
    (hc : t.rotationCode (reqKeysPart r) = 0) (p : Nat) :
    execRotateRequest (some r) p s = .next ((t.startRotation (reqKeysPart r)).reply r 0) := by
  unfold execRotateRequest
  dsimp only
  rw [if_neg (by rw [hn]; decide)]
  exact congrArg Host.Outcome.next (h.command ((if_neg (not_not_intro hv)).trans hc))

/-! ### The sweep -/

/-- The current key of partition p, and every other partition. -/
def State.keysBut (p : Nat) (s : State) : Option Nat × (Nat → Option Partition) :=
  ((s.part p).curKey, fun k => if k = p then none else some (s.part k))

theorem State.keysBut_congr {s t : State} {p : Nat} (h : t.keysBut p = s.keysBut p) :
    (t.part p).curKey = (s.part p).curKey ∧ OtherParts s t p := by
  refine ⟨(congrArg (fun x => x.1) h :), fun k hk => ?_⟩
  have hk' := congrFun (congrArg (fun x => x.2) h) k
  unfold State.keysBut at hk'
  dsimp only at hk'
  rw [if_neg hk, if_neg hk] at hk'
  exact Option.some.inj hk'

theorem State.updPart_keysBut (s : State) (p : Nat) {f : Partition → Partition} (hf : ∀ x, (f x).curKey = x.curKey) :
    (s.updPart p f).keysBut p = s.keysBut p := by
  unfold State.keysBut
  refine congrArg₂ Prod.mk ?_ (funext fun k => ?_)
  · rw [State.part_updPart_same, hf]
  · split
    · rfl
    next hk => rw [State.part_updPart, if_neg (Ne.symm hk)]

theorem State.parts_keysBut {s t : State} (h : t.parts = s.parts) (p : Nat) : t.keysBut p = s.keysBut p := by
  unfold State.keysBut State.part
  rw [h]

theorem triggerMigration_parts (s : State) (st ch : Nat) : (s.triggerMigration st ch).parts = s.parts := by
  unfold State.triggerMigration State.startMigration
  dsimp only
  split
  · rfl
  split
  · split
    · exact State.raise_parts ..
    · rfl
  · rfl

theorem failedCopy_parts (s : State) (pa : Nat) (code : Bool) : (s.failedCopy pa code).parts = s.parts := by
  unfold State.failedCopy
  dsimp only
  split
  · exact triggerMigration_parts ..
  · rfl

theorem dataError_keysBut (s : State) (p : Nat) (va : Option Nat) (latch : Bool) : (s.dataError p va latch).keysBut p = s.keysBut p := by
  unfold State.dataError
  exact State.updPart_keysBut s p (fun _ => by rfl)

theorem sweepFailed_keysBut (s : State) (p : Nat) (u : Nat × Bool) : (s.sweepFailed p u).keysBut p = s.keysBut p := by
  unfold State.sweepFailed
  exact (dataError_keysBut ..).trans ((State.parts_keysBut (State.raise_parts ..) p).trans (State.parts_keysBut (failedCopy_parts ..) p))

theorem keptByReadErrors_cells : KeptByReadErrors (fun t => t.dram.cells) :=
  ⟨⟨fun _ _ _ => rfl, fun _ _ => rfl, fun _ _ => rfl, fun _ _ _ => rfl, fun _ => rfl, fun _ => rfl⟩, fun _ _ _ => rfl, fun _ _ _ => rfl,
    fun _ _ _ => rfl⟩

theorem sweepFailed_cells (s : State) (p : Nat) (u : Nat × Bool) : (s.sweepFailed p u).dram.cells = s.dram.cells := by
  have hcopy : (s.failedCopy u.1 u.2).dram.cells = s.dram.cells := by
    unfold State.failedCopy
    dsimp only
    split
    · exact (keptByReadErrors_cells.triggerMigration ..).trans (keptByReadErrors_cells.stack ..)
    · exact keptByReadErrors_cells.stack ..
  exact (keptByReadErrors_cells.part ..).trans ((keptByReadErrors_cells.frames.raise ..).trans hcopy)

/-- Charges of a sweep change neither a partition nor a cell. -/
theorem chargeSweep_keeps {β : Type} {g : State → β} (hg : ∀ die, KeptByCharges g die) (s : State) (p : Nat) :
    g (s.chargeSweep p) = g s := by
  unfold State.chargeSweep
  refine foldl_keeps g _ s (fun t pa => ?_)
  dsimp only
  split
  · exact ((hg _).chargeStack ..).trans ((hg _).chargeStack ..)
  · exact (hg _).chargeStack ..

/-- The state in which the sweep has rewritten what it can, and reported the rest. -/
def State.sweeps (s : State) (p : Nat) (fails : List (Nat × Bool)) : State :=
  fails.foldl (fun t u => t.sweepFailed p u) ((s.chargeSweep p).rekey p fails)

theorem sweeps_keeps (s : State) (p : Nat) (fails : List (Nat × Bool)) :
    (s.sweeps p fails).keysBut p = s.keysBut p ∧ (s.sweeps p fails).dram.cells = s.dram.cells := by
  have hparts : (s.chargeSweep p).parts = s.parts := chargeSweep_keeps (fun _ => ⟨fun _ _ _ => rfl, fun _ _ => rfl⟩) s p
  have hcells : (s.chargeSweep p).dram.cells = s.dram.cells :=
    chargeSweep_keeps (g := fun t => t.dram.cells) (fun _ => ⟨fun _ _ _ => rfl, fun _ _ => rfl⟩) s p
  have hrekey : ∀ u : State, (u.rekey p fails).parts = u.parts ∧ (u.rekey p fails).dram.cells = u.dram.cells := fun _ => ⟨rfl, rfl⟩
  obtain ⟨h1, h2⟩ := hrekey (s.chargeSweep p)
  exact ⟨(foldl_keeps (State.keysBut p) fails _ (fun t u => sweepFailed_keysBut t p u)).trans (State.parts_keysBut (h1.trans hparts) p),
    (foldl_keeps (fun t => t.dram.cells) fails _ (fun t u => sweepFailed_cells t p u)).trans (h2.trans hcells)⟩

/-- A partition whose previous generation is zeroised, with what the sweep could not read. -/
def Partition.swept (x : Partition) (fails : List (Nat × Bool)) : Partition :=
  { x with prevKey := none, sweepRemaining := 0, unrekeyed := fails.length % 2 ^ 32, sweepState := if fails.isEmpty then 0 else 2 }

theorem execRotationSweepDone_runs {s : State} {p : Nat} (hp : p < 16) (hs : (s.part p).sweepState = 1)
    (hk : (s.part p).prevKey.isSome = true) (l : List (Nat × Bool)) : execRotationSweepDone p l s =
    .next (((s.sweeps p (s.sweepFails p l)).updPart p (fun y => y.swept (s.sweepFails p l))).raise 0x70
      (if (s.sweepFails p l).isEmpty then 0x41 else 0x42) (some p) [] []) := by
  have hkey : (s.part p).prevKey.isNone = false := by
    rw [← Option.not_isSome, hk]
    rfl
  exact (onUnit_next (decide_eq_true hp) _).trans (congrArg Host.Outcome.next (if_neg (by rw [hkey]; simp [hs])))

/-- Settles O50: the rotation changes its partition's keys, the confirmation starts the sweep, and its end zeroises the previous key, whatever
it charges, rewrites and reports. -/
theorem keyRotation : Obligations.KeyRotation := by
  intro s p x begun
  have hbegun : ∀ t : State, begun t (t.startRotation p) := fun t => by
    obtain ⟨h1, h2, h3, h4, h5⟩ := startRotation_effect t p
    refine ⟨?_, ?_, ?_, ?_, h2, h3, h4, h5⟩ <;> rw [h1] <;> rfl
  refine ⟨fun hp hi hc => ⟨s.startRotation p, ?_, hbegun s⟩, fun t r h hn hp hv hc => ⟨t.startRotation p, ?_, hbegun t⟩,
    fun hp hk hs => ?_, fun l hp hs hk => ?_⟩
  · exact (onUnit_next (decide_eq_true hp) _).trans (congrArg Host.Outcome.next (if_pos ⟨hi, hc⟩))
  · subst hp
    exact exec_rotateRequest_received h hn hv hc (reqKeysPart r)
  · refine ⟨_, (onUnit_next (decide_eq_true hp) _).trans (congrArg Host.Outcome.next (if_pos ⟨hk, hs⟩)), State.part_updPart_same .., fun k hk => ?_,
      rfl⟩
    rw [State.part_updPart, if_neg hk.symm]
  · obtain ⟨hkeys, hcells⟩ := sweeps_keeps s p (s.sweepFails p l)
    obtain ⟨hcur, hother⟩ := State.keysBut_congr hkeys
    have hrun := execRotationSweepDone_runs hp hs hk l
    generalize s.sweeps p (s.sweepFails p l) = v at hcur hother hcells hrun
    have hpart : ((v.updPart p (fun y => y.swept (s.sweepFails p l))).raise 0x70 (if (s.sweepFails p l).isEmpty then 0x41 else 0x42)
        (some p) [] []).part p = (v.part p).swept (s.sweepFails p l) := (State.raise_part ..).trans (State.part_updPart_same ..)
    refine ⟨_, hrun, by rw [hpart]; rfl, by rw [hpart]; exact hcur, by rw [hpart]; rfl, by rw [hpart]; rfl, by rw [hpart]; rfl, fun k hk => ?_, ?_⟩
    · rw [State.raise_part, State.part_updPart, if_neg hk.symm]
      exact hother k hk
    · rw [State.raise_dram]
      exact hcells

end Sys2Proof.Machine
end

section
/-!
PROOFS. The transactions of the Aslet link (Table ASL-4, R364, R365, R369, R372).
-/

namespace Sys2Proof.Machine

open Sys2Proof

/-! ### The oldest transaction that has arrived -/

/-- The state that has taken the oldest transaction off Aslet. -/
def State.asletTaken (s : State) (rest : List AsletTxn) : State := s.updAslet (fun x => { x with arrived := rest })

section
variable {s : State} {t : AsletTxn} {rest : List AsletTxn} (ha : s.aslet.arrived = t :: rest)
include ha

theorem onAslet_taken {kind : Nat} (hk : t.kind = kind) (f : State → AsletTxn → State) :
    onAslet kind s f = .next (f (s.asletTaken rest) t) := by
  unfold onAslet
  rw [ha]
  exact congrArg Host.Outcome.next (if_pos hk)

theorem onAsletCtrl_taken {sub : Nat} (hk : t.kind = 7) (hs : t.status = sub) (f : State → AsletTxn → State) (other : State) :
    onAsletCtrl sub s f other = .next (f (s.asletTaken rest) t) := by
  unfold onAsletCtrl
  rw [ha]
  exact congrArg Host.Outcome.next (if_pos ⟨hk, hs⟩)

end

theorem asletTaken_pending (s : State) (rest : List AsletTxn) (tag : Nat) :
    (s.asletTaken rest).aslet.pending tag = s.aslet.pending tag := rfl

/-! ### A request that an answer ends -/

theorem dropPend_gone (s : State) (tag : Nat) : ∀ y ∈ (s.dropPend tag).aslet.pend, y.tag ≠ tag := fun y hy =>
  of_decide_eq_true (List.of_mem_filter (p := fun e : AsletPend => decide (e.tag ≠ tag)) (a := y) (l := s.aslet.pend) hy)

/-- The state in which the oldest transaction is taken and the request that it answers is dropped. -/
def State.answeredBy (s : State) (rest : List AsletTxn) (tag : Nat) : State := (s.asletTaken rest).dropPend tag

theorem answeredBy_channel (s : State) (rest : List AsletTxn) (tag : Nat) (m : MoverId) (ch : Nat) :
    (s.answeredBy rest tag).channel m ch = s.channel m ch := by cases m <;> rfl

theorem answeredBy_stoppable (s : State) (rest : List AsletTxn) (tag : Nat) (c : Channel) :
    (s.answeredBy rest tag).stoppable c = s.stoppable c := rfl

/-- Requests of the host-interface Mover stand where a channel changes. -/
theorem updChannel_pend (s : State) (m : MoverId) (ch : Nat) (f : Channel → Channel) : (s.updChannel m ch f).aslet.pend = s.aslet.pend := by
  cases m <;> rfl

theorem keptByFrames_pend : KeptByFrames (fun t => t.aslet.pend) where
  session _ _ _ := rfl
  response _ _ := rfl
  tunnel s t := (congrArg Aslet.pend (s.aslet.send_unsent t) :)
  history _ _ _ := rfl
  lost _ := rfl
  lostFlag _ := rfl

theorem freeze_pend (s : State) (p cause : Nat) : (s.freeze p cause).aslet.pend = s.aslet.pend :=
  State.freeze_keeps (g := fun t => t.aslet.pend) (fun _ _ _ => rfl) (fun s m ch n => by
    unfold State.abortChannel
    split
    · exact updChannel_pend ..
    · rfl) s p cause

theorem hostRefused_pend (s : State) (ch va : Nat) : (s.hostRefused ch va).aslet.pend = s.aslet.pend := by
  unfold State.hostRefused State.refusedRequest
  refine (freeze_pend ..).trans ?_
  split
  · exact updChannel_pend ..
  · split
    · rfl
    · exact keptByFrames_pend.raise ..

theorem stoppable_busy {s : State} {c : Channel} (h : s.stoppable c = true) : c.busy = true := by
  unfold Channel.busy
  refine decide_eq_true (fun hi => ?_)
  unfold State.stoppable at h
  rw [hi] at h
  exact nomatch h

/-- A refused request freezes its partition, aborts its channel where it still runs, and leaves the other requests. -/
theorem hostRefused_effect (s : State) (ch va : Nat) : ((s.hostRefused ch va).part (hostPart ch)).frozen = true ∧
    (s.hostRefused ch va).dram = s.dram ∧ (s.stoppable (s.channel .host ch) = true →
      ((s.hostRefused ch va).channel .host ch).phase = .aborting 3 ∧ ((s.hostRefused ch va).channel .host ch).faultAddress = va) := by
  obtain ⟨hfrozen, hdram, -⟩ := State.refusedRequest_frame (s := s) (m := .host) (ch := ch) (p := hostPart ch)
    (live := (s.channel .host ch).busy) (desc := (s.channel .host ch).desc) (va := va)
  refine ⟨hfrozen, hdram, fun hstop => ?_⟩
  obtain ⟨hch, -⟩ := State.refusedRequest_aborts (s := s) (m := .host) (ch := ch) (p := hostPart ch) (desc := (s.channel .host ch).desc)
    (va := va) (stoppable_busy hstop) (.inl hstop)
  unfold State.hostRefused
  rw [hch]
  exact ⟨rfl, rfl⟩

section
variable {s : State} {t : AsletTxn} {rest : List AsletTxn} (ha : s.aslet.arrived = t :: rest)
include ha

/-! ### READ_RESP -/

theorem execAsletReadResp_unknown (hk : t.kind = 3) (hn : s.aslet.pending t.tag = none) :
    execAsletReadResp s = .next (s.asletTaken rest) := by
  have hn' : (s.asletTaken rest).aslet.pending t.tag = none := hn
  unfold execAsletReadResp
  rw [onAslet_taken ha hk, hn']

theorem execAsletReadResp_refused (hk : t.kind = 3) {e : AsletPend} (he : s.aslet.pending t.tag = some e) (hs : t.status ≠ 0) :
    execAsletReadResp s = .next ((s.answeredBy rest t.tag).hostRefused e.channel e.va) := by
  have he' : (s.asletTaken rest).aslet.pending t.tag = some e := he
  unfold execAsletReadResp
  rw [onAslet_taken ha hk, he']
  exact congrArg Host.Outcome.next (if_pos hs)

/-- What the data of a READ_RESP become by what they were wanted for. -/
def State.takesData (v : State) (e : AsletPend) (d : List Byte) : State :=
  match e.want with
  | .trailers => v.updChannel .host e.channel (fun c => { c with trailers := putBytes c.trailers e.off d })
  | .record => v.updChannel .host e.channel (fun c => { c with raw := putBytes c.raw e.off d })
  | .recordWrite => v
  | .trailerWrite => v

theorem execAsletReadResp_data (hk : t.kind = 3) {e : AsletPend} (he : s.aslet.pending t.tag = some e) (hs : t.status = 0) :
    execAsletReadResp s = .next ((s.answeredBy rest t.tag).takesData e (t.data.take t.length)) := by
  have he' : (s.asletTaken rest).aslet.pending t.tag = some e := he
  unfold execAsletReadResp
  rw [onAslet_taken ha hk, he']
  exact congrArg Host.Outcome.next (if_neg (not_not_intro hs))

/-! ### WRITE_ACK -/

theorem execAsletWriteAck_unknown (hk : t.kind = 4) (hn : s.aslet.pending t.tag = none) :
    execAsletWriteAck s = .next (s.asletTaken rest) := by
  have hn' : (s.asletTaken rest).aslet.pending t.tag = none := hn
  unfold execAsletWriteAck
  rw [onAslet_taken ha hk, hn']

theorem execAsletWriteAck_known (hk : t.kind = 4) {e : AsletPend} (he : s.aslet.pending t.tag = some e) :
    execAsletWriteAck s = .next (if t.status ≠ 0 then (s.answeredBy rest t.tag).hostRefused e.channel e.va
      else (s.answeredBy rest t.tag).trailerDue e.channel) := by
  have he' : (s.asletTaken rest).aslet.pending t.tag = some e := he
  unfold execAsletWriteAck
  rw [onAslet_taken ha hk, he']
  rfl

end

theorem takesData_dram (v : State) (e : AsletPend) (d : List Byte) : (v.takesData e d).dram = v.dram ∧
    (v.takesData e d).aslet.pend = v.aslet.pend := by
  unfold State.takesData
  split
  · exact ⟨State.updChannel_dram .., updChannel_pend ..⟩
  · exact ⟨State.updChannel_dram .., updChannel_pend ..⟩
  · exact ⟨rfl, rfl⟩
  · exact ⟨rfl, rfl⟩

/-- The bytes of an answer go to the buffer of its channel that asked for them. -/
theorem takesData_channel (v : State) (e : AsletPend) (d : List Byte) :
    (e.want = .trailers → ((v.takesData e d).channel .host e.channel).trailers =
      putBytes (v.channel .host e.channel).trailers e.off d ∧ OtherChannels v (v.takesData e d) .host e.channel) ∧
    (e.want = .record → ((v.takesData e d).channel .host e.channel).raw = putBytes (v.channel .host e.channel).raw e.off d ∧
      OtherChannels v (v.takesData e d) .host e.channel) ∧
    (e.want = .recordWrite ∨ e.want = .trailerWrite → v.takesData e d = v) := by
  refine ⟨fun h => ?_, fun h => ?_, fun h => ?_⟩ <;> unfold State.takesData
  · rw [h]
    exact ⟨by rw [State.channel_updChannel_same], State.updChannel_other _ _ _ _⟩
  · rw [h]
    exact ⟨by rw [State.channel_updChannel_same], State.updChannel_other _ _ _ _⟩
  · obtain h | h := h <;> rw [h]

/-! ### A trailer that goes out -/

/-- What a request to the host changes: partitions, channels and the Aslet link's tags aside, nothing. -/
theorem hostRequest_effect (s : State) (ch : Nat) (want : AsletWant) (off : Nat) (t : AsletTxn) :
    (s.hostRequest ch want off t).parts = s.parts ∧ (s.hostRequest ch want off t).aslet.waits ch = true ∧
    ∀ k, (s.hostRequest ch want off t).channel .host k = s.channel .host k := by
  have hsend : ∀ (u : State) (x : AsletTxn), (u.asletSend x).aslet.unsent = u.aslet.unsent := fun u x => u.aslet.send_unsent x
  unfold State.hostRequest
  dsimp only
  refine ⟨rfl, ?_, fun k => ?_⟩
  · refine (congrArg (fun a => Aslet.waits a ch) (hsend _ _) :).trans ?_
    exact List.any_eq_true.mpr ⟨_, List.mem_append_right _ (List.mem_singleton.mpr rfl), decide_eq_true rfl⟩
  · exact (congrArg (fun a => Tab.get {} (Aslet.movers a) k) (hsend _ _) :)

/-- Requests for a list of pieces: the partitions and channels stand, and the channel waits where there is a piece. -/
theorem foldl_hostRequest {α : Type} (l : List α) (s : State) (ch : Nat) (want : AsletWant) (off : α → Nat) (t : α → AsletTxn) :
    let u := l.foldl (fun v i => v.hostRequest ch want (off i) (t i)) s
    u.parts = s.parts ∧ (∀ k, u.channel .host k = s.channel .host k) ∧ u.aslet.waits ch = (s.aslet.waits ch || !l.isEmpty) := by
  refine ⟨foldl_keeps State.parts l s (fun v i => (hostRequest_effect v ch want (off i) (t i)).1),
    fun k => foldl_keeps (fun v => v.channel .host k) l s (fun v i => (hostRequest_effect v ch want (off i) (t i)).2.2 k), ?_⟩
  induction l generalizing s with
  | nil => exact (Bool.or_false _).symm
  | cons i l ih =>
    obtain ⟨-, hw, -⟩ := hostRequest_effect s ch want (off i) (t i)
    rw [List.foldl_cons, ih, hw]
    simp

theorem cdiv_eq_zero {a b : Nat} (hb : 0 < b) : cdiv a b = 0 ↔ a = 0 := by
  unfold cdiv
  rw [Nat.div_eq_zero_iff]
  omega

theorem hostWrite_effect (s : State) (ch : Nat) (want : AsletWant) (addr : Nat) (l : List Byte) :
    (s.hostWrite ch want addr l).parts = s.parts ∧ (∀ k, (s.hostWrite ch want addr l).channel .host k = s.channel .host k) ∧
    (s.hostWrite ch want addr l).aslet.waits ch = (s.aslet.waits ch || !l.isEmpty) := by
  have hmax : 0 < asletMaxBytes s.aslet.version := by
    unfold asletMaxBytes
    split <;> decide
  have hempty : (List.range (cdiv l.length (asletMaxBytes s.aslet.version))).isEmpty = l.isEmpty := by
    rw [Bool.eq_iff_iff, List.isEmpty_iff, List.isEmpty_iff, List.range_eq_nil, cdiv_eq_zero hmax, List.length_eq_zero_iff]
  have h := foldl_hostRequest (List.range (cdiv l.length (asletMaxBytes s.aslet.version))) s ch want
    (fun i => asletMaxBytes s.aslet.version * i) (fun i =>
      { kind := 1, address := addr + asletMaxBytes s.aslet.version * i
        length := (slice l (asletMaxBytes s.aslet.version * i) (asletMaxBytes s.aslet.version)).length
        data := slice l (asletMaxBytes s.aslet.version * i) (asletMaxBytes s.aslet.version) })
  rw [hempty] at h
  exact h

theorem trailerDue_stands {s : State} {ch : Nat} (h : (s.channel .host ch).trailerOut = none ∨ s.aslet.waits ch = true) :
    s.trailerDue ch = s := by
  unfold State.trailerDue
  split
  · rfl
  next z hz =>
    obtain h | h := h
    · exact nomatch hz.symm.trans h
    · exact if_pos h

theorem trailerDue_goes {s : State} {ch : Nat} {z : Nat × List Byte} (hz : (s.channel .host ch).trailerOut = some z)
    (hw : s.aslet.waits ch = false) : ((s.trailerDue ch).channel .host ch).trailerOut = none ∧ (s.trailerDue ch).parts = s.parts ∧
    (s.trailerDue ch).aslet.waits ch = !z.2.isEmpty := by
  have hdue : s.trailerDue ch = (s.updChannel .host ch (fun c => { c with trailerOut := none })).hostWrite ch .trailerWrite z.1 z.2 := by
    unfold State.trailerDue
    rw [hz]
    exact if_neg (by rw [hw]; decide)
  have hw' : (s.updChannel .host ch (fun c => { c with trailerOut := none })).aslet.waits ch = false := hw
  obtain ⟨h1, h2, h3⟩ := hostWrite_effect (s.updChannel .host ch (fun c => { c with trailerOut := none })) ch .trailerWrite z.1 z.2
  rw [hdue]
  refine ⟨?_, h1.trans (State.updChannel_parts ..), ?_⟩
  · rw [h2, State.channel_updChannel_same]
  · rw [h3, hw', Bool.false_or]

/-- Settles O47: each command takes its transaction off Aslet, and answers it, counts it or brings it to its channel. -/
theorem asletTransactions : Obligations.AsletTransactions := by
  intro s t rest a u v got m
  refine ⟨fun ⟨ha, hk⟩ => ?_, fun ⟨ha, hk⟩ => ⟨fun hbad => ?_, fun h1 h2 h3 => ?_⟩, fun ⟨ha, hk⟩ =>
    ⟨execAsletReadResp_unknown ha hk, fun e he => ?_⟩, fun ⟨ha, hk⟩ => ⟨execAsletWriteAck_unknown ha hk, fun e he => ⟨fun hs => ?_,
      fun hs hout => ?_, fun z hs hz hw => ?_⟩⟩, fun ⟨ha, hk⟩ => ⟨fun h1 h2 h3 h4 h5 => ?_, fun h1 h2 h3 h4 => ?_, fun hbad => ?_⟩,
    fun ⟨ha, hk⟩ => ?_⟩
  · change execAsletHostWrite s = _
    unfold execAsletHostWrite
    exact onAslet_taken ha hk _
  · change execAsletRead s = _
    unfold execAsletRead
    rw [onAslet_taken ha hk]
    exact congrArg Host.Outcome.next (if_pos hbad)
  · have hok : ¬ (t.length = 0 ∨ asletMaxBytes a.version < t.length ∨ 4096 < t.address + t.length) := by
      rintro (h | h | h)
      · omega
      · exact absurd h2 (Nat.not_le.mpr h)
      · omega
    change execAsletRead s = _
    unfold execAsletRead
    rw [onAslet_taken ha hk]
    exact congrArg Host.Outcome.next (if_neg hok)
  · have hgone := dropPend_gone (s.asletTaken rest) t.tag
    by_cases hs : t.status = 0
    · obtain ⟨hd, hp⟩ := takesData_dram (s.answeredBy rest t.tag) e (t.data.take t.length)
      obtain ⟨h1, h2, h3⟩ := takesData_channel (s.answeredBy rest t.tag) e (t.data.take t.length)
      have hch : ∀ n k, (s.answeredBy rest t.tag).channel n k = s.channel n k := answeredBy_channel s rest t.tag
      refine ⟨_, execAsletReadResp_data ha hk he hs, hd, hp ▸ hgone, fun _ hw => ?_, fun _ hw => ?_, fun _ hw => h3 hw, fun hn => absurd hs hn⟩
      · obtain ⟨hb, ho⟩ := h1 hw
        exact ⟨by rw [hb, hch], fun n k hk => (ho n k hk).trans (hch n k)⟩
      · obtain ⟨hb, ho⟩ := h2 hw
        exact ⟨by rw [hb, hch], fun n k hk => (ho n k hk).trans (hch n k)⟩
    · obtain ⟨hf, hd, hab⟩ := hostRefused_effect (s.answeredBy rest t.tag) e.channel e.va
      have hp := hostRefused_pend (s.answeredBy rest t.tag) e.channel e.va
      refine ⟨_, execAsletReadResp_refused ha hk he hs, hd, hp ▸ hgone, fun h => absurd h hs, fun h => absurd h hs, fun h => absurd h hs,
        fun _ => ⟨hf, fun hstop => hab ?_⟩⟩
      rw [answeredBy_channel, answeredBy_stoppable]
      exact hstop
  · exact (execAsletWriteAck_known ha hk he).trans (congrArg Host.Outcome.next (if_pos hs))
  · refine (execAsletWriteAck_known ha hk he).trans (congrArg Host.Outcome.next ((if_neg (not_not_intro hs)).trans (trailerDue_stands ?_)))
    rw [answeredBy_channel]
    exact hout
  · obtain ⟨h1, h2, h3⟩ := trailerDue_goes (s := s.answeredBy rest t.tag) (ch := e.channel) (by rw [answeredBy_channel]; exact hz) hw
    exact ⟨_, (execAsletWriteAck_known ha hk he).trans (congrArg Host.Outcome.next (if_neg (not_not_intro hs))), h1, h2, h3⟩
  · have hok : ¬ (16 < t.channel ∨ 4096 < t.length ∨ t.data.length < t.length) := by omega
    change execMessage s = _
    unfold execMessage
    rw [onAslet_taken ha hk]
    exact congrArg Host.Outcome.next ((if_neg hok).trans (if_pos ⟨h2, h5⟩))
  · have hok : ¬ (16 < t.channel ∨ 4096 < t.length ∨ t.data.length < t.length) := by omega
    have hno : ¬ (32 ≤ t.length ∧ hostFrameKind (rd t.data 1 1) = true) := by
      rintro ⟨hl, hf⟩
      obtain h4 | h4 := h4
      · omega
      · exact absurd (hf.symm.trans h4) (by decide)
    change execMessage s = _
    unfold execMessage
    rw [onAslet_taken ha hk]
    exact congrArg Host.Outcome.next ((if_neg hok).trans (if_neg hno))
  · change execMessage s = _
    unfold execMessage
    rw [onAslet_taken ha hk]
    exact congrArg Host.Outcome.next (if_pos hbad)
  · change execCredit s = _
    unfold execCredit
    exact onAslet_taken ha hk _

end Sys2Proof.Machine
end

section
/-!
PROOFS. The Aslet link itself: its training, frames, width and version, and its low-rate mode (R360 to R363, R374, R376).
-/

namespace Sys2Proof.Machine

open Sys2Proof

/-! ### What a change of the Aslet link leaves -/

theorem State.updAslet_core (s : State) (f : Aslet → Aslet) : SameCore s (s.updAslet f) := SameCore.refl s

theorem State.count_core (s : State) (k : Nat) : SameCore s (s.count k) := SameCore.refl s

theorem SameCore.units {s u : State} (h : SameCore s u) : SameSquares s u ∧ SameLinks s u ∧ u.parts = s.parts ∧ u.dram = s.dram := by
  obtain ⟨-, -, -, hsq, hph, hp, hfab, hl, hg, hd, -⟩ := h
  exact ⟨⟨hsq, hph, hfab⟩, ⟨hl, hg⟩, hp, hd⟩

theorem SameCore.power {s u : State} (h : SameCore s u) : u.power = s.power := by
  obtain ⟨-, -, -, -, -, -, -, -, -, -, hp, -⟩ := h
  exact hp

theorem State.asletEvent_core (s : State) (d : Nat) : SameCore s (s.asletEvent d) := State.raise_core ..

theorem State.asletEvent_unsent (s : State) (d : Nat) : (s.asletEvent d).aslet.unsent = s.aslet.unsent := keptByFrames_aslet.raise ..

theorem State.asletEvent_events (s : State) (d : Nat) :
    (s.asletEvent d).events = withEvent s.events ⟨s.now, 0x51, d, none, [(.aslet, 0)], []⟩ := State.raise_events ..

/-- Aslet in a state that carries nothing. -/
def Aslet.fallen (a : Aslet) (st : Nat) : Aslet := { a with state := st, tunnel := false }

theorem State.asletFall_core (s : State) (st d : Nat) : SameCore s (s.asletFall st d) :=
  (s.updAslet_core (fun a => a.fallen st)).trans (State.asletEvent_core ..)

theorem State.asletFall_unsent (s : State) (st d : Nat) : (s.asletFall st d).aslet.unsent = (s.aslet.fallen st).unsent :=
  State.asletEvent_unsent (s.updAslet (fun a => a.fallen st)) d

theorem State.asletFall_state (s : State) (st d : Nat) : (s.asletFall st d).aslet.state = st ∧ (s.asletFall st d).aslet.tunnel = false :=
  ⟨(congrArg Aslet.state (s.asletFall_unsent st d) :), (congrArg Aslet.tunnel (s.asletFall_unsent st d) :)⟩

theorem State.asletFall_events (s : State) (st d : Nat) :
    (s.asletFall st d).events = withEvent s.events ⟨s.now, 0x51, d, none, [(.aslet, 0)], []⟩ :=
  State.asletEvent_events (s.updAslet (fun a => a.fallen st)) d

/-! ### Frames that are kept -/

/-- A link that has kept more frames, all sent once. -/
def Aslet.KeepsMore (a b : Aslet) : Prop := ∃ l, b.retained = a.retained ++ l ∧ ∀ f ∈ l, f.sends = 1

theorem Aslet.KeepsMore.refl (a : Aslet) : a.KeepsMore a := ⟨[], (List.append_nil _).symm, fun _ h => absurd h List.not_mem_nil⟩

theorem Aslet.KeepsMore.trans {a b c : Aslet} (h : a.KeepsMore b) (k : b.KeepsMore c) : a.KeepsMore c := by
  obtain ⟨l, hl, hs⟩ := h
  obtain ⟨m, hm, ht⟩ := k
  refine ⟨l ++ m, by rw [hm, hl, List.append_assoc], fun f hf => ?_⟩
  exact (List.mem_append.mp hf).elim (hs f) (ht f)

theorem Aslet.sendFrames_keeps (l : List (List Byte)) (a : Aslet) : a.KeepsMore (a.sendFrames l) := by
  induction l generalizing a with
  | nil => exact Aslet.KeepsMore.refl a
  | cons b l ih =>
    refine Aslet.KeepsMore.trans ⟨[{ seq := a.txSeq, flits := b, sends := 1 }], rfl, fun f hf => ?_⟩ (ih _)
    rw [List.mem_singleton.mp hf]

theorem Aslet.send_keeps (a : Aslet) (t : AsletTxn) : a.KeepsMore (a.send t) := by
  have hspend : (a.spend t).retained = a.retained := by
    unfold Aslet.spend
    split <;> rfl
  unfold Aslet.send
  split
  · obtain ⟨l, hl, hs⟩ := Aslet.sendFrames_keeps (asletBodies 4 (asletFlits t)) { a.spend t with sentTxns := (a.spend t).sentTxns ++ [t] }
    exact ⟨l, hl.trans (congrArg (· ++ l) hspend), hs⟩
  · exact Aslet.KeepsMore.refl a

theorem Aslet.drain_keeps (a : Aslet) : a.KeepsMore a.drain :=
  List.foldlRecOn a.waiting _ (motive := fun b : Aslet => a.KeepsMore b) (Aslet.KeepsMore.refl a) (fun b hb t _ => hb.trans (b.send_keeps t))

/-- Frames sent once do not make a link sent out. -/
theorem Aslet.KeepsMore.sentOut {a b : Aslet} (h : a.KeepsMore b) : b.sentOut = a.sentOut := by
  obtain ⟨l, hl, hs⟩ := h
  have hnew : l.any (fun f => decide (16 ≤ f.sends)) = false := List.any_eq_false.mpr fun f hf => by
    rw [hs f hf]
    decide
  rw [Aslet.sentOut, hl, List.any_append, hnew, Bool.or_false]
  rfl

/-! ### Training -/

theorem execAsletTraining_off {s : State} (h : s.ioOn = false) (lanes : LaneReport) (peer : Nat) :
    execAsletTraining lanes peer s = .next s := by
  unfold execAsletTraining
  rw [h]
  rfl

/-- What a training ends in, but for the event of a lane 0 that does not work. -/
def State.asletTrained (s : State) (lanes : LaneReport) (peer : Nat) : State :=
  match chooseWidth lanes with
  | none => s.asletFall 0 0x02
  | some w => s.asletSettle w (lanes.working.contains 0) peer

theorem execAsletTraining_on {s : State} (h : s.ioOn = true) (lanes : LaneReport) (peer : Nat) : execAsletTraining lanes peer s =
    .next (if lanes.working.contains 0 then s.asletTrained lanes peer else (s.asletTrained lanes peer).asletEvent 0x07) := by
  unfold execAsletTraining
  rw [h]
  rfl

theorem asletTrained_none {s : State} {lanes : LaneReport} (h : chooseWidth lanes = none) (peer : Nat) :
    s.asletTrained lanes peer = s.asletFall 0 0x02 := by
  unfold State.asletTrained
  rw [h]

theorem asletTrained_some {s : State} {lanes : LaneReport} {w : Nat × Bool} (h : chooseWidth lanes = some w) (peer : Nat) :
    s.asletTrained lanes peer = s.asletSettle w (lanes.working.contains 0) peer := by
  unfold State.asletTrained
  rw [h]

/-- The state in which WIDTH and HELLO have gone to a peer without a common version. -/
def State.asletRefuses (s : State) (w : Nat × Bool) (lane0 : Bool) : State :=
  s.updAslet (fun a => ((a.atWidth w lane0).emit { kind := 7, status := 2, length := w.1 }).emit
    { kind := 7, status := 1, length := s.service.maxima.getD 2 0 })

theorem asletSettle_refused {s : State} {peer : Nat} (h : min (s.service.maxima.getD 2 0) peer = 0) (w : Nat × Bool) (lane0 : Bool) :
    s.asletSettle w lane0 peer = (s.asletRefuses w lane0).asletFall 4 0x05 := by
  unfold State.asletSettle
  exact if_pos h

/-- The state in which Aslet carries traffic with this peer. -/
def State.asletConnects (s : State) (w : Nat × Bool) (lane0 : Bool) (peer : Nat) : State :=
  s.updAslet (fun a => a.connect w lane0 (s.service.maxima.getD 2 0) (min (s.service.maxima.getD 2 0) peer))

theorem asletSettle_connects {s : State} {peer : Nat} (h : min (s.service.maxima.getD 2 0) peer ≠ 0) (w : Nat × Bool) (lane0 : Bool) :
    s.asletSettle w lane0 peer = if (s.asletConnects w lane0 peer).aslet.sentOut then (s.asletConnects w lane0 peer).asletFall 0 0x03
      else s.asletConnects w lane0 peer := by
  unfold State.asletSettle
  exact if_neg h

/-- Aslet as it connects, before what waited goes out. -/
def Aslet.connecting (a : Aslet) (w : Nat × Bool) (lane0 : Bool) (own version : Nat) : Aslet :=
  { a.atWidth w lane0 with
    version := version, tunnel := true, credits := if a.version = version then a.credits else grantCredits version
    retained := a.retained.map (fun f => { f with sends := f.sends + 1 })
    out := a.out ++ a.retained.map (fun f => (a.atWidth w lane0).frameOut f.seq f.flits)
    waiting := [{ kind := 7, status := 2, length := w.1 }, { kind := 7, status := 1, length := own }] ++ a.waiting }

theorem Aslet.connect_unsent (a : Aslet) (w : Nat × Bool) (lane0 : Bool) (own version : Nat) :
    (a.connect w lane0 own version).unsent = (a.connecting w lane0 own version).unsent := Aslet.drain_unsent _

theorem Aslet.connect_sentOut (a : Aslet) (w : Nat × Bool) (lane0 : Bool) (own version : Nat) :
    (a.connect w lane0 own version).sentOut = a.retained.any (fun f => decide (16 ≤ f.sends + 1)) := by
  have h := (a.connecting w lane0 own version).drain_keeps.sentOut
  refine Eq.trans h ?_
  exact List.any_map

theorem Aslet.connect_fields (a : Aslet) (w : Nat × Bool) (lane0 : Bool) (own version : Nat) :
    (a.connect w lane0 own version).width = w.1 ∧ (a.connect w lane0 own version).version = version ∧
    (a.connect w lane0 own version).lowRate = false ∧ (a.connect w lane0 own version).lane0 = lane0 ∧
    (a.connect w lane0 own version).state = 2 ∧ (a.connect w lane0 own version).tunnel = true := by
  have h := a.connect_unsent w lane0 own version
  generalize a.connect w lane0 own version = b at h
  exact ⟨(congrArg Aslet.width h :), (congrArg Aslet.version h :), (congrArg Aslet.lowRate h :), (congrArg Aslet.lane0 h :),
    (congrArg Aslet.state h :), (congrArg Aslet.tunnel h :)⟩

/-- A link that has connected: width, version, rate and lane 0, and whether a frame was sent too often. -/
theorem asletConnects_effect (s : State) (w : Nat × Bool) (lane0 : Bool) (peer : Nat) : let u := s.asletConnects w lane0 peer
    SameCore s u ∧ u.events = s.events ∧ u.aslet.width = w.1 ∧ u.aslet.version = min (s.service.maxima.getD 2 0) peer ∧
    u.aslet.lowRate = false ∧ u.aslet.lane0 = lane0 ∧ u.aslet.state = 2 ∧ u.aslet.tunnel = true ∧
    u.aslet.sentOut = s.aslet.retained.any (fun f => decide (16 ≤ f.sends + 1)) := by
  intro u
  have hcore : SameCore s u := s.updAslet_core _
  have hev : u.events = s.events := rfl
  have ha : u.aslet = s.aslet.connect w lane0 (s.service.maxima.getD 2 0) (min (s.service.maxima.getD 2 0) peer) := rfl
  obtain ⟨h1, h2, h3, h4, h5, h6⟩ := s.aslet.connect_fields w lane0 (s.service.maxima.getD 2 0) (min (s.service.maxima.getD 2 0) peer)
  have h7 := s.aslet.connect_sentOut w lane0 (s.service.maxima.getD 2 0) (min (s.service.maxima.getD 2 0) peer)
  rw [← ha] at h1 h2 h3 h4 h5 h6 h7
  exact ⟨hcore, hev, h1, h2, h3, h4, h5, h6, h7⟩

/-- The state after the event of a lane 0 that does not work, where it does not. -/
def State.laneTold (s : State) (works : Bool) : State := if works then s else s.asletEvent 0x07

theorem laneTold_effect (s : State) (works : Bool) : SameCore s (s.laneTold works) ∧ (s.laneTold works).aslet.unsent = s.aslet.unsent ∧
    (works = true → s.laneTold works = s) ∧
    (works = false → (s.laneTold works).events = withEvent s.events ⟨s.now, 0x51, 0x07, none, [(.aslet, 0)], []⟩) := by
  cases works
  case false => exact ⟨State.asletEvent_core .., State.asletEvent_unsent .., fun h => (nomatch h), fun _ => State.asletEvent_events ..⟩
  case true => exact ⟨SameCore.refl s, rfl, fun _ => rfl, fun h => (nomatch h)⟩

theorem asletTrained_core (s : State) (lanes : LaneReport) (peer : Nat) : SameCore s (s.asletTrained lanes peer) := by
  cases hw : chooseWidth lanes
  case none =>
    rw [asletTrained_none hw]
    exact State.asletFall_core ..
  case some w =>
    rw [asletTrained_some hw]
    by_cases hv : min (s.service.maxima.getD 2 0) peer = 0
    · rw [asletSettle_refused hv]
      exact (State.updAslet_core ..).trans (State.asletFall_core ..)
    · rw [asletSettle_connects hv]
      obtain ⟨h, -⟩ := asletConnects_effect s w (lanes.working.contains 0) peer
      split
      · exact h.trans (State.asletFall_core ..)
      · exact h

/-! ### Frames -/

theorem execAsletFrameReceived_deaf {s : State} (h : s.aslet.hears = false) (frame : RawFrame) : execAsletFrameReceived frame s = .next s := by
  unfold execAsletFrameReceived
  rw [h]
  rfl

section
variable {s : State} (h : s.aslet.hears = true) {frame : RawFrame}
include h

theorem execAsletFrameReceived_lost (hd : asletDecode s.aslet.lowRate frame = none) :
    execAsletFrameReceived frame s = .next (s.updAslet Aslet.nak) := by
  unfold execAsletFrameReceived
  rw [h, hd]
  rfl

theorem execAsletFrameReceived_bad {d : List (List Nat)} (hd : asletDecode s.aslet.lowRate frame = some d)
    (hb : asletFrameOk (asletBytes d) = false) : execAsletFrameReceived frame s = .next (s.updAslet Aslet.nak) := by
  have hnak : (if asletFrameOk (asletBytes d) then s.asletGood (asletBytes d) else s.updAslet Aslet.nak) = s.updAslet Aslet.nak :=
    if_neg (by rw [hb]; decide)
  unfold execAsletFrameReceived
  rw [h, hd, Bool.not_true, if_neg Bool.false_ne_true]
  dsimp only
  rw [hnak]

theorem execAsletFrameReceived_good {d : List (List Nat)} (hd : asletDecode s.aslet.lowRate frame = some d)
    (hb : asletFrameOk (asletBytes d) = true) : execAsletFrameReceived frame s = .next (s.asletGood (asletBytes d)) := by
  have hgood : (if asletFrameOk (asletBytes d) then s.asletGood (asletBytes d) else s.updAslet Aslet.nak) = s.asletGood (asletBytes d) :=
    if_pos hb
  unfold execAsletFrameReceived
  rw [h, hd, Bool.not_true, if_neg Bool.false_ne_true]
  dsimp only
  rw [hgood]

end

/-- The receiver of a link: the next frame in order, and those held behind a missing one. -/
def Aslet.receiver (a : Aslet) : Nat × List (Nat × List Byte) := (a.rxSeq, a.heldFrames)

theorem Aslet.receiver_of_unsent {a b : Aslet} (h : a.unsent = b.unsent) : a.receiver = b.receiver := (congrArg Aslet.receiver h :)

/-- A step of the link that leaves the rest of the module and the receiver. -/
def KeepsReceiver (s u : State) : Prop := SameCore s u ∧ u.aslet.receiver = s.aslet.receiver

theorem KeepsReceiver.refl (s : State) : KeepsReceiver s s := ⟨SameCore.refl s, rfl⟩

theorem KeepsReceiver.trans {s t u : State} (h : KeepsReceiver s t) (k : KeepsReceiver t u) : KeepsReceiver s u :=
  ⟨h.1.trans k.1, k.2.trans h.2⟩

theorem keepsReceiver_updAslet (s : State) {f : Aslet → Aslet} (h : (f s.aslet).receiver = s.aslet.receiver) :
    KeepsReceiver s (s.updAslet f) := ⟨State.updAslet_core .., h⟩

theorem keepsReceiver_fall (s : State) (st d : Nat) : KeepsReceiver s (s.asletFall st d) :=
  ⟨State.asletFall_core .., Eq.trans (b := (s.aslet.fallen st).receiver) (Aslet.receiver_of_unsent (State.asletFall_unsent s st d)) rfl⟩

theorem keepsReceiver_resend (s : State) (seq : Nat) : KeepsReceiver s (s.asletResend seq) := by
  unfold State.asletResend
  split
  · exact KeepsReceiver.refl s
  · dsimp only
    split
    · exact (keepsReceiver_updAslet s rfl).trans (keepsReceiver_fall ..)
    · exact keepsReceiver_updAslet s rfl

theorem keepsReceiver_take (n : Nat) (s : State) : KeepsReceiver s (State.asletTake n s) := by
  induction n generalizing s with
  | zero => exact KeepsReceiver.refl s
  | succ n ih =>
    unfold State.asletTake
    dsimp only
    split_ifs
    · exact KeepsReceiver.refl s
    · exact (keepsReceiver_updAslet s rfl).trans (ih _)
    · exact KeepsReceiver.refl s
    · exact ((keepsReceiver_updAslet s rfl).trans (keepsReceiver_updAslet _ rfl)).trans (ih _)
    · refine ((keepsReceiver_updAslet s rfl).trans ⟨State.count_core .., rfl⟩).trans (ih _)

theorem asletDeliver_effect (s : State) (seq : Nat) (flits : List Byte) : SameCore s (s.asletDeliver seq flits) ∧
    (s.asletDeliver seq flits).aslet.receiver = ((seq + 1) % 4096, s.aslet.heldFrames) := by
  obtain ⟨h1, h2⟩ := keepsReceiver_take ((s.updAslet (fun a => { a with rxSeq := (seq + 1) % 4096, stream := a.stream ++ flits })).aslet.stream.length
    / 256 + 1) (s.updAslet (fun a => { a with rxSeq := (seq + 1) % 4096, stream := a.stream ++ flits }))
  exact ⟨(State.updAslet_core ..).trans h1, h2⟩

theorem asletHeld_core (n : Nat) (s : State) : SameCore s (State.asletHeld n s) := by
  induction n generalizing s with
  | zero => exact SameCore.refl s
  | succ n ih =>
    unfold State.asletHeld
    split
    next f _ =>
      obtain ⟨h, -⟩ := asletDeliver_effect (s.updAslet (fun a => { a with heldFrames := a.heldFrames.filter (fun g => decide (g.1 ≠ f.1)) })) f.1 f.2
      exact ((State.updAslet_core ..).trans h).trans (ih _)
    · exact SameCore.refl s

theorem asletHeld_none (n : Nat) {s : State} (h : s.aslet.heldFrames = []) : State.asletHeld n s = s := by
  cases n with
  | zero => rfl
  | succ n =>
    unfold State.asletHeld
    rw [h]
    rfl

theorem asletOrder_core (s : State) (seq : Nat) (flits : List Byte) : SameCore s (s.asletOrder seq flits) := by
  unfold State.asletOrder
  dsimp only
  split_ifs
  · exact ((asletDeliver_effect s seq flits).1.trans (asletHeld_core 64 _)).trans (State.updAslet_core ..)
  · exact State.updAslet_core ..
  · exact SameCore.refl s

/-- A frame in order with none held behind it moves the receiver on by one. -/
theorem asletOrder_next {s : State} {seq : Nat} (h : seq = s.aslet.rxSeq) (hh : s.aslet.heldFrames = []) (flits : List Byte) :
    (s.asletOrder seq flits).aslet.rxSeq = (seq + 1) % 4096 := by
  obtain ⟨-, hrx⟩ := asletDeliver_effect s seq flits
  have hheld : (s.asletDeliver seq flits).aslet.heldFrames = [] := (congrArg Prod.snd hrx).trans hh
  unfold State.asletOrder
  dsimp only
  rw [if_pos (by omega), asletHeld_none 64 hheld]
  exact congrArg Prod.fst hrx

/-- What a good frame brings before its own place is judged: acknowledged frames go, and one asked for goes again. -/
def State.asletAcked (s : State) (h : Nat) : State :=
  let s1 := s.updAslet (fun a => ({ a with retained := a.retained.filter (fun f => !ackCovers (hdrAck h) f.seq) }).drain)
  if hdrNakValid h then s1.asletResend (hdrNak h) else s1

theorem asletAcked_keeps (s : State) (h : Nat) : KeepsReceiver s (s.asletAcked h) := by
  have hdrain : KeepsReceiver s (s.updAslet (fun a => ({ a with retained := a.retained.filter (fun f => !ackCovers (hdrAck h) f.seq) }).drain)) :=
    keepsReceiver_updAslet s (Aslet.receiver_of_unsent (Aslet.drain_unsent _))
  unfold State.asletAcked
  dsimp only
  split
  · exact hdrain.trans (keepsReceiver_resend ..)
  · exact hdrain

theorem asletGood_eq (s : State) (b : List Byte) : s.asletGood b =
    if hdrIdle (rd b 0 10) then
      (if hdrSeq (rd b 0 10) = (s.asletAcked (rd b 0 10)).aslet.rxSeq then s.asletAcked (rd b 0 10)
        else (s.asletAcked (rd b 0 10)).updAslet Aslet.nak)
    else (s.asletAcked (rd b 0 10)).asletOrder (hdrSeq (rd b 0 10)) (b.drop 40) := rfl

/-- A good frame: an idle one leaves the receiver, one in order moves it on. -/
theorem asletGood_effect (s : State) (b : List Byte) : SameCore s (s.asletGood b) ∧
    (hdrIdle (rd b 0 10) = true → (s.asletGood b).aslet.rxSeq = s.aslet.rxSeq) ∧
    (hdrIdle (rd b 0 10) = false → hdrSeq (rd b 0 10) = s.aslet.rxSeq → s.aslet.heldFrames = [] →
      (s.asletGood b).aslet.rxSeq = (s.aslet.rxSeq + 1) % 4096) := by
  obtain ⟨hcore, hrx⟩ := asletAcked_keeps s (rd b 0 10)
  have hseq : (s.asletAcked (rd b 0 10)).aslet.rxSeq = s.aslet.rxSeq := congrArg Prod.fst hrx
  have hheld : (s.asletAcked (rd b 0 10)).aslet.heldFrames = s.aslet.heldFrames := congrArg Prod.snd hrx
  rw [asletGood_eq]
  cases hi : hdrIdle (rd b 0 10)
  case true =>
    rw [if_pos rfl]
    split
    · exact ⟨hcore, fun _ => hseq, fun h => (nomatch h)⟩
    · exact ⟨hcore.trans (State.updAslet_core ..), fun _ => hseq, fun h => (nomatch h)⟩
  case false =>
    rw [if_neg Bool.false_ne_true]
    refine ⟨hcore.trans (asletOrder_core ..), fun h => (nomatch h), fun _ hs hh => ?_⟩
    rw [asletOrder_next (hs.trans hseq.symm) (hheld.trans hh), hs]

/-! ### The oldest frame goes again -/

/-- Aslet after it has sent a kept frame again. -/
def Aslet.resent (a : Aslet) (f : SentFrame) : Aslet :=
  { a with retained := a.retained.map (fun g => if g.seq = f.seq then { g with sends := g.sends + 1 } else g)
           out := a.out ++ [a.frameOut f.seq f.flits] }

theorem execAsletAckTimeout_resends {s : State} {f : SentFrame} {more : List SentFrame} (h : s.aslet.retained = f :: more)
    (hu : s.aslet.up = true) : execAsletAckTimeout s = .next (if (s.aslet.resent f).sentOut then
      (s.updAslet (fun a => a.resent f)).asletFall 0 0x03 else s.updAslet (fun a => a.resent f)) := by
  have hfind : s.aslet.retained.find? (fun g => decide (g.seq = f.seq)) = some f := by
    rw [h, List.find?_cons, decide_eq_true rfl]
  unfold execAsletAckTimeout
  rw [h]
  dsimp only
  rw [if_pos hu]
  unfold State.asletResend
  rw [hfind]
  rfl

theorem execAsletAckTimeout_none {s : State} (h : s.aslet.retained = [] ∨ s.aslet.up = false) : execAsletAckTimeout s = .next s := by
  unfold execAsletAckTimeout
  split
  · rfl
  next f more hr =>
    obtain h | h := h
    · exact nomatch hr.symm.trans h
    · exact congrArg Host.Outcome.next (if_neg (by rw [h]; decide))

/-- What a link that carries nothing has on the wire and keeps; none of one that carries traffic. -/
def Aslet.silent (a : Aslet) : Option (List LinkOut × List SentFrame) := if a.up then none else some (a.out, a.retained)

theorem Aslet.send_silent (a : Aslet) (t : AsletTxn) : (a.send t).silent = a.silent := by
  have hup : (a.send t).up = a.up := (congrArg Aslet.up (a.send_unsent t) :)
  unfold Aslet.silent
  rw [hup]
  cases hu : a.up
  case true => rfl
  case false =>
    have hno : (a.mayEmit t && a.creditOk t && !a.blocked t) = false := by
      rw [Aslet.mayEmit, hu]
      rfl
    unfold Aslet.send
    rw [hno]
    rfl

theorem keptByFrames_silent : KeptByFrames (fun t => t.aslet.silent) where
  session _ _ _ := rfl
  response _ _ := rfl
  tunnel s t := s.aslet.send_silent t
  history _ _ _ := rfl
  lost _ := rfl
  lostFlag _ := rfl

/-- A link that falls puts no frame on the wire any more. -/
theorem asletFall_silent (s : State) (d : Nat) : (s.asletFall 0 d).aslet.out = s.aslet.out ∧
    (s.asletFall 0 d).aslet.retained = s.aslet.retained := by
  have h : (s.asletFall 0 d).aslet.silent = (s.aslet.fallen 0).silent :=
    keptByFrames_silent.raise (s.updAslet (fun a => a.fallen 0)) 0x51 d none [(.aslet, 0)] []
  have hdown : (s.asletFall 0 d).aslet.up = false := (congrArg Aslet.up (s.asletFall_unsent 0 d) :)
  have hval : (s.asletFall 0 d).aslet.silent = some ((s.asletFall 0 d).aslet.out, (s.asletFall 0 d).aslet.retained) := by
    unfold Aslet.silent
    rw [if_neg (by rw [hdown]; decide)]
  have hpair := Option.some.inj (hval.symm.trans h)
  exact ⟨(Prod.mk.inj hpair).1, (Prod.mk.inj hpair).2⟩

/-! ### The entry into low-rate mode -/

/-- Aslet as an entry into SLEEP leaves it: in low-rate mode, or down. -/
def State.asletLowers (s : State) : State := s.updAslet (fun a => if a.lowRate then a else { a with state := 0, tunnel := false })

theorem asletLowers_state (s : State) : (s.aslet.lowRate = true → s.asletLowers.aslet.state = s.aslet.state) ∧
    (s.aslet.lowRate = false → s.asletLowers.aslet.state = 0 ∧ s.asletLowers.aslet.tunnel = false) := by
  have ha : s.asletLowers.aslet = if s.aslet.lowRate then s.aslet else { s.aslet with state := 0, tunnel := false } := rfl
  rw [ha]
  split
  next h => exact ⟨fun _ => rfl, fun hn => absurd (h.symm.trans hn) (by decide)⟩
  next h => exact ⟨fun hy => absurd hy h, fun _ => ⟨rfl, rfl⟩⟩

section
variable {s : State} (he : s.power.sleepEntry = true) (hi : s.hostIdle = true)
include he hi

theorem sleepStep_asked (hl : s.aslet.lowReady = false) (ha : s.aslet.sleepAsked = true) : s.sleepStep = s := by
  unfold State.sleepStep
  rw [if_neg (by rw [he, hi]; decide), if_pos (by rw [hl]; decide), if_pos ha]

theorem sleepStep_asks_core (hl : s.aslet.lowReady = false) : SameCore s s.sleepStep := by
  unfold State.sleepStep
  rw [if_neg (by rw [he, hi]; decide), if_pos (by rw [hl]; decide)]
  split
  · exact SameCore.refl s
  · exact State.updAslet_core ..

theorem sleepStep_lowers_links (hl : s.aslet.lowReady = true) {l : Nat} (hlt : l < 96) (hup : (s.link l).state ≠ 0) :
    s.sleepStep = s.asletLowers.linksDown := by
  unfold State.sleepStep
  rw [if_neg (by rw [he, hi]; decide), if_neg (by rw [hl]; decide),
    if_pos (List.any_eq_true.mpr ⟨l, List.mem_range.mpr hlt, decide_eq_true hup⟩)]
  rfl

theorem sleepStep_lowers_now (hl : s.aslet.lowReady = true) (hdown : ∀ l, l < 96 → (s.link l).state = 0) :
    s.sleepStep = s.asletLowers.sleepNow := by
  have hnone : (List.range 96).any (fun l => decide ((s.link l).state ≠ 0)) = false :=
    List.any_eq_false.mpr (fun l hm => by simpa using hdown l (List.mem_range.mp hm))
  unfold State.sleepStep
  rw [if_neg (by rw [he, hi]; decide), if_neg (by rw [hl]; decide), if_neg (by rw [hnone]; decide)]
  rfl

/-- An entry with no busy channel of the host and no Aslet to ask: the links go down, or all of it is asleep. -/
theorem sleepStep_lowers (hl : s.aslet.lowReady = true) :
    (s.aslet.lowRate = true → s.sleepStep.aslet.state = s.aslet.state) ∧
    (s.aslet.lowRate = false → s.sleepStep.aslet.state = 0 ∧ s.sleepStep.aslet.tunnel = false) ∧
    ((∃ l, l < 96 ∧ (s.link l).state ≠ 0) → s.sleepStep.power = s.power ∧ SameSquares s s.sleepStep ∧ s.sleepStep.parts = s.parts ∧
      s.sleepStep.dram = s.dram ∧ ∀ l, l < 96 → (s.sleepStep.link l).state = 0) ∧
    ((∀ l, l < 96 → (s.link l).state = 0) → s.sleepStep.power.state = .sleep ∧ s.sleepStep.power.sleepEntry = false ∧
      s.sleepStep.power.aonLow = true) := by
  obtain ⟨hlow1, hlow2⟩ := asletLowers_state s
  by_cases hup : ∃ l, l < 96 ∧ (s.link l).state ≠ 0
  · obtain ⟨l, hlt, hne⟩ := hup
    rw [sleepStep_lowers_links he hi hl hlt hne]
    refine ⟨hlow1, hlow2, fun _ => ⟨rfl, ⟨rfl, rfl, rfl⟩, rfl, rfl, fun k _ => ?_⟩, fun hall => absurd (hall l hlt) hne⟩
    rw [linksDown_link]
    rfl
  · have hdown : ∀ l, l < 96 → (s.link l).state = 0 := fun l hlt => by
      by_contra hne
      exact hup ⟨l, hlt, hne⟩
    obtain ⟨r, hr⟩ := (s.asletLowers.updPower (fun x =>
      { x with sleepEntry := false, padHeld := x.padHeld ||| 0x3FF0, aonLow := true })).toPower_power
      .sleep
    have hal : (s.asletLowers.sleepNow).aslet.unsent = s.asletLowers.aslet.unsent := State.toPower_keeps keptByFrames_aslet (fun _ _ => rfl)
      (s.asletLowers.updPower (fun x => { x with sleepEntry := false, padHeld := x.padHeld ||| 0x3FF0, aonLow := true })) .sleep
    have hstate : (s.asletLowers.sleepNow).aslet.state = s.asletLowers.aslet.state := (congrArg Aslet.state hal :)
    have htunnel : (s.asletLowers.sleepNow).aslet.tunnel = s.asletLowers.aslet.tunnel := (congrArg Aslet.tunnel hal :)
    rw [sleepStep_lowers_now he hi hl hdown, hstate, htunnel]
    exact ⟨hlow1, hlow2, fun h => absurd h hup, fun _ => ⟨(congrArg Power.state hr :), (congrArg Power.sleepEntry hr :),
      (congrArg Power.aonLow hr :)⟩⟩

end

theorem Aslet.lowReady_false {a : Aslet} (h1 : a.up = true) (h2 : a.lane0 = true) (h3 : a.lowRate = false) : a.lowReady = false := by
  unfold Aslet.lowReady
  rw [h1, h2, h3]
  rfl

theorem Aslet.lowReady_true {a : Aslet} (h : a.up = false ∨ a.lane0 = false ∨ a.lowRate = true) : a.lowReady = true := by
  unfold Aslet.lowReady
  obtain h | h | h := h <;> simp [h]

/-! ### WIDTH, HELLO, SLEEP_REQ and SLEEP_ACK -/

theorem onAsletCtrl_none {s : State} (h : s.aslet.arrived = []) (sub : Nat) (f : State → AsletTxn → State) (other : State) :
    onAsletCtrl sub s f other = .next other := by
  unfold onAsletCtrl
  rw [h]

/-- A HELLO with a common version settles it, and what waited goes out. -/
def Aslet.settles (a : Aslet) (v : Nat) : Aslet :=
  ({ a with version := v, credits := if a.version = v then a.credits else grantCredits v } : Aslet).drain

section
variable {s : State} {t : AsletTxn} {rest : List AsletTxn} (ha : s.aslet.arrived = t :: rest) (hk : t.kind = 7)
include ha hk

theorem execWidth_ctrl (hs : t.status = 2) : execWidth s = .next (if t.length = 16 ∨ t.length = 8 ∨ t.length = 4 then
    (s.asletTaken rest).updAslet (fun a => { a with width := t.length }) else (s.asletTaken rest).count 5) := by
  unfold execWidth
  exact onAsletCtrl_taken ha hk hs _ _

theorem execAsletHello_ctrl (hs : t.status = 1) : execAsletHello s = .next (if min (s.service.maxima.getD 2 0) t.length = 0 then
    (s.asletTaken rest).asletFall 4 0x05 else
    (s.asletTaken rest).updAslet (fun a => a.settles (min (s.service.maxima.getD 2 0) t.length))) := by
  unfold execAsletHello
  exact onAsletCtrl_taken ha hk hs _ _

theorem execSleepReq_ctrl (hs : t.status = 3) : execSleepReq s = .next (s.asletTaken rest) := by
  unfold execSleepReq
  exact onAsletCtrl_taken ha hk hs _ _

theorem execSleepAck_ctrl (hs : t.status = 4) : execSleepAck s = .next ((s.asletTaken rest).updAslet (fun a =>
    { a with lowRate := true, sleepAsked := false, state := if s.aslet.sleepAsked && s.power.sleepEntry then a.state else 1 })) := by
  unfold execSleepAck
  exact onAsletCtrl_taken ha hk hs _ _

end

theorem execSleepReq_none {s : State} (h : s.aslet.arrived = []) : execSleepReq s = .next s.sleepStep := by
  unfold execSleepReq
  exact onAsletCtrl_none h ..

theorem asletTaken_core (s : State) (rest : List AsletTxn) : SameCore s (s.asletTaken rest) := State.updAslet_core ..

/-- Settles O46: every row changes the Aslet link alone; training, the frames and the resend are followed by what of the link sending
leaves as it is. -/
theorem asletLink : Obligations.AsletLink := by
  intro s t rest a only ctrl
  have honly : ∀ {u : State}, SameCore s u → only u := fun h => h.units
  refine ⟨fun lanes peer => ?_, fun lanes peer h => execAsletTraining_off h lanes peer, fun frame hh => ⟨fun hd => ?_, fun d hd hb => ?_,
    fun d hd => ?_⟩, fun frame hh => execAsletFrameReceived_deaf hh frame, fun f more hr hu => ?_, fun h => execAsletAckTimeout_none h,
    fun ⟨ha, hk, hs⟩ hl => ?_, fun ⟨ha, hk, hs⟩ => ?_, fun ⟨ha, hk, hs⟩ h1 h2 h3 => ?_, fun ⟨ha, hk, hs⟩ => ?_, fun ha hno => ?_,
    fun ha he hi => ?_, fun ⟨ha, hk, hs⟩ => ?_⟩
  · intro v hio
    have hrun : exec (.asletTraining lanes peer) s = .next ((s.asletTrained lanes peer).laneTold (lanes.working.contains 0)) :=
      execAsletTraining_on hio lanes peer
    have hcore := asletTrained_core s lanes peer
    obtain ⟨ht1, ht2, ht3, ht4⟩ := laneTold_effect (s.asletTrained lanes peer) (lanes.working.contains 0)
    have hstate := (congrArg Aslet.state ht2 :)
    have htunnel := (congrArg Aslet.tunnel ht2 :)
    refine ⟨_, hrun, honly (hcore.trans ht1), fun h0 => ⟨(s.asletTrained lanes peer).events, ?_⟩, fun hw => ?_, fun hw h0 => ?_,
      fun w hw hv => ?_, fun w hw hv h0 => ?_, fun w hw hv => ?_⟩
    · obtain ⟨hnow, -⟩ := hcore
      rw [ht4 h0, hnow]
    · rw [asletTrained_none hw] at hstate htunnel ⊢
      obtain ⟨f1, f2⟩ := s.asletFall_state 0 0x02
      exact ⟨hstate.trans f1, htunnel.trans f2⟩
    · rw [ht3 h0, asletTrained_none hw]
      exact State.asletFall_events ..
    · rw [asletTrained_some hw, asletSettle_refused hv] at hstate htunnel ⊢
      obtain ⟨f1, f2⟩ := (s.asletRefuses w (lanes.working.contains 0)).asletFall_state 4 0x05
      exact ⟨hstate.trans f1, htunnel.trans f2⟩
    · rw [ht3 h0, asletTrained_some hw, asletSettle_refused hv]
      exact State.asletFall_events ..
    · obtain ⟨-, c1, c2, c3, c4, c5, c6, c7, c8⟩ := asletConnects_effect s w (lanes.working.contains 0) peer
      rw [asletTrained_some hw, asletSettle_connects hv, c8] at ht2 ht3 ⊢
      generalize s.asletConnects w (lanes.working.contains 0) peer = z at ht2 ht3 c1 c2 c3 c4 c5 c6 c7
      cases hsent : s.aslet.retained.any (fun f => decide (16 ≤ f.sends + 1))
      case false =>
        rw [hsent, if_neg Bool.false_ne_true] at ht2 ht3
        rw [if_neg Bool.false_ne_true]
        refine ⟨(congrArg Aslet.width ht2 :).trans c2, (congrArg Aslet.version ht2 :).trans c3, (congrArg Aslet.lowRate ht2 :).trans c4,
          (congrArg Aslet.lane0 ht2 :).trans c5, fun _ => ⟨(congrArg Aslet.state ht2 :).trans c6, (congrArg Aslet.tunnel ht2 :).trans c7,
            fun h0 => by rw [ht3 h0]; exact c1⟩, fun ⟨f, hf, hge⟩ => ?_⟩
        exact absurd (decide_eq_true hge) (List.any_eq_false.mp hsent f hf)
      case true =>
        rw [hsent, if_pos rfl] at ht2 ht3
        rw [if_pos rfl]
        have hall := ht2.trans (z.asletFall_unsent 0 0x03)
        obtain ⟨f, hf, hge⟩ := List.any_eq_true.mp hsent
        refine ⟨(congrArg Aslet.width hall :).trans c2, (congrArg Aslet.version hall :).trans c3, (congrArg Aslet.lowRate hall :).trans c4,
          (congrArg Aslet.lane0 hall :).trans c5, fun hlt => ?_, fun _ => ⟨(congrArg Aslet.state hall :), (congrArg Aslet.tunnel hall :)⟩⟩
        exact absurd (hlt f hf) (Nat.not_lt.mpr (of_decide_eq_true hge))
  · exact execAsletFrameReceived_lost hh hd
  · exact execAsletFrameReceived_bad hh hd hb
  · intro b h hb
    obtain ⟨h1, h2, h3⟩ := asletGood_effect s b
    exact ⟨_, execAsletFrameReceived_good hh hd hb, honly h1, h2, h3⟩
  · refine ⟨_, execAsletAckTimeout_resends hr hu, ?_⟩
    have hcore : SameCore s (s.updAslet (fun a => a.resent f)) := State.updAslet_core ..
    cases hsent : (s.aslet.resent f).sentOut
    case false =>
      rw [if_neg Bool.false_ne_true]
      refine ⟨honly hcore, rfl, rfl, fun _ => ⟨rfl, rfl, rfl⟩, fun ⟨g, hg, hge⟩ => ?_⟩
      exact absurd (decide_eq_true hge) (List.any_eq_false.mp hsent g hg)
    case true =>
      rw [if_pos rfl]
      obtain ⟨h1, h2⟩ := asletFall_silent (s.updAslet (fun a => a.resent f)) 0x03
      obtain ⟨f1, f2⟩ := (s.updAslet (fun a => a.resent f)).asletFall_state 0 0x03
      obtain ⟨g, hg, hge⟩ := List.any_eq_true.mp hsent
      refine ⟨honly (hcore.trans (State.asletFall_core ..)), h1, h2, fun hlt => ?_, fun _ => ⟨f1, f2, State.asletFall_events ..⟩⟩
      exact absurd (hlt g (h2 ▸ hg)) (Nat.not_lt.mpr (of_decide_eq_true hge))
  · exact ⟨_, (execWidth_ctrl ha hk hs).trans (congrArg Host.Outcome.next (if_pos hl)),
      honly ((asletTaken_core s rest).trans (State.updAslet_core ..)), rfl⟩
  · intro v
    refine ⟨_, execAsletHello_ctrl ha hk hs, ?_⟩
    by_cases hv : v = 0
    · rw [if_pos hv]
      exact ⟨honly ((asletTaken_core s rest).trans (State.asletFall_core ..)), fun _ => State.asletFall_state .., fun hn => absurd hv hn⟩
    · rw [if_neg hv]
      have hset := Aslet.drain_unsent ({ (s.asletTaken rest).aslet with
        version := v, credits := if (s.asletTaken rest).aslet.version = v then (s.asletTaken rest).aslet.credits else grantCredits v } : Aslet)
      exact ⟨honly ((asletTaken_core s rest).trans (State.updAslet_core ..)), fun h => absurd h hv,
        fun _ => ⟨(congrArg Aslet.version hset :), (congrArg Aslet.state hset :), (congrArg Aslet.arrived hset :)⟩⟩
  · have hbad : ¬ (t.length = 16 ∨ t.length = 8 ∨ t.length = 4) := by omega
    exact ⟨_, (execWidth_ctrl ha hk hs).trans (congrArg Host.Outcome.next (if_neg hbad)),
      honly ((asletTaken_core s rest).trans (State.count_core ..)), rfl, State.counter_count ..⟩
  · exact ⟨_, execSleepReq_ctrl ha hk hs, honly (asletTaken_core s rest), rfl, rfl⟩
  · refine (execSleepReq_none ha).trans (congrArg Host.Outcome.next ?_)
    unfold State.sleepStep
    exact if_pos (by obtain h | h := hno <;> simp [h])
  · refine ⟨_, execSleepReq_none ha, fun h1 h2 h3 => ?_, fun hlow => sleepStep_lowers he hi (Aslet.lowReady_true hlow)⟩
    have hl := Aslet.lowReady_false h1 h2 h3
    obtain ⟨p1, p2, -⟩ := sleepStep_asks he hi hl
    exact ⟨honly (sleepStep_asks_core he hi hl), p2, p1, fun hask => sleepStep_asked he hi hl hask⟩
  · refine ⟨_, execSleepAck_ctrl ha hk hs, honly ((asletTaken_core s rest).trans (State.updAslet_core ..)), rfl, rfl, rfl, rfl,
      fun h1 h2 => ?_, fun hno => ?_⟩
    · exact if_pos (Bool.and_eq_true_iff.mpr ⟨h1, h2⟩)
    · refine if_neg (fun hb => ?_)
      obtain ⟨hask, hent⟩ := Bool.and_eq_true_iff.mp hb
      exact hno.elim (fun h => absurd (hask.symm.trans h) (by decide)) (fun h => absurd (hent.symm.trans h) (by decide))

end Sys2Proof.Machine
end

section
/-!
PROOFS. A chip link's training, its frames and their resending, the cables of a group and the management beacon (R331 to R335, R339, R401,
R490).
-/

namespace Sys2Proof.Machine

open Sys2Proof

/-! ### Lanes that all work -/

theorem fillLanes_nil (base spares : List Nat) : fillLanes [] base spares = base := by
  induction base with
  | nil => rfl
  | cons c r ih =>
    change c :: fillLanes [] r spares = _
    rw [ih]

theorem deadLanes_nil {rep : LaneReport} {base : List Nat} (h : ∀ c ∈ base, rep.working.contains c = true) : deadLanes rep base = [] :=
  List.filter_eq_nil_iff.mpr fun c hc => by rw [h c hc]; simp

/-- A delivery of lanes that all work is taken as it is. -/
theorem assignLanes_map {rep : LaneReport} {l : Nat} {cur : List Nat} {planned : Bool}
    (h : ∀ c ∈ baseLanes l planned cur, rep.working.contains c = true)
    (free failed : List Nat) (claims : Nat) : (assignLanes l planned cur free failed claims rep).map = baseLanes l planned cur := by
  unfold assignLanes
  dsimp only
  rw [deadLanes_nil h, fillLanes_nil]

/-- A link's lanes of delivery (R329). -/
def deliveryLanes (l : Nat) : List Nat := (List.range 4).map (fun i => 4 * (l % 8) + i)

theorem liveLanes_delivery (l : Nat) : liveLanes (deliveryLanes l) = 4 := by
  have hall : (deliveryLanes l).filter (fun c => decide (c ≠ noLane)) = deliveryLanes l := List.filter_eq_self.mpr fun c hc => by
    obtain ⟨i, hi, rfl⟩ := List.mem_map.mp hc
    have hi4 := List.mem_range.mp hi
    exact decide_eq_true (by unfold noLane; omega)
  rw [liveLanes, hall]
  rfl

/-! ### Taking the lanes -/

theorem State.takeLanes_keeps {β : Type} {g : State → β} {l : Nat} (hf : KeptByFrames g) (hg : ∀ s n f, g (State.updGroup s n f) = g s)
    (hc : ∀ s n, g (State.updLink s l (fun x => x.count 3 n)) = g s) (s : State) (rx dc : Bool) (rep : LaneReport) (o : LaneOutcome) :
    g (s.takeLanes l rx dc rep o) = g s :=
  (foldl_keeps g _ _ fun _ _ => hf.raise ..).trans ((foldl_keeps g _ _ fun _ _ => hf.raise ..).trans ((hc ..).trans (hg ..)))

/-- What a training finds of the module: the link but its counts, and the versions this end supports. -/
def State.trainee (s : State) (l : Nat) : Link × Service := ({ s.link l with counters := [] }, s.service)

theorem State.takeLanes_trainee (s : State) (l : Nat) (rx dc : Bool) (rep : LaneReport) (o : LaneOutcome) :
    (s.takeLanes l rx dc rep o).trainee l = s.trainee l := by
  refine State.takeLanes_keeps (g := fun t => t.trainee l) ?_ (fun _ _ _ => rfl) (fun s n => ?_) s rx dc rep o
  · exact ⟨fun _ _ _ => rfl, fun _ _ => rfl, fun _ _ => rfl, fun _ _ _ => rfl, fun _ => rfl, fun _ => rfl⟩
  · have h := congrArg (fun y : Link => (({ y with counters := [] } : Link), s.service)) (s.link_updLink_same l (fun x => x.count 3 n))
    exact h

/-- A training with every lane of delivery working takes those lanes. -/
def State.takesDelivery (s : State) (l : Nat) (rx tx : LaneReport) : State :=
  let x := s.link l
  let g := s.group (l / 8)
  let ot := assignLanes l x.planned x.txLanes (g.sparesTx ++ x.swapTx.toList.map (fun w => w.spare)) (g.failedIn false)
    (s.spareClaims l tx (fun y => y.txLanes)) tx
  let or_ := assignLanes l x.planned x.rxLanes (g.sparesRx ++ x.swapRx.toList.map (fun w => w.spare)) (g.failedIn true)
    (s.spareClaims l rx (fun y => y.rxLanes)) rx
  ((s.takeLanes l false true tx ot).takeLanes l true true rx or_).updLink l (fun y =>
    { y with txLanes := deliveryLanes l, rxLanes := deliveryLanes l })

theorem State.takesDelivery_trainee (s : State) (l : Nat) (rx tx : LaneReport) : (s.takesDelivery l rx tx).trainee l =
    ({ s.link l with counters := [], txLanes := deliveryLanes l, rxLanes := deliveryLanes l }, s.service) := by
  have hlanes : ∀ t : State, (t.updLink l (fun y => { y with txLanes := deliveryLanes l, rxLanes := deliveryLanes l })).trainee l =
      ({ (t.trainee l).1 with txLanes := deliveryLanes l, rxLanes := deliveryLanes l }, (t.trainee l).2) := fun t => by
    unfold State.trainee
    rw [State.link_updLink_same]
    rfl
  refine (hlanes _).trans ?_
  rw [State.takeLanes_trainee, State.takeLanes_trainee]
  rfl

theorem exec_linkTraining {s : State} {l : Nat} {rx tx : LaneReport} (peer : PeerReport) (hl : l < 96) (hst : (s.link l).state = 1)
    (hrx : ∀ c ∈ deliveryLanes l, rx.working.contains c = true) (htx : ∀ c ∈ deliveryLanes l, tx.working.contains c = true) :
    exec (.linkTraining l rx tx peer) s = .next (((s.takesDelivery l rx tx).settleLink l false peer).endTraining l) := by
  have hplanned : (s.link l).planned = true := by rw [Link.planned, hst]; rfl
  have hbase : ∀ cur, baseLanes l (s.link l).planned cur = deliveryLanes l := fun cur => by rw [hplanned]; rfl
  have hmap : ∀ {rep : LaneReport}, (∀ c ∈ deliveryLanes l, rep.working.contains c = true) → ∀ cur free failed claims,
      (assignLanes l (s.link l).planned cur free failed claims rep).map = deliveryLanes l := fun hrep cur free failed claims =>
    (assignLanes_map (by rw [hbase]; exact hrep) free failed claims).trans (hbase cur)
  change execLinkTraining l rx tx peer s = _
  unfold execLinkTraining
  refine (onUnit_next (decide_eq_true hl) _).trans (congrArg Host.Outcome.next ?_)
  dsimp only
  rw [if_neg (by omega), hmap htx, hmap hrx, liveLanes_delivery, if_neg (by decide), if_neg (by decide), if_pos (by decide),
    show decide ((s.link l).state = 1) = true from decide_eq_true hst]
  rfl

/-! ### What sending leaves of a link's key list and of its kept frames -/

theorem slotListed_put (t : Tab KeySlot) (n : Nat) (k : KeySlot) (slot : Nat) :
    slotListed (Tab.put t n k) slot = (decide (n = slot) || slotListed t slot) := by
  induction t with
  | nil => rfl
  | cons e t ih =>
    unfold Tab.put
    split_ifs with h1 h2
    · unfold slotListed
      rw [List.any_cons, List.any_cons, h1, ← Bool.or_assoc, Bool.or_self]
    · rfl
    · unfold slotListed at ih ⊢
      rw [List.any_cons, List.any_cons, ih, Bool.or_left_comm]

/-- A link but for what sending changes, with whether it has a link key. -/
def Link.settled (x : Link) : Link × Bool := (x.unsent, slotListed x.txKeys 0)

theorem Link.sendFrames_keys (slot : Nat) (l : List (List Byte)) (x : Link) : (x.sendFrames slot l).txKeys = x.txKeys := by
  induction l generalizing x with
  | nil => rfl
  | cons b l ih => exact ih _

theorem Link.emit_listed (x : Link) (t : Txn) : slotListed (x.emit t).txKeys 0 = slotListed x.txKeys 0 := by
  unfold Link.emit
  rw [Link.sendFrames_keys]
  dsimp only
  split
  next h =>
    rw [slotListed_put]
    by_cases h0 : t.keySlot = 0
    · rw [h0] at h
      rw [decide_eq_true h0, h]
      rfl
    · rw [decide_eq_false h0]
      rfl
  next => rfl

theorem Link.send_listed (x : Link) (now : Nat) (t : Txn) : slotListed (x.send now t).txKeys 0 = slotListed x.txKeys 0 := by
  unfold Link.send
  split
  · rw [Link.emit_listed]
    split
    · split <;> rfl
    · rfl
  · rfl

theorem Link.send_settled (x : Link) (now : Nat) (t : Txn) : (x.send now t).settled = x.settled :=
  Prod.ext (x.send_unsent now t) (x.send_listed now t)

theorem Link.drain_settled (x : Link) (now : Nat) : (x.drain now).settled = x.settled :=
  List.foldlRecOn x.waiting _ (motive := fun y : Link => y.settled = x.settled) rfl (fun y ih t _ => (y.send_settled now t).trans ih)

theorem keptBySending_settled (l : Nat) : KeptBySending (fun t => (t.link l).settled) := fun s n t => by
  dsimp only
  rw [State.sendTxn_link]
  split
  next h => rw [Link.send_settled, h]
  next => rfl

theorem keptByHolds_settled (l p : Nat) : KeptByHolds (fun t => (t.link l).settled) p where
  frames := ⟨fun _ _ _ => rfl, fun _ _ => rfl, fun _ _ => rfl, fun _ _ _ => rfl, fun _ => rfl, fun _ => rfl⟩
  sending := keptBySending_settled l
  holds _ _ _ := rfl

/-- A link that has kept more frames, all sent once. -/
def Link.KeepsMore (x y : Link) : Prop := ∃ l, y.retained = x.retained ++ l ∧ ∀ f ∈ l, f.sends = 1

theorem Link.KeepsMore.refl (x : Link) : x.KeepsMore x := ⟨[], (List.append_nil _).symm, fun _ h => absurd h List.not_mem_nil⟩

theorem Link.KeepsMore.trans {x y z : Link} (h : x.KeepsMore y) (k : y.KeepsMore z) : x.KeepsMore z := by
  obtain ⟨l, hl, hs⟩ := h
  obtain ⟨m, hm, ht⟩ := k
  refine ⟨l ++ m, by rw [hm, hl, List.append_assoc], fun f hf => ?_⟩
  exact (List.mem_append.mp hf).elim (hs f) (ht f)

theorem Link.sendFrames_more (slot : Nat) (l : List (List Byte)) (x : Link) : x.KeepsMore (x.sendFrames slot l) := by
  induction l generalizing x with
  | nil => exact Link.KeepsMore.refl x
  | cons b l ih =>
    refine Link.KeepsMore.trans ⟨[{ seq := x.txSeq, flits := b, sends := 1, slot := slot }], rfl, fun f hf => ?_⟩ (ih _)
    rw [List.mem_singleton.mp hf]

theorem Link.emit_more (x : Link) (t : Txn) : x.KeepsMore (x.emit t) := by
  obtain ⟨l, hl, hs⟩ := Link.sendFrames_more t.keySlot (frameBodies 8 (txnFlits
    (if slotListed x.txKeys t.keySlot then some (Tab.get ({} : KeySlot) x.txKeys t.keySlot).key else none)
    (Tab.get ({} : KeySlot) x.txKeys t.keySlot).count t))
    { x with txKeys := if slotListed x.txKeys t.keySlot then Tab.put x.txKeys t.keySlot { Tab.get ({} : KeySlot) x.txKeys t.keySlot with
        count := (Tab.get ({} : KeySlot) x.txKeys t.keySlot).count + 1 } else x.txKeys, out := x.out ++ [LinkOut.txn t] }
  exact ⟨l, hl, hs⟩

theorem Link.send_more (x : Link) (now : Nat) (t : Txn) : x.KeepsMore (x.send now t) := by
  unfold Link.send
  split
  · refine Link.KeepsMore.trans ⟨[], ?_, fun _ h => absurd h List.not_mem_nil⟩ (Link.emit_more _ t)
    rw [List.append_nil]
    split
    · split <;> rfl
    · rfl
  · exact Link.KeepsMore.refl x

theorem Link.drain_more (x : Link) (now : Nat) : x.KeepsMore (x.drain now) :=
  List.foldlRecOn x.waiting _ (motive := fun y : Link => x.KeepsMore y) (Link.KeepsMore.refl x) (fun y hy t _ => hy.trans (y.send_more now t))

/-- Frames sent once do not make a link sent out. -/
theorem Link.KeepsMore.sentOut {x y : Link} (h : x.KeepsMore y) : y.sentOut = x.sentOut := by
  obtain ⟨l, hl, hs⟩ := h
  have hnew : l.any (fun f => decide (16 ≤ f.sends)) = false := List.any_eq_false.mpr fun f hf => by
    rw [hs f hf]
    decide
  rw [Link.sentOut, hl, List.any_append, hnew, Bool.or_false]
  rfl

theorem State.sendAll_keeps {β : Type} {g : State → β} (hg : KeptBySending g) (s : State) (l : Nat) (ts : List Txn) :
    g (s.sendAll l ts) = g s := foldl_keeps g ts s (fun _ _ => hg ..)

theorem State.sendAll_more (s : State) (l : Nat) (ts : List Txn) : (s.link l).KeepsMore ((s.sendAll l ts).link l) :=
  List.foldlRecOn ts _ (motive := fun u : State => (s.link l).KeepsMore (u.link l)) (Link.KeepsMore.refl _) fun u hu t _ => by
    refine hu.trans ?_
    rw [State.sendTxn_link, if_pos rfl]
    exact Link.send_more ..

/-! ### Version, identity and key -/

theorem State.takeStream_empty {s : State} {l : Nat} (h : (s.link l).stream = []) : s.takeStream l = s := by
  unfold State.takeStream
  rw [h]
  unfold State.takeTrains
  dsimp only
  rw [h]
  exact if_pos (by decide)

theorem State.linkRefused_link (s : State) (l detail : Nat) : (s.linkRefused l detail).link l = { s.link l with state := 4, version := 0 } := by
  have h : ((s.updLink l (fun x => { x with state := 4, version := 0 })).linkEvent 0x51 detail l none).link l =
      { s.link l with state := 4, version := 0 } := (State.raise_link ..).trans (State.link_updLink_same ..)
  unfold State.linkRefused
  dsimp only
  split
  · exact (State.raise_link ..).trans h
  · exact h

/-- A link that has met its peer: its lanes stand, nothing is kept or held in part, the peer is known. -/
theorem Link.meet_effect {x : Link} (hr : x.retained = []) (hs : x.stream = []) (n : Nat) (peer : PeerReport) :
    (x.meet n peer).rxLanes = x.rxLanes ∧ (x.meet n peer).txLanes = x.txLanes ∧ (x.meet n peer).peerSerial = peer.serial ∧
    (x.meet n peer).stream = [] ∧ (x.meet n peer).sentOut = false := by
  unfold Link.meet
  dsimp only
  split
  · refine ⟨rfl, rfl, rfl, hs, ?_⟩
    rw [Link.sentOut, hr]
    rfl
  · exact ⟨rfl, rfl, rfl, rfl, rfl⟩

/-- The state in which a link has met its peer and said HELLO. -/
def State.greets (s : State) (l : Nat) (peer : PeerReport) : State :=
  (({ s with fresh := s.fresh + 1 } : State).updLink l (fun x => x.meet s.fresh peer)).sendAll l
    (trainingHello (s.service.maxima.getD 3 0) s.fresh (s.link l).rxLanes)

/-- The state in which it has sent its identity too. -/
def State.identifies (s : State) (l : Nat) (peer : PeerReport) : State := (s.greets l peer).sendAll l (trainingIdentity s.fresh)

theorem State.greets_link (s : State) (l : Nat) (peer : PeerReport) :
    (((s.greets l peer).link l).settled = ((s.link l).meet s.fresh peer).settled ∧
      ((s.link l).meet s.fresh peer).KeepsMore ((s.greets l peer).link l)) := by
  have h0 : ((({ s with fresh := s.fresh + 1 } : State).updLink l (fun x => x.meet s.fresh peer)).link l) = (s.link l).meet s.fresh peer :=
    State.link_updLink_same ..
  have h1 := State.sendAll_keeps (keptBySending_settled l) (({ s with fresh := s.fresh + 1 } : State).updLink l (fun x => x.meet s.fresh peer)) l
    (trainingHello (s.service.maxima.getD 3 0) s.fresh (s.link l).rxLanes)
  have h2 := State.sendAll_more (({ s with fresh := s.fresh + 1 } : State).updLink l (fun x => x.meet s.fresh peer)) l
    (trainingHello (s.service.maxima.getD 3 0) s.fresh (s.link l).rxLanes)
  rw [h0] at h1 h2
  exact ⟨h1, h2⟩

theorem State.identifies_link (s : State) (l : Nat) (peer : PeerReport) :
    (((s.identifies l peer).link l).settled = ((s.link l).meet s.fresh peer).settled ∧
      ((s.link l).meet s.fresh peer).KeepsMore ((s.identifies l peer).link l)) := by
  obtain ⟨h1, h2⟩ := s.greets_link l peer
  exact ⟨(State.sendAll_keeps (keptBySending_settled l) (s.greets l peer) l (trainingIdentity s.fresh)).trans h1,
    h2.trans ((s.greets l peer).sendAll_more l (trainingIdentity s.fresh))⟩

/-- The link after a training with a peer that proves its identity, before what waited goes out. -/
def State.connected (s : State) (l : Nat) (peer : PeerReport) : Link :=
  ((s.identifies l peer).link l).connect (linkKey s.fresh) false (min (s.service.maxima.getD 3 0) peer.version) peer

section
variable {s : State} {l : Nat} {peer : PeerReport} (hr : (s.link l).retained = []) (hs : (s.link l).stream = [])

theorem settleLink_noVersion (hv : min (s.service.maxima.getD 3 0) peer.version = 0) :
    s.settleLink l false peer = (s.greets l peer).linkRefused l 0x05 := by
  unfold State.settleLink
  exact if_pos hv

theorem settleLink_unproved (hv : min (s.service.maxima.getD 3 0) peer.version ≠ 0) (hp : (peer.chainOk && peer.signatureOk) = false) :
    s.settleLink l false peer = (s.identifies l peer).linkRefused l 0x04 := by
  unfold State.settleLink
  exact (if_neg hv).trans (if_pos (by rw [hp]; rfl))

include hr hs

theorem settleLink_connects (hv : min (s.service.maxima.getD 3 0) peer.version ≠ 0) (hp : (peer.chainOk && peer.signatureOk) = true) :
    ((s.settleLink l false peer).link l).settled = (s.connected l peer).settled := by
  obtain ⟨hset, hmore⟩ := s.identifies_link l peer
  obtain ⟨-, -, -, hstream, hout⟩ := Link.meet_effect hr hs s.fresh peer
  let u := (s.identifies l peer).updLink l (fun x =>
    (x.connect (linkKey s.fresh) false (min (s.service.maxima.getD 3 0) peer.version) peer).drain s.now)
  have hlink : u.link l = (s.connected l peer).drain s.now := State.link_updLink_same ..
  have hsent : (u.link l).sentOut = false := by
    rw [hlink, (Link.drain_more ..).sentOut]
    exact hmore.sentOut.trans hout
  have hempty : (u.link l).stream = [] := by
    rw [hlink]
    exact (congrArg Link.stream (Link.drain_unsent ..)).trans ((congrArg (fun y => Link.stream y.1) hset).trans hstream)
  have hu : s.settleLink l false peer = u := by
    unfold State.settleLink
    refine (if_neg hv).trans ((if_neg (by rw [hp]; decide)).trans ((if_neg ?_).trans (State.takeStream_empty hempty)))
    exact fun h => Bool.noConfusion (hsent.symm.trans h)
  rw [hu, hlink]
  exact Link.drain_settled ..

/-- What a training settles: lanes, and by version and identity the link's state. -/
theorem settleLink_effect : let u := (s.settleLink l false peer).link l
    let v := min (s.service.maxima.getD 3 0) peer.version
    u.rxLanes = (s.link l).rxLanes ∧ u.txLanes = (s.link l).txLanes ∧
    (v ≠ 0 → peer.chainOk = true → peer.signatureOk = true →
      u.state = 2 ∧ u.version = v ∧ u.roundTrip = peer.roundTrip ∧ u.peerSerial = peer.serial ∧ slotListed u.txKeys 0 = true) ∧
    (v = 0 ∨ peer.chainOk = false ∨ peer.signatureOk = false → u.state = 4 ∧ u.version = 0) := by
  intro u v
  obtain ⟨hrx, htx, hserial, -, -⟩ := Link.meet_effect hr hs s.fresh peer
  by_cases hv : v = 0
  · obtain ⟨hset, -⟩ := s.greets_link l peer
    have hu : u = { (s.greets l peer).link l with state := 4, version := 0 } := by
      change (s.settleLink l false peer).link l = _
      rw [settleLink_noVersion hv, State.linkRefused_link]
    rw [hu]
    exact ⟨(congrArg (fun y => Link.rxLanes y.1) hset).trans hrx, (congrArg (fun y => Link.txLanes y.1) hset).trans htx,
      fun h => absurd hv h, fun _ => ⟨rfl, rfl⟩⟩
  · obtain ⟨hset, -⟩ := s.identifies_link l peer
    cases hp : peer.chainOk && peer.signatureOk
    case false =>
      have hu : u = { (s.identifies l peer).link l with state := 4, version := 0 } := by
        change (s.settleLink l false peer).link l = _
        rw [settleLink_unproved hv hp, State.linkRefused_link]
      rw [hu]
      exact ⟨(congrArg (fun y => Link.rxLanes y.1) hset).trans hrx, (congrArg (fun y => Link.txLanes y.1) hset).trans htx,
        fun _ hc hsig => by rw [hc, hsig] at hp; exact Bool.noConfusion hp, fun _ => ⟨rfl, rfl⟩⟩
    case true =>
      have hu : u.settled = (s.connected l peer).settled := settleLink_connects hr hs hv hp
      have hfst := congrArg Prod.fst hu
      obtain ⟨hc, hsig⟩ := Bool.and_eq_true_iff.mp hp
      refine ⟨(congrArg Link.rxLanes hfst).trans ((congrArg (fun y => Link.rxLanes y.1) hset).trans hrx),
        (congrArg Link.txLanes hfst).trans ((congrArg (fun y => Link.txLanes y.1) hset).trans htx), fun _ _ _ => ⟨congrArg Link.state hfst,
        congrArg Link.version hfst, congrArg Link.roundTrip hfst,
        (congrArg Link.peerSerial hfst).trans ((congrArg (fun y => Link.peerSerial y.1) hset).trans hserial), ?_⟩, fun h => ?_⟩
      · refine (congrArg Prod.snd hu).trans ?_
        refine (slotListed_put ..).trans ?_
        rfl
      · rw [hc, hsig] at h
        exact h.elim (fun h => absurd h hv) fun h => h.elim Bool.noConfusion Bool.noConfusion

end

/-- LINK_TRAINING with every lane working. -/
theorem linkTraining_effect {s : State} {l : Nat} {rx tx : LaneReport} (peer : PeerReport) (hl : l < 96) (hst : (s.link l).state = 1)
    (hs : (s.link l).stream = []) (hr : (s.link l).retained = []) (hrx : ∀ c ∈ deliveryLanes l, rx.working.contains c = true)
    (htx : ∀ c ∈ deliveryLanes l, tx.working.contains c = true) :
    let v := min (s.service.maxima.getD 3 0) peer.version
    ∃ u : State, exec (.linkTraining l rx tx peer) s = .next u ∧ (u.link l).rxLanes = deliveryLanes l ∧ (u.link l).txLanes = deliveryLanes l ∧
      (v ≠ 0 → peer.chainOk = true → peer.signatureOk = true → (u.link l).state = 2 ∧ (u.link l).version = v ∧
        (u.link l).roundTrip = peer.roundTrip ∧ (u.link l).peerSerial = peer.serial ∧ slotListed (u.link l).txKeys 0 = true) ∧
      (v = 0 ∨ peer.chainOk = false ∨ peer.signatureOk = false → (u.link l).state = 4 ∧ (u.link l).version = 0) := by
  intro v
  have htrainee := s.takesDelivery_trainee l rx tx
  generalize htaken : s.takesDelivery l rx tx = w at htrainee
  have hfst := congrArg Prod.fst htrainee
  have hv : min (w.service.maxima.getD 3 0) peer.version = v := by rw [show w.service = s.service from congrArg Prod.snd htrainee]
  obtain ⟨h1, h2, h3, h4⟩ := settleLink_effect (s := w) (l := l) (peer := peer) ((congrArg Link.retained hfst).trans hr)
    ((congrArg Link.stream hfst).trans hs)
  rw [hv] at h3 h4
  have hend := State.releaseModule_keeps (fun p => keptByHolds_settled l p)
    ((w.settleLink l false peer).updLink l (fun x => { x with retrainHold := false, retrainMap := none })) (retrainCause l) 3
  rw [State.link_updLink_same] at hend
  refine ⟨_, exec_linkTraining peer hl hst hrx htx, ?_⟩
  rw [htaken]
  change (((w.settleLink l false peer).endTraining l).link l).settled = _ at hend
  generalize (w.settleLink l false peer).endTraining l = u at hend
  have hu := congrArg Prod.fst hend
  have hk := congrArg Prod.snd hend
  refine ⟨(congrArg Link.rxLanes hu).trans (h1.trans (congrArg Link.rxLanes hfst)),
    (congrArg Link.txLanes hu).trans (h2.trans (congrArg Link.txLanes hfst)), fun a b c => ?_, fun a => ?_⟩
  · obtain ⟨k1, k2, k3, k4, k5⟩ := h3 a b c
    exact ⟨(congrArg Link.state hu).trans k1, (congrArg Link.version hu).trans k2, (congrArg Link.roundTrip hu).trans k3,
      (congrArg Link.peerSerial hu).trans k4, hk.trans k5⟩
  · obtain ⟨k1, k2⟩ := h4 a
    exact ⟨(congrArg Link.state hu).trans k1, (congrArg Link.version hu).trans k2⟩

/-! ### Frames -/

theorem LinkOnly.refl (s : State) (l : Nat) : LinkOnly s s l := ⟨fun _ _ => rfl, rfl, rfl, rfl⟩

theorem LinkOnly.timeLost (s : State) (l : Nat) : LinkOnly s (s.timeLost l) l := by
  unfold State.timeLost
  split
  · exact ⟨fun _ _ => State.raise_link .., State.raise_parts .., State.raise_squares .., State.raise_dram ..⟩
  · exact LinkOnly.refl s l

theorem LinkOnly.linkFall (s : State) (l detail : Nat) (again : Bool) : LinkOnly s (s.linkFall l detail again) l :=
  (LinkOnly.updLink ..).trans ((LinkOnly.linkEvent ..).trans (LinkOnly.timeLost ..))

theorem State.timeLost_link (s : State) (l k : Nat) : (s.timeLost l).link k = s.link k := by
  unfold State.timeLost
  split
  · exact State.raise_link ..
  · rfl

theorem State.timeLost_group (s : State) (l k : Nat) : (s.timeLost l).group k = s.group k := by
  unfold State.timeLost
  split
  · exact State.raise_group ..
  · rfl

theorem State.linkFall_link (s : State) (l detail : Nat) (again : Bool) :
    (s.linkFall l detail again).link l = { (s.link l).count 5 1 with state := if again then 5 else 0 } :=
  (State.timeLost_link ..).trans ((State.raise_link ..).trans (State.link_updLink_same ..))

/-- The receiver of a chip link: the next frame in order, and those held behind a missing one. -/
def Link.receiver (x : Link) : Nat × List (Nat × List Byte) := (x.rxSeq, x.heldFrames)

theorem Link.receiver_of_unsent {x y : Link} (h : x.unsent = y.unsent) : x.receiver = y.receiver := (congrArg Link.receiver h :)

/-- A step of link l that leaves the rest of the module and the receiver. -/
def KeepsLinkRx (s u : State) (l : Nat) : Prop := LinkOnly s u l ∧ (u.link l).receiver = (s.link l).receiver

theorem KeepsLinkRx.refl (s : State) (l : Nat) : KeepsLinkRx s s l := ⟨LinkOnly.refl s l, rfl⟩

theorem KeepsLinkRx.trans {s t u : State} {l : Nat} (h : KeepsLinkRx s t l) (k : KeepsLinkRx t u l) : KeepsLinkRx s u l :=
  ⟨h.1.trans k.1, k.2.trans h.2⟩

theorem KeepsLinkRx.updLink (s : State) (l : Nat) {f : Link → Link} (h : (f (s.link l)).receiver = (s.link l).receiver) :
    KeepsLinkRx s (s.updLink l f) l := ⟨LinkOnly.updLink .., (congrArg Link.receiver (State.link_updLink_same ..)).trans h⟩

theorem KeepsLinkRx.updGroup (s : State) (l g : Nat) (f : LinkGroup → LinkGroup) : KeepsLinkRx s (s.updGroup g f) l := ⟨LinkOnly.updGroup .., rfl⟩

theorem KeepsLinkRx.linkEvent (s : State) (cls detail l : Nat) (lane : Option Nat) : KeepsLinkRx s (s.linkEvent cls detail l lane) l :=
  ⟨LinkOnly.linkEvent .., congrArg Link.receiver (State.raise_link ..)⟩

theorem KeepsLinkRx.linkFall (s : State) (l detail : Nat) (again : Bool) : KeepsLinkRx s (s.linkFall l detail again) l :=
  ⟨LinkOnly.linkFall .., (congrArg Link.receiver (State.linkFall_link ..)).trans rfl⟩

/-- A lane exchange that ends with a frame leaves the receiver (R353). -/
theorem KeepsLinkRx.exchange (s : State) (l : Nat) {f : Link → Link} (h : (f (s.link l)).receiver = (s.link l).receiver) (rx : Bool)
    (lane : Nat) : KeepsLinkRx s (((s.updLink l f).laneFails l rx lane).linkEvent 0x50 0x01 l (some lane)) l :=
  (KeepsLinkRx.updLink s l h).trans ((KeepsLinkRx.updGroup ..).trans (KeepsLinkRx.linkEvent ..))

theorem KeepsLinkRx.takeAck (s : State) (l ack : Nat) : KeepsLinkRx s (s.takeAck l ack) l := by
  have hdrain : KeepsLinkRx s (s.updLink l (fun y =>
      ({ y with retained := y.retained.filter (fun f => !ackCovers ack f.seq) }).drain s.now)) l :=
    KeepsLinkRx.updLink s l (Link.receiver_of_unsent (Link.drain_unsent ..))
  unfold State.takeAck
  dsimp only
  split
  · split
    · split
      · exact hdrain.trans (KeepsLinkRx.exchange _ l rfl ..)
      · exact hdrain
    · exact hdrain
  · exact hdrain

theorem KeepsLinkRx.resendFrame (s : State) (l seq : Nat) : KeepsLinkRx s (s.resendFrame l seq) l := by
  unfold State.resendFrame
  split
  · exact KeepsLinkRx.refl s l
  · dsimp only
    split
    · exact (KeepsLinkRx.updLink s l rfl).trans (KeepsLinkRx.linkFall ..)
    · exact KeepsLinkRx.updLink s l rfl

theorem Link.accept_receiver (x : Link) (t : Txn) : (x.accept t).receiver = x.receiver := by
  unfold Link.accept
  split <;> rfl

theorem KeepsLinkRx.takeTrains (n : Nat) (s : State) (l : Nat) : KeepsLinkRx s (State.takeTrains n s l) l := by
  induction n generalizing s with
  | zero => exact KeepsLinkRx.refl s l
  | succ n ih =>
    have hcut : ∀ k, KeepsLinkRx s (s.updLink l (fun y => { y with stream := y.stream.drop k })) l := fun k => KeepsLinkRx.updLink s l rfl
    unfold State.takeTrains
    dsimp only
    split
    · exact KeepsLinkRx.refl s l
    · split
      · exact (hcut 128).trans (ih _)
      · split
        · exact KeepsLinkRx.refl s l
        · split
          · exact KeepsLinkRx.refl s l
          · exact (hcut _).trans (ih _)
          · exact (hcut _).trans ((KeepsLinkRx.updLink _ l rfl).trans ((KeepsLinkRx.linkFall ..).trans (KeepsLinkRx.linkEvent ..)))
          · refine ((hcut _).trans (KeepsLinkRx.updLink _ l ?_)).trans (ih _)
            split
            · split
              · exact Link.accept_receiver ..
              · exact Link.accept_receiver ..
            · split <;> rfl

theorem KeepsLinkRx.takeStream (s : State) (l : Nat) : KeepsLinkRx s (s.takeStream l) l := KeepsLinkRx.takeTrains ..

/-- A frame that is delivered moves the receiver past it. -/
theorem deliverFrame_effect (s : State) (l seq : Nat) (flits : List Byte) : LinkOnly s (s.deliverFrame l seq flits) l ∧
    ((s.deliverFrame l seq flits).link l).receiver = ((seq + 1) % 4096, (s.link l).heldFrames) := by
  let s1 := s.updLink l (fun y => { y with rxSeq := (seq + 1) % 4096, stream := y.stream ++ flits })
  have h1 : LinkOnly s s1 l := LinkOnly.updLink ..
  have hrx : (s1.link l).receiver = ((seq + 1) % 4096, (s.link l).heldFrames) := congrArg Link.receiver (State.link_updLink_same ..)
  have hend : ∀ u, KeepsLinkRx s1 u l → LinkOnly s (u.takeStream l) l ∧ ((u.takeStream l).link l).receiver =
      ((seq + 1) % 4096, (s.link l).heldFrames) := fun u hu => by
    obtain ⟨hk, hr⟩ := hu.trans (KeepsLinkRx.takeStream u l)
    exact ⟨h1.trans hk, hr.trans hrx⟩
  unfold State.deliverFrame
  dsimp only
  split
  · split
    · exact hend _ (KeepsLinkRx.exchange s1 l rfl ..)
    · exact hend _ (KeepsLinkRx.refl s1 l)
  · exact hend _ (KeepsLinkRx.refl s1 l)

theorem LinkOnly.deliverHeld (n : Nat) (s : State) (l : Nat) : LinkOnly s (State.deliverHeld n s l) l := by
  induction n generalizing s with
  | zero => exact LinkOnly.refl s l
  | succ n ih =>
    unfold State.deliverHeld
    dsimp only
    split
    · exact ((LinkOnly.updLink ..).trans (deliverFrame_effect ..).1).trans (ih _)
    · exact LinkOnly.refl s l

theorem deliverHeld_none (n : Nat) {s : State} {l : Nat} (h : (s.link l).heldFrames = []) : State.deliverHeld n s l = s := by
  cases n with
  | zero => rfl
  | succ n =>
    unfold State.deliverHeld
    dsimp only
    rw [h]
    rfl

theorem LinkOnly.orderFrame (s : State) (l seq : Nat) (flits : List Byte) : LinkOnly s (s.orderFrame l seq flits) l := by
  unfold State.orderFrame
  dsimp only
  split_ifs
  · exact ((deliverFrame_effect s l seq flits).1.trans (LinkOnly.deliverHeld 32 _ l)).trans (LinkOnly.updLink ..)
  · exact (LinkOnly.updLink ..).trans (LinkOnly.updLink ..)
  · exact LinkOnly.refl s l

/-- A frame in order with none held behind it moves the receiver on by one. -/
theorem orderFrame_next {s : State} {l seq : Nat} (h : seq = (s.link l).rxSeq) (hh : (s.link l).heldFrames = []) (flits : List Byte) :
    ((s.orderFrame l seq flits).link l).rxSeq = (seq + 1) % 4096 := by
  obtain ⟨-, hrx⟩ := deliverFrame_effect s l seq flits
  have hheld : ((s.deliverFrame l seq flits).link l).heldFrames = [] := (congrArg Prod.snd hrx).trans hh
  unfold State.orderFrame
  dsimp only
  rw [if_pos (by omega), deliverHeld_none 32 hheld, State.sendAck, State.link_updLink_same]
  exact congrArg Prod.fst hrx

/-- What a good frame brings before its own place is judged: acknowledged frames go, and one asked for goes again. -/
def State.ackTaken (s : State) (l h : Nat) : State :=
  if hdrNakValid h then (s.takeAck l (hdrAck h)).resendFrame l (hdrNak h) else s.takeAck l (hdrAck h)

theorem ackTaken_keeps (s : State) (l h : Nat) : KeepsLinkRx s (s.ackTaken l h) l := by
  unfold State.ackTaken
  split
  · exact (KeepsLinkRx.takeAck ..).trans (KeepsLinkRx.resendFrame ..)
  · exact KeepsLinkRx.takeAck ..

theorem goodFrame_eq (s : State) (l : Nat) (b : List Byte) : s.goodFrame l b =
    if hdrIdle (rd b 0 10) then
      (if hdrSeq (rd b 0 10) = ((s.ackTaken l (rd b 0 10)).link l).rxSeq then s.ackTaken l (rd b 0 10)
        else (s.ackTaken l (rd b 0 10)).sendNak l ((s.ackTaken l (rd b 0 10)).link l).rxSeq)
    else (s.ackTaken l (rd b 0 10)).orderFrame l (hdrSeq (rd b 0 10)) (b.drop 10) := rfl

/-- A good frame: an idle one leaves the receiver, one in order moves it on. -/
theorem goodFrame_effect (s : State) (l : Nat) (b : List Byte) : LinkOnly s (s.goodFrame l b) l ∧
    (hdrIdle (rd b 0 10) = true → ((s.goodFrame l b).link l).rxSeq = (s.link l).rxSeq) ∧
    (hdrIdle (rd b 0 10) = false → hdrSeq (rd b 0 10) = (s.link l).rxSeq → (s.link l).heldFrames = [] →
      ((s.goodFrame l b).link l).rxSeq = ((s.link l).rxSeq + 1) % 4096) := by
  obtain ⟨honly, hrx⟩ := ackTaken_keeps s l (rd b 0 10)
  have hseq : ((s.ackTaken l (rd b 0 10)).link l).rxSeq = (s.link l).rxSeq := congrArg Prod.fst hrx
  have hheld : ((s.ackTaken l (rd b 0 10)).link l).heldFrames = (s.link l).heldFrames := congrArg Prod.snd hrx
  rw [goodFrame_eq]
  cases hi : hdrIdle (rd b 0 10)
  case true =>
    rw [if_pos rfl]
    split
    · exact ⟨honly, fun _ => hseq, fun h => (nomatch h)⟩
    · refine ⟨honly.trans (LinkOnly.updLink ..), fun _ => ?_, fun h => (nomatch h)⟩
      exact (congrArg Link.rxSeq (State.link_updLink_same ..)).trans hseq
  case false =>
    rw [if_neg Bool.false_ne_true]
    refine ⟨honly.trans (LinkOnly.orderFrame ..), fun h => (nomatch h), fun _ hs hh => ?_⟩
    rw [orderFrame_next (hs.trans hseq.symm) (hheld.trans hh), hs]

theorem exec_linkFrameReceived_deaf {s : State} {l : Nat} (hl : l < 96) (h : (s.link l).hears = false) (frame : RawFrame) :
    exec (.linkFrameReceived l frame) s = .next s := by
  change execLinkFrameReceived l frame s = _
  unfold execLinkFrameReceived
  exact (onUnit_next (decide_eq_true hl) _).trans (congrArg Host.Outcome.next (if_pos (by rw [h]; rfl)))

/-- A link that has noted a frame's corrected symbols. -/
def Link.noted (x : Link) (now corrected : Nat) (frame : RawFrame) : Link := (x.count 0 corrected).noteErrors now frame

section
variable {s : State} {l : Nat} {frame : RawFrame} (hl : l < 96) (h : (s.link l).hears = true)
include hl h

theorem exec_linkFrameReceived_lost (hd : decodeFrame frame = none) :
    exec (.linkFrameReceived l frame) s = .next (s.sendNak l (s.link l).rxSeq) := by
  change execLinkFrameReceived l frame s = _
  unfold execLinkFrameReceived
  rw [onUnit_next (decide_eq_true hl), h, hd]
  rfl

variable {d : List (List Nat) × Nat} (hd : decodeFrame frame = some d)
include hd

theorem exec_linkFrameReceived_decoded : exec (.linkFrameReceived l frame) s = .next (
    if !frameCrcOk (frameBytes d.1) then
      ((s.updLink l (fun x => x.noted s.now d.2 frame)).updLink l (fun x => x.count 2 1)).sendNak l (s.link l).rxSeq
    else if hdrReserved (rd (frameBytes d.1) 0 10) ≠ 0 then (s.updLink l (fun x => x.noted s.now d.2 frame)).sendNak l (s.link l).rxSeq
    else (s.updLink l (fun x => x.noted s.now d.2 frame)).goodFrame l (frameBytes d.1)) := by
  change execLinkFrameReceived l frame s = _
  unfold execLinkFrameReceived
  rw [onUnit_next (decide_eq_true hl), h, hd, Bool.not_true, if_neg Bool.false_ne_true]
  rfl

end

/-- A link but its counts of errors. -/
def Link.uncounted (x : Link) : Link := { x with counters := [], corrected := [] }

theorem Link.idleOut_uncounted {x y : Link} (h : x.uncounted = y.uncounted) (nak : Option Nat) : x.idleOut nak = y.idleOut nak :=
  (congrArg (fun z : Link => z.idleOut nak) h :)

/-- Asking for a frame after nothing but errors were counted. -/
theorem sendNak_effect {s t : State} {l : Nat} (honly : LinkOnly s t l) (hlink : (t.link l).uncounted = (s.link l).uncounted)
    (hev : t.events = s.events) (seq : Nat) : let u := t.sendNak l seq
    (u.link l).rxSeq = (s.link l).rxSeq ∧ (u.link l).stream = (s.link l).stream ∧
    (u.link l).out = (s.link l).out ++ [(s.link l).idleOut (some seq)] ∧ (u.link l).arrived = (s.link l).arrived ∧ u.parts = s.parts ∧
    u.squares = s.squares ∧ u.dram = s.dram ∧ u.events = s.events ∧ OtherLinks s u l := by
  intro u
  have hu : u.link l = { t.link l with out := (t.link l).out ++ [(t.link l).idleOut (some seq)] } := State.link_updLink_same ..
  obtain ⟨hlinks, hparts, hsquares, hdram⟩ := honly.trans (LinkOnly.updLink t l (fun x => { x with out := x.out ++ [x.idleOut (some seq)] }))
  refine ⟨?_, ?_, ?_, ?_, hparts, hsquares, hdram, hev, hlinks⟩
  · exact (congrArg Link.rxSeq hu).trans (congrArg Link.rxSeq hlink :)
  · exact (congrArg Link.stream hu).trans (congrArg Link.stream hlink :)
  · refine (congrArg Link.out hu).trans ?_
    rw [Link.idleOut_uncounted hlink]
    exact congrArg (fun o : List LinkOut => o ++ [(s.link l).idleOut (some seq)]) (congrArg Link.out hlink :)
  · exact (congrArg Link.arrived hu).trans (congrArg Link.arrived hlink :)

/-- The state that has noted a frame's corrected symbols. -/
def State.notes (s : State) (l corrected : Nat) (frame : RawFrame) : State := s.updLink l (fun x => x.noted s.now corrected frame)

theorem State.notes_link (s : State) (l corrected : Nat) (frame : RawFrame) :
    ((s.notes l corrected frame).link l).uncounted = (s.link l).uncounted :=
  (congrArg Link.uncounted (State.link_updLink_same ..)).trans rfl

theorem linkFrameReceived_bad {s : State} {l : Nat} {frame : RawFrame} (hl : l < 96) (h : (s.link l).hears = true) {d : List (List Nat) × Nat}
    (hd : decodeFrame frame = some d) (hb : frameCrcOk (frameBytes d.1) = false ∨ hdrReserved (rd (frameBytes d.1) 0 10) ≠ 0) :
    ∃ t : State, exec (.linkFrameReceived l frame) s = .next (t.sendNak l (s.link l).rxSeq) ∧ LinkOnly s t l ∧
      (t.link l).uncounted = (s.link l).uncounted ∧ t.events = s.events := by
  have hexec := exec_linkFrameReceived_decoded hl h hd
  have hnotes : LinkOnly s (s.notes l d.2 frame) l := LinkOnly.updLink ..
  cases hcrc : frameCrcOk (frameBytes d.1)
  case false =>
    rw [hcrc] at hexec
    refine ⟨(s.notes l d.2 frame).updLink l (fun x => x.count 2 1), hexec, hnotes.trans (LinkOnly.updLink ..), ?_, rfl⟩
    exact (congrArg Link.uncounted (State.link_updLink_same ..)).trans (State.notes_link ..)
  case true =>
    have hres := hb.resolve_left (by rw [hcrc]; decide)
    rw [hcrc, Bool.not_true, if_neg Bool.false_ne_true, if_pos hres] at hexec
    exact ⟨s.notes l d.2 frame, hexec, hnotes, State.notes_link .., rfl⟩

theorem exec_linkFrameReceived_good {s : State} {l : Nat} {frame : RawFrame} (hl : l < 96) (h : (s.link l).hears = true)
    {d : List (List Nat) × Nat} (hd : decodeFrame frame = some d) (hcrc : frameCrcOk (frameBytes d.1) = true)
    (hres : hdrReserved (rd (frameBytes d.1) 0 10) = 0) :
    exec (.linkFrameReceived l frame) s = .next ((s.notes l d.2 frame).goodFrame l (frameBytes d.1)) := by
  have hexec := exec_linkFrameReceived_decoded hl h hd
  rw [hcrc, Bool.not_true, if_neg Bool.false_ne_true, if_neg (by rw [hres]; decide)] at hexec
  exact hexec

theorem State.updLink_congr {s : State} {l : Nat} {f h : Link → Link} (hf : f (s.link l) = h (s.link l)) : s.updLink l f = s.updLink l h := by
  change { s with links := Tab.put s.links l (f (s.link l)) } = { s with links := Tab.put s.links l (h (s.link l)) }
  rw [hf]

/-- The number asked for is the link's own. -/
theorem State.sendNak_own (s : State) (l : Nat) :
    s.sendNak l (s.link l).rxSeq = s.updLink l (fun y => { y with out := y.out ++ [y.idleOut (some y.rxSeq)] }) :=
  State.updLink_congr (by dsimp only)

/-! ### The oldest frame goes again -/

/-- A link after it has sent a kept frame again. -/
def Link.resent (x : Link) (f : SentFrame) : Link :=
  { x.count 1 1 with retained := x.retained.map (fun g => if g.seq = f.seq then { g with sends := g.sends + 1 } else g)
                     out := x.out ++ [x.frameOut f.seq f.flits] }

theorem exec_linkAckTimeout_resends {s : State} {l : Nat} {f : SentFrame} {rest : List SentFrame} (hl : l < 96)
    (h : (s.link l).retained = f :: rest) (hu : (s.link l).up = true) : exec (.linkAckTimeout l) s = .next (
      if ((s.link l).resent f).sentOut then (s.updLink l (fun x => x.resent f)).linkFall l 0x03 false
      else s.updLink l (fun x => x.resent f)) := by
  have hfind : (s.link l).retained.find? (fun g => decide (g.seq = f.seq)) = some f := by
    rw [h, List.find?_cons, decide_eq_true rfl]
  have hlink : (s.updLink l (fun x => x.resent f)).link l = (s.link l).resent f := State.link_updLink_same ..
  change execLinkAckTimeout l s = _
  unfold execLinkAckTimeout
  rw [onUnit_next (decide_eq_true hl), h]
  dsimp only
  rw [if_pos hu]
  unfold State.resendFrame
  rw [hfind, ← hlink]
  rfl

theorem exec_linkAckTimeout_none {s : State} {l : Nat} (hl : l < 96) (h : (s.link l).retained = [] ∨ (s.link l).up = false) :
    exec (.linkAckTimeout l) s = .next s := by
  change execLinkAckTimeout l s = _
  unfold execLinkAckTimeout
  rw [onUnit_next (decide_eq_true hl)]
  split
  · rfl
  next f rest hr =>
    obtain h | h := h
    · exact nomatch hr.symm.trans h
    · exact congrArg Host.Outcome.next (if_neg (by rw [h]; decide))

theorem linkFall_events {s : State} {l : Nat} (h : s.timeSource ≠ l) (detail : Nat) (again : Bool) :
    (s.linkFall l detail again).events = withEvent s.events ⟨s.now, 0x51, detail, none, [(.link, l)], []⟩ := by
  have hsource : ((s.updLink l (fun x => { x.count 5 1 with state := if again then 5 else 0 })).linkEvent 0x51 detail l none).timeSource =
      s.timeSource := State.raise_timeSource ..
  unfold State.linkFall State.timeLost
  rw [if_neg (by rw [hsource]; exact fun hc => h hc.1)]
  exact State.raise_events ..

/-- LINK_ACK_TIMEOUT of a link that carries traffic. -/
theorem linkAckTimeout_effect {s : State} {l : Nat} {f : SentFrame} {rest : List SentFrame} (hl : l < 96)
    (h : (s.link l).retained = f :: rest) (hu : (s.link l).up = true) : ∃ u : State, exec (.linkAckTimeout l) s = .next u ∧
    (u.link l).out = (s.link l).out ++ [(s.link l).frameOut f.seq f.flits] ∧
    (u.link l).retained = (s.link l).retained.map (fun g => if g.seq = f.seq then { g with sends := g.sends + 1 } else g) ∧ LinkOnly s u l ∧
    ((∀ g ∈ (u.link l).retained, g.sends < 16) → (u.link l).state = (s.link l).state ∧ u.events = s.events) ∧
    ((∃ g ∈ (u.link l).retained, 16 ≤ g.sends) → (u.link l).state = 0 ∧
      (s.timeSource ≠ l → u.events = withEvent s.events ⟨s.now, 0x51, 0x03, none, [(.link, l)], []⟩)) := by
  let t := s.updLink l (fun x => x.resent f)
  have ht : t.link l = (s.link l).resent f := State.link_updLink_same ..
  have hexec := exec_linkAckTimeout_resends hl h hu
  cases hout : ((s.link l).resent f).sentOut
  case false =>
    have hfew : ∀ g ∈ ((s.link l).resent f).retained, g.sends < 16 := fun g hg => by
      have := List.any_eq_false.mp hout g hg
      simpa using this
    rw [hout, if_neg Bool.false_ne_true] at hexec
    refine ⟨t, hexec, congrArg Link.out ht, congrArg Link.retained ht, LinkOnly.updLink .., fun _ => ⟨(congrArg Link.state ht).trans rfl, rfl⟩,
      fun ⟨g, hg, hn⟩ => ?_⟩
    rw [ht] at hg
    exact absurd (hfew g hg) (by omega)
  case true =>
    obtain ⟨g, hg, hn⟩ := List.any_eq_true.mp hout
    have hfall : (t.linkFall l 0x03 false).link l = { ((s.link l).resent f).count 5 1 with state := 0 } := by
      rw [State.linkFall_link, ht]
      rfl
    rw [hout, if_pos rfl] at hexec
    refine ⟨t.linkFall l 0x03 false, hexec, congrArg Link.out hfall, congrArg Link.retained hfall,
      (LinkOnly.updLink ..).trans (LinkOnly.linkFall ..), fun hall => ?_,
      fun _ => ⟨congrArg Link.state hfall, fun hsrc => linkFall_events (s := t) hsrc 0x03 false⟩⟩
    rw [hfall] at hall
    exact absurd (hall g hg) (by have := of_decide_eq_true hn; omega)

/-! ### Cables and the management beacon -/

theorem foldl_updLink_link (f : Link → Link) (hf : ∀ x, f (f x) = f x) (b : Nat) (l : List Nat) (s : State) (k : Nat) :
    (l.foldl (fun u i => u.updLink (b + i) f) s).link k = if k ∈ l.map (fun i => b + i) then f (s.link k) else s.link k := by
  induction l generalizing s with
  | nil => rfl
  | cons i l ih =>
    simp only [List.foldl_cons, ih, State.link_updLink, List.map_cons, List.mem_cons]
    by_cases hi : b + i = k
    · subst hi
      rw [if_pos rfl, hf, ite_self, if_pos (.inl rfl)]
    · rw [if_neg hi]
      simp only [show ¬k = b + i from fun h => hi h.symm, false_or]

/-- The links of a group. -/
theorem mem_group_links (g k : Nat) : k ∈ (List.range 8).map (fun i => 8 * g + i) ↔ k / 8 = g := by
  rw [List.mem_map]
  constructor
  · rintro ⟨i, hi, rfl⟩
    have := List.mem_range.mp hi
    omega
  · exact fun h => ⟨k % 8, List.mem_range.mpr (Nat.mod_lt _ (by decide)), by omega⟩

/-- The state in which a cable is there or gone. -/
def State.cabled (s : State) (g : Nat) (b : Bool) : State := s.updGroup g (fun x => { x with cable := b })

theorem exec_cablePresent {s : State} {g : Nat} (hg : g < 12) (h : (s.group g).cable = false) : exec (.cablePresent g) s = .next (
    if s.ioOn then (List.range 8).foldl (fun u i => u.updLink (8 * g + i) (fun x => { x with state := 1 })) (s.cabled g true)
    else s.cabled g true) := by
  change execCablePresent g s = _
  unfold execCablePresent
  refine (onUnit_next (decide_eq_true hg) _).trans (congrArg Host.Outcome.next ((if_neg ?_).trans rfl))
  rw [h]
  exact Bool.false_ne_true

theorem State.cabled_cable (s : State) (g : Nat) (b : Bool) : ((s.cabled g b).group g).cable = b :=
  congrArg LinkGroup.cable (State.group_updGroup_same ..)

theorem foldl_updLink_group (b : Nat) (f : Link → Link) (l : List Nat) (s : State) (g : Nat) :
    (l.foldl (fun u i => u.updLink (b + i) f) s).group g = s.group g :=
  foldl_keeps (fun u => u.group g) l s (fun _ _ => rfl)

/-- A link whose cable has gone. -/
def State.unplugs (s : State) (l : Nat) : State :=
  if (s.link l).up then s.linkFall l 0x02 false else s.updLink l (fun x => { x with state := 0 })

theorem unplugs_effect (s : State) (l : Nat) : LinkOnly s (s.unplugs l) l ∧ ((s.unplugs l).link l).state = 0 ∧
    ∀ g, (s.unplugs l).group g = s.group g := by
  unfold State.unplugs
  split
  · refine ⟨LinkOnly.linkFall .., congrArg Link.state (State.linkFall_link ..), fun g => ?_⟩
    exact (State.timeLost_group ..).trans (State.raise_group ..)
  · exact ⟨LinkOnly.updLink .., congrArg Link.state (State.link_updLink_same ..), fun _ => rfl⟩

theorem foldl_unplugs (b : Nat) (l : List Nat) (s : State) : let u := l.foldl (fun u i => u.unplugs (b + i)) s
    u.parts = s.parts ∧ (∀ g, u.group g = s.group g) ∧ (∀ k, k ∉ l.map (fun i => b + i) → u.link k = s.link k) ∧
    ∀ k, k ∈ l.map (fun i => b + i) ∨ (s.link k).state = 0 → (u.link k).state = 0 := by
  induction l generalizing s with
  | nil => exact ⟨rfl, fun _ => rfl, fun _ _ => rfl, fun _ h => h.resolve_left List.not_mem_nil⟩
  | cons i l ih =>
    obtain ⟨⟨hother, hparts, -, -⟩, hdown, hgroup⟩ := unplugs_effect s (b + i)
    obtain ⟨kparts, kgroup, kother, kdown⟩ := ih (s.unplugs (b + i))
    refine ⟨kparts.trans hparts, fun g => (kgroup g).trans (hgroup g), fun k hk => ?_, fun k hk => ?_⟩
    · rw [List.map_cons, List.mem_cons, not_or] at hk
      exact (kother k hk.2).trans (hother k hk.1)
    · by_cases hi : k = b + i
      · subst hi
        exact kdown _ (.inr hdown)
      · refine kdown k (hk.imp (fun hm => ?_) fun h0 => ?_)
        · exact (List.mem_cons.mp hm).resolve_left hi
        · rw [hother k hi]
          exact h0

theorem exec_cableRemoved (s : State) {g : Nat} (hg : g < 12) :
    exec (.cableRemoved g) s = .next ((List.range 8).foldl (fun u i => u.unplugs (8 * g + i)) (s.cabled g false)) :=
  onUnit_next (decide_eq_true hg) _

/-- Settles O45: each command's effect on its link, as the parts above say it. -/
theorem linkFrames : Obligations.LinkFrames := by
  unfold Obligations.LinkFrames
  intro s l g x
  refine ⟨fun rx tx peer => ?training, fun frame hl hears => ⟨fun hd => ?lost, fun d hd hb => ?bad, fun d hd => ?good⟩,
    fun frame hl hdeaf => exec_linkFrameReceived_deaf hl hdeaf frame, fun f rest hl hr hu => ?resend,
    fun hl h => exec_linkAckTimeout_none hl h, fun hg hc => ?present, fun hg => ?removed, fun hslot hsilent hoff => ?beacon⟩
  case training =>
    intro base v hl hst hs hr hall
    obtain ⟨u, hexec, hrest⟩ := linkTraining_effect peer hl hst hs hr (fun c hc => (hall c hc).1) (fun c hc => (hall c hc).2)
    exact ⟨u, hexec, hrest⟩
  case lost => exact (exec_linkFrameReceived_lost hl hears hd).trans (congrArg Host.Outcome.next (s.sendNak_own l))
  case bad =>
    obtain ⟨t, hexec, honly, hlink, hev⟩ := linkFrameReceived_bad hl hears hd hb
    exact ⟨_, hexec, sendNak_effect honly hlink hev (s.link l).rxSeq⟩
  case good =>
    intro b h hcrc hres
    obtain ⟨honly, hidle, hnext⟩ := goodFrame_effect (s.notes l d.2 frame) l b
    have hlink := s.notes_link l d.2 frame
    have hrx : ((s.notes l d.2 frame).link l).rxSeq = x.rxSeq := (congrArg Link.rxSeq hlink :)
    have hheld : ((s.notes l d.2 frame).link l).heldFrames = x.heldFrames := (congrArg Link.heldFrames hlink :)
    rw [hrx] at hidle hnext
    rw [hheld] at hnext
    have hnotes : LinkOnly s (s.notes l d.2 frame) l := LinkOnly.updLink ..
    obtain ⟨hlinks, hparts, hsquares, hdram⟩ := hnotes.trans honly
    exact ⟨_, exec_linkFrameReceived_good hl hears hd hcrc hres, hidle, hnext, hparts, hsquares, hdram, hlinks⟩
  case resend =>
    obtain ⟨u, hexec, hout, hretained, ⟨hlinks, hparts, hsquares, hdram⟩, hfew, hmany⟩ := linkAckTimeout_effect hl hr hu
    exact ⟨u, hexec, hout, hretained, hlinks, hparts, hsquares, hdram, hfew, hmany⟩
  case present =>
    have hlinks : ∀ k, ((List.range 8).foldl (fun u i => u.updLink (8 * g + i) (fun x => { x with state := 1 })) (s.cabled g true)).link k =
        if k / 8 = g then { s.link k with state := 1 } else s.link k := fun k => by
      rw [foldl_updLink_link (fun x => { x with state := 1 }) (fun _ => rfl)]
      simp only [mem_group_links]
      rfl
    refine ⟨_, exec_cablePresent hg hc, ?_, fun k hk => ?_, fun hio => ?_, fun hio k hk => ?_⟩
    · split
      · rw [foldl_updLink_group]
        exact State.cabled_cable ..
      · exact State.cabled_cable ..
    · split
      · exact (hlinks k).trans (if_neg hk)
      · rfl
    · rw [if_neg (by rw [hio]; decide)]
      rfl
    · rw [if_pos hio]
      exact (hlinks k).trans (if_pos hk)
  case removed =>
    obtain ⟨hparts, hgroup, hother, hdown⟩ := foldl_unplugs (8 * g) (List.range 8) (s.cabled g false)
    refine ⟨_, exec_cableRemoved s hg, ?_, hparts, fun k hk => hdown k (.inl ((mem_group_links g k).mpr hk)),
      fun k hk => hother k (fun h => hk ((mem_group_links g k).mp h))⟩
    rw [hgroup]
    exact State.cabled_cable ..
  case beacon =>
    refine ⟨({ s with coordinatorSilent := true } : State).raise 0x90 0x40 none [] [], ?_, State.raise_coordinatorSilent .., State.raise_power ..,
      State.raise_parts .., State.raise_events ..⟩
    change execManagementBeaconConflict s = _
    unfold execManagementBeaconConflict
    rw [if_pos ⟨hslot, by rw [hsilent]; rfl, hoff⟩]

end Sys2Proof.Machine
end

section
/-!
PROOFS. A link channel that is not active stays so while another channel of its Mover makes a burst: what the data path, its errors
and a freeze do to the channels (R149, R164, R321, R351).
-/

namespace Sys2Proof.Machine

open Sys2Proof

/-! ### Resting channels -/

/-- From one state to another channel k of link l does not become active. -/
structure Rests (l k : Nat) (s t : State) : Prop where
  stays : (s.channel (.link l) k).phase ≠ .active → (t.channel (.link l) k).phase ≠ .active

namespace Rests

variable {l k : Nat}

theorem refl (s : State) : Rests l k s s := ⟨id⟩

theorem trans {s t u : State} (h : Rests l k s t) (i : Rests l k t u) : Rests l k s u := ⟨fun hs => i.stays (h.stays hs)⟩

theorem of_eq {s t : State} (h : t.channel (.link l) k = s.channel (.link l) k) : Rests l k s t :=
  ⟨fun hs => by rwa [h]⟩

theorem of_links {s t : State} (h : t.links = s.links) : Rests l k s t := of_eq (by
  unfold State.channel State.link
  rw [h])

theorem of_stand {s t : State} (h : ChannelsStand s t) : Rests l k s t := by
  refine ⟨fun hs => ?_⟩
  rcases h.mayAbort (.link l) k with he | ⟨-, n, he⟩
  · rwa [he]
  · rw [he]
    exact nofun

theorem foldl {α : Type} {f : State → α → State} (xs : List α) (s : State) (h : ∀ t x, Rests l k t (f t x)) : Rests l k s (xs.foldl f s) :=
  List.foldlRecOn xs f (motive := fun t => Rests l k s t) (refl s) (fun t ht x _ => ht.trans (h t x))

theorem updChannel (s : State) {ch : Nat} (h : k ≠ ch) (f : Channel → Channel) : Rests l k s (s.updChannel (.link l) ch f) :=
  of_eq (State.updChannel_other s (.link l) ch f (.link l) k (fun hc => h (Prod.mk.inj hc).2))

/-- A change of any channel that leaves it idle. -/
theorem updChannel_idle (s : State) (m : MoverId) (ch : Nat) {f : Channel → Channel} (h : ∀ c, (f c).phase = .idle) :
    Rests l k s (s.updChannel m ch f) := by
  refine ⟨fun hs => ?_⟩
  rw [State.channel_updChannel]
  split
  · rw [h]
    exact nofun
  · exact hs

theorem raise (s : State) (cls detail : Nat) (part : Option Nat) (loc : List (LocKind × Nat)) (arg : List Nat) :
    Rests l k s (s.raise cls detail part loc arg) := of_eq (State.raise_channel ..)

end Rests

/-! ### The memory's own work leaves the links -/

theorem State.storeAt_links (s : State) (pa : Nat) (m : Sector) (bytes : List Byte) : (s.storeAt pa m bytes).links = s.links := by
  unfold State.storeAt
  dsimp only
  split <;> rfl

theorem keptByCharges_links (die : Nat) : KeptByCharges State.links die := ⟨fun _ _ _ => rfl, fun _ _ => rfl⟩

theorem keptByReadErrors_links : KeptByReadErrors State.links where
  frames := ⟨fun _ _ _ => rfl, fun _ _ => rfl, fun _ _ => rfl, fun _ _ _ => rfl, fun _ => rfl, fun _ => rfl⟩
  stack _ _ _ := rfl
  die _ _ _ := rfl
  part _ _ _ := rfl

theorem State.rewrite_links (s : State) (pa : Nat) (m : Sector) (bytes : List Byte) : (s.rewrite pa m bytes).links = s.links :=
  ((keptByCharges_links _).chargeStack ..).trans (s.storeAt_links ..)

theorem State.putBook_links (s : State) (pa : Nat) (bytes : List Byte) : (s.putBook pa bytes).links = s.links := by
  unfold State.putBook
  dsimp only
  split <;> rfl

theorem State.writeSector_links (s : State) (who pa : Nat) (bytes : List Byte) : (s.writeSector who pa bytes).links = s.links := by
  unfold State.writeSector
  dsimp only
  split_ifs
  · exact (State.storeAt_links ..).trans ((State.storeAt_links ..).trans (State.putBook_links ..))
  · exact State.storeAt_links ..

theorem State.raise40_links (s : State) (st phys detail : Nat) (part : Option Nat) (loc : List (LocKind × Nat)) :
    (s.raise40 st phys detail part loc).links = s.links := by
  unfold State.raise40
  dsimp only
  split
  · exact State.raise_links ..
  · rfl

theorem State.noteCorrected_links (s : State) (st phys ch : Nat) : (s.noteCorrected st phys ch).links = s.links := by
  unfold State.noteCorrected
  dsimp only
  split
  · exact keptByReadErrors_links.triggerMigration ..
  · rfl

theorem State.correctedRead_links (s : State) (part : Option Nat) (pa detail : Nat) : (s.correctedRead part pa detail).links = s.links := by
  unfold State.correctedRead
  rw [State.noteCorrected_links, State.raise40_links, State.rewrite_links]
  exact keptByReadErrors_links.countRead ..

theorem State.failedCopy_links (s : State) (pa : Nat) (code : Bool) : (s.failedCopy pa code).links = s.links := by
  have hcount : ∀ kind, (s.countRead (paStack pa) (s.physOf pa) kind).links = s.links := fun kind => keptByReadErrors_links.countRead ..
  unfold State.failedCopy
  dsimp only
  split
  · exact (keptByReadErrors_links.triggerMigration ..).trans (hcount _)
  · exact hcount _

theorem State.restoreCopy_links (s : State) (pa : Nat) (part : Option Nat) : (s.restoreCopy pa part).links = s.links := by
  unfold State.restoreCopy
  rw [State.setFlag_links, State.raise40_links, State.rewrite_links]

theorem State.rebuild_links (s : State) (pa : Nat) : (s.rebuild pa).links = s.links := State.writeSector_links ..

theorem State.storeError_links (s : State) (q kind : Nat) : (s.storeError q kind).links = s.links := by
  unfold State.storeError
  dsimp only
  split
  · exact State.raise_links ..
  · split
    · exact (keptByReadErrors_links.dataError ..).trans (State.raise_links ..)
    · exact State.raise_links ..

theorem State.touchLs_links (s : State) (q : Nat) (offs : List Nat) : (s.touchLs q offs).links = s.links := by
  unfold State.touchLs
  refine foldl_keeps State.links _ s fun t e => ?_
  dsimp only
  split
  · exact State.storeError_links ..
  · exact State.storeError_links ..

/-! ### What may freeze, abort or end channels -/

/-- A change of every link that leaves its Mover's channels. -/
theorem movers_get_map {f : Link → Link} (hf : ∀ x, (f x).movers = x.movers) (t : Tab Link) (n : Nat) :
    (Tab.get {} (t.map (fun e => (e.1, f e.2))) n).movers = (Tab.get {} t n).movers := by
  induction t with
  | nil => rfl
  | cons e t ih =>
    simp only [List.map_cons, Tab.get]
    split
    · exact hf e.2
    · exact ih

section
variable {l k : Nat}

theorem Rests.enterFaulted (s : State) (p : Nat) : Rests l k s (s.enterFaulted p) := by
  have hend : Rests l k s ((s.busyChannels p).foldl (fun t c => t.endChannel c.1 c.2 0x4 0x08) s) :=
    Rests.foldl _ s fun t c => Rests.updChannel_idle t c.1 c.2 fun _ => rfl
  have hdrop : ∀ t : State, Rests l k t (t.dropTokens p) := fun t => Rests.of_links (foldl_keeps State.links _ t fun _ _ => rfl)
  have hforget : ∀ t : State, Rests l k t { t with links := t.links.map (fun (y : Nat × Link) => (y.1, y.2.forget p)) } := fun t =>
    Rests.of_eq (congrArg (fun x : Tab Channel => Tab.get ({} : Channel) x k) 
      (movers_get_map (f := fun y : Link => y.forget p) (fun _ => rfl) t.links l))
  exact hend.trans ((hdrop _).trans ((hforget _).trans (Rests.of_links (State.updPart_links ..))))

/-- Holds and their messages do not touch a channel. -/
theorem keptByHolds_channel (p : Nat) : KeptByHolds (fun t => t.channel (.link l) k) p where
  frames := keptByFrames_channel ..
  sending := keptBySending_channel _ _
  holds _ _ _ := rfl

theorem Rests.deviceLost (s : State) (pa : Nat) : Rests l k s (s.deviceLost pa) := by
  have hrebuild : ∀ t : State, Rests l k t (t.rebuild pa) := fun t => Rests.of_links (t.rebuild_links pa)
  unfold State.deviceLost
  dsimp only
  refine (Rests.raise s 0x41 0x25 none (memLoc (paStack pa) (s.physOf pa) (paRow pa) pa) []).trans ?_
  generalize s.raise 0x41 0x25 none (memLoc (paStack pa) (s.physOf pa) (paRow pa) pa) [] = t
  split_ifs
  · exact Rests.of_eq (State.releaseModule_keeps (g := fun t => t.channel (.link l) k) (fun p => keptByHolds_channel p) _ 0x05 4)
  · exact hrebuild t
  · exact hrebuild t
  · exact Rests.of_links (foldl_keeps State.links _ _ fun _ _ => rfl)
  · exact (Rests.of_links (State.updPart_links ..)).trans (Rests.enterFaulted ..)
  · exact Rests.of_links rfl
  · exact hrebuild t
  · exact hrebuild t
  · exact Rests.enterFaulted t _
  · exact Rests.refl t
  · exact Rests.of_links rfl
  · exact hrebuild t

theorem Rests.fromMirror (s : State) (pa : Nat) (part : Option Nat) : Rests l k s (s.fromMirror pa part) := by
  unfold State.fromMirror
  dsimp only
  split
  · exact Rests.of_links (State.restoreCopy_links ..)
  · exact Rests.of_links ((State.restoreCopy_links ..).trans (State.correctedRead_links ..))
  · exact (Rests.of_links (State.failedCopy_links ..)).trans (Rests.deviceLost ..)

theorem Rests.readEffects (s : State) (who pa : Nat) (part : Option Nat) (step : Bool) (pools : List Nat) :
    Rests l k s (s.readEffects who pa part step pools) := by
  have hreport : ∀ o cls loc, Rests l k s ((s.countRead (paStack pa) (s.physOf pa) (o - 1)).raise cls 0x21 part loc []) := fun o cls loc =>
    (Rests.of_links (keptByReadErrors_links.countRead ..)).trans (Rests.raise ..)
  have hlatch : ∀ (t : State) p, Rests l k t (t.dataError p (s.vaOf p pa) step) := fun t p => Rests.of_links (keptByReadErrors_links.dataError ..)
  have hstart : ∀ t : State, Rests l k t (t.triggerMigration (paStack pa) (paChannel pa)) := fun t =>
    Rests.of_links (keptByReadErrors_links.triggerMigration ..)
  have hmirror : ∀ b, Rests l k s ((s.failedCopy pa b).fromMirror pa part) := fun b =>
    (Rests.of_links (s.failedCopy_links pa b)).trans (Rests.fromMirror ..)
  unfold State.readEffects
  dsimp only
  split
  · exact Rests.refl s
  · exact Rests.of_links (State.correctedRead_links ..)
  · split
    · exact hmirror _
    · rw [if_pos rfl]
      refine Rests.trans ?_ (hstart _)
      split
      · exact (hreport ..).trans (hlatch ..)
      · exact hreport ..
  · split
    · exact hmirror _
    · rw [if_neg (by decide)]
      split
      · exact (hreport ..).trans (hlatch ..)
      · exact hreport ..

/-! ### The data path of a burst -/

theorem Rests.touchVas (s : State) (p : Nat) (vas pools : List Nat) : Rests l k s (s.touchVas p vas pools) := by
  unfold State.touchVas
  dsimp only
  refine (Rests.foldl _ s fun t sec => Rests.readEffects ..).trans (Rests.foldl _ _ fun t q => ?_)
  split
  · exact Rests.refl t
  · exact Rests.of_links (State.touchLs_links ..)

theorem Rests.writeBytes (s : State) (who pa : Nat) (part : Option Nat) (ws : List (Nat × Byte × Byte)) (pools : List Nat) :
    Rests l k s (s.writeBytes who pa part ws pools) := by
  have hwrite : ∀ (t : State) bytes, Rests l k t (t.writeSector who (pa / 64 * 64) bytes) := fun t bytes => Rests.of_links (t.writeSector_links ..)
  have hreport : ∀ kind cls loc, Rests l k s ((s.countRead (paStack pa) (s.physOf pa) kind).raise cls 0x22 part loc []) := fun kind cls loc =>
    (Rests.of_links (keptByReadErrors_links.countRead ..)).trans (Rests.raise ..)
  have hlatch : ∀ (t : State) p, Rests l k t (t.dataError p (s.vaOf p (pa / 64 * 64)) true) := fun t p =>
    Rests.of_links (keptByReadErrors_links.dataError ..)
  have hstart : ∀ t : State, Rests l k t (t.triggerMigration (paStack pa) (paChannel (pa / 64 * 64))) := fun t =>
    Rests.of_links (keptByReadErrors_links.triggerMigration ..)
  unfold State.writeBytes
  dsimp only
  split
  · exact hwrite ..
  · split
    · split
      · exact Rests.readEffects ..
      · exact (Rests.readEffects ..).trans (hwrite ..)
    · split
      · exact hwrite ..
      · exact (Rests.of_links (State.correctedRead_links ..)).trans (hwrite ..)
      · split
        · exact ((hreport ..).trans (hlatch ..)).trans (hstart _)
        · exact (hreport ..).trans (hstart _)
      · split
        · exact (hreport ..).trans (hlatch ..)
        · exact hreport ..

theorem Rests.makeWrites (s : State) (p : Nat) (ws : List ByteWrite) (pools : List Nat) (fenced : Bool) :
    Rests l k s (s.makeWrites p ws pools fenced) := by
  unfold State.makeWrites
  dsimp only
  refine (Rests.foldl _ s fun t z => ?_).trans ((Rests.foldl _ _ fun t q => ?_).trans (Rests.foldl _ _ fun t sec => ?_))
  · exact Rests.of_links rfl
  · split
    · exact Rests.refl t
    · exact Rests.of_links rfl
  · split
    · exact Rests.of_links rfl
    · exact Rests.writeBytes ..

theorem Rests.runMoves (s : State) (p : Nat) (o : BlockOp) (code : Nat → Move → Nat) (ms : List Move) :
    Rests l k s (s.runMoves p o code ms).1 := (Rests.touchVas ..).trans (Rests.makeWrites ..)

theorem Rests.endEntry (s : State) (p : Nat) (o : BlockOp) (j : Nat) : Rests l k s (s.endEntry p o j).1 := by
  have hmark : Rests l k s (s.markBlock p o j).1 := by
    unfold State.markBlock
    split
    · dsimp only
      split
      · exact Rests.refl s
      · exact Rests.makeWrites ..
    · exact Rests.refl s
  unfold State.endEntry
  split
  · exact Rests.of_links rfl
  · split
    · exact Rests.refl s
    · exact hmark

end

/-! ### A burst of another channel -/

/-- A walk moved on by n elements, before it is judged whether all of its Count has been transferred. -/
def State.walked (s : State) (m : MoverId) (ch n : Nat) (codes : List Nat) : State × Option RunFault :=
  let copy := decide (mdKind (s.mdesc (s.channel m ch)) = 0)
  let s1 := s.updChannel m ch (fun c =>
    { c with done := if copy then c.done + n else c.done, pos := if copy then 0 else c.pos + n, codes := codes
             paid := c.paid && decide (n = 0) })
  if copy then (s1, none) else s1.passEntries m ch ((s.channelOp m ch).count + 1)

theorem State.advanceWalk_walked (s : State) (m : MoverId) (ch n : Nat) (codes : List Nat) : s.advanceWalk m ch n codes =
    if decide (((s.walked m ch n codes).1.channel m ch).done = (s.channelOp m ch).count) && (s.walked m ch n codes).2.isNone then
      ((s.walked m ch n codes).1.updChannel m ch (fun c => { c with phase := .written }), none)
    else s.walked m ch n codes := rfl

theorem State.runBurst_link (s : State) (l ch : Nat) :
    s.runBurst (.link l) ch = if s.farSide (.link l) ch = 2 then s.readBurst l ch else s.trainBurst l ch := by
  unfold State.runBurst
  generalize s.farSide (.link l) ch = f
  rcases f with _ | _ | _ | f <;> rfl

section
variable {l k ch : Nat} (hk : k ≠ ch)
include hk

theorem Rests.passEntries (n : Nat) (s : State) : Rests l k s (State.passEntries s (.link l) ch n).1 := by
  induction n generalizing s with
  | zero => exact Rests.refl s
  | succ n ih =>
    unfold State.passEntries
    dsimp only
    split
    · split
      · split
        · split
          · exact Rests.endEntry ..
          · exact ((Rests.endEntry ..).trans (Rests.updChannel _ hk _)).trans (ih _)
        · exact Rests.refl s
      · exact Rests.refl s
    · exact Rests.refl s

theorem Rests.walked (s : State) (n : Nat) (codes : List Nat) : Rests l k s (s.walked (.link l) ch n codes).1 := by
  unfold State.walked
  dsimp only
  split
  · exact Rests.updChannel s hk _
  · exact (Rests.updChannel s hk _).trans (Rests.passEntries hk ..)

theorem Rests.advanceWalk (s : State) (n : Nat) (codes : List Nat) : Rests l k s (s.advanceWalk (.link l) ch n codes).1 := by
  have hwalked := Rests.walked (l := l) hk s n codes
  rw [State.advanceWalk_walked]
  split
  · exact hwalked.trans (Rests.updChannel _ hk _)
  · exact hwalked

theorem Rests.moverFault (s : State) (f : RunFault) (cause : Nat) : Rests l k s (s.moverFault (.link l) ch f cause) :=
  (Rests.updChannel s hk _).trans ((Rests.raise ..).trans (Rests.of_stand (State.freezeBut_stand ..)))

theorem Rests.stopFault (s : State) : Rests l k s (s.stopFault (.link l) ch) := by
  unfold State.stopFault
  dsimp only
  split
  · exact Rests.moverFault hk ..
  · exact Rests.trans (t := s.countIndex (s.channel (.link l) ch).partition) (Rests.of_links rfl) (Rests.moverFault hk ..)

theorem Rests.endBurst (s : State) (n : Nat) (codes : List Nat) (f : Option RunFault) :
    Rests l k s (s.endBurst (.link l) ch n codes f) := by
  unfold State.endBurst
  dsimp only
  split
  · exact (Rests.advanceWalk hk ..).trans ((Rests.updChannel _ hk _).trans (Rests.moverFault hk ..))
  · exact (Rests.advanceWalk hk ..).trans (Rests.of_eq (State.active_channel ..))

theorem Rests.linkRequest (s : State) (va : Nat) (blocks : List (Nat × Nat)) (t : Txn) : Rests l k s (s.linkRequest l ch va blocks t) := by
  have htag : ∀ n, Rests l k s (s.updLink l (fun x => { x with nextTag := n })) := fun n => Rests.of_eq (by
    unfold State.channel
    dsimp only
    rw [State.link_updLink_same])
  exact (htag _).trans ((Rests.updChannel _ hk _).trans (Rests.of_eq ((keptBySending_channel (.link l) k).sendRoute ..)))

theorem Rests.zeroCodes (s : State) : Rests l k s (s.zeroCodes (.link l) ch) := by
  unfold State.zeroCodes
  dsimp only
  split
  · exact Rests.refl s
  · exact Rests.updChannel s hk _

theorem Rests.readBurst (s : State) : Rests l k s (s.readBurst l ch) := by
  unfold State.readBurst
  dsimp only
  split
  · exact Rests.refl s
  · refine (Rests.zeroCodes hk s).trans ?_
    split
    · exact (Rests.runMoves ..).trans (Rests.endBurst hk ..)
    · exact Rests.linkRequest hk ..

theorem Rests.trainBurst (s : State) : Rests l k s (s.trainBurst l ch) := by
  unfold State.trainBurst
  dsimp only
  split
  · exact Rests.refl s
  · split
    · exact Rests.moverFault hk ..
    · exact ((Rests.touchVas ..).trans (Rests.foldl _ _ fun t x => Rests.linkRequest hk ..)).trans (Rests.endBurst hk ..)

theorem Rests.runBurst (s : State) : Rests l k s (s.runBurst (.link l) ch) := by
  rw [State.runBurst_link]
  split
  · exact Rests.readBurst hk ..
  · exact Rests.trainBurst hk ..

theorem Rests.paidBurst (s : State) : Rests l k s (s.paidBurst (.link l) ch) := by
  have hcharge : ∀ p c xs, Rests l k s (s.chargeAll p c xs) := fun p c xs =>
    Rests.of_links (foldl_keeps State.links xs s fun t x => (keptByCharges_links x.1).charge ..)
  have hgo : ∀ t : State, Rests l k t (if t.tokenWaits (.link l) ch then t.updChannel (.link l) ch (fun c => { c with paid := true })
      else t.runBurst (.link l) ch) := fun t => by
    split
    · exact Rests.updChannel t hk _
    · exact Rests.runBurst hk t
  unfold State.paidBurst
  dsimp only
  split
  · exact hgo s
  · exact (hcharge ..).trans (hgo _)

/-- A burst of channel ch makes no other channel of its link active. -/
theorem Rests.moverBurst (s : State) : Rests l k s (s.moverBurst (.link l) ch) := by
  have hburst : Rests l k s (s.burst (.link l) ch) := by
    have hwalk := Rests.advanceWalk (l := l) hk s 0 (s.channel (.link l) ch).codes
    unfold State.burst
    dsimp only
    split
    · exact hwalk.trans (Rests.moverFault hk ..)
    · split
      · exact hwalk
      · split
        · exact hwalk.trans (Rests.stopFault hk _)
        · exact hwalk.trans (Rests.paidBurst hk _)
  unfold State.moverBurst
  split
  · exact Rests.refl s
  · exact hburst

end

end Sys2Proof.Machine
end

section
/-!
PROOFS. Lanes in service, planned retrains and the windows of a link (R349, R353 to R355).
-/

namespace Sys2Proof.Machine

open Sys2Proof

/-! ### Only one link and its group change -/

/-- Of the links only l changes, of the groups only its own, and no partition, Square or memory. -/
def LinkAlone (s u : State) (l : Nat) : Prop := LinkOnly s u l ∧ ∀ k, k ≠ l / 8 → u.group k = s.group k

theorem LinkAlone.trans {s t u : State} {l : Nat} (h : LinkAlone s t l) (k : LinkAlone t u l) : LinkAlone s u l :=
  ⟨h.1.trans k.1, fun n hn => (k.2 n hn).trans (h.2 n hn)⟩

theorem LinkAlone.updLink (s : State) (l : Nat) (f : Link → Link) : LinkAlone s (s.updLink l f) l := ⟨LinkOnly.updLink .., fun _ _ => rfl⟩

theorem LinkAlone.updGroup (s : State) (l : Nat) (f : LinkGroup → LinkGroup) : LinkAlone s (s.updGroup (l / 8) f) l :=
  ⟨LinkOnly.updGroup .., fun _ hk => (s.group_updGroup ..).trans (if_neg hk.symm)⟩

theorem LinkAlone.sendTxn (s : State) (l : Nat) (t : Txn) : LinkAlone s (s.sendTxn l t) l := LinkAlone.updLink ..

theorem LinkAlone.linkEvent (s : State) (cls detail l : Nat) (lane : Option Nat) : LinkAlone s (s.linkEvent cls detail l lane) l :=
  ⟨LinkOnly.linkEvent .., fun _ _ => State.raise_group ..⟩

theorem LinkAlone.timeLost (s : State) (l : Nat) : LinkAlone s (s.timeLost l) l := ⟨LinkOnly.timeLost .., fun _ _ => State.timeLost_group ..⟩

/-- A link that has been changed and then sent. -/
theorem State.sendTxn_updLink_unsent (s : State) (l : Nat) (f : Link → Link) (t : Txn) :
    (((s.updLink l f).sendTxn l t).link l).unsent = (f (s.link l)).unsent :=
  (State.sendTxn_unsent ..).trans (congrArg Link.unsent (State.link_updLink_same ..))

/-! ### Lanes in service -/

section
variable {s : State} {l lane : Nat} (hl : l < 96)
include hl

/-- The state in which an exchange of a lane is asked for. -/
def State.asksExchange (s : State) (l c sp : Nat) : State :=
  ((s.updGroup (l / 8) (fun g => { g with sparesRx := g.sparesRx.erase sp })).updLink l (fun x =>
    { x with swapRx := some { lane := c, spare := sp, atSeq := none } })).sendTxn l (laneTxn 0x05 c sp 0)

theorem exec_laneSwapThreshold (hlane : lane < 4) {sp : Nat} (hsp : lowSpare (s.group (l / 8)).sparesRx = some sp) :
    exec (.laneSwapThreshold l lane) s = .next (
      if (s.link l).up && decide ((s.link l).rxLanes.getD lane noLane ≠ noLane) &&
          decide ((s.link l).swapThreshold ≤ (s.link l).laneErrors s.now ((s.link l).rxLanes.getD lane noLane)) &&
          s.noExchange (l / 8) (fun x => x.swapRx) then s.asksExchange l ((s.link l).rxLanes.getD lane noLane) sp
      else s) := by
  change execLaneSwapThreshold l lane s = _
  unfold execLaneSwapThreshold
  rw [onUnit_next (by simp [hl, hlane])]
  dsimp only
  rw [hsp]
  rfl

theorem exec_laneSwapThreshold_none (hlane : lane < 4) (hsp : lowSpare (s.group (l / 8)).sparesRx = none) :
    exec (.laneSwapThreshold l lane) s = .next s := by
  change execLaneSwapThreshold l lane s = _
  unfold execLaneSwapThreshold
  rw [onUnit_next (by simp [hl, hlane])]
  dsimp only
  rw [hsp]

theorem exec_laneSpareAdapted (hu : (s.link l).up = true) {w : LaneSwap} (hw : (s.link l).swapRx = some w) (hseq : w.atSeq = none) :
    exec (.laneSpareAdapted l) s = .next ((s.updLink l (fun y =>
      { y with swapRx := some { w with atSeq := some (((s.link l).rxSeq + 64) % 4096) } })).sendTxn l
        (laneTxn 0x06 w.lane w.spare (((s.link l).rxSeq + 64) % 4096))) := by
  change execLaneSpareAdapted l s = _
  unfold execLaneSpareAdapted
  rw [onUnit_next (decide_eq_true hl)]
  dsimp only
  rw [hw]
  exact congrArg Host.Outcome.next (if_pos (by rw [hseq, hu]; rfl))

/-- A lane that no exchange concerns is lost: it goes to the lowest spare, or the link retrains. -/
theorem exec_laneLossOfLock (hlane : lane < 4) (hu : (s.link l).up = true) (hc : (s.link l).rxLanes.getD lane noLane ≠ noLane)
    (hw : (s.link l).swapRx = none) : let c := (s.link l).rxLanes.getD lane noLane
    (∀ k, lowSpare (s.group (l / 8)).sparesRx = some k → exec (.laneLossOfLock l lane) s = .next ((s.laneFails l true c).loseLane l c k)) ∧
    (lowSpare (s.group (l / 8)).sparesRx = none →
      exec (.laneLossOfLock l lane) s = .next (((s.laneFails l true c).updLink l (fun y => { y with state := 5 })).timeLost l)) := by
  intro c
  have hexec : exec (.laneLossOfLock l lane) s = execLaneLossOfLock l lane s := rfl
  unfold execLaneLossOfLock at hexec
  rw [onUnit_next (by simp [hl, hlane])] at hexec
  dsimp only at hexec
  rw [if_neg (by rw [hu, decide_eq_false hc]; decide), hw] at hexec
  refine ⟨fun k hk => hexec.trans ?_, fun hk => hexec.trans ?_⟩
  · rw [hk]
    rfl
  · rw [hk]
    rfl

end

/-- The lane of a link goes to a spare: lanes, spares, state and event. -/
theorem loseLane_effect (t : State) (l c k : Nat) : LinkAlone t (t.loseLane l c k) l ∧
    ((t.loseLane l c k).link l).rxLanes = replaceLane (t.link l).rxLanes c k ∧
    ((t.loseLane l c k).group (l / 8)).sparesRx = (t.group (l / 8)).sparesRx.erase k ∧
    ((t.loseLane l c k).link l).state = (t.link l).state ∧
    (t.loseLane l c k).events = withEvent t.events ⟨t.now, 0x50, 0x02, none, [(.link, l), (.lane, c)], []⟩ := by
  let u := (t.updGroup (l / 8) (fun g => { g with sparesRx := g.sparesRx.erase k })).updLink l (fun y =>
    { y.count 3 1 with rxLanes := replaceLane y.rxLanes c k })
  have hlink : ((t.loseLane l c k).link l).unsent = ({ (t.link l).count 3 1 with rxLanes := replaceLane (t.link l).rxLanes c k } : Link).unsent :=
    (State.sendTxn_unsent ..).trans (congrArg Link.unsent ((State.raise_link ..).trans (State.link_updLink_same ..)))
  have halone : LinkAlone t u l := (LinkAlone.updGroup ..).trans (LinkAlone.updLink ..)
  have hgroup : (t.loseLane l c k).group (l / 8) = { t.group (l / 8) with sparesRx := (t.group (l / 8)).sparesRx.erase k } :=
    (State.raise_group ..).trans (t.group_updGroup_same (l / 8) fun g => { g with sparesRx := g.sparesRx.erase k })
  refine ⟨halone.trans ((LinkAlone.linkEvent ..).trans (LinkAlone.sendTxn ..)), congrArg Link.rxLanes hlink, ?_,
    (congrArg Link.state hlink).trans rfl, (State.raise_events ..).trans rfl⟩
  exact congrArg LinkGroup.sparesRx hgroup

/-! ### Planned retrains -/

/-- The state that has requested the Holds of a planned retrain. -/
def State.asksRetrain (t : State) (l : Nat) : State :=
  (t.linkParts l).foldl (fun u p => u.requestHold p (retrainCause l)) (t.updLink l (fun x => { x with retrainHold := true }))

theorem exec_retrainRequest {s t : State} {r : Req} {l : Nat} (h : Received s r t) (hi : r.index = 0x4100 + l) (hl : l < 96) (hsub : r.sub = 7)
    (hv : reqValue r = 1) (hhold : (t.link l).retrainHold = false) :
    exec (.retrainRequest r) s = .next (((t.asksRetrain l).beginRetrain l).reply r 0) := by
  have hunit : r.index - 0x4100 = l := by omega
  change execRetrainRequest r s = _
  unfold execRetrainRequest
  rw [if_neg (by omega)]
  dsimp only
  refine congrArg Host.Outcome.next ((h.command ?_).trans ?_)
  · rw [hunit, hhold, if_neg (by omega), if_neg Bool.false_ne_true]
  · rw [hunit, if_neg (by omega)]
    rfl

theorem beginRetrain_effect (s : State) (l : Nat) : ((s.beginRetrain l).link l).retrainHold = (s.link l).retrainHold ∧
    (s.beginRetrain l).squares = s.squares ∧
    ((s.link l).retrainHold = true → (s.link l).retrainMap = none → s.moduleHeld (retrainCause l) = true →
      ((s.beginRetrain l).link l).state = 5 ∧
      ((s.beginRetrain l).link l).retrainMap = some ((s.link l).state, (s.link l).txLanes, (s.link l).rxLanes)) := by
  let u := s.updLink l (fun y => { y with state := 5, retrainMap := some (y.state, y.txLanes, y.rxLanes) })
  have hlink : (u.timeLost l).link l = { s.link l with state := 5, retrainMap := some ((s.link l).state, (s.link l).txLanes, (s.link l).rxLanes) } :=
    (State.timeLost_link ..).trans (State.link_updLink_same ..)
  have hsquares : (u.timeLost l).squares = s.squares := by
    obtain ⟨-, -, h, -⟩ := LinkOnly.timeLost u l
    exact h
  unfold State.beginRetrain
  dsimp only
  split
  next => exact ⟨(congrArg Link.retrainHold hlink).trans rfl, hsquares, fun _ _ _ => ⟨congrArg Link.state hlink, congrArg Link.retrainMap hlink⟩⟩
  next hno => exact ⟨rfl, rfl, fun h1 h2 h3 => absurd (by rw [h1, h2, h3]; rfl) hno⟩

theorem keptByHolds_unsent (l p : Nat) : KeptByHolds (fun t => (t.link l).unsent) p where
  frames := ⟨fun _ _ _ => rfl, fun _ _ => rfl, fun _ _ => rfl, fun _ _ _ => rfl, fun _ => rfl, fun _ => rfl⟩
  sending := keptBySending_unsent l
  holds _ _ _ := rfl

theorem keptByHolds_squares (p : Nat) : KeptByHolds State.squares p where
  frames := ⟨fun _ _ _ => rfl, fun _ _ => rfl, fun _ _ => rfl, fun _ _ _ => rfl, fun _ => rfl, fun _ => rfl⟩
  sending _ _ _ := rfl
  holds _ _ _ := rfl

theorem keptByHolds_now (p : Nat) : KeptByHolds State.now p where
  frames := ⟨fun _ _ _ => rfl, fun _ _ => rfl, fun _ _ => rfl, fun _ _ _ => rfl, fun _ => rfl, fun _ => rfl⟩
  sending _ _ _ := rfl
  holds _ _ _ := rfl

theorem asksRetrain_effect (t : State) (l : Nat) : ((t.asksRetrain l).link l).unsent = ({ t.link l with retrainHold := true } : Link).unsent ∧
    (t.asksRetrain l).squares = t.squares := by
  have hlink := foldl_keeps (fun u => (u.link l).unsent) (t.linkParts l) (t.updLink l (fun x => { x with retrainHold := true }))
    (f := fun u p => u.requestHold p (retrainCause l)) fun u p => (keptByHolds_unsent l p).requestHold u _
  exact ⟨hlink.trans (congrArg Link.unsent (State.link_updLink_same ..)),
    foldl_keeps State.squares (t.linkParts l) _ fun u p => (keptByHolds_squares p).requestHold u _⟩

/-- A retrain that no Table stands in the way of begins at once. -/
theorem asksRetrain_alone {t : State} {l : Nat} (hparts : t.linkParts l = []) (hown : ∀ p, p < 16 → retrainCause l ∉ (t.part p).ownHold) :
    t.asksRetrain l = t.updLink l (fun x => { x with retrainHold := true }) ∧ (t.asksRetrain l).moduleHeld (retrainCause l) = true := by
  have heq : t.asksRetrain l = t.updLink l (fun x => { x with retrainHold := true }) := by
    unfold State.asksRetrain
    rw [hparts]
    rfl
  refine ⟨heq, ?_⟩
  rw [heq]
  refine List.all_eq_true.mpr fun p hp => ?_
  have hno : (t.part p).ownHold.contains (retrainCause l) = false := by
    simpa using hown p (List.mem_range.mp hp)
  have hpart : (t.updLink l (fun x => { x with retrainHold := true })).part p = t.part p := rfl
  dsimp only
  rw [hpart, hno]
  rfl

/-- The state in which a retrain has been given up, before its Holds end. -/
def State.givesUpRetrain (s : State) (l : Nat) (m : Nat × List Nat × List Nat) : State :=
  let t := s.reach (s.retrainHeldSince l + 100000000)
  t.updLink l (fun x =>
    ({ x with state := if m.1 = 5 ∨ m.1 = 1 then 0 else m.1, txLanes := m.2.1, rxLanes := m.2.2, retrainHold := false
              retrainMap := none }).drain t.now)

theorem exec_plannedRetrainTimeout {s : State} {l : Nat} (hl : l < 96) {m : Nat × List Nat × List Nat} (hm : (s.link l).retrainMap = some m) :
    exec (.plannedRetrainTimeout l) s = .next ((s.givesUpRetrain l m).releaseModule (retrainCause l) 4) := by
  change execPlannedRetrainTimeout l s = _
  unfold execPlannedRetrainTimeout
  rw [onUnit_next (decide_eq_true hl), hm]
  rfl

theorem exec_plannedRetrainTimeout_none {s : State} {l : Nat} (hl : l < 96) (hm : (s.link l).retrainMap = none) :
    exec (.plannedRetrainTimeout l) s = .next s := by
  change execPlannedRetrainTimeout l s = _
  unfold execPlannedRetrainTimeout
  rw [onUnit_next (decide_eq_true hl), hm]

theorem givesUpRetrain_link (s : State) (l : Nat) (m : Nat × List Nat × List Nat) : ((s.givesUpRetrain l m).link l).unsent =
    ({ s.link l with state := if m.1 = 5 ∨ m.1 = 1 then 0 else m.1, txLanes := m.2.1, rxLanes := m.2.2, retrainHold := false
                     retrainMap := none } : Link).unsent :=
  (congrArg Link.unsent (State.link_updLink_same ..)).trans (Link.drain_unsent ..)

/-- Giving a retrain up moves the module time on to the end of its limit, never back, and leaves Squares and memory. -/
theorem givesUpRetrain_rest (s : State) (l : Nat) (m : Nat × List Nat × List Nat) :
    (s.givesUpRetrain l m).now = max s.now (s.retrainHeldSince l + 100000000) ∧ (s.givesUpRetrain l m).squares = s.squares ∧
    (s.givesUpRetrain l m).dram = s.dram := by
  unfold State.givesUpRetrain
  generalize s.retrainHeldSince l + 100000000 = n
  exact ⟨rfl, rfl, rfl⟩

/-- The Holds of a retrain that is given up end, and nothing of the link but what sending changes. -/
theorem plannedRetrainTimeout_keeps {s : State} {l : Nat} (hl : l < 96) {m : Nat × List Nat × List Nat} (hm : (s.link l).retrainMap = some m) :
    ∃ u : State, exec (.plannedRetrainTimeout l) s = .next u ∧ (u.link l).unsent = ((s.givesUpRetrain l m).link l).unsent ∧
      u.now = (s.givesUpRetrain l m).now ∧ u.squares = (s.givesUpRetrain l m).squares ∧ u.dram = (s.givesUpRetrain l m).dram := by
  have hkeeps {β : Type} (f : State → β) (hf : ∀ p, KeptByHolds f p) := State.releaseModule_keeps hf (s.givesUpRetrain l m) (retrainCause l) 4
  exact ⟨_, exec_plannedRetrainTimeout hl hm, hkeeps (fun t => (t.link l).unsent) (keptByHolds_unsent l), hkeeps State.now keptByHolds_now,
    hkeeps State.squares keptByHolds_squares, hkeeps State.dram keptByHolds_dram⟩

/-! ### Windows -/

/-- One channel's turn in a window that opens: a sending channel makes its next train. -/
def State.windowTurn (l : Nat) (u : State) (ch : Nat) : State := if u.farSide (.link l) ch ≠ 2 then u.moverBurst (.link l) ch else u

theorem exec_trainWindowOpen (s : State) {l : Nat} (hl : l < 96) :
    exec (.trainWindowOpen l) s = .next ((List.range 8).foldl (State.windowTurn l) (s.updLink l (fun x => x.drain s.now))) :=
  onUnit_next (decide_eq_true hl) _

theorem windowTurn_stands {s : State} {l ch : Nat} (h : (s.channel (.link l) ch).phase ≠ .active ∨ s.farSide (.link l) ch = 2) :
    s.windowTurn l ch = s := by
  unfold State.windowTurn
  split
  next hf => exact State.moverBurst_stands (.inl (h.resolve_right hf))
  next => rfl

theorem foldl_windowTurn_stands {s : State} {l : Nat} (xs : List Nat)
    (h : ∀ ch ∈ xs, (s.channel (.link l) ch).phase ≠ .active ∨ s.farSide (.link l) ch = 2) : xs.foldl (State.windowTurn l) s = s := by
  induction xs with
  | nil => rfl
  | cons ch xs ih =>
    rw [List.foldl_cons, windowTurn_stands (h ch List.mem_cons_self)]
    exact ih fun n hn => h n (List.mem_cons_of_mem ch hn)

/-- With no other channel active, a window brings one channel its burst. -/
theorem foldl_windowTurn_one {s : State} {l ch : Nat} (hf : s.farSide (.link l) ch ≠ 2) {xs : List Nat} (hx : xs.Nodup) (hm : ch ∈ xs)
    (h : ∀ k ∈ xs, k ≠ ch → (s.channel (.link l) k).phase ≠ .active) : xs.foldl (State.windowTurn l) s = s.moverBurst (.link l) ch := by
  obtain ⟨a, b, rfl⟩ := List.append_of_mem hm
  have hne : ∀ k, k ∈ a ∨ k ∈ b → k ≠ ch := fun k hk hc => by
    subst hc
    have := List.nodup_append.mp hx
    simp only [List.nodup_cons] at this
    exact hk.elim (fun ha => this.2.2 k ha k List.mem_cons_self rfl) this.2.1.1
  rw [List.foldl_append, foldl_windowTurn_stands a fun k hk => .inl (h k (List.mem_append_left _ hk) (hne k (.inl hk))), List.foldl_cons,
    State.windowTurn, if_pos hf]
  refine foldl_windowTurn_stands b fun k hk => .inl ?_
  exact (Rests.moverBurst (hne k (.inr hk)) s).stays (h k (List.mem_append_right a (List.mem_cons_of_mem ch hk)) (hne k (.inr hk)))

/-- What waits for a window and goes leaves the channels and their far sides. -/
theorem drained_channels (s : State) (l ch : Nat) : let d := s.updLink l (fun y => y.drain s.now)
    d.channel (.link l) ch = s.channel (.link l) ch ∧ d.farSide (.link l) ch = s.farSide (.link l) ch := by
  intro d
  have hch : d.channel (.link l) ch = s.channel (.link l) ch := by
    have hlink : (d.link l).unsent = (s.link l).unsent :=
      (congrArg Link.unsent (State.link_updLink_same ..)).trans (Link.drain_unsent ..)
    exact (congrArg (fun x => Tab.get ({} : Channel) (Link.movers x) ch) hlink :)
  refine ⟨hch, ?_⟩
  unfold State.farSide
  rw [hch]
  rfl

/-- Settles O44: each command's effect on its link and group; a window's turns by the channels that rest. -/
theorem linkLanes : Obligations.LinkLanes := by
  unfold Obligations.LinkLanes
  intro s l lane x c g only
  have honly : ∀ {u}, LinkAlone s u l → only u := fun ⟨⟨h1, h2, h3, h4⟩, h5⟩ => ⟨h1, h2, h3, h4, h5⟩
  refine ⟨fun hl hlane h => ?below, fun hl hlane hu hc hthr hno k hk => ?asks, fun hl hu w hw hseq => ?adapted,
    fun hl hlane hu hc hw => ?lost, fun t r h hi hl hsub hv hhold => ?request, fun hl m hm => ?timeout,
    fun hl hm => exec_plannedRetrainTimeout_none hl hm, fun hl => ?window⟩
  case below =>
    cases hsp : lowSpare (s.group (l / 8)).sparesRx with
    | none => exact exec_laneSwapThreshold_none hl hlane hsp
    | some sp =>
      have hlow : x.laneErrors s.now c < x.swapThreshold := h.resolve_right (by rw [hsp]; exact nofun)
      refine (exec_laneSwapThreshold hl hlane hsp).trans (congrArg Host.Outcome.next (if_neg ?_))
      rw [decide_eq_false (Nat.not_le.mpr hlow)]
      simp
  case asks =>
    have hexec := exec_laneSwapThreshold hl hlane hk
    rw [if_pos (by rw [hno, hu, decide_eq_true hc, decide_eq_true hthr]; rfl)] at hexec
    have hlink := (s.updGroup (l / 8) (fun g => { g with sparesRx := g.sparesRx.erase k })).sendTxn_updLink_unsent l
      (fun x => { x with swapRx := some { lane := c, spare := k, atSeq := none } }) (laneTxn 0x05 c k 0)
    refine ⟨_, hexec, honly ((LinkAlone.updGroup ..).trans ((LinkAlone.updLink ..).trans (LinkAlone.sendTxn ..))), (congrArg Link.swapRx hlink :),
      (congrArg Link.rxLanes hlink :), ?_⟩
    exact congrArg LinkGroup.sparesRx (s.group_updGroup_same (l / 8) fun g => { g with sparesRx := g.sparesRx.erase k })
  case adapted =>
    have hlink := s.sendTxn_updLink_unsent l (fun y => { y with swapRx := some { w with atSeq := some ((x.rxSeq + 64) % 4096) } })
      (laneTxn 0x06 w.lane w.spare ((x.rxSeq + 64) % 4096))
    exact ⟨_, exec_laneSpareAdapted hl hu hw hseq, honly ((LinkAlone.updLink ..).trans (LinkAlone.sendTxn ..)), (congrArg Link.swapRx hlink :)⟩
  case lost =>
    obtain ⟨hspare, hnone⟩ := exec_laneLossOfLock hl hlane hu hc hw
    have hfails : LinkAlone s (s.laneFails l true c) l := LinkAlone.updGroup ..
    cases hk : lowSpare g.sparesRx with
    | none =>
      refine ⟨_, hnone hk, fun k hk => (nomatch hk), fun _ => ⟨honly (hfails.trans ((LinkAlone.updLink ..).trans (LinkAlone.timeLost ..))), ?_⟩⟩
      exact congrArg Link.state ((State.timeLost_link ..).trans (State.link_updLink_same ..))
    | some k =>
      refine ⟨_, hspare k hk, fun n hn => ?_, fun h => (nomatch h)⟩
      obtain rfl := Option.some.inj hn
      obtain ⟨halone, hrx, hspares, hstate, hev⟩ := loseLane_effect (s.laneFails l true c) l c k
      refine ⟨honly (hfails.trans halone), hrx, hspares.trans ?_, hstate, hev⟩
      rw [State.laneFails_group]
      rfl
  case request =>
    obtain ⟨hlink, hsq⟩ := asksRetrain_effect t l
    obtain ⟨hhold2, hsquares, hbegin⟩ := beginRetrain_effect (t.asksRetrain l) l
    have hheld : ((t.asksRetrain l).link l).retrainHold = true := congrArg Link.retrainHold hlink
    refine ⟨_, exec_retrainRequest h hi hl hsub hv hhold, hhold2.trans hheld, hsquares.trans hsq, fun hparts hown hmap => ?_⟩
    obtain ⟨-, hmod⟩ := asksRetrain_alone hparts hown
    obtain ⟨hstate, hm⟩ := hbegin hheld ((congrArg Link.retrainMap hlink).trans hmap) hmod
    have hkept : (((t.asksRetrain l).link l).state, ((t.asksRetrain l).link l).txLanes, ((t.asksRetrain l).link l).rxLanes) =
        ((t.link l).state, (t.link l).txLanes, (t.link l).rxLanes) := (congrArg (fun y : Link => (y.state, y.txLanes, y.rxLanes)) hlink :)
    exact ⟨hstate, hm.trans (congrArg some hkept)⟩
  case timeout =>
    obtain ⟨hnow, hsquares, hdram⟩ := givesUpRetrain_rest s l m
    obtain ⟨u, hexec, hlink, know, ksquares, kdram⟩ := plannedRetrainTimeout_keeps hl hm
    have hu := hlink.trans (givesUpRetrain_link s l m)
    exact ⟨u, hexec, (congrArg Link.retrainHold hu :), (congrArg Link.retrainMap hu :), (congrArg Link.txLanes hu :),
      (congrArg Link.rxLanes hu :), know.trans hnow, ksquares.trans hsquares, kdram.trans hdram⟩
  case window =>
    intro d
    have hdrained := fun ch => drained_channels s l ch
    have hrange : ∀ ch, ch ∈ List.range 8 ↔ ch < 8 := fun ch => List.mem_range
    refine ⟨fun h => ?_, fun ch hch hothers => ⟨fun hf => ?_, fun hf hrest => ?_⟩⟩
    · refine (exec_trainWindowOpen s hl).trans (congrArg Host.Outcome.next (foldl_windowTurn_stands _ fun ch hc => .inl ?_))
      rw [(hdrained ch).1]
      exact h ch ((hrange ch).mp hc)
    · refine (exec_trainWindowOpen s hl).trans (congrArg Host.Outcome.next (foldl_windowTurn_stands _ fun k hk => ?_))
      rw [(hdrained k).1, (hdrained k).2]
      by_cases hkc : k = ch
      · exact .inr (hkc ▸ hf)
      · exact hothers k ((hrange k).mp hk) hkc
    · refine (exec_trainWindowOpen s hl).trans (congrArg Host.Outcome.next
        (foldl_windowTurn_one (by rw [(hdrained ch).2]; exact hf) List.nodup_range ((hrange ch).mpr hch) fun k hk hkc => ?_))
      rw [(hdrained k).1]
      exact hrest k ((hrange k).mp hk) hkc

end Sys2Proof.Machine
end
